-- ==== Sys2Proof/Word.lean ====
section
/-! DEFINITION. The plain data types every other file is written over: bytes, words and sorted association
lists. -/

namespace Sys2Proof

/-- One byte of a frame, a key or a memory. -/
abbrev Byte := BitVec 8

/-- A byte string, byte 0 first. -/
abbrev Bytes := List Byte

/-- A micro-engine register, a memory word, a payload word (R5, R114). -/
abbrev Word := BitVec 64

/-- A numbered store: pairs of a number and what it holds, numbers strictly rising. -/
abbrev Map (α : Type) := List (Nat × α)

end Sys2Proof
end

