-- ==== Sys2Proof/Types.lean ====
section
/-! DEFINITION. The types commands carry as operands: parts, modes, dictionary accesses, saddle sides, tables. -/

namespace Sys2Proof

/-- The three parts of Table 0.1. -/
inductive Part
  | d9020 | d9040 | d9080
  deriving DecidableEq, Repr, Inhabited

/-- The operating modes of Table 17.1. -/
inductive Mode
  | standby | bringup | forwarding | lean | degraded | drain | quiesce
  | isolated | faultHold | locked | diagnostic | factory
  deriving DecidableEq, Repr, Inhabited

/-- The saddle ports of a die, numbered as Table 1.7 numbers them. -/
inductive Side
  | n | e | s | w
  deriving DecidableEq, Repr, Inhabited

/-- The die selector of an access (Table 16.8): none, one die, or every die. -/
inductive Sel
  | none | die (d : Fin 8) | all
  | bad (code : Nat)
  deriving DecidableEq, Repr, Inhabited

/-- What an access asks for (Table 16.8). -/
inductive AccOp
  | read | write | describe
  deriving DecidableEq, Repr, Inhabited

/-- One dictionary access. `len` is the number of request data bytes, `val` those bytes read least significant
byte first (R470). -/
structure Access where
  op  : AccOp := .read
  sel : Sel := .none
  idx : Nat := 0
  sub : Nat := 0
  len : Nat := 0
  val : Nat := 0
  deriving DecidableEq, Repr, Inhabited

/-- When one pair of bucket reads of a search and the check after it were granted (R225, R230): how many bucket writes of the
die were still to come before the command, for the first-choice read, the second-choice read and the check. -/
structure ReadAt where
  a : Nat := 0
  b : Nat := 0
  c : Nat := 0
  deriving DecidableEq, Repr, Inhabited

/-- What a receiver makes of the codewords under a flit or a frame (R394, R405): how many of those that end under it were corrected
and how many could not be, and whether it overlaps one that could not be. -/
structure Cw where
  corrected : Nat := 0
  lost      : Nat := 0
  bad       : Bool := false
  deriving DecidableEq, Repr, Inhabited

/-- A flit overlaps a codeword that could not be corrected. -/
def Cw.broken (c : Cw) : Bool := c.bad || decide (0 < c.lost)

/-- Where a pre-empted packet waits (R133): in a park context, or in its thread slot. -/
inductive WaitPlace
  | park (x : Fin 4096)
  | slot (c : Fin 16) (t : Fin 64)
  deriving DecidableEq, Repr, Inhabited

/-- A die of the package grid (R7). -/
abbrev DieId := Fin 8
/-- An engine cluster of a die. -/
abbrev ClusterId := Fin 16
/-- A hardware thread of a cluster: engine × 4 + thread of Table 0.3. -/
abbrev ThreadId := Fin 64
/-- A port slot of a die. -/
abbrev Slot := Fin 64
/-- A fabric link of a die. -/
abbrev LinkId := Fin 32
/-- A requester of the dictionary endpoint (R479). -/
abbrev Requester := Fin 32

end Sys2Proof
end

