-- ==== Sys2Proof/Syntax.lean ====
section
/-! DEFINITION. The commands: one constructor for each row of the opcode table, with the row's operands. Operands that the
environment supplies (readings, contents of host memory, results of tests, choices the hardware makes by unmodelled
timing) stand for what the outside of the block brings (log entry 11). -/

namespace Sys2Proof

/-- A command of the block. -/
inductive Instr
  /-- DICT_WRITE [R477]: A dictionary write to an entry with no row of its own passes the checks of R477 and applies its value. -/
  | dictWrite (r : Requester) (sel : Sel) (i : Fin 65536) (sub : Fin 256) (len : Fin 1033) (v : BitVec 8256)
  /-- RC_READ [R472]: A read-clear access returns the counter value and clears it in the same cycle without losing an event. -/
  | rcRead (r : Requester) (sel : Sel) (i : Fin 65536) (sub : Fin 256)
  /-- DESCRIBE [R483]: A describe access returns the 48-byte description of any entry. -/
  | describe (r : Requester) (i : Fin 65536) (sub : Fin 256)
  /-- MAILBOX_GO [R484]: Software writes go to a PCIe mailbox control register, and the endpoint carries out the access and sets control to done. -/
  | mailboxGo (l : List (Fin 2 × Fin 8 × Bool × Access))
  /-- DIE_ACCESS_MESSAGE [R480]: A dictionary access for another die arrives there as a control-class saddle message and is executed. -/
  | dieAccessMessage (d : DieId)
  /-- BROADCAST_APPLY [R57]: A die receives an all: broadcast write and applies it in issue order. -/
  | broadcastApply (d : DieId)
  /-- BROADCAST_COMPLETE [R56]: An all: access completes once every target die has reported, with status and refused_dies combined. -/
  | broadcastComplete (r : Requester)
  /-- SETTINGS_SAVE [R474]: The Summit saves applied RWS values to the active settings slot through the flash agent. -/
  | settingsSave
  /-- SADDLE_FLIT_RECEIVE [R34]: A saddle receiver takes a flit, checks its parity, and on error discards the flit and what follows and sends nak. -/
  | saddleFlitReceive (d : DieId) (k : Side) (ok : Bool)
  /-- SADDLE_NAK_RECEIVE [R34]: A saddle transmitter receives nak and replays from the flit after ack_seq. -/
  | saddleNakReceive (d : DieId) (k : Side)
  /-- SADDLE_ACK_RECEIVE [R33]: An ack_seq returns, and the transmitter frees the acknowledged flits from its retry buffer. -/
  | saddleAckReceive (d : DieId) (k : Side)
  /-- SADDLE_TRANSFER_COMPLETE [R35]: The last flit of a saddle packet transfer arrives, and the receiver releases the held transfer. -/
  | saddleTransferComplete (d : DieId) (k : Side)
  /-- ROUTE_TABLE_RECEIVE [R28]: A die receives a new route table and uses it from its next flit. -/
  | routeTableReceive (d : DieId)
  /-- SADDLE_UTIL_WINDOW_END [R38]: A 1 µs utilisation window of a saddle direction closes, and the transmitter decides on step-down or return. -/
  | saddleUtilWindowEnd (d : DieId) (k : Side) (util : Fin 10001)
  /-- LANE_REQ [R40]: The saddle receiver gets LANE_REQ, prepares the new lane set and answers LANE_ACK. -/
  | laneReq (d : DieId) (k : Side)
  /-- LANE_ACK [R40]: The transmitter gets LANE_ACK and switches lane sets at the next flit boundary, marking the first flit. -/
  | laneAck (d : DieId) (k : Side)
  /-- SADDLE_LANE_WAKE_DONE [R40]: The 16 idle saddle lanes finish waking and the direction returns to 32 lanes. -/
  | saddleLaneWakeDone (d : DieId) (k : Side)
  /-- HEARTBEAT_TICK [R44]: Every 8 µs the Summit drives a 1 µs low heartbeat pulse on the beacon. -/
  | heartbeatTick
  /-- HEARTBEAT_TIMEOUT [R45]: A candidate sees no heartbeat for 64 µs and starts an election with a start pulse. -/
  | heartbeatTimeout (d : DieId)
  /-- START_PULSE_SEEN [R46]: A candidate sees a start pulse on the beacon and joins the election. -/
  | startPulseSeen (d : DieId)
  /-- ELECTION_BIT_SAMPLE [R46]: At mid-slot a candidate samples the beacon for one index bit and withdraws if it released and reads low. -/
  | electionBitSample (d : DieId)
  /-- ELECTION_NO_SUMMIT [R48]: No heartbeat appears within 32 µs after the bit-0 slot, so the package asserts FATAL_L. -/
  | electionNoSummit
  /-- BEACON_STUCK_LOW [R49]: The beacon stays low for 16 µs, and the detecting die reports kind 0x0C1 and sends beacon-faulty notices. -/
  | beaconStuckLow (d : DieId)
  /-- BEACON_STUCK_HIGH [R50]: A die that drives the beacon low reads it high for 16 µs, and reports the beacon faulty. -/
  | beaconStuckHigh (d : DieId)
  /-- BEACON_FAULTY_NOTICE [R51]: A die receives a beacon-faulty notice, stops its heartbeat timer and switches to tokens and the majority rule. -/
  | beaconFaultyNotice (d : DieId)
  /-- SUMMIT_TOKEN_TICK [R52]: Every 4 µs the Summit sends a Summit token on each up saddle. -/
  | summitTokenTick
  /-- SUMMIT_TOKEN_RECEIVE [R52]: A die receives a Summit token and forwards it once per sequence number on its other up saddles. -/
  | summitTokenReceive (d : DieId)
  /-- TOKEN_TIMEOUT [R52]: A die that has received no token for 32 µs is cut off and enters Isolated or applies the majority rule. -/
  | tokenTimeout (d : DieId)
  /-- DIE_REJOIN [R54]: The die_rejoin command makes the Summit collect the dump of the named dies, reset them and let them rejoin. -/
  | dieRejoin (r : Requester) (v : BitVec 32)
  /-- FLASH_AGENT_APPEAR [R42]: A flash agent becomes available, and the Summit writes the pending settings and key writes. -/
  | flashAgentAppear
  /-- FRAME_START [R320]: The first cell of a frame reaches the port ingress point, which checks occupancy and reserves cells and a descriptor. -/
  | frameStart (d : DieId) (frames : List (Slot × Bytes))
  /-- PARSE_START [R154]: The parse engine holds the header window and runs the parse program, writing the parse outcome into the descriptor. -/
  | parseStart (d : DieId) (slot : Slot)
  /-- FRAME_TAIL_RECEIVE [R168]: The tail of a frame arrives: deferred length checks, FCS and oversize are judged, and a bad dispatched packet is ended at P1. -/
  | frameTailReceive (d : DieId) (slot : Slot) (rest : Bytes) (cw : Cw)
  /-- PACKET_DISPATCH [R89]: The dispatcher hashes the flow key, assigns flow_bucket, seq and epoch, and steers the packet to a die and cluster. -/
  | packetDispatch (d : DieId) (q : Fin 10)
  /-- DISPATCH_RECORD_RECEIVE [R86]: An executing die receives a dispatch record over the saddles and queues the packet to a cluster. -/
  | dispatchRecordReceive (d : DieId)
  /-- RETURN_RECORD_RECEIVE [R86]: The arrival die receives the committed descriptor and rewritten header window back from the executing die. -/
  | returnRecordReceive (d : DieId)
  /-- DISPATCH_QUEUE_REQUEST [R92]: A requester asks a cluster's dispatch queue to accept a packet, and holds and retries if it loses or the queue is full. -/
  | dispatchQueueRequest (d : DieId) (c : ClusterId) (reqs : List (Fin 10))
  /-- THREAD_START [R93]: A cluster starts the oldest queued packet on a free thread at its entry address. -/
  | threadStart (d : DieId) (c : ClusterId)
  /-- STEAL_LOOK [R97]: Every 16 engine cycles an idle cluster looks for the deepest victim and steals up to a batch of unstarted packets. -/
  | stealLook (d : DieId)
  /-- STEAL_ARRIVE [R98]: Stolen packets reach the thief 4 ns after the look, in order. -/
  | stealArrive (d : DieId) (c : ClusterId)
  /-- PARK_REQUEST [R127]: A thread waiting on a deferred slot asks to park, and the park pool grants or refuses a context. -/
  | parkRequest (d : DieId) (reqs : List (ClusterId × ThreadId))
  /-- PARK_COMPLETE [R127]: The thread state has been saved into its park context and the thread is freed. -/
  | parkComplete (d : DieId) (c : ClusterId) (t : ThreadId)
  /-- CONTEXT_RESUME [R128]: A ready parked context resumes at its saved word on a free thread of its cluster. -/
  | contextResume (d : DieId) (x : Fin 4096)
  /-- PREEMPT [R133]: A context-map fault reaches a thread before commit: the run is discarded and the packet becomes a pre-empted context. -/
  | preempt (d : DieId)
  /-- CONTEXT_RESTART [R136]: A pre-empted context whose fault is resolved restarts at its entry address with g0 incremented. -/
  | contextRestart (d : DieId) (w : WaitPlace)
  /-- NOP [R115]: The ALU does nothing and the flags are unchanged. -/
  | nop (d : DieId) (c : ClusterId) (t : ThreadId)
  /-- MOV [R115]: The ALU writes operand a to dst and sets Z and N. -/
  | mov (d : DieId) (c : ClusterId) (t : ThreadId)
  /-- ADD [R115]: The ALU writes a + b and sets Z, N, C and V. -/
  | add (d : DieId) (c : ClusterId) (t : ThreadId)
  /-- SUB [R115]: The ALU writes a − b and sets Z, N, borrow and V. -/
  | sub (d : DieId) (c : ClusterId) (t : ThreadId)
  /-- AND [R115]: The ALU writes a and b. -/
  | and (d : DieId) (c : ClusterId) (t : ThreadId)
  /-- OR [R115]: The ALU writes a or b. -/
  | or (d : DieId) (c : ClusterId) (t : ThreadId)
  /-- XOR [R115]: The ALU writes a xor b. -/
  | xor (d : DieId) (c : ClusterId) (t : ThreadId)
  /-- ANDN [R115]: The ALU writes a and not b. -/
  | andn (d : DieId) (c : ClusterId) (t : ThreadId)
  /-- SHL [R115]: The ALU shifts a left by b[5:0]. -/
  | shl (d : DieId) (c : ClusterId) (t : ThreadId)
  /-- SHR [R115]: The ALU shifts a right logically by b[5:0]. -/
  | shr (d : DieId) (c : ClusterId) (t : ThreadId)
  /-- EXT [R115]: The ALU extracts a bit field of a selected by b. -/
  | ext (d : DieId) (c : ClusterId) (t : ThreadId)
  /-- INS [R115]: The ALU inserts low bits of a into dst at the position b selects. -/
  | ins (d : DieId) (c : ClusterId) (t : ThreadId)
  /-- CMP [R115]: The ALU computes a − b for the flags only. -/
  | cmp (d : DieId) (c : ClusterId) (t : ThreadId)
  /-- MINU [R115]: The ALU writes the unsigned minimum of a and b. -/
  | minu (d : DieId) (c : ClusterId) (t : ThreadId)
  /-- MAXU [R115]: The ALU writes the unsigned maximum of a and b. -/
  | maxu (d : DieId) (c : ClusterId) (t : ThreadId)
  /-- POPC [R115]: The ALU writes the number of set bits in a. -/
  | popc (d : DieId) (c : ClusterId) (t : ThreadId)
  /-- CLZ [R115]: The ALU writes the number of leading zero bits in a. -/
  | clz (d : DieId) (c : ClusterId) (t : ThreadId)
  /-- NEXT [R116]: The sequencer goes to the next word address. -/
  | next (d : DieId) (c : ClusterId) (t : ThreadId)
  /-- JUMP [R116]: The sequencer branches to target if the condition holds. -/
  | jump (d : DieId) (c : ClusterId) (t : ThreadId)
  /-- MWAY [R116]: The sequencer branches to target[13:4] combined with the low 4 bits of this word's ALU result. -/
  | mway (d : DieId) (c : ClusterId) (t : ThreadId)
  /-- CALL [R116]: If the condition holds, the sequencer pushes the return address and goes to target. -/
  | call (d : DieId) (c : ClusterId) (t : ThreadId)
  /-- RET [R116]: If the condition holds, the sequencer pops the return address. -/
  | ret (d : DieId) (c : ClusterId) (t : ThreadId)
  /-- END [R131]: END ends the run, acting as commit if none executed, and applies the second journal group. -/
  | endWord (d : DieId) (c : ClusterId) (t : ThreadId)
  /-- LDH [R120]: A load reads header-window bytes into a register, returning 0 and setting T past the limits. -/
  | ldh (d : DieId) (c : ClusterId) (t : ThreadId)
  /-- LDHX [R120]: A load reads header bytes at an offset indexed by g15. -/
  | ldhx (d : DieId) (c : ClusterId) (t : ThreadId)
  /-- JHDR [R121]: A header write is journaled at a fixed offset, and bytes past the limits are discarded with T set. -/
  | jhdr (d : DieId) (c : ClusterId) (t : ThreadId)
  /-- JHDRX [R121]: A header write is journaled at an offset indexed by g15. -/
  | jhdrx (d : DieId) (c : ClusterId) (t : ThreadId)
  /-- JDESC [R122]: A write of a selectable descriptor field is journaled. -/
  | jdesc (d : DieId) (c : ClusterId) (t : ThreadId)
  /-- JCNT [R129]: A statistics counter increment of one packet and length bytes is journaled. -/
  | jcnt (d : DieId) (c : ClusterId) (t : ThreadId)
  /-- JMETER [R350]: A meter charge is journaled. -/
  | jmeter (d : DieId) (c : ClusterId) (t : ThreadId)
  /-- JCTX [R296]: A flow-context word update is journaled. -/
  | jctx (d : DieId) (c : ClusterId) (t : ThreadId)
  /-- JEVT [R233]: An event with a two-register payload is journaled. -/
  | jevt (d : DieId) (c : ClusterId) (t : ThreadId)
  /-- COMMIT [R130]: The commit word waits for context reads, then applies the journal atomically or ends a packet without destination. -/
  | commit (d : DieId) (c : ClusterId) (t : ThreadId)
  /-- CNTRD [R562]: A microword reads a performance counter of its cluster through the read port, or 0 when not permitted. -/
  | cntrd (d : DieId) (c : ClusterId) (t : ThreadId)
  /-- SEARCH_ISSUE [R124]: A microword sends a search request into a result slot, which becomes pending. -/
  | searchIssue (d : DieId) (c : ClusterId) (t : ThreadId)
  /-- SEARCH_RESPONSE [R125]: A search response fills its slot, or is discarded for a stale run_gen. -/
  | searchResponse (d : DieId)
  /-- JOURNAL_ENTRY_DRAIN [R129]: One applied journal entry drains per engine cycle after commit and frees its entry. -/
  | journalEntryDrain (d : DieId) (c : ClusterId) (t : ThreadId)
  /-- CS_FETCH_PARITY_FAIL [R139]: A control-store fetch fails parity and is re-read at most twice before a machine check. -/
  | csFetchParityFail (d : DieId) (c : ClusterId) (t : ThreadId) (fails : Fin 3)
  /-- CS_RELOAD_DONE [R140]: A reloaded control-store word is read back, and failure fences the cluster. -/
  | csReloadDone (d : DieId) (c : ClusterId) (a : Fin 16384) (ok : Bool)
  /-- ROLLING_LOAD_CLUSTER_EMPTY [R143]: A cluster in a rolling load has finished its routines and parks, so its store is written. -/
  | rollingLoadClusterEmpty (d : DieId) (c : ClusterId)
  /-- CLUSTER_STORE_WRITTEN [R143]: The control store and entry vector of a cluster are written and read back, and the cluster returns to service. -/
  | clusterStoreWritten (d : DieId) (c : ClusterId) (bad : Option (Fin 16384))
  /-- RESEQ_ARRIVE [R101]: A packet reaches a resequencer window and is released, held or counted late. -/
  | reseqArrive (d : DieId) (eg : Bool)
  /-- HOLE_TIMEOUT [R102]: A window's hole timer expires, and expected moves to the lowest held seq with the skips counted. -/
  | holeTimeout (d : DieId) (eg : Bool) (k : Nat)
  /-- HOLE_MARKER_RECEIVE [R103]: A hole marker for a dropped packet releases its sequence number. -/
  | holeMarkerReceive (d : DieId)
  /-- RESEQ_RELEASE [R105]: In a buffer-island cycle an output grants one ready window, which releases a packet. -/
  | reseqRelease (d : DieId) (eg : Bool) (out : Nat)
  /-- REWRITE [R268]: The rewrite unit applies header writes, strips, pushes rewrite chains and pads the frame. -/
  | rewrite (d : DieId)
  /-- RECIRC_INPUT [R270]: A recirculated frame reaches the shared parse engine, pass is incremented and it is parsed and dispatched again. -/
  | recircInput (d : DieId)
  /-- FIB_LOOKUP [R191]: An IPv4 or IPv6 FIB request probes the root, stem and hot tables and queues deep reads. -/
  | fibLookup (d : DieId) (u : Fin 4) (grants : List (Fin 129 × List ReadAt))
  /-- FIB_RESOLVE [R207]: Profile 0x12 resolves a given result word to a next hop without probes. -/
  | fibResolve (d : DieId) (u : Fin 4)
  /-- DEEP_READ_COMPLETE [R192]: A deep-tier bucket read returns, and the lookup matches, reads the next choice or length, or answers. -/
  | deepReadComplete (d : DieId) (poison : Fin 4)
  /-- DEEP_STAGING_ADMIT [R197]: A staged deep request obtains a freed deep-request queue entry. -/
  | deepStagingAdmit (d : DieId)
  /-- FIB_INSERT [R212]: A FIB insert command writes the deep copy, the hot copy and the stem map entry in order. -/
  | fibInsert (r : Requester) (sel : Sel) (rec : BitVec 512)
  /-- FIB_DELETE [R212]: A FIB delete command clears the stem map entry, the hot copy and the deep copy in reverse order. -/
  | fibDelete (r : Requester) (sel : Sel) (rec : BitVec 512)
  /-- FIB_HOME_OUTCOME [R210]: A die receives the home die's deep-part outcome and writes or refuses its hot copy and stem map. -/
  | fibHomeOutcome (d : DieId)
  /-- STEM_REBUILD [R202]: A stem map entry lost to a fenced bank is rebuilt from the deep tier into its other bucket. -/
  | stemRebuild (d : DieId)
  /-- HOME_DIE_MAP_WRITE [R214]: A write to the home die map moves deep FIB entries and context pages before it completes. -/
  | homeDieMapWrite (r : Requester) (sub : Fin 256) (v : BitVec 8)
  /-- EXACT_SEARCH [R223]: An exact search of profiles 0x20 to 0x24 reads both buckets, refreshes on hit and resolves if required. -/
  | exactSearch (d : DieId) (u : Fin 4) (grants : List ReadAt)
  /-- TABLE_INSERT [R245]: The insert command places or replaces an entry of a hashed, next-hop, ECMP or other table. -/
  | tableInsert (r : Requester) (sel : Sel) (t : BitVec 8) (static : Bool) (rec : BitVec 512)
  /-- TABLE_DELETE [R245]: The delete command removes a key or restores an index to its reset values. -/
  | tableDelete (r : Requester) (sel : Sel) (t : BitVec 8) (rec : BitVec 512)
  /-- TABLE_SEARCH [R245]: The search command returns a table entry or NOT_FOUND without refreshing. -/
  | tableSearch (r : Requester) (sel : Sel) (t : BitVec 8) (rec : BitVec 512)
  /-- TABLE_NEXT [R246]: The next command returns the next entry of a walk and a new cursor, or END. -/
  | tableNext (r : Requester) (sel : Sel) (t : BitVec 8) (cursor : BitVec 64)
  /-- FLUSH_BY_PORT [R247]: The flush_by_port command starts deleting entries whose next hop egresses on a port. -/
  | flushByPort (r : Requester) (sel : Sel) (t : BitVec 8) (port : BitVec 9) (statics : Bool) (filter : Option (BitVec 14))
  /-- FLUSH_STEP [R247]: The flush walks one step of 64 buckets between other table-engine work. -/
  | flushStep (d : DieId)
  /-- LEARN_EVENT_PROCESS [R235]: The learn engine acts on a queued event locally or posts a learn record. -/
  | learnEventProcess (d : DieId)
  /-- AGEING_SWEEP_VISIT [R237]: The sweeper visits the next bucket and ages or deletes its learned entries. -/
  | ageingSweepVisit (d : DieId) (t : Fin 3)
  /-- SHADOW_MODE_WRITE [R251]: Enabling a shadow copies the table's buckets to the shadow region first. -/
  | shadowModeWrite (r : Requester) (sub : Fin 256) (v : BitVec 8)
  /-- SHADOW_COPY_DONE [R251]: The initial shadow copy completes, and comparison begins. -/
  | shadowCopyDone (sub : Fin 256)
  /-- SCRUB_BUCKET [R252]: The scrubber compares a bucket's CRC with its shadow image. -/
  | scrubBucket (d : DieId) (poison : Bool)
  /-- SCRUB_RECHECK [R252]: 10 µs after a mismatch the scrubber reads both again, then reports or repairs. -/
  | scrubRecheck (d : DieId) (poison : Bool)
  /-- TERNARY_SEARCH [R258]: A ternary search returns the highest-priority entry matching the key in the packet's epoch. -/
  | ternarySearch (d : DieId) (u : Fin 4)
  /-- RULE_INSERT [R273]: A rule insert sets or writes the Next-epoch bit of a ternary entry. -/
  | ruleInsert (r : Requester) (sel : Sel) (t : Fin 14) (rec : BitVec 512)
  /-- RULE_DELETE [R273]: A rule delete clears the Next bit of the matching entry. -/
  | ruleDelete (r : Requester) (sel : Sel) (t : Fin 14) (rec : BitVec 512)
  /-- RULE_SEARCH [R273]: A rule search returns the entry with that identity holding the Current or Next bit. -/
  | ruleSearch (r : Requester) (sel : Sel) (t : Fin 14) (rec : BitVec 512)
  /-- RULE_NEXT [R273]: A rule next returns live ternary entries in index order. -/
  | ruleNext (r : Requester) (sel : Sel) (t : Fin 14) (cursor : BitVec 64)
  /-- EPOCH_INHERIT [R274]: Inherit sets the Next bit of every entry holding the Current bit. -/
  | epochInherit (r : Requester)
  /-- EPOCH_DISCARD_NEXT [R274]: Discard clears the Next bit of every entry. -/
  | epochDiscardNext (r : Requester)
  /-- EPOCH_SWAP [R275]: A swap makes Next Current and Current Retiring, and sends the switch to every die. -/
  | epochSwap (r : Requester)
  /-- EPOCH_SWITCH_APPLY [R276]: A die applies the epoch switch at the end of its engine cycle and acknowledges it. -/
  | epochSwitchApply (d : DieId)
  /-- EPOCH_SWITCH_ACK [R278]: The Summit holds every die's acknowledgement and starts the retire timer. -/
  | epochSwitchAck
  /-- FORCE_RETIRE [R278]: force_retire moves a Retiring epoch to Expiring at once, in Drain or Quiesce. -/
  | forceRetire (r : Requester)
  /-- RETIRE_TIMEOUT [R278]: The retire timer reaches its limit with holders remaining, and the epoch becomes Expiring. -/
  | retireTimeout
  /-- HOLDERS_ZERO [R278]: The holder count of the Retiring or Expiring epoch reaches 0 on every die, and it becomes Clearing. -/
  | holdersZero
  /-- EPOCH_CLEAR_DONE [R280]: The epoch's bit is cleared in every ternary entry, entries free, and the number becomes Free. -/
  | epochClearDone
  /-- CONTEXT_READ [R292]: A profile 0x40 read returns three words of a flow context and pins its cache line. -/
  | contextRead (d : DieId) (u : Fin 8)
  /-- CONTEXT_READ_UPDATE [R298]: A profile 0x41 read takes the context's lock, or queues for it. -/
  | contextReadUpdate (d : DieId) (u : Fin 8)
  /-- LOCK_GRANT [R299]: A released lock passes to the next queued 0x41 read, which is answered. -/
  | lockGrant (c : Fin 16777216)
  /-- CONTEXT_FILL_COMPLETE [R294]: A context cache miss completes its two CXL reads and fills the line. -/
  | contextFillComplete (d : DieId) (poison : Fin 4)
  /-- FILL_PIN_WAIT [R295]: A fill waiting on a set with 12 pinned ways proceeds when a pin is released. -/
  | fillPinWait (d : DieId) (i : Fin 16384)
  /-- PAGE_EVENT_RECEIVE [R302]: A die receives a page event and makes ready every context waiting on that page. -/
  | pageEventReceive (d : DieId)
  /-- PAGE_WAIT_EXPIRE [R303]: A context waiting on a page fault beyond page_wait_us ends at P3 with 0x09. -/
  | pageWaitExpire (d : DieId) (w : WaitPlace)
  /-- PAGE_MAP [R307]: The map page command maps a not-present page, zero-filling if asked. -/
  | pageMap (r : Requester) (sel : Sel) (region : Fin 8) (page : BitVec 32) (hpa : BitVec 31) (fill : Bool)
  /-- PAGE_UNMAP [R307]: The unmap page command sets a present page migrating and starts unmapping it. -/
  | pageUnmap (r : Requester) (sel : Sel) (region : Fin 8) (page : BitVec 32)
  /-- UNMAP_COMPLETE [R307]: No line of the unmapped page is pinned any more, so it is written back, dropped and set not present. -/
  | unmapComplete (d : DieId)
  /-- PAGE_MIGRATE [R308]: The migrate page command sets a page migrating and copies it to a new HPA. -/
  | pageMigrate (r : Requester) (sel : Sel) (region : Fin 8) (page : BitVec 32) (hpa : BitVec 31)
  /-- MIGRATE_COPY_DONE [R308]: The page copy completes, the entry is set present at the new HPA and a page event is sent. -/
  | migrateCopyDone (d : DieId) (poisoned : List (Fin 32768))
  /-- PAGE_POISON [R307]: The poison page command sets a present page poisoned and reports Degrade. -/
  | pagePoison (r : Requester) (sel : Sel) (region : Fin 8) (page : BitVec 32)
  /-- PAGE_REPAIR [R307]: The repair page command maps a poisoned page anew and clears its poison entries. -/
  | pageRepair (r : Requester) (sel : Sel) (region : Fin 8) (page : BitVec 32) (hpa : BitVec 31) (fill : Bool)
  /-- PAGE_QUERY [R307]: The query page command returns the map entry unchanged. -/
  | pageQuery (r : Requester) (sel : Sel) (region : Fin 8) (page : BitVec 32)
  /-- POOL_RELEASE [R313]: The release queue sets the bits of released units free again. -/
  | poolRelease (d : DieId) (p : Fin 3)
  /-- ALLOCATOR_REFILL [R313]: Each cycle the allocator moves free units of the lowest free segment into the ready list. -/
  | allocatorRefill (d : DieId) (p : Fin 3)
  /-- WAIT_LIST_HEAD_RETRY [R325]: The head of the admission wait list is offered to admission again. -/
  | waitListHeadRetry (d : DieId)
  /-- VOQ_DEPART [R326]: A VOQ packet leaves when fabric or saddle credit is present. -/
  | voqDepart (d : DieId) (v : Fin 65536)
  /-- STACKS_READY [R328]: Every unfenced stack reports ready, and the die leaves shallow mode. -/
  | stacksReady (d : DieId)
  /-- REPLICATION [R332]: The replication engine makes replicas for ready targets and lists the rest in the residue. -/
  | replication (d : DieId)
  /-- RESIDUE_ENTER [R333]: The head of an egress queue's residue line enters the queue when it has room. -/
  | residueEnter (d : DieId) (slot : Slot) (tc : Fin 8)
  /-- RESIDUE_TIMEOUT [R334]: A packet's residue timer expires, and owed replicas end at P6 with 0x10. -/
  | residueTimeout (d : DieId) (i : Nat)
  /-- PORT_FLUSH_DONE [R336]: A port-down flush completes, and a pending enable is applied. -/
  | portFlushDone (d : DieId) (slot : Slot)
  /-- SCHED_SELECT [R339]: A lane group selects a port, group and queue and starts the queue's head frame. -/
  | schedSelect (d : DieId) (g : Fin 4)
  /-- SHAPER_CREDIT_POSITIVE [R346]: A shaper's accrued credit crosses above 0, and its node becomes eligible. -/
  | shaperCreditPositive (d : DieId) (slot : Slot) (n : Fin 13)
  /-- SHAPER_RATE_WRITE [R347]: A shaper rate write keeps the debt or credit, or sets credit to the burst when turning on. -/
  | shaperRateWrite (r : Requester) (sel : Sel) (slot : Slot) (n : Fin 13) (v : BitVec 32)
  /-- SHAPER_BURST_WRITE [R347]: A shaper burst write clamps positive credit to the new burst. -/
  | shaperBurstWrite (r : Requester) (sel : Sel) (slot : Slot) (n : Fin 13) (v : BitVec 32)
  /-- SHAPER_RESET [R347]: shaper_reset sets negative credit to 0. -/
  | shaperReset (r : Requester) (sel : Sel) (slot : Slot) (n : Fin 13)
  /-- APPLY_TEMPLATE [R369]: apply_template copies a scheduler template into the bands, weights and groups of a slot. -/
  | applyTemplate (r : Requester) (sel : Sel) (slot : Slot) (t : BitVec 8)
  /-- GATE_LIST_WRITE [R356]: A gate list command writes an admin list entry of a port on its die. -/
  | gateListWrite (r : Requester) (sel : Sel) (rec : BitVec 512)
  /-- CONFIG_CHANGE [R358]: config_change copies the admin objects into a pending configuration and computes its change time. -/
  | configChange (r : Requester) (sel : Sel) (slot : Slot)
  /-- CONFIG_CHANGE_TIME [R359]: The change time arrives, and the new gate list starts at entry 0. -/
  | configChangeTime (d : DieId) (slot : Slot)
  /-- GATE_ENTRY_END [R359]: A gate list interval ends, and the gates take the next entry's states or a new cycle starts. -/
  | gateEntryEnd (d : DieId) (slot : Slot)
  /-- MERIDIAN_SET [R364]: A set command loads a Meridian value to apply at a common microsecond. -/
  | meridianSet (r : Requester) (t : BitVec 80)
  /-- MERIDIAN_STEP [R364]: A step command adds a signed offset to Meridian at a common microsecond. -/
  | meridianStep (r : Requester) (v : BitVec 32)
  /-- MERIDIAN_ADJUST_APPLY [R364]: Every die applies a pending step or set at the agreed whole microsecond. -/
  | meridianAdjustApply
  /-- FREQ_ADJ_WRITE [R364]: A freq_adj write changes Meridian's rate from the next cycle. -/
  | freqAdjWrite (r : Requester) (v : BitVec 32)
  /-- PPS_IN_EDGE [R363]: A rising edge on PPS_IN latches Meridian time. -/
  | ppsInEdge
  /-- PPS_OUT_SECOND [R363]: At each whole second PPS_OUT rises for 100 ms when enabled. -/
  | ppsOutSecond
  /-- SAMPLER_VISIT [R365]: A sampler reads one queue's depth and delay and writes a sample record. -/
  | samplerVisit (d : DieId) (isVoq : Bool)
  /-- LANE_GROUP_MODE_WRITE [R373]: A lane group mode write, accepted only with all ports disabled, retrains the lanes in the new mode. -/
  | laneGroupModeWrite (r : Requester) (sel : Sel) (g : Fin 4) (m : BitVec 8)
  /-- PORT_ENABLE_WRITE [R512]: A port enable or disable write stops or starts the port, latching an enable written while it stops. -/
  | portEnableWrite (r : Requester) (sel : Sel) (slot : Slot) (on : Bool)
  /-- AUTONEG_ATTEMPT [R374]: A Clause 73 autonegotiation attempt ends, and the port stays training when the peer lacks the technology. -/
  | autonegAttempt (d : DieId) (slot : Slot)
  /-- LINK_LOSS [R375]: Alignment, lock or local fault persists for 1 µs, and the port goes down. -/
  | linkLoss (d : DieId) (slot : Slot) (fault : Bool)
  /-- REMOTE_FAULT [R375]: Remote fault has been received for 1 µs, and the port enters state 5. -/
  | remoteFault (d : DieId) (slot : Slot)
  /-- LINK_UP [R375]: Alignment and lock hold without fault for link_up_hold, and the port is up. -/
  | linkUp (d : DieId) (slot : Slot) (odd : Bool)
  /-- TX_OVERSIZE_CUT [R378]: A transmitted frame reaches maximum + 1 bytes and is cut with a stomped FCS. -/
  | txOversizeCut (d : DieId) (slot : Slot)
  /-- TX_UNDERRUN [R381]: The next bytes of a frame in transmission have not arrived, and the MAC ends it with a stomped FCS. -/
  | txUnderrun (d : DieId) (slot : Slot)
  /-- FRAME_TX_COMPLETE [R391]: A frame's last byte leaves the MAC: it is counted, shapers are corrected and a timestamp record is written. -/
  | frameTxComplete (d : DieId) (slot : Slot)
  /-- PAUSE_FRAME_RECEIVE [R383]: A received PAUSE or PFC frame is recognised and loads the pause timers. -/
  | pauseFrameReceive (d : DieId) (slot : Slot) (f : Bytes) (cw : Cw)
  /-- PAUSE_TIMER_EXPIRE [R383]: A pause timer counts down to 0, and the priority may transmit again. -/
  | pauseTimerExpire (d : DieId) (slot : Slot) (cls : Fin 9)
  /-- PAUSE_FRAME_SEND [R384]: The MAC sends a requested pause frame at the next frame boundary. -/
  | pauseFrameSend (d : DieId) (slot : Slot)
  /-- PAUSE_REFRESH [R384]: The MAC resends the pause frame every pause_refresh quanta while above xoff. -/
  | pauseRefresh (d : DieId) (slot : Slot)
  /-- SNAPSHOT [R388]: A snapshot write freezes every MAC counter of the die in one cycle. -/
  | snapshot (r : Requester) (sel : Sel)
  /-- SNAPSHOT_COPY_DONE [R388]: The frozen counters are copied to the snapshot bank, and its time and generation are recorded. -/
  | snapshotCopyDone (d : DieId)
  /-- SNAPSHOT_ALL_APPLY [R389]: An all: snapshot takes effect at the first whole microsecond at least 5 µs after acceptance. -/
  | snapshotAllApply (d : DieId)
  /-- DATA_CELL_RECEIVE [R398]: A fabric data cell is accepted and reassembled into its packet. -/
  | dataCellReceive (d : DieId) (l : LinkId) (hdr : BitVec 128) (payload : Bytes) (cw : Cw) (replay : Bool)
  /-- CREDIT_CELL_RECEIVE [R406]: A credit cell returns link credit units of a class. -/
  | creditCellReceive (d : DieId) (l : LinkId) (hdr : BitVec 128) (cw : Cw) (replay : Bool)
  /-- DEMAND_RECEIVE [R413]: The egress die takes a DEMAND message into its credit entry for that VOQ. -/
  | demandReceive (d : DieId) (l : LinkId) (hdr : BitVec 128) (msgs : List (BitVec 128)) (cw : Cw) (replay : Bool)
  /-- GRANT_RECEIVE [R410]: A source takes a GRANT message and raises the VOQ's granted_total. -/
  | grantReceive (d : DieId) (l : LinkId) (hdr : BitVec 128) (msgs : List (BitVec 128)) (cw : Cw) (replay : Bool)
  /-- LCF_ACK [R404]: An ACK LCF frees acknowledged cells from the link retry buffer. -/
  | lcfAck (d : DieId) (l : LinkId) (f : BitVec 64) (cw : Cw)
  /-- LCF_NAK [R405]: A NAK LCF makes the transmitter replay from the next cell. -/
  | lcfNak (d : DieId) (l : LinkId) (f : BitVec 64) (cw : Cw)
  /-- LCF_TRAIN [R408]: A TRAIN LCF advances link bring-up on three identical version-1 TRAINs. -/
  | lcfTrain (d : DieId) (l : LinkId) (f : BitVec 64) (cw : Cw)
  /-- LCF_CREDIT_INIT [R406]: A CREDIT_INIT LCF sets the link credit of a class. -/
  | lcfCreditInit (d : DieId) (l : LinkId) (f : BitVec 64) (cw : Cw)
  /-- LCF_READY [R408]: A READY LCF brings the link up with sequence numbers from 0. -/
  | lcfReady (d : DieId) (l : LinkId) (f : BitVec 64) (cw : Cw)
  /-- LCF_STEP_REQ [R418]: A STEP_REQ LCF tells the receiver that the direction goes idle, and is answered with STEP_ACK. -/
  | lcfStepReq (d : DieId) (l : LinkId) (f : BitVec 64) (cw : Cw)
  /-- LCF_STEP_ACK [R418]: A STEP_ACK LCF lets the die power down the idled link's transmit lane. -/
  | lcfStepAck (d : DieId) (l : LinkId) (f : BitVec 64) (cw : Cw)
  /-- LCF_WAKE_REQ [R418]: A WAKE_REQ LCF asks the receiver to lock the named link and answer WAKE_ACK. -/
  | lcfWakeReq (d : DieId) (l : LinkId) (f : BitVec 64) (cw : Cw)
  /-- LCF_WAKE_ACK [R418]: A WAKE_ACK LCF lets the die run TRAIN, CREDIT_INIT and READY on the woken link. -/
  | lcfWakeAck (d : DieId) (l : LinkId) (f : BitVec 64) (cw : Cw)
  /-- LINK_ACK_TIMER [R404]: The ACK interval elapses while cells arrive, so the receiver sends an ACK. -/
  | linkAckTimer (d : DieId) (l : LinkId)
  /-- NAK_REPEAT [R405]: Every 200 ns the receiver repeats its NAK until a replayed cell arrives. -/
  | nakRepeat (d : DieId) (l : LinkId)
  /-- LCF_REPEAT [R403]: Every 1 µs unanswered TRAIN, STEP_REQ or WAKE_REQ LCFs are sent again. -/
  | lcfRepeat (d : DieId) (l : LinkId)
  /-- LINK_ENABLE_WRITE [R408]: A link enable write starts or stops bring-up of fabric links. -/
  | linkEnableWrite (r : Requester) (sel : Sel) (v : BitVec 32)
  /-- FABRIC_LINK_DOWN [R408]: A fabric link loses lock or alignment or a step times out, goes down and restarts or is fenced. -/
  | fabricLinkDown (d : DieId) (l : LinkId) (cause : Fin 5)
  /-- DEMAND_TIMER [R412]: Every demand_retry_us a source resends DEMAND for VOQs still in deficit. -/
  | demandTimer (d : DieId) (v : Fin 65536)
  /-- EGRESS_GRANT [R413]: Each cycle an egress queue with room grants grant_cells to one demanding entry. -/
  | egressGrant (d : DieId) (slot : Slot) (tc : Fin 8)
  /-- CREDIT_AUDIT [R414]: An entry with missing cells for credit_audit_us has the difference added to received_total. -/
  | creditAudit (d : DieId) (k : Fin 65536)
  /-- FABRIC_UTIL_WINDOW_END [R417]: A link set's utilisation window closes, and it steps down or wakes its upper half. -/
  | fabricUtilWindowEnd (d : DieId) (set : Fin 32) (utils : List (Fin 10001))
  /-- LINK_IDLE_READY [R418]: Packets on a link to be idled have ended and its retry buffer is empty, so STEP_REQ is sent. -/
  | linkIdleReady (d : DieId) (l : LinkId)
  /-- DRAM_REQUEST [R425]: A requester offers a 64-byte request to a bank queue and holds it if it loses or the queue is full. -/
  | dramRequest (d : DieId) (k : Fin 2) (asks : List (Fin 3 × Fin 65536))
  /-- DRAM_COMMAND_SLOT [R427]: A pseudo-channel command slot activates and serves requests under the selected scheduler. -/
  | dramCommandSlot (d : DieId) (k : Fin 2) (pc : Fin 32)
  /-- DRAM_READ_COMPLETE [R441]: A DRAM read returns, and a parity failure is re-read, corrected or made persistent. -/
  | dramReadComplete (d : DieId) (k : Fin 2) (fails : Fin 4)
  /-- DRAM_REFRESH [R430]: A per-bank refresh falls due, and the scheduler change applies at this point. -/
  | dramRefresh (d : DieId) (k : Fin 2) (pc : Fin 32) (lo : Bool) (hi : Bool) (margin : Fin 64)
  /-- DRAM_TEMP_READ [R437]: The 1 ms stack sensor read may trigger a retrain or change the refresh rate. -/
  | dramTempRead (d : DieId) (k : Fin 2) (temp : BitVec 8) (load : Fin 101)
  /-- RETRAIN_NOW [R437]: retrain_now starts an incremental retrain of the named stacks. -/
  | retrainNow (r : Requester) (sel : Sel) (v : BitVec 32)
  /-- RETRAIN_WINDOW_OPEN [R438]: A pseudo-channel's retrain window opens, and it stops serving requests and sweeps its delays. -/
  | retrainWindowOpen (d : DieId) (k : Fin 2)
  /-- RETRAIN_WINDOW_CLOSE [R438]: A retrain window closes, and the new centres and record apply or the old values are kept. -/
  | retrainWindowClose (d : DieId) (k : Fin 2) (meas : BitVec 128)
  /-- PATTERN_COMMAND [R432]: A pattern command runs the pattern helper on the targeted pseudo-channels. -/
  | patternCommand (r : Requester) (sel : Sel) (k : Fin 2) (v : BitVec 128)
  /-- PATTERN_DONE [R432]: The pattern run ends, and with apply the trial values become operating values. -/
  | patternDone (d : DieId) (k : Fin 2) (res : List (Nat × Nat))
  /-- FULL_TRAIN [R439]: full_train runs a full training of a stack with no pages in use. -/
  | fullTrain (r : Requester) (sel : Sel) (v : BitVec 32)
  /-- TRAINING_COMPLETE [R435]: The loaded step of a full training passes, and the stack reports ready. -/
  | trainingComplete (d : DieId) (k : Fin 2) (step : Fin 9) (failed : Bool) (meas : List (BitVec 128))
  /-- ECC_POLL [R440]: Every 100 ms the controller reads the stack's corrected-error registers. -/
  | eccPoll (d : DieId) (k : Fin 2) (n : Nat)
  /-- CXL_BRINGUP_TIMEOUT [R446]: A CXL bring-up step misses its limit, and the port fails with a Degrade fault. -/
  | cxlBringupTimeout (d : DieId) (unsupported : Bool)
  /-- CXL_MEMORY_ACTIVE [R446]: The device reports Memory_Active, and the decoder is programmed and the map initialised. -/
  | cxlMemoryActive (d : DieId) (rate : Fin 7) (width : Fin 5) (cap : BitVec 64)
  /-- CXL_LINK_LOST [R447]: The CXL link leaves L0 for 10 ms, and the port goes down. -/
  | cxlLinkLost (d : DieId) (inFlight : Fin 4097)
  /-- CXL_COMPLETION_TIMEOUT [R447]: A CXL.mem request has no completion within the limit, and the port goes down. -/
  | cxlCompletionTimeout (d : DieId) (inFlight : Fin 4097)
  /-- CXL_FATAL_ERROR [R447]: The device signals fatal or viral, and the port goes down. -/
  | cxlFatalError (d : DieId) (inFlight : Fin 4097)
  /-- CXL_RETRAIN [R449]: A downed port retrains and recovers kept writes, or discards them if the memory was lost. -/
  | cxlRetrain (d : DieId) (committed : Bool) (rate : Fin 7) (width : Fin 5) (cap : BitVec 64)
  /-- CXL_EVENT_POLL [R450]: The firmware reads, counts, reports and clears the device's event logs. -/
  | cxlEventPoll (d : DieId) (n : Nat) (replays : Nat)
  /-- ENDPOINT_RESET [R453]: A hot reset, link-down or FLR of an endpoint disables its rings and clears its translation cache. -/
  | endpointReset (e : Fin 2) (rate : Fin 6) (width : Fin 4)
  /-- ATT_INVALIDATE [R455]: att_invalidate drops cached ATT entries of a range once earlier accesses have completed. -/
  | attInvalidate (r : Requester) (e : Fin 2) (first : BitVec 48) (last : BitVec 48)
  /-- DOORBELL_WRITE [R458]: A doorbell write updates a ring's host_index, or stops the ring on a bad index. -/
  | doorbellWrite (e : Fin 2) (off : Fin 0x12000) (v : BitVec 32)
  /-- RING_ENABLE_WRITE [R460]: A ring enable write starts the ring, or stops it after the slot in progress. -/
  | ringEnableWrite (r : Requester) (sel : Sel) (k : Fin 32) (on : Bool)
  /-- RING_STOP_DONE [R460]: A stopping ring completes its slot and becomes disabled or applies a pending enable. -/
  | ringStopDone (d : DieId) (k : Fin 24)
  /-- PUNT_WRITE [R462]: A punted packet is written to the next posted slot, or ends at P7. -/
  | puntWrite (d : DieId) (k : Fin 16) (slot : BitVec 256) (atts : List (Nat × BitVec 64))
  /-- INJECT_READ [R463]: An inject engine reads a posted frame into cells and dispatches it. -/
  | injectRead (d : DieId) (k : Fin 4) (slot : BitVec 256) (frame : Bytes) (atts : List (Nat × BitVec 64))
  /-- BATCH_RUN [R464]: A posted batch runs its command array in order and writes completions. -/
  | batchRun (d : DieId) (slot : BitVec 256) (cmds : List (BitVec 640)) (atts : List (Nat × BitVec 64))
  /-- RECORD_RING_WRITE [R465]: A learn, sample or timestamp record is written to its ring or lost when full. -/
  | recordRingWrite (d : DieId) (k : Fin 3) (atts : List (Nat × BitVec 64))
  /-- RING_IRQ_TIMER [R459]: irq_timer_us after an unsignalled advance the ring's MSI-X vector fires. -/
  | ringIrqTimer (d : DieId) (k : Fin 24)
  /-- JDP_FRAME_RECEIVE [R487]: The management relay checks a frame and consumes, forwards or discards it. -/
  | jdpFrameReceive (port : Fin 2) (f : Bytes)
  /-- JDP_REQUEST [R492]: A REQUEST is executed, returns a cached response or is discarded by sequence. -/
  | jdpRequest
  /-- JDP_OPEN [R491]: An OPEN with a valid slot and tag opens a session and is answered with OPEN_REPLY. -/
  | jdpOpen
  /-- JDP_OPEN_REPLY [R580]: A relaying device receives OPEN_REPLY and forwards the OFFER downstream. -/
  | jdpOpenReply (serial : BitVec 64)
  /-- JDP_CLOSE [R492]: A CLOSE message closes its session. -/
  | jdpClose
  /-- JDP_DISCOVER [R493]: A DISCOVER is answered with one DISCOVER_REPLY and forwarded. -/
  | jdpDiscover
  /-- SESSION_IDLE_TIMEOUT [R492]: A session with no accepted message for session_idle_s closes. -/
  | sessionIdleTimeout (i : Fin 16)
  /-- SESSION_CLOSE [R492]: The close command closes a JDP session. -/
  | sessionClose (r : Requester) (i : Fin 16)
  /-- KEY_SLOT_WRITE [R494]: Writing or disabling a key slot saves it and closes its sessions. -/
  | keySlotWrite (r : Requester) (k : Fin 16) (sub : Fin 3) (v : BitVec 256)
  /-- MODE_REQUEST_STANDBY [R500]: A request for Standby powers off the switched domains. -/
  | modeRequestStandby (r : Requester)
  /-- MODE_REQUEST_BRINGUP [R500]: A request for Bring-up powers domains and starts bring-up. -/
  | modeRequestBringup (r : Requester)
  /-- MODE_REQUEST_FORWARDING [R500]: A request for Forwarding leaves Drain or Quiesce for Forwarding or Degraded. -/
  | modeRequestForwarding (r : Requester)
  /-- MODE_REQUEST_DRAIN [R501]: A request for Drain refuses ingress while egress continues. -/
  | modeRequestDrain (r : Requester)
  /-- MODE_REQUEST_QUIESCE [R502]: A request for Quiesce drains ingress, then stops grants and egress selection. -/
  | modeRequestQuiesce (r : Requester)
  /-- MODE_REQUEST_DIAGNOSTIC [R500]: A request for Diagnostic takes ports down and enables test paths. -/
  | modeRequestDiagnostic (r : Requester)
  /-- MODE_REQUEST_FACTORY [R503]: A request for Factory through PCIe zeroises the key store and closes sessions. -/
  | modeRequestFactory (r : Requester)
  /-- DRAIN_EMPTY [R501]: The ingress side of every die becomes empty, so drain_state reads 2 and Quiesce may proceed. -/
  | drainEmpty
  /-- QUIESCE_TIMEOUT [R502]: Drain has not emptied within quiesce_timeout, and the transition is abandoned with Notice 0x005. -/
  | quiesceTimeout
  /-- FUNCTION_READY [R505]: A die function reports ready, which may make the die forwarding-ready and change the mode. -/
  | functionReady (d : DieId) (f : Fin 12)
  /-- BRINGUP_TIMEOUT [R506]: The bring-up timeout runs out, and unready dies and functions are recorded lost with kind 0x006. -/
  | bringupTimeout
  /-- LEAN_WINDOW [R513]: A 1 µs packet-rate window ends and counts toward Lean entry or triggers Lean exit. -/
  | leanWindow
  /-- CLUSTER_PARK_DONE [R515]: A cluster being parked for Lean has emptied and its domain switches off. -/
  | clusterParkDone (d : DieId) (c : ClusterId)
  /-- CLUSTER_WAKE_DONE [R514]: A woken cluster returns to service 5 µs after its switch. -/
  | clusterWakeDone (d : DieId) (c : ClusterId)
  /-- DOMAIN_REQUEST_WRITE [R510]: A domain_request write sets a power domain to auto or forces it off. -/
  | domainRequestWrite (r : Requester) (d : DieId) (n : Fin 80) (v : BitVec 8)
  /-- DOMAIN_ON_DONE [R511]: A domain's on time passes after its switch, and it is usable. -/
  | domainOnDone (d : DieId) (n : Fin 80)
  /-- PACKAGE_RESET [R516]: package_reset resets every die and runs the reset sequence. -/
  | packageReset (r : Requester)
  /-- RESET_L_ASSERT [R516]: RESET_L goes low, holding every die in reset except the always-on domains. -/
  | resetLAssert
  /-- RESET_L_RELEASE [R516]: RESET_L is released, the straps are sampled and the reset and power-up sequence starts. -/
  | resetLRelease (strap : BitVec 4)
  /-- FAULT_ACCEPT [R524]: A die collector accepts fault messages, orders them, merges repeats and applies the class reaction. -/
  | faultAccept (d : DieId) (n : Fin 5)
  /-- CAIRN_COMPLETE [R535]: A Cairn record's sections and header are written and magic is written last. -/
  | cairnComplete (d : DieId) (bad : List (Nat × Nat)) (atts : List (Nat × BitVec 64))
  /-- HELD_DUMP_PATH [R534]: A path appears for a held dump, and the Summit starts writing it. -/
  | heldDumpPath (d : DieId)
  /-- FAULT_RECORD_RECEIVE [R528]: The Summit receives a die's fault record into its staging list and shows Degrade bits. -/
  | faultRecordReceive
  /-- FAULT_STAGING_COMMIT [R528]: A staged record's 10 µs hold ends, and it is committed to the package log in key order. -/
  | faultStagingCommit
  /-- REPEAT_UPDATE_RECEIVE [R526]: The Summit sets repeat of the matching package record from a repeat update. -/
  | repeatUpdateReceive
  /-- LOG_ACK [R529]: log_ack acknowledges every record up to the named sequence. -/
  | logAck (r : Requester) (v : BitVec 32)
  /-- FIRST_FAULT_CLEAR [R525]: first_fault_clear clears the package and die first-fault records. -/
  | firstFaultClear (r : Requester)
  /-- LOG_READ [R542]: log_read returns the package log record of a sequence. -/
  | logRead (r : Requester) (v : BitVec 32)
  /-- DIE_LOG_READ [R527]: die_log_read returns a record of a die log by index. -/
  | dieLogRead (r : Requester) (v : BitVec 32)
  /-- DUMP_NOW [R533]: dump_now triggers a Cairn record on the named dies. -/
  | dumpNow (r : Requester) (v : BitVec 32)
  /-- DUMP_ACK [R534]: dump_ack acknowledges both dump slots of the named dies. -/
  | dumpAck (r : Requester) (v : BitVec 32)
  /-- RESET_HOLD_TIMEOUT [R540]: A reset held for dumps proceeds after reset_hold_ms. -/
  | resetHoldTimeout
  /-- FAULT_INJECT [R541]: fault_inject injects a fault message or parity flips in Factory mode. -/
  | faultInject (r : Requester) (v : BitVec 128)
  /-- SPARE_REBUILD_DONE [R532]: The spare bank rebuild of a fenced bank's table from its shadow completes. -/
  | spareRebuildDone (d : DieId) (sub : Fin 256)
  /-- SLICE_DUE [R544]: A transit slice of one kind falls due, checks its conditions and starts or is skipped. -/
  | sliceDue (d : DieId) (k : Fin 4) (vin : Nat) (clk : BitVec 3) (tj : Int)
  /-- SLICE_CONDITION_CHECK [R546]: Every 10 µs the running slice's conditions are re-read, and it is abandoned on failure. -/
  | sliceConditionCheck (d : DieId) (vin : Nat) (clk : BitVec 3) (tj : Int)
  /-- BANK_MIRROR_DONE [R548]: The last line of a bank is copied to the spare, and the march test begins. -/
  | bankMirrorDone (d : DieId)
  /-- BANK_TEST_DONE [R549]: The bank march ends, and the bank is restored or fenced. -/
  | bankTestDone (d : DieId) (ok : Bool) (spareOk : Bool)
  /-- BANK_RESTORE_DONE [R548]: The spare is copied back, and accesses return to the bank. -/
  | bankRestoreDone (d : DieId)
  /-- ENGINE_DRAINED [R551]: An engine under slice has no running routines, and its test words run. -/
  | engineDrained (d : DieId)
  /-- ENGINE_DRAIN_TIMEOUT [R551]: An engine has not drained within engine_drain_us, and the slice is abandoned. -/
  | engineDrainTimeout (d : DieId)
  /-- ENGINE_TEST_DONE [R551]: The engine signature is compared, and the engine returns or its cluster is fenced. -/
  | engineTestDone (d : DieId) (ok : Bool)
  /-- CSTORE_WALK_DONE [R552]: A control-store walk finishes comparing and reloading words. -/
  | cstoreWalkDone (d : DieId) (ok : Bool)
  /-- SEGMENT_MARCH_DONE [R553]: A bitmap segment march ends, and its saved bits and hold mask are written back. -/
  | segmentMarchDone (d : DieId) (ok : Bool)
  /-- DIAG_LOOPBACK [R556]: diag_loopback sets a lane, link or saddle loopback in Diagnostic. -/
  | diagLoopback (r : Requester) (v : BitVec 32)
  /-- DIAG_PATTERN [R556]: diag_pattern sets a test pattern and its checker in Diagnostic. -/
  | diagPattern (r : Requester) (v : BitVec 32)
  /-- COUNTER_VALUE_WRITE [R557]: A counter value write applies at the end of its cycle and clears saturated. -/
  | counterValueWrite (r : Requester) (sel : Sel) (k : Fin 20) (n : Fin 8) (v : BitVec 64)
  /-- SAMPLE_READ [R566]: sample_read returns 64 sample records from a position. -/
  | sampleRead (r : Requester) (sel : Sel) (k : Fin 20) (first : BitVec 32)
  /-- SAMPLE_CLEAR [R566]: sample_clear empties the sampling buffer. -/
  | sampleClear (r : Requester) (sel : Sel) (k : Fin 20)
  /-- JTAG_IDCODE [R606]: The IDCODE instruction selects the die's identification register. -/
  | jtagIdcode (d : DieId)
  /-- JTAG_SAMPLE_PRELOAD [R606]: SAMPLE/PRELOAD samples or preloads the boundary register. -/
  | jtagSamplePreload (d : DieId) (cells : List Bool)
  /-- JTAG_EXTEST [R555]: EXTEST drives the boundary cells in Factory mode. -/
  | jtagExtest (d : DieId)
  /-- JTAG_EXTEST_PULSE [R555]: EXTEST_PULSE tests AC-coupled pins in Factory mode. -/
  | jtagExtestPulse (d : DieId)
  /-- JTAG_EXTEST_TRAIN [R555]: EXTEST_TRAIN tests AC-coupled pins with pulse trains in Factory mode. -/
  | jtagExtestTrain (d : DieId)
  /-- JTAG_CLAMP [R555]: CLAMP holds the outputs and selects bypass in Factory mode. -/
  | jtagClamp (d : DieId)
  /-- JTAG_HIGHZ [R555]: HIGHZ floats the outputs in Factory mode. -/
  | jtagHighz (d : DieId)
  /-- JTAG_INTERNAL_SCAN [R555]: Internal scan accesses scan chains in Factory mode. -/
  | jtagInternalScan (d : DieId)
  /-- JTAG_DEBUG_ACCESS [R555]: Debug access opens debug in Factory mode. -/
  | jtagDebugAccess (d : DieId)
  /-- JTAG_BYPASS [R606]: BYPASS selects the one-bit bypass register. -/
  | jtagBypass (d : DieId)
  /-- HOST_OFFER [R574]: host_offer submits an Itesh header and starts a host session if accepted. -/
  | hostOffer (r : Requester) (h : BitVec 1024)
  /-- HOST_BLOCK [R579]: host_block delivers one delta block, applied if it is next and its CRC matches. -/
  | hostBlock (r : Requester) (v : BitVec 8256)
  /-- HOST_END [R577]: host_end ends the host session's blocks and starts checking. -/
  | hostEnd (r : Requester)
  /-- FW_ABORT [R576]: abort ends image sessions and relays as its source allows. -/
  | fwAbort (r : Requester)
  /-- JDP_OFFER [R580]: An OFFER starts a direct or chain image session and a relay. -/
  | jdpOffer
  /-- JDP_BLOCK [R579]: A BLOCK message is accepted, acknowledged again or discarded, and relayed after its check. -/
  | jdpBlock
  /-- JDP_STATUS [R579]: A STATUS advances next_expected at the sender. -/
  | jdpStatus
  /-- JDP_END [R576]: An END completes or aborts a transfer and is relayed. -/
  | jdpEnd
  /-- STATUS_TIMER [R579]: 100 µs after an uncovered accepted block, the receiver sends a STATUS. -/
  | statusTimer
  /-- BLOCK_RESEND_TIMEOUT [R579]: No STATUS progress for 1 ms makes the sender resend, or abort after 16 resends. -/
  | blockResendTimeout
  /-- RELAY_OPEN_RETRY [R580]: An unanswered relay OPEN is retried after 1 ms, and the relay ends after 3 attempts. -/
  | relayOpenRetry
  /-- SESSION_STALL_TIMEOUT [R577]: A Receiving session accepts no block for 10 s and returns to Idle. -/
  | sessionStallTimeout
  /-- STAGING_CHECK_DONE [R577]: The staging image check ends, and the session is Staged or Rejected. -/
  | stagingCheckDone
  /-- ACTIVATE [R582]: activate switches to the staged image under its activation class. -/
  | activate (r : Requester)
  /-- INPLACE_SWITCH_DONE [R582]: The in-place firmware switch completes, slots rotate and probation starts. -/
  | inplaceSwitchDone (crcBad : Bool)
  /-- CONFIRM [R583]: confirm ends probation, updates anti-rollback and revocation, and frees the old slots. -/
  | confirm (r : Requester)
  /-- PROBATION_EXPIRE [R583]: The probation window ends without confirmation, reporting Notice 0x904. -/
  | probationExpire
  /-- REVERT [R584]: revert resets the package into the previous image. -/
  | revert (r : Requester)
  /-- SETTINGS_ACCEPT [R586]: settings_accept fills the new settings slot with defaults and the writes made, and bring-up continues. -/
  | settingsAccept (r : Requester)
  /-- SETTINGS_FALLBACK [R586]: settings_fallback reverts to the previous image as revert does. -/
  | settingsFallback (r : Requester)
  /-- RAIL_UNDERVOLTAGE [R591]: A rail below its undervoltage limit for more than 10 µs raises Fatal 0x701. -/
  | railUndervoltage (d : DieId) (r : Fin 8) (n : Fin 80) (mv : BitVec 16) (ma : BitVec 32)
  /-- RAIL_OVERVOLTAGE [R591]: A rail above its overvoltage limit for 1 µs raises Terminal 0x702. -/
  | railOvervoltage (d : DieId) (r : Fin 8) (n : Fin 80) (mv : BitVec 16) (ma : BitVec 32)
  /-- RAIL_OVERCURRENT [R591]: A rail above its current limit for 1 µs raises Terminal 0x703. -/
  | railOvercurrent (d : DieId) (r : Fin 8) (n : Fin 80) (mv : BitVec 16) (ma : BitVec 32)
  /-- VIN_MEASURE [R592]: Each 1 µs VIN measurement is judged against the thresholds, raising faults or ALERT_L as they persist. -/
  | vinMeasure (mv : BitVec 16) (watts : BitVec 16)
  /-- POWER_ON_RESET [R593]: VIN falls below 9.0 V or VAON undervolts, and the die is held in power-on reset. -/
  | powerOnReset (d : DieId) (vin : Bool)
  /-- PWROK_LOW [R594]: PWROK low for 1 µs switches off every die's domains and puts them in reset. -/
  | pwrokLow
  /-- TIMECLK_LOST [R598]: TIMECLK is lost or off frequency, and Meridian goes to holdover with a Notice. -/
  | timeclkLost
  /-- REFCLK_NET_LOST [R598]: REFCLK_NET is lost on a die: its ports go down and on die 0 the relay switches to REFCLK_FAB. -/
  | refclkNetLost (d : DieId)
  /-- REFCLK_NET_RETURN [R598]: REFCLK_NET has run for 1 ms again, and the relay switches back to it. -/
  | refclkNetReturn (d : DieId)
  /-- REFCLK_FAB_LOST [R598]: REFCLK_FAB is lost on a die, giving Degrade 0x786 with its links down and saddles fenced. -/
  | refclkFabLost (d : DieId)
  /-- REFCLK_PCI_LOST [R598]: REFCLK_PCI is lost, taking the CXL port and the endpoint link down. -/
  | refclkPciLost (d : DieId) (inFlight : Fin 4097)
  /-- THERMAL_SENSOR_READ [R600]: The 100 µs junction sensor read drives THERM_L, Notices and the thermal trip. -/
  | thermalSensorRead (d : DieId) (l : List Int) (watts : BitVec 16)
  /-- SADDLE_TRAINING_DONE [R28]: A saddle finishes training and moves from Training to Up-full, or is fenced for a training failure, and the Summit redistributes route tables. -/
  | saddleTrainingDone (d : DieId) (k : Side) (ok : Bool)
  /-- SADDLE_LANE_LOSS [R36]: A saddle loses its lanes and is fenced with fence_cause 3 and a Degrade fault. -/
  | saddleLaneLoss (d : DieId) (k : Side)
  /-- FABRIC_ALIGNMENT_LOCK [R408]: A fabric receiver locks its lane and finds two alignment codewords 16,384 apart, and the link moves from locking to exchanging. -/
  | fabricAlignmentLock (d : DieId) (l : LinkId) (a : BitVec 5140) (b : BitVec 5140)
  /-- DRAM_PHY_LANE_LOSS [R442]: The DRAM PHY loses its lanes and the stack is fenced with fence_cause 4. -/
  | dramPhyLaneLoss (d : DieId) (k : Fin 2)
  /-- DRAM_CATASTROPHIC_TEMP [R442]: A stack reports its catastrophic temperature and is fenced with fence_cause 3. -/
  | dramCatastrophicTemp (d : DieId) (k : Fin 2)
  /-- WATCHDOG_EXPIRE [R522]: The control-core watchdog of a die expires and raises Fatal kind 0x001. -/
  | watchdogExpire (d : DieId)
  /-- TIMECLK_LOCK [R363]: TIMECLK runs within tolerance again, Meridian locks to it, and time_source reads 1. -/
  | timeclkLock
  /-- REFCLK_FAB_RETURN [R508]: REFCLK_FAB has run for 1 ms again, and lost-unit bit 10 clears. -/
  | refclkFabReturn (d : DieId)
  /-- POWER_ON_RESET_RELEASE [R593]: VIN rises above 10.0 V with VAON in regulation, and the die's always-on domain leaves power-on reset and the management relay starts forwarding. -/
  | powerOnResetRelease (d : DieId)
  /-- DOMAIN_STOP_DONE [R512]: A stopping power domain finishes stopping its function and switches off, or applies a pending enable. -/
  | domainStopDone (d : DieId) (n : Fin 80)
  /-- SELF_CHECK_DONE [R46]: With PWROK high, dies 0 and 1 finish their power-on self-check, and the power-up election starts with the start pulse at once. -/
  | selfCheckDone (ok0 : Bool) (ok1 : Bool)
  /-- BOOT_IMAGE_READ_DONE [R584]: The boot image has been read and its signature checked, the slot has been chosen, and the settings store has been read, so the part enters Bring-up or stays in Standby. -/
  | bootImageReadDone (crcBad : Bool)
  /-- MGMT_PORT_LINK_CHANGE [R580]: The link of management port MGA or MGB goes up or down, and a relay toward a downed port ends. -/
  | mgmtPortLinkChange (m : Fin 2) (up : Bool)
  deriving DecidableEq, Repr

end Sys2Proof
end

