-- ==== Sys2Proof/Config.lean ====
section
/-! DEFINITION. What the specification leaves to an implementation or to a named standard, and the free values:
constants without a body, so that no proof can learn what they are. -/

namespace Sys2Proof.Config

/-- FREE VALUE (log entry 5): the n-th value the specification leaves open. -/
opaque freeValue : Nat → Nat

/-- FREE VALUE (log entry 37): the place that a die's copy of Meridian takes among those of the package when the die comes up, by die and
time; it counts modulo 5 ns (R362). -/
opaque clockPlace : Nat → Nat → Nat

/-- FREE VALUE (log entry 5): the address word by which the Notice of a retrain trigger names its cause (R437), 0 temperature, 1 margin:
the manual does not lay it out. -/
opaque retrainCause : Nat → Nat

/-- Package serial number of R482, which Forgixis assigns (log entry 23). -/
opaque packageSerial : Nat

/-- Die serial and revision of R482, by die (log entry 23). -/
opaque dieSerial : Nat → Nat
opaque dieRevision : Nat → Nat

/-- The factory value of `1100.03`, which comes from the serial in a way the manual does not state (log entry 23). -/
opaque factoryMac : Nat

/-- FREE VALUE (log entry 5): the text of the firmware trace (Cairn section 0x00F0), by the count of free values. -/
opaque firmwareTrace : Nat → Bytes

/-- FREE VALUE (log entry 5): a payload word of a saddle message whose contents the manual does not lay out, by the number
of the message and the word's place. -/
opaque flitWord : Nat → Nat → BitVec 64

/-- What an image holds of the master microcode (R110, R138): its words by address, how many words
it has, and its entry vector. The manual does
not give their places in an image (log entry 24). -/
opaque imageWord : Bytes → Nat → BitVec 160
opaque imageWords : Bytes → Nat
opaque imageEntry : Bytes → Nat → Nat

/-- FREE VALUE (log entry 5): the fields of a frame the management relay originates that R487 does not state, by the
message: IPv4 type of service, identification and DF flag, UDP source port. -/
opaque relayTos : Bytes → Nat
opaque relayId : Bytes → Nat
opaque relayDf : Bytes → Bool
opaque relaySrcPort : Bytes → Nat

end Sys2Proof.Config
end

