-- ==== Sys2Proof/Machine/Entries.lean ====
section
/-! DEFINITION. The entry maps of every chapter as one table: each dictionary entry with its indices, subindices,
name, type, size, access, level, default and range (R469 to R483). -/

namespace Sys2Proof.Machine

/-- The data types of Table 16.1. -/
inductive EType
  | bool | u8 | u16 | u32 | u64 | s32 | bits32 | enum8 | octets | time80 | cmd
  deriving DecidableEq, Repr

/-- The access types of Table 16.2. -/
inductive EAccess
  | ro | rw | rws | wo | rc | cmd
  deriving DecidableEq, Repr

/-- One row of an entry map: entries `idx + i` (i < n), subindices `lo` to `hi`. -/
structure EntryRow where
  idx  : Nat
  n    : Nat
  lo   : Nat
  hi   : Nat
  name : String
  ty   : EType
  size : Nat
  acc  : EAccess
  lvl  : Nat
  dflt : Option Nat
  rlo  : Int
  rhi  : Int
  deriving Repr

/-- Rows from index 1000 on. -/
def entries0 : List EntryRow := [
  ⟨0x1000, 1, 0x01, 0x01, "vendor_name", .octets, 16, .ro, 0, none, 0, (2 ^ 128 - 1)⟩,
  ⟨0x1000, 1, 0x02, 0x02, "part_name", .octets, 8, .ro, 0, none, 0, 18446744073709551615⟩,
  ⟨0x1000, 1, 0x03, 0x03, "part_code", .u16, 2, .ro, 0, none, 0, 65535⟩,
  ⟨0x1000, 1, 0x04, 0x04, "die_count", .u8, 1, .ro, 0, none, 0, 255⟩,
  ⟨0x1000, 1, 0x05, 0x05, "serial_number", .u64, 8, .ro, 0, none, 0, 18446744073709551615⟩,
  ⟨0x1000, 1, 0x06, 0x06, "firmware_version", .u32, 4, .ro, 0, none, 0, 4294967295⟩,
  ⟨0x1000, 1, 0x07, 0x07, "firmware_build_time", .time80, 10, .ro, 0, none, 0, (2 ^ 80 - 1)⟩,
  ⟨0x1000, 1, 0x08, 0x08, "pcie_vendor_id", .u16, 2, .ro, 0, (some 8150), 0, 65535⟩,
  ⟨0x1000, 1, 0x09, 0x09, "pcie_device_id", .u16, 2, .ro, 0, none, 0, 65535⟩,
  ⟨0x1000, 1, 0x0A, 0x0A, "dictionary_version", .u16, 2, .ro, 0, (some 1), 0, 65535⟩,
  ⟨0x1010, 1, 0x00, 0x07, "die_identity", .u64, 8, .ro, 0, none, 0, 18446744073709551615⟩,
  ⟨0x1040, 1, 0x00, 0x7F, "cluster_ucode_version", .u32, 4, .ro, 0, none, 0, 4294967295⟩,
  ⟨0x1041, 1, 0x01, 0x01, "master_ucode_version", .u32, 4, .ro, 0, none, 0, 4294967295⟩,
  ⟨0x1041, 1, 0x02, 0x02, "rolling_load_state", .enum8, 1, .ro, 0, (some 0), 0, 255⟩,
  ⟨0x1100, 1, 0x01, 0x01, "device_address", .u16, 2, .rws, 2, (some 0), 0, 65535⟩,
  ⟨0x1100, 1, 0x02, 0x02, "jdp_udp_port", .u16, 2, .rws, 2, (some 7410), 1, 65535⟩,
  ⟨0x1100, 1, 0x03, 0x03, "mgmt_mac", .octets, 6, .rws, 2, none, 0, 281474976710655⟩,
  ⟨0x1100, 1, 0x04, 0x04, "mgmt_ipv4", .u32, 4, .rws, 2, (some 0), 0, 4294967295⟩,
  ⟨0x1100, 1, 0x05, 0x05, "session_idle_s", .u16, 2, .rws, 2, (some 60), 5, 3600⟩,
  ⟨0x1100, 1, 0x06, 0x06, "jdp_enable", .bool, 1, .rws, 2, (some 1), 0, 1⟩,
  ⟨0x1101, 2, 0x01, 0x01, "port_enable", .bool, 1, .rws, 2, (some 1), 0, 1⟩,
  ⟨0x1101, 2, 0x02, 0x02, "port_mode", .enum8, 1, .rws, 2, (some 1), 0, 1⟩,
  ⟨0x1101, 2, 0x03, 0x03, "link_state", .enum8, 1, .ro, 0, (some 0), 0, 255⟩,
  ⟨0x1101, 2, 0x04, 0x04, "frames_forwarded", .u64, 8, .rc, 0, (some 0), 0, 18446744073709551615⟩,
  ⟨0x1101, 2, 0x05, 0x05, "frames_consumed", .u64, 8, .rc, 0, (some 0), 0, 18446744073709551615⟩,
  ⟨0x1101, 2, 0x06, 0x06, "frames_discarded", .u64, 8, .rc, 0, (some 0), 0, 18446744073709551615⟩,
  ⟨0x1120, 2, 0x01, 0x01, "link_state", .enum8, 1, .ro, 0, (some 0), 0, 255⟩,
  ⟨0x1120, 2, 0x02, 0x02, "link_rate", .enum8, 1, .ro, 0, (some 0), 0, 255⟩,
  ⟨0x1120, 2, 0x03, 0x03, "link_width", .u8, 1, .ro, 0, (some 0), 0, 255⟩,
  ⟨0x1120, 2, 0x04, 0x04, "att_base", .u64, 8, .rw, 2, (some 0), 0, 18446744073709551615⟩,
  ⟨0x1120, 2, 0x05, 0x05, "att_entries", .u32, 4, .rw, 2, (some 0), 0, 1048576⟩,
  ⟨0x1120, 2, 0x06, 0x06, "att_page", .enum8, 1, .rw, 2, (some 0), 0, 1⟩,
  ⟨0x1120, 2, 0x07, 0x07, "att_invalidate", .octets, 16, .cmd, 2, none, 0, (2 ^ 128 - 1)⟩,
  ⟨0x1120, 2, 0x08, 0x08, "translation_faults", .u64, 8, .rc, 0, (some 0), 0, 18446744073709551615⟩,
  ⟨0x1120, 2, 0x09, 0x09, "doorbells_ignored", .u64, 8, .rc, 0, (some 0), 0, 18446744073709551615⟩,
  ⟨0x1120, 2, 0x0A, 0x0A, "resets", .u32, 4, .rc, 0, (some 0), 0, 4294967295⟩,
  ⟨0x1130, 16, 0x01, 0x01, "state", .enum8, 1, .ro, 0, (some 0), 0, 255⟩,
  ⟨0x1130, 16, 0x02, 0x02, "key_slot", .u8, 1, .ro, 0, (some 0), 0, 255⟩,
  ⟨0x1130, 16, 0x03, 0x03, "session_level", .enum8, 1, .ro, 0, (some 0), 0, 255⟩,
  ⟨0x1130, 16, 0x04, 0x04, "last_sequence", .u32, 4, .ro, 0, (some 0), 0, 4294967295⟩,
  ⟨0x1130, 16, 0x05, 0x05, "idle_s", .u16, 2, .ro, 0, (some 0), 0, 65535⟩,
  ⟨0x1130, 16, 0x06, 0x06, "accesses", .u64, 8, .rc, 0, (some 0), 0, 18446744073709551615⟩,
  ⟨0x1130, 16, 0x07, 0x07, "arrival_port", .enum8, 1, .ro, 0, (some 0), 0, 255⟩,
  ⟨0x1130, 16, 0x08, 0x08, "close", .cmd, 0, .cmd, 2, none, 0, 0⟩,
  ⟨0x1140, 16, 0x01, 0x01, "slot_key", .octets, 32, .wo, 2, (some 0), 0, (2 ^ 256 - 1)⟩,
  ⟨0x1140, 16, 0x02, 0x02, "slot_level", .enum8, 1, .rw, 2, (some 0), 0, 2⟩,
  ⟨0x1140, 16, 0x03, 0x03, "slot_enable", .bool, 1, .rw, 2, (some 0), 0, 1⟩,
  ⟨0x1140, 16, 0x04, 0x04, "slot_opens", .u32, 4, .rc, 0, (some 0), 0, 4294967295⟩,
  ⟨0x1150, 1, 0x01, 0x01, "tag_failures", .u64, 8, .rc, 0, (some 0), 0, 18446744073709551615⟩,
  ⟨0x1150, 1, 0x02, 0x02, "cached_replies", .u64, 8, .rc, 0, (some 0), 0, 18446744073709551615⟩,
  ⟨0x1150, 1, 0x03, 0x03, "stale_sequences", .u64, 8, .rc, 0, (some 0), 0, 18446744073709551615⟩,
  ⟨0x1150, 1, 0x04, 0x04, "opens_refused", .u64, 8, .rc, 0, (some 0), 0, 18446744073709551615⟩,
  ⟨0x1150, 1, 0x05, 0x05, "sessions_open", .u8, 1, .ro, 0, (some 0), 0, 255⟩,
  ⟨0x1150, 1, 0x06, 0x06, "messages_sent", .u64, 8, .rc, 0, (some 0), 0, 18446744073709551615⟩,
  ⟨0x1150, 1, 0x07, 0x07, "bad_headers", .u64, 8, .rc, 0, (some 0), 0, 18446744073709551615⟩,
  ⟨0x1200, 1, 0x01, 0x01, "op_mode", .enum8, 1, .ro, 0, (some 1), 0, 255⟩,
  ⟨0x1200, 1, 0x02, 0x02, "mode_request", .enum8, 1, .cmd, 2, none, 1, 12⟩,
  ⟨0x1200, 1, 0x03, 0x03, "auto_bringup", .bool, 1, .rws, 2, (some 1), 0, 1⟩,
  ⟨0x1200, 1, 0x04, 0x04, "transition_state", .enum8, 1, .ro, 0, (some 0), 0, 255⟩,
  ⟨0x1200, 1, 0x05, 0x05, "target_mode", .enum8, 1, .ro, 0, (some 1), 0, 255⟩]

/-- Rows from index 1200 on. -/
def entries1 : List EntryRow := [
  ⟨0x1200, 1, 0x06, 0x06, "drain_state", .enum8, 1, .ro, 0, (some 0), 0, 255⟩,
  ⟨0x1200, 1, 0x07, 0x07, "quiesce_timeout_ms", .u32, 4, .rws, 2, (some 1000), 100, 60000⟩,
  ⟨0x1200, 1, 0x08, 0x08, "package_reset", .cmd, 0, .cmd, 2, none, 0, 0⟩,
  ⟨0x1200, 1, 0x09, 0x09, "mode_changes", .u32, 4, .rc, 0, (some 0), 0, 4294967295⟩,
  ⟨0x1200, 1, 0x0A, 0x0A, "lean_clusters", .u8, 1, .rws, 1, (some 8), 1, 15⟩,
  ⟨0x1200, 1, 0x0B, 0x0B, "lean_enable", .bool, 1, .rws, 1, (some 0), 0, 1⟩,
  ⟨0x1200, 1, 0x0C, 0x0C, "lean_enter_pct", .u8, 1, .rws, 1, (some 20), 1, 49⟩,
  ⟨0x1200, 1, 0x0D, 0x0D, "lean_exit_pct", .u8, 1, .rws, 1, (some 40), 2, 99⟩,
  ⟨0x1200, 1, 0x0E, 0x0E, "lean_dwell_ms", .u32, 4, .rws, 1, (some 100), 1, 10000⟩,
  ⟨0x1200, 1, 0x0F, 0x0F, "bringup_timeout_ms", .u32, 4, .rws, 2, (some 5000), 500, 60000⟩,
  ⟨0x1200, 1, 0x10, 0x10, "last_change_time", .time80, 10, .ro, 0, (some 0), 0, (2 ^ 80 - 1)⟩,
  ⟨0x1201, 1, 0x00, 0x07, "die_mode", .enum8, 1, .ro, 0, (some 1), 0, 255⟩,
  ⟨0x1202, 1, 0x00, 0x07, "lost_units", .bits32, 4, .ro, 0, (some 0), 0, 4294967295⟩,
  ⟨0x1203, 1, 0x00, 0x07, "function_ready", .bits32, 4, .ro, 0, (some 0), 0, 4294967295⟩,
  ⟨0x1300, 1, 0x01, 0x01, "domains_on", .u16, 2, .ro, 0, (some 0), 0, 65535⟩,
  ⟨0x1300, 1, 0x02, 0x02, "domain_switches", .u64, 8, .rc, 0, (some 0), 0, 18446744073709551615⟩,
  ⟨0x1300, 1, 0x03, 0x03, "vin_mv", .u16, 2, .ro, 0, none, 0, 65535⟩,
  ⟨0x1300, 1, 0x04, 0x04, "input_power_w", .u16, 2, .ro, 0, none, 0, 65535⟩,
  ⟨0x1300, 1, 0x05, 0x05, "cfg_strap", .u8, 1, .ro, 0, none, 0, 255⟩,
  ⟨0x1300, 1, 0x06, 0x06, "therm_warn_c", .u8, 1, .rws, 1, (some 100), 70, 105⟩,
  ⟨0x1310, 8, 0x00, 0x4F, "domain_state", .enum8, 1, .ro, 0, (some 0), 0, 255⟩,
  ⟨0x1320, 8, 0x00, 0x4F, "domain_request", .enum8, 1, .rws, 2, (some 0), 0, 1⟩,
  ⟨0x1330, 8, 0x01, 0x08, "rail_mv", .u16, 2, .ro, 0, none, 0, 65535⟩,
  ⟨0x1330, 8, 0x11, 0x18, "rail_ma", .u32, 4, .ro, 0, none, 0, 4294967295⟩,
  ⟨0x1330, 8, 0x20, 0x20, "tj_c", .s32, 4, .ro, 0, none, 0, 4294967295⟩,
  ⟨0x1330, 8, 0x21, 0x21, "tj_peak_c", .s32, 4, .rc, 0, none, 0, 4294967295⟩,
  ⟨0x1330, 8, 0x22, 0x22, "die_power_w", .u16, 2, .ro, 0, none, 0, 65535⟩,
  ⟨0x1400, 1, 0x01, 0x05, "class_count", .u64, 8, .rc, 0, (some 0), 0, 18446744073709551615⟩,
  ⟨0x1400, 1, 0x06, 0x06, "first_fault", .octets, 24, .ro, 0, (some 0), 0, (2 ^ 192 - 1)⟩,
  ⟨0x1400, 1, 0x07, 0x07, "first_fault_clear", .cmd, 0, .cmd, 2, none, 0, 0⟩,
  ⟨0x1400, 1, 0x08, 0x08, "first_fault_class", .enum8, 1, .rws, 2, (some 3), 1, 5⟩,
  ⟨0x1400, 1, 0x09, 0x09, "alert_class", .enum8, 1, .rws, 1, (some 3), 1, 5⟩,
  ⟨0x1400, 1, 0x0A, 0x0A, "unacknowledged", .u32, 4, .ro, 0, (some 0), 0, 4294967295⟩,
  ⟨0x1400, 1, 0x0B, 0x0B, "log_ack", .u32, 4, .cmd, 1, none, 0, 4294967295⟩,
  ⟨0x1400, 1, 0x0C, 0x0C, "log_newest", .u32, 4, .ro, 0, (some 0), 0, 4294967295⟩,
  ⟨0x1400, 1, 0x0D, 0x0D, "log_oldest", .u32, 4, .ro, 0, (some 0), 0, 4294967295⟩,
  ⟨0x1400, 1, 0x0E, 0x0E, "fault_vector", .u8, 1, .rws, 1, (some 2), 0, 63⟩,
  ⟨0x1400, 1, 0x0F, 0x0F, "merge_window_us", .u16, 2, .rws, 2, (some 1000), 0, 10000⟩,
  ⟨0x1400, 1, 0x10, 0x10, "messages_lost", .u64, 8, .rc, 0, (some 0), 0, 18446744073709551615⟩,
  ⟨0x1401, 1, 0x01, 0x01, "log_read", .octets, 4, .cmd, 0, none, 0, 4294967295⟩,
  ⟨0x1401, 1, 0x02, 0x02, "die_log_read", .octets, 4, .cmd, 0, none, 0, 4294967295⟩,
  ⟨0x1402, 1, 0x01, 0x01, "dump_sections", .bits32, 4, .rws, 2, (some 52), 0, 63⟩,
  ⟨0x1402, 1, 0x02, 0x02, "dump_now", .bits32, 4, .cmd, 2, none, 0, 4294967295⟩,
  ⟨0x1402, 1, 0x03, 0x03, "dump_ack", .bits32, 4, .cmd, 2, none, 0, 4294967295⟩,
  ⟨0x1402, 1, 0x04, 0x04, "host_dump_rva", .u64, 8, .rws, 2, (some 0), 0, 18446744073709551615⟩,
  ⟨0x1402, 1, 0x05, 0x05, "host_dump_bytes", .u64, 8, .rws, 2, (some 0), 0, 18446744073709551615⟩,
  ⟨0x1402, 1, 0x06, 0x06, "host_dump_endpoint", .u8, 1, .rws, 2, (some 0), 0, 255⟩,
  ⟨0x1402, 1, 0x07, 0x07, "reset_hold_ms", .u16, 2, .rws, 2, (some 1000), 100, 10000⟩,
  ⟨0x1402, 1, 0x08, 0x08, "dump_sequence", .u32, 4, .ro, 0, (some 0), 0, 4294967295⟩,
  ⟨0x1410, 8, 0x01, 0x01, "die_first_fault", .octets, 24, .ro, 0, (some 0), 0, (2 ^ 192 - 1)⟩,
  ⟨0x1410, 8, 0x02, 0x02, "die_records", .u32, 4, .ro, 0, (some 0), 0, 4294967295⟩,
  ⟨0x1410, 8, 0x03, 0x03, "dump_state", .enum8, 1, .ro, 0, (some 0), 0, 255⟩,
  ⟨0x1410, 8, 0x04, 0x04, "slot_a_sequence", .u32, 4, .ro, 0, (some 0), 0, 4294967295⟩,
  ⟨0x1410, 8, 0x05, 0x05, "slot_b_sequence", .u32, 4, .ro, 0, (some 0), 0, 4294967295⟩,
  ⟨0x1410, 8, 0x06, 0x06, "slots_unacked", .bits32, 4, .ro, 0, (some 0), 0, 4294967295⟩,
  ⟨0x1410, 8, 0x07, 0x07, "last_length", .u64, 8, .ro, 0, (some 0), 0, 18446744073709551615⟩,
  ⟨0x1410, 8, 0x08, 0x08, "last_destination", .enum8, 1, .ro, 0, (some 0), 0, 255⟩,
  ⟨0x1410, 8, 0x09, 0x09, "dumps_lost", .u32, 4, .rc, 0, (some 0), 0, 4294967295⟩,
  ⟨0x1440, 1, 0x01, 0x01, "fault_inject", .octets, 16, .cmd, 3, none, 0, (2 ^ 128 - 1)⟩,
  ⟨0x1500, 1, 0x01, 0x01, "active_slot", .u8, 1, .ro, 0, none, 0, 255⟩]

/-- Rows from index 1500 on. -/
def entries2 : List EntryRow := [
  ⟨0x1500, 1, 0x02, 0x03, "slot_state", .enum8, 1, .ro, 0, none, 0, 255⟩,
  ⟨0x1500, 1, 0x04, 0x04, "staged_version", .u32, 4, .ro, 0, (some 0), 0, 4294967295⟩,
  ⟨0x1500, 1, 0x05, 0x05, "previous_version", .u32, 4, .ro, 0, (some 0), 0, 4294967295⟩,
  ⟨0x1500, 1, 0x06, 0x06, "rollback_counter", .u32, 4, .ro, 0, (some 0), 0, 4294967295⟩,
  ⟨0x1500, 1, 0x07, 0x07, "probation_state", .enum8, 1, .ro, 0, (some 0), 0, 255⟩,
  ⟨0x1500, 1, 0x08, 0x08, "probation_window_s", .u32, 4, .rws, 2, (some 1800), 60, 86400⟩,
  ⟨0x1500, 1, 0x09, 0x09, "probation_left_s", .u32, 4, .ro, 0, (some 0), 0, 4294967295⟩,
  ⟨0x1500, 1, 0x0A, 0x0A, "activate", .cmd, 0, .cmd, 2, none, 0, 0⟩,
  ⟨0x1500, 1, 0x0B, 0x0B, "confirm", .cmd, 0, .cmd, 2, none, 0, 0⟩,
  ⟨0x1500, 1, 0x0C, 0x0C, "revert", .cmd, 0, .cmd, 2, none, 0, 0⟩,
  ⟨0x1500, 1, 0x0D, 0x0D, "activation_result", .enum8, 1, .ro, 0, (some 0), 0, 255⟩,
  ⟨0x1501, 1, 0x01, 0x01, "session_state", .enum8, 1, .ro, 0, (some 0), 0, 255⟩,
  ⟨0x1501, 1, 0x02, 0x02, "session_source", .enum8, 1, .ro, 0, (some 0), 0, 255⟩,
  ⟨0x1501, 1, 0x03, 0x03, "transfer_id", .u32, 4, .ro, 0, (some 0), 0, 4294967295⟩,
  ⟨0x1501, 1, 0x04, 0x04, "blocks_applied", .u32, 4, .ro, 0, (some 0), 0, 4294967295⟩,
  ⟨0x1501, 1, 0x05, 0x05, "host_offer", .octets, 128, .cmd, 2, none, 0, (2 ^ 1024 - 1)⟩,
  ⟨0x1501, 1, 0x06, 0x06, "host_block", .octets, 1032, .cmd, 2, none, 0, (2 ^ 8256 - 1)⟩,
  ⟨0x1501, 1, 0x07, 0x07, "host_end", .cmd, 0, .cmd, 2, none, 0, 0⟩,
  ⟨0x1501, 1, 0x08, 0x08, "abort", .cmd, 0, .cmd, 2, none, 0, 0⟩,
  ⟨0x1501, 1, 0x09, 0x09, "disposition", .enum8, 1, .ro, 0, (some 0), 0, 255⟩,
  ⟨0x1501, 1, 0x0A, 0x0A, "reject_cause", .enum8, 1, .ro, 0, (some 0), 0, 255⟩,
  ⟨0x1502, 1, 0x01, 0x01, "chain_enable", .bool, 1, .rws, 2, (some 1), 0, 1⟩,
  ⟨0x1502, 1, 0x02, 0x02, "chain_key_slot", .u8, 1, .rws, 2, (some 15), 0, 15⟩,
  ⟨0x1502, 1, 0x03, 0x03, "relay_state", .enum8, 1, .ro, 0, (some 0), 0, 255⟩,
  ⟨0x1502, 1, 0x04, 0x04, "relay_transfer_id", .u32, 4, .ro, 0, (some 0), 0, 4294967295⟩,
  ⟨0x1502, 1, 0x05, 0x05, "block_crc_failures", .u64, 8, .rc, 0, (some 0), 0, 18446744073709551615⟩,
  ⟨0x1502, 1, 0x06, 0x06, "blocks_relayed", .u64, 8, .rc, 0, (some 0), 0, 18446744073709551615⟩,
  ⟨0x1502, 1, 0x07, 0x07, "offers_refused", .u64, 8, .rc, 0, (some 0), 0, 18446744073709551615⟩,
  ⟨0x1503, 1, 0x01, 0x01, "settings_slot", .enum8, 1, .ro, 0, (some 0), 0, 255⟩,
  ⟨0x1503, 1, 0x02, 0x02, "settings_format", .u16, 2, .ro, 0, none, 0, 65535⟩,
  ⟨0x1503, 1, 0x03, 0x03, "settings_state", .enum8, 1, .ro, 0, (some 0), 0, 255⟩,
  ⟨0x1503, 1, 0x04, 0x04, "saves_pending", .u32, 4, .ro, 0, (some 0), 0, 4294967295⟩,
  ⟨0x1503, 1, 0x05, 0x05, "settings_accept", .cmd, 0, .cmd, 2, none, 0, 0⟩,
  ⟨0x1503, 1, 0x06, 0x06, "settings_fallback", .cmd, 0, .cmd, 2, none, 0, 0⟩,
  ⟨0x1600, 1, 0x01, 0x01, "meridian_time", .time80, 10, .ro, 0, none, 0, (2 ^ 80 - 1)⟩,
  ⟨0x1600, 1, 0x02, 0x02, "meridian_set", .time80, 10, .cmd, 2, none, 0, (2 ^ 80 - 1)⟩,
  ⟨0x1600, 1, 0x03, 0x03, "meridian_step_ns", .s32, 4, .cmd, 2, none, (-2147483648), 2147483647⟩,
  ⟨0x1600, 1, 0x04, 0x04, "freq_adj", .s32, 4, .rw, 2, (some 0), (-500000000), 500000000⟩,
  ⟨0x1600, 1, 0x05, 0x05, "time_source", .enum8, 1, .ro, 0, (some 0), 0, 255⟩,
  ⟨0x1600, 1, 0x06, 0x06, "pps_out_enable", .bool, 1, .rws, 1, (some 0), 0, 1⟩,
  ⟨0x1600, 1, 0x07, 0x07, "pps_in_time", .time80, 10, .ro, 0, (some 0), 0, (2 ^ 80 - 1)⟩,
  ⟨0x1600, 1, 0x08, 0x08, "pps_in_count", .u32, 4, .ro, 0, (some 0), 0, 4294967295⟩,
  ⟨0x1600, 1, 0x09, 0x09, "steps", .u32, 4, .rc, 0, (some 0), 0, 4294967295⟩,
  ⟨0x1600, 1, 0x0A, 0x0A, "die_skew_ns", .u16, 2, .ro, 0, (some 0), 0, 65535⟩,
  ⟨0x1700, 1, 0x01, 0x01, "transit_enable", .bool, 1, .rws, 2, (some 1), 0, 1⟩,
  ⟨0x1700, 1, 0x02, 0x02, "bank_interval_s", .u32, 4, .rws, 2, (some 60), 10, 86400⟩,
  ⟨0x1700, 1, 0x03, 0x03, "engine_interval_ms", .u32, 4, .rws, 2, (some 10), 1, 60000⟩,
  ⟨0x1700, 1, 0x04, 0x04, "cstore_interval_ms", .u32, 4, .rws, 2, (some 100), 1, 60000⟩,
  ⟨0x1700, 1, 0x05, 0x05, "segment_interval_ms", .u32, 4, .rws, 2, (some 1), 1, 60000⟩,
  ⟨0x1700, 1, 0x06, 0x06, "engine_drain_us", .u32, 4, .rws, 2, (some 100), 10, 10000⟩,
  ⟨0x1710, 8, 0x01, 0x01, "slices_run", .u64, 8, .rc, 0, (some 0), 0, 18446744073709551615⟩,
  ⟨0x1710, 8, 0x02, 0x02, "slices_skipped", .u64, 8, .rc, 0, (some 0), 0, 18446744073709551615⟩,
  ⟨0x1710, 8, 0x03, 0x03, "slices_abandoned", .u64, 8, .rc, 0, (some 0), 0, 18446744073709551615⟩,
  ⟨0x1710, 8, 0x04, 0x04, "slice_failures", .u64, 8, .rc, 0, (some 0), 0, 18446744073709551615⟩,
  ⟨0x1710, 8, 0x05, 0x05, "active_slices", .bits32, 4, .ro, 0, (some 0), 0, 4294967295⟩,
  ⟨0x1710, 8, 0x06, 0x06, "next_targets", .u64, 8, .ro, 0, (some 0), 0, 18446744073709551615⟩,
  ⟨0x1710, 8, 0x07, 0x07, "spare_state", .enum8, 1, .ro, 0, (some 0), 0, 255⟩,
  ⟨0x1710, 8, 0x08, 0x08, "last_skip_cause", .enum8, 1, .ro, 0, (some 0), 0, 255⟩,
  ⟨0x1720, 1, 0x01, 0x01, "diag_loopback", .octets, 4, .cmd, 2, none, 0, 4294967295⟩,
  ⟨0x1720, 1, 0x02, 0x02, "diag_pattern", .octets, 4, .cmd, 2, none, 0, 4294967295⟩]

/-- Rows from index 1720 on. -/
def entries3 : List EntryRow := [
  ⟨0x1720, 1, 0x03, 0x03, "diag_checker_errors", .u64, 8, .rc, 0, (some 0), 0, 18446744073709551615⟩,
  ⟨0x1800, 1, 0x01, 0x01, "summit_die", .u8, 1, .ro, 0, none, 0, 255⟩,
  ⟨0x1800, 1, 0x02, 0x02, "election_count", .u32, 4, .ro, 0, (some 0), 0, 4294967295⟩,
  ⟨0x1800, 1, 0x03, 0x03, "beacon_state", .enum8, 1, .ro, 0, (some 0), 0, 255⟩,
  ⟨0x1800, 1, 0x04, 0x04, "dies_present", .bits32, 4, .ro, 0, none, 0, 4294967295⟩,
  ⟨0x1800, 1, 0x05, 0x05, "dies_healthy", .bits32, 4, .ro, 0, none, 0, 4294967295⟩,
  ⟨0x1800, 1, 0x06, 0x06, "dies_isolated", .bits32, 4, .ro, 0, (some 0), 0, 4294967295⟩,
  ⟨0x1800, 1, 0x07, 0x07, "die_exclude", .bits32, 4, .rws, 2, (some 0), 0, 4294967295⟩,
  ⟨0x1800, 1, 0x08, 0x08, "die_rejoin", .bits32, 4, .cmd, 2, none, 0, 4294967295⟩,
  ⟨0x1800, 1, 0x09, 0x09, "partition_rule", .enum8, 1, .ro, 0, (some 0), 0, 255⟩,
  ⟨0x1800, 1, 0x0A, 0x0A, "last_broadcast_result", .bits32, 4, .ro, 0, (some 0), 0, 4294967295⟩,
  ⟨0x1800, 1, 0x0B, 0x0B, "topology_generation", .u32, 4, .ro, 0, (some 0), 0, 4294967295⟩,
  ⟨0x1810, 1, 0x00, 0xFF, "home_die", .u8, 1, .rws, 2, none, 0, 255⟩,
  ⟨0x2010, 1, 0x01, 0x01, "flow_hash_seed", .u32, 4, .rws, 2, (some 4294967295), 0, 4294967295⟩,
  ⟨0x2020, 1, 0x02, 0x02, "inject_program", .u8, 1, .rws, 2, (some 0), 0, 7⟩,
  ⟨0x2020, 1, 0x03, 0x03, "recirc_program", .u8, 1, .rws, 2, (some 0), 0, 7⟩,
  ⟨0x2020, 1, 0x04, 0x04, "extra_tpid", .u16, 2, .rws, 2, (some 37120), 1536, 65535⟩,
  ⟨0x2021, 1, 0x00, 0xFF, "port_program_lo", .u8, 1, .rws, 2, (some 0), 0, 7⟩,
  ⟨0x2022, 1, 0x00, 0xFF, "port_program_hi", .u8, 1, .rws, 2, (some 0), 0, 7⟩,
  ⟨0x2030, 1, 0x01, 0x0F, "malformed_action", .enum8, 1, .rws, 2, none, 0, 2⟩,
  ⟨0x2040, 8, 0x01, 0x01, "protocols", .bits32, 4, .rws, 2, (some 16379), 0, 16383⟩,
  ⟨0x2040, 8, 0x02, 0x02, "max_vlan_tags", .u8, 1, .rws, 2, (some 2), 0, 2⟩,
  ⟨0x2040, 8, 0x03, 0x03, "max_mpls_labels", .u8, 1, .rws, 2, (some 8), 1, 8⟩,
  ⟨0x2040, 8, 0x04, 0x04, "max_ipv6_ext", .u8, 1, .rws, 2, (some 4), 0, 6⟩,
  ⟨0x2040, 8, 0x05, 0x05, "key_select", .enum8, 1, .rws, 2, (some 0), 0, 1⟩,
  ⟨0x2040, 8, 0x06, 0x06, "tunnel_decode", .bool, 1, .rws, 2, (some 1), 0, 1⟩,
  ⟨0x2040, 8, 0x07, 0x07, "vxlan_udp_port", .u16, 2, .rws, 2, (some 4789), 1, 65535⟩,
  ⟨0x2040, 8, 0x08, 0x08, "mpls_payload", .enum8, 1, .rws, 2, (some 0), 0, 1⟩,
  ⟨0x2040, 8, 0x09, 0x09, "ipv4_checksum_check", .bool, 1, .rws, 2, (some 1), 0, 1⟩,
  ⟨0x2100, 1, 0x01, 0x01, "fib_seed_a", .u32, 4, .rws, 2, (some 2654435769), 0, 4294967295⟩,
  ⟨0x2100, 1, 0x02, 0x02, "fib_seed_b", .u32, 4, .rws, 2, (some 2135587861), 0, 4294967295⟩,
  ⟨0x2100, 1, 0x03, 0x03, "hot_bytes", .u32, 4, .ro, 0, (some 0), 0, 4294967295⟩,
  ⟨0x2100, 1, 0x04, 0x04, "deep_bytes_per_die", .u64, 8, .ro, 0, (some 0), 0, 18446744073709551615⟩,
  ⟨0x2101, 1, 0x01, 0x01, "ipv4_hot", .u32, 4, .ro, 0, (some 0), 0, 4294967295⟩,
  ⟨0x2101, 1, 0x02, 0x02, "ipv6_hot", .u32, 4, .ro, 0, (some 0), 0, 4294967295⟩,
  ⟨0x2101, 1, 0x03, 0x03, "ipv4_deep", .u32, 4, .ro, 0, (some 0), 0, 4294967295⟩,
  ⟨0x2101, 1, 0x04, 0x04, "ipv6_deep", .u32, 4, .ro, 0, (some 0), 0, 4294967295⟩,
  ⟨0x2101, 1, 0x05, 0x05, "stems", .u32, 4, .ro, 0, (some 0), 0, 4294967295⟩,
  ⟨0x2101, 1, 0x06, 0x06, "root_prefixes", .u32, 4, .ro, 0, (some 0), 0, 4294967295⟩,
  ⟨0x2101, 1, 0x07, 0x07, "deep_only_placements", .u32, 4, .rc, 0, (some 0), 0, 4294967295⟩,
  ⟨0x2110, 1, 0x11, 0x20, "ipv4_hot_buckets", .u32, 4, .rws, 2, (some 0), 0, 4294967295⟩,
  ⟨0x2111, 1, 0x21, 0x80, "ipv6_hot_buckets", .u32, 4, .rws, 2, (some 0), 0, 4294967295⟩,
  ⟨0x2112, 1, 0x08, 0x20, "ipv4_deep_buckets", .u32, 4, .rws, 2, (some 0), 0, 4294967295⟩,
  ⟨0x2113, 1, 0x14, 0x80, "ipv6_deep_buckets", .u32, 4, .rws, 2, (some 0), 0, 4294967295⟩,
  ⟨0x2200, 1, 0x01, 0x01, "exact_seed_a", .u32, 4, .rws, 2, (some 608135816), 0, 4294967295⟩,
  ⟨0x2200, 1, 0x02, 0x02, "exact_seed_b", .u32, 4, .rws, 2, (some 2242054355), 0, 4294967295⟩,
  ⟨0x2200, 1, 0x03, 0x03, "learn_mode", .enum8, 1, .ro, 0, none, 0, 255⟩,
  ⟨0x2200, 1, 0x04, 0x04, "learn_hold_us", .u16, 2, .rws, 1, (some 100), 0, 10000⟩,
  ⟨0x2200, 1, 0x05, 0x05, "learn_notify", .bool, 1, .rws, 1, (some 0), 0, 1⟩,
  ⟨0x2210, 3, 0x01, 0x01, "age_method", .enum8, 1, .rws, 1, none, 0, 2⟩,
  ⟨0x2210, 3, 0x02, 0x02, "age_tick_us", .u32, 4, .rws, 1, (some 10000), 10, 1000000⟩,
  ⟨0x2210, 3, 0x03, 0x03, "age_limit", .u16, 2, .rws, 1, (some 30000), 1, 32767⟩,
  ⟨0x2210, 3, 0x04, 0x04, "sweep_rate", .u32, 4, .rws, 1, none, 1024, 4194304⟩,
  ⟨0x2220, 1, 0x01, 0x12, "shadow_mode", .enum8, 1, .rws, 2, (some 0), 0, 2⟩,
  ⟨0x2221, 1, 0x01, 0x01, "shadow_home_die", .u8, 1, .rws, 2, (some 0), 0, 255⟩,
  ⟨0x2221, 1, 0x02, 0x02, "scrub_rate", .u32, 4, .rws, 1, (some 1048576), 0, 16777216⟩,
  ⟨0x2222, 1, 0x01, 0x12, "shadow_offset", .u64, 8, .ro, 0, none, 0, 18446744073709551615⟩,
  ⟨0x2300, 1, 0x01, 0x01, "epoch_current", .u8, 1, .ro, 0, (some 0), 0, 255⟩,
  ⟨0x2300, 1, 0x02, 0x02, "epoch_retiring", .u8, 1, .ro, 0, (some 255), 0, 255⟩,
  ⟨0x2300, 1, 0x03, 0x03, "epoch_next", .u8, 1, .ro, 0, (some 1), 0, 255⟩]

/-- Rows from index 2300 on. -/
def entries4 : List EntryRow := [
  ⟨0x2300, 1, 0x04, 0x04, "retire_state", .enum8, 1, .ro, 0, (some 0), 0, 255⟩,
  ⟨0x2300, 1, 0x05, 0x05, "retire_timeout_us", .u32, 4, .rws, 2, (some 1000), 10, 100000⟩,
  ⟨0x2300, 1, 0x06, 0x06, "epoch_swap", .cmd, 0, .cmd, 2, none, 0, 0⟩,
  ⟨0x2300, 1, 0x07, 0x07, "epoch_inherit", .cmd, 0, .cmd, 2, none, 0, 0⟩,
  ⟨0x2300, 1, 0x08, 0x08, "epoch_discard_next", .cmd, 0, .cmd, 2, none, 0, 0⟩,
  ⟨0x2300, 1, 0x09, 0x09, "force_retire", .cmd, 0, .cmd, 2, none, 0, 0⟩,
  ⟨0x2300, 1, 0x0A, 0x0A, "swap_count", .u32, 4, .ro, 0, (some 0), 0, 4294967295⟩,
  ⟨0x2300, 1, 0x0B, 0x0B, "last_swap_time", .time80, 10, .ro, 0, (some 0), 0, (2 ^ 80 - 1)⟩,
  ⟨0x2300, 1, 0x0C, 0x0C, "last_retire_ns", .u32, 4, .ro, 0, (some 0), 0, 4294967295⟩,
  ⟨0x2300, 1, 0x0D, 0x0D, "holders_retiring", .u32, 4, .ro, 0, (some 0), 0, 4294967295⟩,
  ⟨0x2310, 1, 0x00, 0x0D, "rules_current", .u32, 4, .ro, 0, (some 0), 0, 4294967295⟩,
  ⟨0x2310, 1, 0x0E, 0x0E, "entries_used", .u32, 4, .ro, 0, (some 0), 0, 4294967295⟩,
  ⟨0x2340, 64, 0x01, 0x01, "mirror_kind", .enum8, 1, .rws, 1, (some 0), 0, 3⟩,
  ⟨0x2340, 64, 0x02, 0x02, "mirror_dest", .u32, 4, .rws, 1, (some 0), 0, 1048574⟩,
  ⟨0x2340, 64, 0x03, 0x03, "mirror_tc", .u8, 1, .rws, 1, (some 0), 0, 7⟩,
  ⟨0x2340, 64, 0x04, 0x04, "mirror_truncate", .u16, 2, .rws, 1, (some 0), 0, 16128⟩,
  ⟨0x2340, 64, 0x05, 0x05, "mirror_point", .enum8, 1, .rws, 1, (some 0), 0, 1⟩,
  ⟨0x3000, 1, 0x01, 0x01, "meters_configured", .u32, 4, .ro, 0, (some 0), 0, 4294967295⟩,
  ⟨0x3010, 16, 0x10, 0x1C, "tpl_band", .u8, 1, .rws, 2, none, 0, 3⟩,
  ⟨0x3010, 16, 0x20, 0x2C, "tpl_weight", .u16, 2, .rws, 2, (some 16), 1, 4096⟩,
  ⟨0x3010, 16, 0x70, 0x77, "tpl_queue_group", .u8, 1, .rws, 2, (some 0), 0, 3⟩,
  ⟨0x4000, 1, 0x01, 0x04, "lane_group_mode", .enum8, 1, .rws, 2, (some 0), 0, 5⟩,
  ⟨0x4010, 64, 0x01, 0x01, "port_enable", .bool, 1, .rws, 1, (some 0), 0, 1⟩,
  ⟨0x4010, 64, 0x02, 0x02, "max_frame", .u16, 2, .rws, 1, (some 9216), 1518, 16128⟩,
  ⟨0x4010, 64, 0x03, 0x03, "ct_rx", .bool, 1, .rws, 1, (some 0), 0, 1⟩,
  ⟨0x4010, 64, 0x04, 0x04, "ct_tx", .bool, 1, .rws, 1, (some 0), 0, 1⟩,
  ⟨0x4010, 64, 0x05, 0x05, "ct_tx_guard_bytes", .u16, 2, .rws, 1, (some 1024), 256, 16128⟩,
  ⟨0x4010, 64, 0x06, 0x06, "mac_address", .octets, 6, .rws, 1, (some 0), 0, 281474976710655⟩,
  ⟨0x4010, 64, 0x07, 0x07, "pause_quanta", .u16, 2, .rws, 1, (some 65535), 1, 65535⟩,
  ⟨0x4010, 64, 0x08, 0x08, "pause_refresh", .u16, 2, .rws, 1, (some 32768), 0, 65535⟩,
  ⟨0x4010, 64, 0x09, 0x09, "pcp_priority", .u32, 4, .rws, 1, (some 16434824), 0, 16777215⟩,
  ⟨0x4010, 64, 0x0A, 0x0A, "default_priority", .u8, 1, .rws, 1, (some 0), 0, 7⟩,
  ⟨0x4010, 64, 0x0B, 0x0B, "tc_priority", .u32, 4, .rws, 1, (some 16434824), 0, 4294967295⟩,
  ⟨0x4010, 64, 0x0C, 0x0C, "an_enable", .bool, 1, .rws, 1, (some 0), 0, 1⟩,
  ⟨0x4010, 64, 0x0D, 0x0D, "link_up_hold_ms", .u16, 2, .rws, 1, (some 10), 0, 10000⟩,
  ⟨0x4010, 64, 0x0E, 0x0E, "ts_rx_adjust_ps", .s32, 4, .rws, 2, (some 0), (-1000000), 1000000⟩,
  ⟨0x4010, 64, 0x0F, 0x0F, "ts_tx_adjust_ps", .s32, 4, .rws, 2, (some 0), (-1000000), 1000000⟩,
  ⟨0x4010, 64, 0x10, 0x10, "ts_id_offset", .u8, 1, .rws, 1, (some 44), 0, 124⟩,
  ⟨0x4050, 64, 0x01, 0x01, "link_state", .enum8, 1, .ro, 0, (some 0), 0, 255⟩,
  ⟨0x4050, 64, 0x02, 0x02, "rate_gbps", .u16, 2, .ro, 0, (some 0), 0, 65535⟩,
  ⟨0x4050, 64, 0x03, 0x03, "link_changes", .u32, 4, .rc, 0, (some 0), 0, 4294967295⟩,
  ⟨0x4050, 64, 0x04, 0x04, "paused_by_peer", .bits32, 4, .ro, 0, (some 0), 0, 4294967295⟩,
  ⟨0x4050, 64, 0x05, 0x05, "xoff_sent", .bits32, 4, .ro, 0, (some 0), 0, 4294967295⟩,
  ⟨0x4050, 64, 0x06, 0x06, "fifo_free", .u16, 2, .ro, 0, none, 0, 65535⟩,
  ⟨0x4050, 64, 0x07, 0x07, "lane_phase", .u8, 1, .ro, 0, (some 0), 0, 255⟩,
  ⟨0x4050, 64, 0x08, 0x08, "ts_records_lost", .u64, 8, .rc, 0, (some 0), 0, 18446744073709551615⟩,
  ⟨0x4100, 1, 0x01, 0x01, "fabric_die_id", .u16, 2, .rws, 2, (some 16383), 0, 16383⟩,
  ⟨0x4100, 1, 0x02, 0x02, "link_enable", .bits32, 4, .rws, 1, (some 0), 0, 4294967295⟩,
  ⟨0x4100, 1, 0x03, 0x03, "link_set_size", .u8, 1, .rws, 2, (some 4), 1, 8⟩,
  ⟨0x4100, 1, 0x04, 0x04, "stepdown_enable", .bool, 1, .rws, 1, (some 1), 0, 1⟩,
  ⟨0x4100, 1, 0x05, 0x05, "stepdown_dwell_us", .u32, 4, .rws, 1, (some 1000), 10, 100000⟩,
  ⟨0x4100, 1, 0x06, 0x06, "stepdown_pct", .u8, 1, .rws, 1, (some 30), 1, 49⟩,
  ⟨0x4100, 1, 0x07, 0x07, "return_pct", .u8, 1, .rws, 1, (some 60), 2, 99⟩,
  ⟨0x4100, 1, 0x08, 0x08, "grant_cells", .u16, 2, .rws, 2, (some 16), 4, 256⟩,
  ⟨0x4100, 1, 0x09, 0x09, "credit_audit_us", .u32, 4, .rws, 2, (some 1000), 100, 100000⟩,
  ⟨0x4100, 1, 0x0A, 0x0A, "retrain_limit", .u8, 1, .rws, 2, (some 8), 1, 255⟩,
  ⟨0x4100, 1, 0x0B, 0x0B, "demand_retry_us", .u16, 2, .rws, 1, (some 10), 1, 1000⟩,
  ⟨0x4110, 32, 0x01, 0x01, "state", .enum8, 1, .ro, 0, (some 0), 0, 255⟩,
  ⟨0x4110, 32, 0x02, 0x02, "peer_id", .u16, 2, .ro, 0, (some 0), 0, 65535⟩,
  ⟨0x4110, 32, 0x03, 0x03, "peer_link", .u8, 1, .ro, 0, (some 0), 0, 255⟩]

/-- Rows from index 4110 on. -/
def entries5 : List EntryRow := [
  ⟨0x4110, 32, 0x04, 0x04, "tx_data_credit", .u16, 2, .ro, 0, (some 0), 0, 65535⟩,
  ⟨0x4110, 32, 0x05, 0x05, "replays", .u64, 8, .rc, 0, (some 0), 0, 18446744073709551615⟩,
  ⟨0x4110, 32, 0x06, 0x06, "corrected_cw", .u64, 8, .rc, 0, (some 0), 0, 18446744073709551615⟩,
  ⟨0x4110, 32, 0x07, 0x07, "uncorrectable_cw", .u64, 8, .rc, 0, (some 0), 0, 18446744073709551615⟩,
  ⟨0x4110, 32, 0x08, 0x08, "cells_tx", .u64, 8, .ro, 0, (some 0), 0, 18446744073709551615⟩,
  ⟨0x4110, 32, 0x09, 0x09, "cells_rx", .u64, 8, .ro, 0, (some 0), 0, 18446744073709551615⟩,
  ⟨0x4110, 32, 0x0A, 0x0A, "restarts", .u32, 4, .rc, 0, (some 0), 0, 4294967295⟩,
  ⟨0x4110, 32, 0x0B, 0x0B, "tx_util_pct", .u8, 1, .ro, 0, (some 0), 0, 255⟩,
  ⟨0x4110, 32, 0x0C, 0x0C, "fence_cause", .enum8, 1, .ro, 0, (some 0), 0, 255⟩,
  ⟨0x4130, 1, 0x01, 0x01, "demands_tx", .u64, 8, .rc, 0, (some 0), 0, 18446744073709551615⟩,
  ⟨0x4130, 1, 0x02, 0x02, "grants_tx", .u64, 8, .rc, 0, (some 0), 0, 18446744073709551615⟩,
  ⟨0x4130, 1, 0x03, 0x03, "credit_entries", .u32, 4, .ro, 0, (some 0), 0, 4294967295⟩,
  ⟨0x4130, 1, 0x04, 0x04, "grant_stall_cycles", .u64, 8, .rc, 0, (some 0), 0, 18446744073709551615⟩,
  ⟨0x4130, 1, 0x05, 0x05, "credit_table_full", .u64, 8, .rc, 0, (some 0), 0, 18446744073709551615⟩,
  ⟨0x4130, 1, 0x06, 0x06, "cells_lost", .u64, 8, .rc, 0, (some 0), 0, 18446744073709551615⟩,
  ⟨0x4130, 1, 0x07, 0x07, "duplicates", .u64, 8, .rc, 0, (some 0), 0, 18446744073709551615⟩,
  ⟨0x4130, 1, 0x08, 0x08, "packets_resent", .u64, 8, .rc, 0, (some 0), 0, 18446744073709551615⟩,
  ⟨0x4130, 1, 0x09, 0x09, "reassembly_open", .u16, 2, .ro, 0, (some 0), 0, 65535⟩,
  ⟨0x4200, 1, 0x01, 0x01, "stepdown_enable", .bool, 1, .rws, 1, (some 1), 0, 1⟩,
  ⟨0x4200, 1, 0x02, 0x02, "stepdown_dwell_us", .u32, 4, .rws, 1, (some 1000), 10, 100000⟩,
  ⟨0x4200, 1, 0x03, 0x03, "stepdown_pct", .u8, 1, .rws, 1, (some 30), 1, 49⟩,
  ⟨0x4200, 1, 0x04, 0x04, "return_pct", .u8, 1, .rws, 1, (some 60), 2, 99⟩,
  ⟨0x4210, 4, 0x01, 0x01, "state", .enum8, 1, .ro, 0, none, 0, 255⟩,
  ⟨0x4210, 4, 0x02, 0x02, "tx_lanes", .u8, 1, .ro, 0, none, 0, 255⟩,
  ⟨0x4210, 4, 0x03, 0x03, "tx_util_pct", .u8, 1, .ro, 0, (some 0), 0, 255⟩,
  ⟨0x4210, 4, 0x04, 0x04, "replays", .u64, 8, .rc, 0, (some 0), 0, 18446744073709551615⟩,
  ⟨0x4210, 4, 0x05, 0x05, "fence_cause", .enum8, 1, .ro, 0, (some 0), 0, 255⟩,
  ⟨0x4210, 4, 0x06, 0x06, "stepdowns", .u32, 4, .rc, 0, (some 0), 0, 4294967295⟩,
  ⟨0x4210, 4, 0x07, 0x07, "flits_tx", .u64, 8, .ro, 0, (some 0), 0, 18446744073709551615⟩,
  ⟨0x4210, 4, 0x08, 0x08, "escape_flits_tx", .u64, 8, .ro, 0, (some 0), 0, 18446744073709551615⟩,
  ⟨0x4300, 1, 0x01, 0x01, "address_order", .enum8, 1, .rws, 2, (some 2), 0, 3⟩,
  ⟨0x4300, 1, 0x02, 0x02, "scheduler", .enum8, 1, .rws, 2, (some 0), 0, 1⟩,
  ⟨0x4300, 1, 0x03, 0x03, "retrain_temp_c", .u8, 1, .rws, 2, (some 12), 4, 30⟩,
  ⟨0x4300, 1, 0x04, 0x04, "margin_threshold", .u8, 1, .rws, 2, (some 6), 2, 32⟩,
  ⟨0x4300, 1, 0x05, 0x05, "auto_retrain", .bool, 1, .rws, 2, (some 1), 0, 1⟩,
  ⟨0x4300, 1, 0x06, 0x06, "retrain_now", .bits32, 4, .cmd, 2, none, 0, 4294967295⟩,
  ⟨0x4300, 1, 0x07, 0x07, "full_train", .bits32, 4, .cmd, 2, none, 0, 4294967295⟩,
  ⟨0x4310, 2, 0x01, 0x01, "state", .enum8, 1, .ro, 0, (some 0), 0, 255⟩,
  ⟨0x4310, 2, 0x02, 0x02, "fence_cause", .enum8, 1, .ro, 0, (some 0), 0, 255⟩,
  ⟨0x4310, 2, 0x03, 0x03, "temp_c", .u8, 1, .ro, 0, (some 0), 0, 255⟩,
  ⟨0x4310, 2, 0x04, 0x04, "refresh_doubled", .bool, 1, .ro, 0, (some 0), 0, 255⟩,
  ⟨0x4310, 2, 0x05, 0x05, "load_pct", .u8, 1, .ro, 0, (some 0), 0, 255⟩,
  ⟨0x4310, 2, 0x06, 0x06, "margin_min", .u8, 1, .ro, 0, (some 0), 0, 255⟩,
  ⟨0x4310, 2, 0x07, 0x07, "retrains", .u32, 4, .rc, 0, (some 0), 0, 4294967295⟩,
  ⟨0x4310, 2, 0x08, 0x08, "full_retrain_required", .bool, 1, .ro, 0, (some 0), 0, 255⟩,
  ⟨0x4310, 2, 0x09, 0x09, "train_step", .u8, 1, .ro, 0, (some 0), 0, 255⟩,
  ⟨0x4310, 2, 0x0A, 0x0A, "stack_ecc_corrected", .u64, 8, .rc, 0, (some 0), 0, 18446744073709551615⟩,
  ⟨0x4310, 2, 0x0B, 0x0B, "replays_corrected", .u64, 8, .rc, 0, (some 0), 0, 18446744073709551615⟩,
  ⟨0x4310, 2, 0x0C, 0x0C, "quarantined", .u16, 2, .ro, 0, (some 0), 0, 65535⟩,
  ⟨0x4310, 2, 0x0D, 0x0D, "inorder_rows", .u64, 8, .rc, 0, (some 0), 0, 18446744073709551615⟩,
  ⟨0x4320, 2, 0x01, 0x01, "pattern_command", .octets, 16, .cmd, 2, none, 0, (2 ^ 128 - 1)⟩,
  ⟨0x4320, 2, 0x02, 0x02, "pattern_state", .enum8, 1, .ro, 0, (some 0), 0, 255⟩,
  ⟨0x4320, 2, 0x10, 0x2F, "compare_errors", .u32, 4, .ro, 0, (some 0), 0, 4294967295⟩,
  ⟨0x4320, 2, 0x30, 0x4F, "failing_lanes", .bits32, 4, .ro, 0, (some 0), 0, 4294967295⟩,
  ⟨0x4330, 2, 0x00, 0x1F, "training_record", .octets, 16, .ro, 0, (some 0), 0, (2 ^ 128 - 1)⟩,
  ⟨0x4400, 1, 0x01, 0x01, "cxl_enable", .bool, 1, .rws, 2, (some 1), 0, 1⟩,
  ⟨0x4400, 1, 0x02, 0x02, "mem_active_timeout_ms", .u32, 4, .rws, 2, (some 2000), 100, 60000⟩,
  ⟨0x4400, 1, 0x03, 0x03, "completion_timeout_us", .u32, 4, .rws, 2, (some 50), 10, 10000⟩,
  ⟨0x4400, 1, 0x04, 0x04, "retrain_interval_ms", .u16, 2, .rws, 2, (some 100), 10, 10000⟩,
  ⟨0x4400, 1, 0x05, 0x05, "event_poll_ms", .u16, 2, .rws, 1, (some 1000), 100, 60000⟩]

/-- Rows from index 4401 on. -/
def entries6 : List EntryRow := [
  ⟨0x4401, 1, 0x01, 0x01, "state", .enum8, 1, .ro, 0, (some 0), 0, 255⟩,
  ⟨0x4401, 1, 0x02, 0x02, "rate", .enum8, 1, .ro, 0, (some 0), 0, 255⟩,
  ⟨0x4401, 1, 0x03, 0x03, "width", .u8, 1, .ro, 0, (some 0), 0, 255⟩,
  ⟨0x4401, 1, 0x04, 0x04, "capacity", .u64, 8, .ro, 0, (some 0), 0, 18446744073709551615⟩,
  ⟨0x4401, 1, 0x05, 0x05, "cause", .enum8, 1, .ro, 0, (some 0), 0, 255⟩,
  ⟨0x4401, 1, 0x06, 0x06, "link_downs", .u32, 4, .rc, 0, (some 0), 0, 4294967295⟩,
  ⟨0x4401, 1, 0x07, 0x07, "memory_lost", .u32, 4, .rc, 0, (some 0), 0, 4294967295⟩,
  ⟨0x4401, 1, 0x08, 0x08, "flit_replays", .u64, 8, .rc, 0, (some 0), 0, 18446744073709551615⟩,
  ⟨0x4401, 1, 0x09, 0x09, "device_events", .u64, 8, .rc, 0, (some 0), 0, 18446744073709551615⟩,
  ⟨0x4401, 1, 0x0A, 0x0A, "outstanding", .u16, 2, .ro, 0, (some 0), 0, 65535⟩,
  ⟨0x4401, 1, 0x0B, 0x0B, "reads", .u64, 8, .ro, 0, (some 0), 0, 18446744073709551615⟩,
  ⟨0x4401, 1, 0x0C, 0x0C, "writes", .u64, 8, .ro, 0, (some 0), 0, 18446744073709551615⟩,
  ⟨0x4401, 1, 0x0D, 0x0D, "writes_reissued", .u64, 8, .rc, 0, (some 0), 0, 18446744073709551615⟩,
  ⟨0x4401, 1, 0x0E, 0x0E, "writes_discarded", .u64, 8, .rc, 0, (some 0), 0, 18446744073709551615⟩,
  ⟨0x4401, 1, 0x0F, 0x0F, "spills_discarded", .u64, 8, .rc, 0, (some 0), 0, 18446744073709551615⟩,
  ⟨0x4410, 1, 0x01, 0x01, "map_base_hpa", .u64, 8, .rws, 2, (some 0), 0, 18446744073709551615⟩,
  ⟨0x4410, 1, 0x02, 0x02, "deep_fib_pages", .u32, 4, .rws, 2, (some 128), 0, 4294967295⟩,
  ⟨0x4410, 1, 0x03, 0x03, "context_pages", .u32, 4, .ro, 0, (some 1024), 0, 4294967295⟩,
  ⟨0x4410, 1, 0x04, 0x04, "spill_pages", .u32, 4, .rws, 2, (some 128), 0, 128⟩,
  ⟨0x4410, 1, 0x05, 0x05, "shadow_pages", .u32, 4, .rws, 2, (some 192), 0, 4294967295⟩,
  ⟨0x4410, 1, 0x06, 0x06, "dump_pages", .u32, 4, .rws, 2, (some 64), 16, 4096⟩,
  ⟨0x4410, 1, 0x07, 0x07, "migrate_rate_mbs", .u32, 4, .rws, 1, (some 16000), 1000, 50000⟩,
  ⟨0x4410, 1, 0x08, 0x08, "page_wait_us", .u32, 4, .rws, 1, (some 10000), 10, 1000000⟩,
  ⟨0x4410, 1, 0x09, 0x09, "pages_present", .u32, 4, .ro, 0, (some 0), 0, 4294967295⟩,
  ⟨0x4411, 1, 0x01, 0x01, "page_command", .octets, 16, .cmd, 2, none, 0, (2 ^ 128 - 1)⟩,
  ⟨0x4411, 1, 0x02, 0x02, "page_command_state", .u32, 4, .ro, 0, (some 0), 0, 4294967295⟩,
  ⟨0x4413, 1, 0x00, 0x3F, "poison_entry", .u64, 8, .ro, 0, (some 0), 0, 18446744073709551615⟩,
  ⟨0x4420, 1, 0x01, 0x01, "ctx_reads", .u64, 8, .rc, 0, (some 0), 0, 18446744073709551615⟩,
  ⟨0x4420, 1, 0x02, 0x02, "ctx_hits", .u64, 8, .rc, 0, (some 0), 0, 18446744073709551615⟩,
  ⟨0x4420, 1, 0x03, 0x03, "ctx_fills", .u64, 8, .rc, 0, (some 0), 0, 18446744073709551615⟩,
  ⟨0x4420, 1, 0x04, 0x04, "writebacks", .u64, 8, .rc, 0, (some 0), 0, 18446744073709551615⟩,
  ⟨0x4420, 1, 0x05, 0x05, "lock_grants", .u64, 8, .rc, 0, (some 0), 0, 18446744073709551615⟩,
  ⟨0x4420, 1, 0x06, 0x06, "lock_waits", .u64, 8, .rc, 0, (some 0), 0, 18446744073709551615⟩,
  ⟨0x4420, 1, 0x07, 0x07, "lock_skipped", .u64, 8, .rc, 0, (some 0), 0, 18446744073709551615⟩,
  ⟨0x4420, 1, 0x08, 0x08, "jctx_bad_word", .u64, 8, .rc, 0, (some 0), 0, 18446744073709551615⟩,
  ⟨0x4420, 1, 0x09, 0x0F, "faults_by_code", .u64, 8, .rc, 0, (some 0), 0, 18446744073709551615⟩,
  ⟨0x4420, 1, 0x10, 0x10, "page_wait_expired", .u64, 8, .rc, 0, (some 0), 0, 18446744073709551615⟩,
  ⟨0x4420, 1, 0x11, 0x11, "waiting_contexts", .u16, 2, .ro, 0, (some 0), 0, 65535⟩,
  ⟨0x4420, 1, 0x12, 0x12, "pinned_lines", .u32, 4, .ro, 0, (some 0), 0, 4294967295⟩,
  ⟨0x4420, 1, 0x13, 0x13, "translation_misses", .u64, 8, .rc, 0, (some 0), 0, 18446744073709551615⟩,
  ⟨0x4440, 24, 0x01, 0x01, "ring_enable", .bool, 1, .rw, 1, (some 0), 0, 1⟩,
  ⟨0x4440, 24, 0x02, 0x02, "endpoint", .u8, 1, .rw, 1, (some 0), 0, 255⟩,
  ⟨0x4440, 24, 0x03, 0x03, "base_rva", .u64, 8, .rw, 1, (some 0), 0, 18446744073709551615⟩,
  ⟨0x4440, 24, 0x04, 0x04, "size_log2", .u8, 1, .rw, 1, (some 10), 6, 16⟩,
  ⟨0x4440, 24, 0x05, 0x05, "index_rva", .u64, 8, .rw, 1, (some 0), 0, 18446744073709551615⟩,
  ⟨0x4440, 24, 0x06, 0x06, "msix_vector", .u8, 1, .rw, 1, (some 1), 0, 63⟩,
  ⟨0x4440, 24, 0x07, 0x07, "irq_count", .u16, 2, .rw, 1, (some 1), 1, 65535⟩,
  ⟨0x4440, 24, 0x08, 0x08, "irq_timer_us", .u16, 2, .rw, 1, (some 10), 0, 10000⟩,
  ⟨0x4440, 24, 0x09, 0x09, "max_frame", .u16, 2, .rw, 1, (some 9216), 64, 16128⟩,
  ⟨0x4440, 24, 0x0A, 0x0A, "host_index", .u32, 4, .ro, 0, (some 0), 0, 4294967295⟩,
  ⟨0x4440, 24, 0x0B, 0x0B, "device_index", .u32, 4, .ro, 0, (some 0), 0, 4294967295⟩,
  ⟨0x4440, 24, 0x0C, 0x0C, "ring_state", .enum8, 1, .ro, 0, (some 0), 0, 255⟩,
  ⟨0x4440, 24, 0x0D, 0x0D, "error_cause", .enum8, 1, .ro, 0, (some 0), 0, 255⟩,
  ⟨0x4440, 24, 0x0E, 0x0E, "error_rva", .u64, 8, .ro, 0, (some 0), 0, 18446744073709551615⟩,
  ⟨0x4440, 24, 0x0F, 0x0F, "completions", .u64, 8, .rc, 0, (some 0), 0, 18446744073709551615⟩,
  ⟨0x4500, 1, 0x01, 0x01, "steer_mode", .enum8, 1, .rws, 1, (some 1), 0, 1⟩,
  ⟨0x4500, 1, 0x02, 0x02, "steal_enable", .bool, 1, .rws, 1, (some 1), 0, 1⟩,
  ⟨0x4500, 1, 0x03, 0x03, "steal_threshold", .u16, 2, .rws, 1, (some 32), 4, 255⟩,
  ⟨0x4500, 1, 0x04, 0x04, "steal_batch", .u8, 1, .rws, 1, (some 8), 1, 32⟩,
  ⟨0x4500, 1, 0x05, 0x05, "steal_min_free", .u8, 1, .rws, 1, (some 4), 1, 64⟩]

/-- Rows from index 4500 on. -/
def entries7 : List EntryRow := [
  ⟨0x4500, 1, 0x06, 0x06, "hole_timeout_ns", .u32, 4, .rws, 1, (some 2000), 250, 100000⟩,
  ⟨0x4500, 1, 0x07, 0x07, "egress_hole_timeout_ns", .u32, 4, .rws, 1, (some 2000), 250, 100000⟩,
  ⟨0x4500, 1, 0x08, 0x08, "park_min", .u16, 2, .rws, 2, (some 128), 0, 256⟩,
  ⟨0x4500, 1, 0x09, 0x09, "park_max", .u16, 2, .rws, 2, (some 1024), 0, 4096⟩,
  ⟨0x4501, 1, 0x01, 0x10, "cluster_redirect", .u8, 1, .rws, 2, none, 0, 15⟩,
  ⟨0x4510, 16, 0x01, 0x01, "state", .enum8, 1, .ro, 0, none, 0, 255⟩,
  ⟨0x4510, 16, 0x02, 0x02, "queue_depth", .u16, 2, .ro, 0, (some 0), 0, 65535⟩,
  ⟨0x4510, 16, 0x03, 0x03, "threads_busy", .u8, 1, .ro, 0, (some 0), 0, 255⟩,
  ⟨0x4510, 16, 0x04, 0x04, "parked", .u16, 2, .ro, 0, (some 0), 0, 65535⟩,
  ⟨0x4510, 16, 0x05, 0x05, "started", .u64, 8, .ro, 0, (some 0), 0, 18446744073709551615⟩,
  ⟨0x4510, 16, 0x06, 0x06, "park_refused", .u64, 8, .rc, 0, (some 0), 0, 18446744073709551615⟩,
  ⟨0x4510, 16, 0x07, 0x07, "steals_in", .u64, 8, .rc, 0, (some 0), 0, 18446744073709551615⟩,
  ⟨0x4510, 16, 0x08, 0x08, "steals_out", .u64, 8, .rc, 0, (some 0), 0, 18446744073709551615⟩,
  ⟨0x4520, 1, 0x01, 0x01, "holes_skipped", .u64, 8, .rc, 0, (some 0), 0, 18446744073709551615⟩,
  ⟨0x4520, 1, 0x02, 0x02, "late_after_skip", .u64, 8, .rc, 0, (some 0), 0, 18446744073709551615⟩,
  ⟨0x4520, 1, 0x03, 0x03, "forced_skips", .u64, 8, .rc, 0, (some 0), 0, 18446744073709551615⟩,
  ⟨0x4520, 1, 0x04, 0x04, "markers", .u64, 8, .rc, 0, (some 0), 0, 18446744073709551615⟩,
  ⟨0x4520, 1, 0x05, 0x05, "pending", .u16, 2, .ro, 0, (some 0), 0, 65535⟩,
  ⟨0x4520, 1, 0x06, 0x06, "egress_holes_skipped", .u64, 8, .rc, 0, (some 0), 0, 18446744073709551615⟩,
  ⟨0x4520, 1, 0x07, 0x07, "egress_late_after_skip", .u64, 8, .rc, 0, (some 0), 0, 18446744073709551615⟩,
  ⟨0x4520, 1, 0x08, 0x08, "egress_forced_skips", .u64, 8, .rc, 0, (some 0), 0, 18446744073709551615⟩,
  ⟨0x4520, 1, 0x09, 0x09, "egress_pending", .u16, 2, .ro, 0, (some 0), 0, 65535⟩,
  ⟨0x4530, 1, 0x01, 0x01, "records_out", .u64, 8, .rc, 0, (some 0), 0, 18446744073709551615⟩,
  ⟨0x4530, 1, 0x02, 0x02, "records_in", .u64, 8, .rc, 0, (some 0), 0, 18446744073709551615⟩,
  ⟨0x4530, 1, 0x03, 0x03, "steer_fallback", .u64, 8, .rc, 0, (some 0), 0, 18446744073709551615⟩,
  ⟨0x4530, 1, 0x04, 0x04, "queue_full_holds", .u64, 8, .rc, 0, (some 0), 0, 18446744073709551615⟩,
  ⟨0x4540, 1, 0x01, 0x01, "restart_limit", .u8, 1, .rws, 2, (some 8), 1, 255⟩,
  ⟨0x4540, 1, 0x02, 0x02, "park_enable", .bool, 1, .rws, 1, (some 1), 0, 1⟩,
  ⟨0x4541, 1, 0x01, 0x01, "last_machine_check", .octets, 16, .ro, 0, (some 0), 0, (2 ^ 128 - 1)⟩,
  ⟨0x4541, 1, 0x02, 0x02, "machine_check_total", .u32, 4, .rc, 0, (some 0), 0, 4294967295⟩,
  ⟨0x4550, 16, 0x01, 0x01, "commits", .u64, 8, .ro, 0, (some 0), 0, 18446744073709551615⟩,
  ⟨0x4550, 16, 0x02, 0x02, "restarts", .u64, 8, .rc, 0, (some 0), 0, 18446744073709551615⟩,
  ⟨0x4550, 16, 0x03, 0x03, "tail_faults", .u64, 8, .rc, 0, (some 0), 0, 18446744073709551615⟩,
  ⟨0x4550, 16, 0x04, 0x04, "tail_entries_discarded", .u64, 8, .rc, 0, (some 0), 0, 18446744073709551615⟩,
  ⟨0x4550, 16, 0x05, 0x05, "cs_parity_corrected", .u64, 8, .rc, 0, (some 0), 0, 18446744073709551615⟩,
  ⟨0x4550, 16, 0x06, 0x06, "machine_checks", .u64, 8, .rc, 0, (some 0), 0, 18446744073709551615⟩,
  ⟨0x4550, 16, 0x07, 0x07, "parks", .u64, 8, .rc, 0, (some 0), 0, 18446744073709551615⟩,
  ⟨0x4550, 16, 0x08, 0x08, "parks_abandoned", .u64, 8, .rc, 0, (some 0), 0, 18446744073709551615⟩,
  ⟨0x4550, 16, 0x09, 0x09, "restart_limit_drops", .u64, 8, .rc, 0, (some 0), 0, 18446744073709551615⟩,
  ⟨0x4580, 16, 0x01, 0x01, "cycle_count", .u64, 8, .ro, 0, (some 0), 0, 18446744073709551615⟩,
  ⟨0x4580, 16, 0x02, 0x02, "counter_enable", .bits32, 4, .rw, 1, (some 0), 0, 255⟩,
  ⟨0x4580, 16, 0x10, 0x17, "event_select", .u8, 1, .rw, 1, (some 0), 0, 255⟩,
  ⟨0x4580, 16, 0x20, 0x27, "counter_value", .u64, 8, .rw, 1, (some 0), 0, 281474976710655⟩,
  ⟨0x4580, 16, 0x28, 0x28, "saturated", .bits32, 4, .ro, 0, (some 0), 0, 4294967295⟩,
  ⟨0x4580, 16, 0x30, 0x30, "sample_event", .u8, 1, .rw, 1, (some 0), 0, 255⟩,
  ⟨0x4580, 16, 0x31, 0x31, "sample_period", .u32, 4, .rw, 1, (some 1000), 1, 16777216⟩,
  ⟨0x4580, 16, 0x32, 0x32, "sample_mode", .enum8, 1, .rw, 1, (some 0), 0, 1⟩,
  ⟨0x4580, 16, 0x33, 0x33, "sample_count", .u32, 4, .ro, 0, (some 0), 0, 4294967295⟩,
  ⟨0x4580, 16, 0x34, 0x34, "sample_read", .octets, 4, .cmd, 0, none, 0, 4294967295⟩,
  ⟨0x4580, 16, 0x35, 0x35, "sample_clear", .cmd, 0, .cmd, 1, none, 0, 0⟩,
  ⟨0x4590, 4, 0x01, 0x01, "cycle_count", .u64, 8, .ro, 0, (some 0), 0, 18446744073709551615⟩,
  ⟨0x4590, 4, 0x02, 0x02, "counter_enable", .bits32, 4, .rw, 1, (some 0), 0, 255⟩,
  ⟨0x4590, 4, 0x10, 0x17, "event_select", .u8, 1, .rw, 1, (some 0), 0, 255⟩,
  ⟨0x4590, 4, 0x20, 0x27, "counter_value", .u64, 8, .rw, 1, (some 0), 0, 281474976710655⟩,
  ⟨0x4590, 4, 0x28, 0x28, "saturated", .bits32, 4, .ro, 0, (some 0), 0, 4294967295⟩,
  ⟨0x4590, 4, 0x30, 0x30, "sample_event", .u8, 1, .rw, 1, (some 0), 0, 255⟩,
  ⟨0x4590, 4, 0x31, 0x31, "sample_period", .u32, 4, .rw, 1, (some 1000), 1, 16777216⟩,
  ⟨0x4590, 4, 0x32, 0x32, "sample_mode", .enum8, 1, .rw, 1, (some 0), 0, 1⟩,
  ⟨0x4590, 4, 0x33, 0x33, "sample_count", .u32, 4, .ro, 0, (some 0), 0, 4294967295⟩,
  ⟨0x4590, 4, 0x34, 0x34, "sample_read", .octets, 4, .cmd, 0, none, 0, 4294967295⟩]

/-- Rows from index 4590 on. -/
def entries8 : List EntryRow := [
  ⟨0x4590, 4, 0x35, 0x35, "sample_clear", .cmd, 0, .cmd, 1, none, 0, 0⟩,
  ⟨0x45A0, 1, 0x00, 0x0F, "cluster_permission", .bits32, 4, .rws, 2, (some 0), 0, 3⟩,
  ⟨0x45A0, 1, 0x10, 0x13, "unit_permission", .bits32, 4, .rws, 2, (some 0), 0, 1⟩,
  ⟨0x4610, 1, 0x01, 0x01, "lookups", .u64, 8, .rc, 0, (some 0), 0, 18446744073709551615⟩,
  ⟨0x4610, 1, 0x02, 0x02, "stem_absent", .u64, 8, .rc, 0, (some 0), 0, 18446744073709551615⟩,
  ⟨0x4610, 1, 0x03, 0x03, "root_results", .u64, 8, .rc, 0, (some 0), 0, 18446744073709551615⟩,
  ⟨0x4610, 1, 0x04, 0x04, "cover_results", .u64, 8, .rc, 0, (some 0), 0, 18446744073709551615⟩,
  ⟨0x4610, 1, 0x05, 0x05, "hot_results", .u64, 8, .rc, 0, (some 0), 0, 18446744073709551615⟩,
  ⟨0x4610, 1, 0x06, 0x06, "deep_lookups", .u64, 8, .rc, 0, (some 0), 0, 18446744073709551615⟩,
  ⟨0x4610, 1, 0x07, 0x07, "deep_reads", .u64, 8, .rc, 0, (some 0), 0, 18446744073709551615⟩,
  ⟨0x4610, 1, 0x08, 0x08, "deep_results", .u64, 8, .rc, 0, (some 0), 0, 18446744073709551615⟩,
  ⟨0x4610, 1, 0x09, 0x09, "misses", .u64, 8, .rc, 0, (some 0), 0, 18446744073709551615⟩,
  ⟨0x4610, 1, 0x0A, 0x0A, "fenced_fallbacks", .u64, 8, .rc, 0, (some 0), 0, 18446744073709551615⟩,
  ⟨0x4610, 1, 0x0B, 0x0B, "deep_unreachable", .u64, 8, .rc, 0, (some 0), 0, 18446744073709551615⟩,
  ⟨0x4610, 1, 0x0C, 0x0C, "dispatch_hold_cycles", .u64, 8, .rc, 0, (some 0), 0, 18446744073709551615⟩,
  ⟨0x4610, 1, 0x0D, 0x0D, "deep_queue_depth", .u16, 2, .ro, 0, (some 0), 0, 65535⟩,
  ⟨0x4610, 1, 0x0E, 0x0E, "deep_queue_peak", .u16, 2, .rc, 0, (some 0), 0, 65535⟩,
  ⟨0x4610, 1, 0x0F, 0x0F, "staging_full_cycles", .u64, 8, .rc, 0, (some 0), 0, 18446744073709551615⟩,
  ⟨0x4610, 1, 0x10, 0x10, "ecmp_no_member", .u64, 8, .rc, 0, (some 0), 0, 18446744073709551615⟩,
  ⟨0x4620, 4, 0x01, 0x01, "entries", .u32, 4, .ro, 0, (some 0), 0, 4294967295⟩,
  ⟨0x4620, 4, 0x02, 0x02, "static_entries", .u32, 4, .ro, 0, (some 0), 0, 4294967295⟩,
  ⟨0x4620, 4, 0x03, 0x03, "searches", .u64, 8, .rc, 0, (some 0), 0, 18446744073709551615⟩,
  ⟨0x4620, 4, 0x04, 0x04, "hits", .u64, 8, .rc, 0, (some 0), 0, 18446744073709551615⟩,
  ⟨0x4620, 4, 0x05, 0x05, "retries", .u64, 8, .rc, 0, (some 0), 0, 18446744073709551615⟩,
  ⟨0x4620, 4, 0x06, 0x06, "retry_exhausted", .u64, 8, .rc, 0, (some 0), 0, 18446744073709551615⟩,
  ⟨0x4620, 4, 0x07, 0x07, "learn_full", .u64, 8, .rc, 0, (some 0), 0, 18446744073709551615⟩,
  ⟨0x4620, 4, 0x08, 0x08, "learned", .u64, 8, .rc, 0, (some 0), 0, 18446744073709551615⟩,
  ⟨0x4620, 4, 0x09, 0x09, "moves", .u64, 8, .rc, 0, (some 0), 0, 18446744073709551615⟩,
  ⟨0x4620, 4, 0x0A, 0x0A, "aged_out", .u64, 8, .rc, 0, (some 0), 0, 18446744073709551615⟩,
  ⟨0x4620, 4, 0x0B, 0x0B, "reloc_gen", .u32, 4, .ro, 0, (some 0), 0, 4294967295⟩,
  ⟨0x4620, 4, 0x0C, 0x0C, "learn_static_hits", .u64, 8, .rc, 0, (some 0), 0, 18446744073709551615⟩,
  ⟨0x4630, 1, 0x01, 0x01, "buckets_scrubbed", .u64, 8, .rc, 0, (some 0), 0, 18446744073709551615⟩,
  ⟨0x4630, 1, 0x02, 0x02, "mismatches", .u64, 8, .rc, 0, (some 0), 0, 18446744073709551615⟩,
  ⟨0x4630, 1, 0x03, 0x03, "repairs", .u64, 8, .rc, 0, (some 0), 0, 18446744073709551615⟩,
  ⟨0x4630, 1, 0x04, 0x04, "last_mismatch", .octets, 8, .ro, 0, (some 0), 0, 18446744073709551615⟩,
  ⟨0x4630, 1, 0x05, 0x05, "scrub_suspended_us", .u64, 8, .rc, 0, (some 0), 0, 18446744073709551615⟩,
  ⟨0x4630, 1, 0x06, 0x06, "transient_mismatches", .u64, 8, .rc, 0, (some 0), 0, 18446744073709551615⟩,
  ⟨0x4630, 1, 0x07, 0x07, "replica_key_differs", .u64, 8, .rc, 0, (some 0), 0, 18446744073709551615⟩,
  ⟨0x4640, 1, 0x01, 0x01, "table_command", .octets, 80, .cmd, 1, none, 0, (2 ^ 640 - 1)⟩,
  ⟨0x4640, 1, 0x02, 0x02, "flush_state", .u32, 4, .ro, 0, (some 0), 0, 4294967295⟩,
  ⟨0x4640, 1, 0x03, 0x03, "commands_done", .u64, 8, .rc, 0, (some 0), 0, 18446744073709551615⟩,
  ⟨0x4640, 1, 0x04, 0x04, "commands_refused", .u64, 8, .rc, 0, (some 0), 0, 18446744073709551615⟩,
  ⟨0x4640, 1, 0x05, 0x05, "learn_queue_discards", .u64, 8, .rc, 0, (some 0), 0, 18446744073709551615⟩,
  ⟨0x4640, 1, 0x06, 0x06, "learn_suppressed", .u64, 8, .rc, 0, (some 0), 0, 18446744073709551615⟩,
  ⟨0x4640, 1, 0x07, 0x07, "learn_ring_drops", .u64, 8, .rc, 0, (some 0), 0, 18446744073709551615⟩,
  ⟨0x4640, 1, 0x08, 0x08, "replica_single_writes", .u64, 8, .rc, 0, (some 0), 0, 18446744073709551615⟩,
  ⟨0x4640, 1, 0x09, 0x09, "engine_queue", .u16, 2, .ro, 0, (some 0), 0, 65535⟩,
  ⟨0x4660, 1, 0x01, 0x01, "ternary_searches", .u64, 8, .rc, 0, (some 0), 0, 18446744073709551615⟩,
  ⟨0x4660, 1, 0x02, 0x02, "ternary_hits", .u64, 8, .rc, 0, (some 0), 0, 18446744073709551615⟩,
  ⟨0x4660, 1, 0x03, 0x03, "holders_current", .u32, 4, .ro, 0, (some 0), 0, 4294967295⟩,
  ⟨0x4660, 1, 0x04, 0x04, "holders_retiring", .u32, 4, .ro, 0, (some 0), 0, 4294967295⟩,
  ⟨0x4660, 1, 0x05, 0x05, "recirculations", .u64, 8, .rc, 0, (some 0), 0, 18446744073709551615⟩,
  ⟨0x4660, 1, 0x06, 0x06, "mirror_copies", .u64, 8, .rc, 0, (some 0), 0, 18446744073709551615⟩,
  ⟨0x4660, 1, 0x07, 0x07, "mirror_session_off", .u64, 8, .rc, 0, (some 0), 0, 18446744073709551615⟩,
  ⟨0x4660, 1, 0x08, 0x08, "strip_clamped", .u64, 8, .rc, 0, (some 0), 0, 18446744073709551615⟩,
  ⟨0x4660, 1, 0x09, 0x09, "chain_truncated", .u64, 8, .rc, 0, (some 0), 0, 18446744073709551615⟩,
  ⟨0x4700, 1, 0x01, 0x01, "buffer_mode", .enum8, 1, .ro, 0, (some 0), 0, 255⟩,
  ⟨0x4700, 1, 0x02, 0x02, "shallow_voq_cells", .u16, 2, .rws, 1, (some 256), 16, 4096⟩,
  ⟨0x4700, 1, 0x03, 0x03, "residue_timeout_us", .u32, 4, .rws, 1, (some 10000), 10, 1000000⟩,
  ⟨0x4700, 1, 0x04, 0x04, "residue_packets", .u16, 2, .ro, 0, (some 0), 0, 65535⟩]

/-- Rows from index 4700 on. -/
def entries9 : List EntryRow := [
  ⟨0x4700, 1, 0x05, 0x05, "wait_list", .u32, 4, .ro, 0, (some 0), 0, 4294967295⟩,
  ⟨0x4700, 1, 0x06, 0x06, "mirror_mcast_voq", .u16, 2, .rws, 1, (some 0), 0, 65535⟩,
  ⟨0x4700, 1, 0x07, 0x07, "express_packets", .u64, 8, .rc, 0, (some 0), 0, 18446744073709551615⟩,
  ⟨0x4700, 1, 0x08, 0x08, "dram_packets", .u64, 8, .rc, 0, (some 0), 0, 18446744073709551615⟩,
  ⟨0x4700, 1, 0x09, 0x09, "replicas", .u64, 8, .rc, 0, (some 0), 0, 18446744073709551615⟩,
  ⟨0x4700, 1, 0x0A, 0x0A, "residue_entries", .u64, 8, .rc, 0, (some 0), 0, 18446744073709551615⟩,
  ⟨0x4710, 3, 0x01, 0x01, "pool_size", .u32, 4, .ro, 0, none, 0, 4294967295⟩,
  ⟨0x4710, 3, 0x02, 0x02, "free", .u32, 4, .ro, 0, none, 0, 4294967295⟩,
  ⟨0x4710, 3, 0x03, 0x03, "free_low", .u32, 4, .rc, 0, none, 0, 4294967295⟩,
  ⟨0x4710, 3, 0x10, 0x15, "quota_min", .u32, 4, .rws, 2, none, 0, 4294967295⟩,
  ⟨0x4710, 3, 0x20, 0x25, "quota_max", .u32, 4, .rws, 2, none, 0, 4294967295⟩,
  ⟨0x4710, 3, 0x30, 0x35, "in_use", .u32, 4, .ro, 0, (some 0), 0, 4294967295⟩,
  ⟨0x4710, 3, 0x40, 0x45, "refused", .u64, 8, .rc, 0, (some 0), 0, 18446744073709551615⟩,
  ⟨0x4720, 1, 0x01, 0x08, "voq_limit_pages", .u32, 4, .rws, 1, (some 25165824), 1, 25165824⟩,
  ⟨0x4720, 1, 0x10, 0x10, "voqs_occupied", .u32, 4, .ro, 0, (some 0), 0, 4294967295⟩,
  ⟨0x4740, 64, 0x01, 0x01, "fc_mode", .enum8, 1, .rws, 1, (some 0), 0, 2⟩,
  ⟨0x4740, 64, 0x02, 0x02, "ingress_limit", .u32, 4, .rws, 1, (some 4294967295), 0, 4294967295⟩,
  ⟨0x4740, 64, 0x03, 0x03, "pause_xoff", .u32, 4, .rws, 1, (some 1024), 0, 4294967295⟩,
  ⟨0x4740, 64, 0x04, 0x04, "pause_xon", .u32, 4, .rws, 1, (some 768), 0, 4294967295⟩,
  ⟨0x4740, 64, 0x05, 0x05, "pause_headroom", .u32, 4, .rws, 1, (some 1024), 0, 4294967295⟩,
  ⟨0x4740, 64, 0x10, 0x17, "pfc_xoff", .u32, 4, .rws, 1, (some 1024), 0, 4294967295⟩,
  ⟨0x4740, 64, 0x18, 0x1F, "pfc_xon", .u32, 4, .rws, 1, (some 768), 0, 4294967295⟩,
  ⟨0x4740, 64, 0x20, 0x27, "pfc_headroom", .u32, 4, .rws, 1, (some 1024), 0, 4294967295⟩,
  ⟨0x4740, 64, 0x30, 0x30, "occupancy", .u32, 4, .ro, 0, (some 0), 0, 4294967295⟩,
  ⟨0x4740, 64, 0x31, 0x38, "pfc_occupancy", .u32, 4, .ro, 0, (some 0), 0, 4294967295⟩,
  ⟨0x4740, 64, 0x40, 0x47, "egress_limit_cells", .u32, 4, .rws, 1, (some 4096), 64, 262144⟩,
  ⟨0x4740, 64, 0x50, 0x50, "pause_requests", .u64, 8, .rc, 0, (some 0), 0, 18446744073709551615⟩,
  ⟨0x4740, 64, 0x51, 0x51, "flushes", .u32, 4, .rc, 0, (some 0), 0, 4294967295⟩,
  ⟨0x4740, 64, 0x52, 0x52, "flushed_packets", .u64, 8, .rc, 0, (some 0), 0, 18446744073709551615⟩,
  ⟨0x4800, 1, 0x01, 0x01, "meter_green", .u64, 8, .rc, 0, (some 0), 0, 18446744073709551615⟩,
  ⟨0x4800, 1, 0x02, 0x02, "meter_yellow", .u64, 8, .rc, 0, (some 0), 0, 18446744073709551615⟩,
  ⟨0x4800, 1, 0x03, 0x03, "meter_red", .u64, 8, .rc, 0, (some 0), 0, 18446744073709551615⟩,
  ⟨0x4800, 1, 0x04, 0x04, "meter_red_drop", .u64, 8, .rc, 0, (some 0), 0, 18446744073709551615⟩,
  ⟨0x4801, 1, 0x01, 0x01, "eq_sample_rate", .u32, 4, .rws, 1, (some 0), 0, 100000000⟩,
  ⟨0x4801, 1, 0x02, 0x02, "voq_sample_rate", .u32, 4, .rws, 1, (some 0), 0, 100000000⟩,
  ⟨0x4801, 1, 0x03, 0x03, "voq_first", .u16, 2, .rws, 1, (some 0), 0, 65535⟩,
  ⟨0x4801, 1, 0x04, 0x04, "voq_last", .u16, 2, .rws, 1, (some 65535), 0, 65535⟩,
  ⟨0x4801, 1, 0x05, 0x05, "skip_empty", .bool, 1, .rws, 1, (some 1), 0, 1⟩,
  ⟨0x4801, 1, 0x06, 0x06, "records_written", .u64, 8, .rc, 0, (some 0), 0, 18446744073709551615⟩,
  ⟨0x4801, 1, 0x07, 0x07, "records_lost", .u64, 8, .rc, 0, (some 0), 0, 18446744073709551615⟩,
  ⟨0x4840, 64, 0x01, 0x01, "wire_overhead", .u8, 1, .rws, 1, (some 20), 0, 63⟩,
  ⟨0x4840, 64, 0x02, 0x02, "gate_enable", .bool, 1, .rws, 1, (some 0), 0, 1⟩,
  ⟨0x4840, 64, 0x03, 0x03, "guard_enable", .bool, 1, .rws, 1, (some 1), 0, 1⟩,
  ⟨0x4840, 64, 0x04, 0x04, "admin_gate_states", .u8, 1, .rws, 1, (some 255), 0, 255⟩,
  ⟨0x4840, 64, 0x05, 0x05, "admin_base_time", .time80, 10, .rws, 1, (some 0), 0, (2 ^ 80 - 1)⟩,
  ⟨0x4840, 64, 0x06, 0x06, "admin_cycle_ns", .u32, 4, .rws, 1, (some 1000000), 1000, 1000000000⟩,
  ⟨0x4840, 64, 0x07, 0x07, "admin_cycle_ext_ns", .u32, 4, .rws, 1, (some 0), 0, 4294967295⟩,
  ⟨0x4840, 64, 0x08, 0x08, "admin_list_length", .u16, 2, .rws, 1, (some 0), 0, 256⟩,
  ⟨0x4840, 64, 0x09, 0x09, "config_change", .bool, 1, .cmd, 1, none, 0, 1⟩,
  ⟨0x4840, 64, 0x0A, 0x0A, "config_pending", .bool, 1, .ro, 0, (some 0), 0, 255⟩,
  ⟨0x4840, 64, 0x0B, 0x0B, "config_change_time", .time80, 10, .ro, 0, (some 0), 0, (2 ^ 80 - 1)⟩,
  ⟨0x4840, 64, 0x0C, 0x0C, "base_time_advanced", .bool, 1, .ro, 0, (some 0), 0, 255⟩,
  ⟨0x4840, 64, 0x0D, 0x0D, "advance_count", .u64, 8, .ro, 0, (some 0), 0, 18446744073709551615⟩,
  ⟨0x4840, 64, 0x0E, 0x0E, "oper_base_time", .time80, 10, .ro, 0, (some 0), 0, (2 ^ 80 - 1)⟩,
  ⟨0x4840, 64, 0x0F, 0x0F, "oper_cycle_ns", .u32, 4, .ro, 0, (some 0), 0, 4294967295⟩,
  ⟨0x4840, 64, 0x10, 0x10, "oper_list_length", .u16, 2, .ro, 0, (some 0), 0, 65535⟩,
  ⟨0x4840, 64, 0x11, 0x11, "gate_states", .u8, 1, .ro, 0, (some 255), 0, 255⟩,
  ⟨0x4840, 64, 0x12, 0x12, "guard_overruns", .u64, 8, .rc, 0, (some 0), 0, 18446744073709551615⟩,
  ⟨0x4840, 64, 0x13, 0x13, "gate_overruns", .u64, 8, .rc, 0, (some 0), 0, 18446744073709551615⟩,
  ⟨0x4840, 64, 0x14, 0x14, "pending_replaced", .u32, 4, .rc, 0, (some 0), 0, 4294967295⟩]

/-- Rows from index 4840 on. -/
def entries10 : List EntryRow := [
  ⟨0x4840, 64, 0x15, 0x15, "cycles_extended", .u32, 4, .rc, 0, (some 0), 0, 4294967295⟩,
  ⟨0x4880, 64, 0x01, 0x01, "apply_template", .u8, 1, .cmd, 2, none, 0, 15⟩,
  ⟨0x4880, 64, 0x10, 0x1C, "band", .u8, 1, .rws, 1, none, 0, 3⟩,
  ⟨0x4880, 64, 0x20, 0x2C, "weight", .u16, 2, .rws, 1, none, 1, 4096⟩,
  ⟨0x4880, 64, 0x30, 0x3C, "shaper_rate_kbps", .u32, 4, .rws, 1, (some 0), 1, 1600000000⟩,
  ⟨0x4880, 64, 0x40, 0x4C, "shaper_burst", .u32, 4, .rws, 1, (some 256), 1, 262144⟩,
  ⟨0x4880, 64, 0x50, 0x5C, "shaper_reset", .bool, 1, .cmd, 1, none, 0, 1⟩,
  ⟨0x4880, 64, 0x60, 0x6C, "shaper_credit", .s32, 4, .ro, 0, (some 0), 0, 4294967295⟩,
  ⟨0x4880, 64, 0x70, 0x77, "queue_group", .u8, 1, .rws, 1, (some 0), 0, 3⟩,
  ⟨0x4900, 1, 0x01, 0x01, "snapshot", .bool, 1, .cmd, 0, none, 0, 1⟩,
  ⟨0x4900, 1, 0x02, 0x02, "snapshot_time", .time80, 10, .ro, 0, (some 0), 0, (2 ^ 80 - 1)⟩,
  ⟨0x4900, 1, 0x03, 0x03, "snapshot_gen", .u32, 4, .ro, 0, (some 0), 0, 4294967295⟩,
  ⟨0x4900, 1, 0x04, 0x04, "snapshot_state", .enum8, 1, .ro, 0, (some 0), 0, 255⟩,
  ⟨0x4920, 1, 0x01, 0x14, "drop_count", .u64, 8, .rc, 0, (some 0), 0, 18446744073709551615⟩,
  ⟨0x4920, 1, 0x16, 0x16, "drop_count", .u64, 8, .rc, 0, (some 0), 0, 18446744073709551615⟩,
  ⟨0x4920, 1, 0x80, 0xFF, "drop_count", .u64, 8, .rc, 0, (some 0), 0, 18446744073709551615⟩,
  ⟨0x4930, 1, 0x01, 0x0F, "malformed_count", .u64, 8, .rc, 0, (some 0), 0, 18446744073709551615⟩,
  ⟨0x4931, 1, 0x01, 0x01, "depth_stops", .u64, 8, .rc, 0, (some 0), 0, 18446744073709551615⟩,
  ⟨0x4931, 1, 0x02, 0x02, "egress_padded", .u64, 8, .rc, 0, (some 0), 0, 18446744073709551615⟩,
  ⟨0x4931, 1, 0x03, 0x03, "length_estimated", .u64, 8, .rc, 0, (some 0), 0, 18446744073709551615⟩,
  ⟨0x4931, 1, 0x04, 0x04, "tail_bad_after_dispatch", .u64, 8, .rc, 0, (some 0), 0, 18446744073709551615⟩,
  ⟨0x4931, 1, 0x05, 0x05, "tail_bad_after_commit", .u64, 8, .rc, 0, (some 0), 0, 18446744073709551615⟩,
  ⟨0x4940, 64, 0x01, 0x01, "rx_frames_ok", .u64, 8, .ro, 0, (some 0), 0, 18446744073709551615⟩,
  ⟨0x4940, 64, 0x02, 0x02, "rx_bytes_ok", .u64, 8, .ro, 0, (some 0), 0, 18446744073709551615⟩,
  ⟨0x4940, 64, 0x03, 0x03, "rx_fcs_errors", .u64, 8, .ro, 0, (some 0), 0, 18446744073709551615⟩,
  ⟨0x4940, 64, 0x04, 0x04, "rx_stomped", .u64, 8, .ro, 0, (some 0), 0, 18446744073709551615⟩,
  ⟨0x4940, 64, 0x05, 0x05, "rx_runts", .u64, 8, .ro, 0, (some 0), 0, 18446744073709551615⟩,
  ⟨0x4940, 64, 0x06, 0x06, "rx_oversize", .u64, 8, .ro, 0, (some 0), 0, 18446744073709551615⟩,
  ⟨0x4940, 64, 0x07, 0x07, "rx_truncated", .u64, 8, .ro, 0, (some 0), 0, 18446744073709551615⟩,
  ⟨0x4940, 64, 0x08, 0x08, "rx_pause", .u64, 8, .ro, 0, (some 0), 0, 18446744073709551615⟩,
  ⟨0x4940, 64, 0x09, 0x09, "rx_pfc", .u64, 8, .ro, 0, (some 0), 0, 18446744073709551615⟩,
  ⟨0x4940, 64, 0x0A, 0x0A, "rx_mac_control_ignored", .u64, 8, .ro, 0, (some 0), 0, 18446744073709551615⟩,
  ⟨0x4940, 64, 0x0B, 0x11, "rx_size_bins", .u64, 8, .ro, 0, (some 0), 0, 18446744073709551615⟩,
  ⟨0x4940, 64, 0x12, 0x12, "tx_frames", .u64, 8, .ro, 0, (some 0), 0, 18446744073709551615⟩,
  ⟨0x4940, 64, 0x13, 0x13, "tx_bytes", .u64, 8, .ro, 0, (some 0), 0, 18446744073709551615⟩,
  ⟨0x4940, 64, 0x14, 0x14, "tx_stomped", .u64, 8, .ro, 0, (some 0), 0, 18446744073709551615⟩,
  ⟨0x4940, 64, 0x15, 0x15, "tx_underrun", .u64, 8, .ro, 0, (some 0), 0, 18446744073709551615⟩,
  ⟨0x4940, 64, 0x16, 0x16, "tx_aborted", .u64, 8, .ro, 0, (some 0), 0, 18446744073709551615⟩,
  ⟨0x4940, 64, 0x17, 0x17, "tx_pause", .u64, 8, .ro, 0, (some 0), 0, 18446744073709551615⟩,
  ⟨0x4940, 64, 0x18, 0x18, "tx_pfc", .u64, 8, .ro, 0, (some 0), 0, 18446744073709551615⟩,
  ⟨0x4940, 64, 0x19, 0x19, "fec_corrected_cw", .u64, 8, .ro, 0, (some 0), 0, 18446744073709551615⟩,
  ⟨0x4940, 64, 0x1A, 0x1A, "fec_uncorrectable_cw", .u64, 8, .ro, 0, (some 0), 0, 18446744073709551615⟩,
  ⟨0x4940, 64, 0x20, 0x27, "rx_pfc_priority", .u64, 8, .ro, 0, (some 0), 0, 18446744073709551615⟩,
  ⟨0x4940, 64, 0x28, 0x2F, "tx_pfc_priority", .u64, 8, .ro, 0, (some 0), 0, 18446744073709551615⟩,
  ⟨0x4980, 64, 0x01, 0x01, "rx_frames_ok", .u64, 8, .ro, 0, (some 0), 0, 18446744073709551615⟩,
  ⟨0x4980, 64, 0x02, 0x02, "rx_bytes_ok", .u64, 8, .ro, 0, (some 0), 0, 18446744073709551615⟩,
  ⟨0x4980, 64, 0x03, 0x03, "rx_fcs_errors", .u64, 8, .ro, 0, (some 0), 0, 18446744073709551615⟩,
  ⟨0x4980, 64, 0x04, 0x04, "rx_stomped", .u64, 8, .ro, 0, (some 0), 0, 18446744073709551615⟩,
  ⟨0x4980, 64, 0x05, 0x05, "rx_runts", .u64, 8, .ro, 0, (some 0), 0, 18446744073709551615⟩,
  ⟨0x4980, 64, 0x06, 0x06, "rx_oversize", .u64, 8, .ro, 0, (some 0), 0, 18446744073709551615⟩,
  ⟨0x4980, 64, 0x07, 0x07, "rx_truncated", .u64, 8, .ro, 0, (some 0), 0, 18446744073709551615⟩,
  ⟨0x4980, 64, 0x08, 0x08, "rx_pause", .u64, 8, .ro, 0, (some 0), 0, 18446744073709551615⟩,
  ⟨0x4980, 64, 0x09, 0x09, "rx_pfc", .u64, 8, .ro, 0, (some 0), 0, 18446744073709551615⟩,
  ⟨0x4980, 64, 0x0A, 0x0A, "rx_mac_control_ignored", .u64, 8, .ro, 0, (some 0), 0, 18446744073709551615⟩,
  ⟨0x4980, 64, 0x0B, 0x11, "rx_size_bins", .u64, 8, .ro, 0, (some 0), 0, 18446744073709551615⟩,
  ⟨0x4980, 64, 0x12, 0x12, "tx_frames", .u64, 8, .ro, 0, (some 0), 0, 18446744073709551615⟩,
  ⟨0x4980, 64, 0x13, 0x13, "tx_bytes", .u64, 8, .ro, 0, (some 0), 0, 18446744073709551615⟩,
  ⟨0x4980, 64, 0x14, 0x14, "tx_stomped", .u64, 8, .ro, 0, (some 0), 0, 18446744073709551615⟩,
  ⟨0x4980, 64, 0x15, 0x15, "tx_underrun", .u64, 8, .ro, 0, (some 0), 0, 18446744073709551615⟩,
  ⟨0x4980, 64, 0x16, 0x16, "tx_aborted", .u64, 8, .ro, 0, (some 0), 0, 18446744073709551615⟩]

/-- Rows from index 4980 on. -/
def entries11 : List EntryRow := [
  ⟨0x4980, 64, 0x17, 0x17, "tx_pause", .u64, 8, .ro, 0, (some 0), 0, 18446744073709551615⟩,
  ⟨0x4980, 64, 0x18, 0x18, "tx_pfc", .u64, 8, .ro, 0, (some 0), 0, 18446744073709551615⟩,
  ⟨0x4980, 64, 0x19, 0x19, "fec_corrected_cw", .u64, 8, .ro, 0, (some 0), 0, 18446744073709551615⟩,
  ⟨0x4980, 64, 0x1A, 0x1A, "fec_uncorrectable_cw", .u64, 8, .ro, 0, (some 0), 0, 18446744073709551615⟩,
  ⟨0x4980, 64, 0x20, 0x27, "rx_pfc_priority", .u64, 8, .ro, 0, (some 0), 0, 18446744073709551615⟩,
  ⟨0x4980, 64, 0x28, 0x2F, "tx_pfc_priority", .u64, 8, .ro, 0, (some 0), 0, 18446744073709551615⟩]

/-- Every row of the entry maps, in index order. -/
def entryTable : List EntryRow :=
  entries0 ++ entries1 ++ entries2 ++ entries3 ++ entries4 ++ entries5 ++ entries6 ++ entries7 ++ entries8 ++ entries9 ++ entries10 ++ entries11

end Sys2Proof.Machine
end

