-- ==== Sys2Proof/Machine/State.lean ====
section
/-! DEFINITION. The state of the package as plain data, its faults and refusals, and the state after reset.
Registers of the dictionary stand in `regs`, keyed index × 256 + subindex; the structures below hold what the
specification gives the machine beside them. -/

namespace Sys2Proof.Machine

/-! ### Faults (Faults, Reactions and the Cairn Dump) -/

/-- Fault record of Table 18.1 (R518). -/
structure FaultRec where
  cls       : Nat := 0
  sameCycle : Bool := false
  injected  : Bool := false
  late      : Bool := false
  die       : Nat := 0
  block     : Nat := 0
  inst      : Nat := 0
  kind      : Nat := 0
  rep       : Nat := 0
  addr      : Nat := 0
  time      : Nat := 0
  deriving DecidableEq, Repr, Inhabited

/-- A record staged at the Summit for the ordering of R528: its arrival and its place in its die's log. -/
structure Staged where
  r    : FaultRec := {}
  at_  : Nat := 0
  ord  : Nat := 0
  deriving DecidableEq, Repr, Inhabited

/-- One section of a Cairn record (Tables 18.9 and 18.10): type, instance, flags and data. -/
structure CairnSection where
  ty    : Nat := 0
  inst  : Nat := 0
  flags : Nat := 0
  data  : Bytes := []
  deriving DecidableEq, Repr, Inhabited

/-- A Cairn record (Table 18.8), as far as its header and directory go. -/
structure Cairn where
  trigger   : FaultRec := {}
  tTrigger  : Nat := 0
  tComplete : Nat := 0
  seq       : Nat := 0
  pkgMode   : Nat := 0
  dieMode   : Nat := 0
  summit    : Nat := 0
  dest      : Nat := 0
  status    : Nat := 0
  lost      : Nat := 0
  ready     : Nat := 0
  sections  : List CairnSection := []
  length    : Nat := 0
  magic     : Bool := false
  deriving DecidableEq, Repr, Inhabited

/-! ### Saddles, beacon, Summit (One Part from Many Crests) -/

/-- A saddle flit (R32): its header word, its payload words where the manual gives their contents, the message it is part of
(0 for none), the dies after the next one on its way, the mark of the first flit on a new lane set (R40), and, for a flit on
its way through a die, the side and the virtual channel of the receive buffer it still stands in (R31). -/
structure Flit where
  hdr     : BitVec 64 := 0
  payload : List Word := []
  tid     : Nat := 0
  path    : List Nat := []
  marked  : Bool := false
  src     : Option (Nat × Nat) := none
  deriving DecidableEq, Repr, Inhabited

/-- A route (R27): the dies after the source, and whether it is a detour on the escape channel. -/
structure Route where
  path : List Nat := []
  esc  : Bool := false
  deriving DecidableEq, Repr, Inhabited

/-- One saddle port of a die: transmitter and receiver (R29 to R40). What Table 1.7 shows of it stands in the registers
4210+s. Virtual channels are numbered by class, plus 4 on the escape channel. -/
structure Saddle where
  /-- next sequence number to send, modulo 4,096 -/
  txSeq     : Nat := 0
  /-- flits waiting to be sent, by virtual channel (R31) -/
  queue     : Map (List Flit) := []
  /-- rotating pointer over classes 1 to 3, 0 being class 1 (R30) -/
  txPtr     : Nat := 0
  /-- credits in use at the far end, by virtual channel (R29) -/
  used      : Map Nat := []
  /-- flits sent and not acknowledged, oldest first, at most 1,024 (R33) -/
  retry     : List Flit := []
  /-- flits on the lanes that the far end has not received, in order -/
  wire      : List Flit := []
  /-- last sequence number received in order -/
  rxSeq     : Nat := 4095
  /-- a nak is out and flits are discarded until the replay (R34) -/
  rxNak     : Bool := false
  /-- failed arrivals of the sequence number expected next (R34) -/
  rxFails   : Nat := 0
  /-- incomplete transfers held by the receiver, by message (R35) -/
  rxHold    : Map (List Flit) := []
  /-- packet transfers whose last flit has arrived, waiting for release (R35) -/
  rxWhole   : List (Nat × List Flit) := []
  /-- an acknowledgement, a replay request and credits are still to be told the far end (R29, R33, R34) -/
  ackDue    : Bool := false
  nakDue    : Bool := false
  owed      : Map Nat := []
  /-- lane change of R40: 0 none, 1 step-down requested, 2 return requested, 3 return with the lanes awake -/
  laneReq   : Nat := 0
  /-- receiver accepts both lane sets until the marked flit (R40) -/
  rxBoth    : Bool := false
  /-- first flit on the new lane set still to be marked (R40) -/
  mark      : Bool := false
  /-- LANE_ACK came back before the lanes woke (R40) -/
  acked     : Bool := false
  /-- consecutive windows below the step-down threshold, in µs (R38) -/
  below     : Nat := 0
  deriving DecidableEq, Repr, Inhabited

/-- What a die holds of election, heartbeat and tokens (R44 to R53). -/
structure Beacon where
  /-- a candidate in an election (R46) -/
  electing  : Bool := false
  withdrawn : Bool := false
  /-- index bit of the next slot to sample: 3 = start pulse, then 2, 1, 0 -/
  slot      : Nat := 0
  /-- an election in which the die was a candidate has ended without it, and no heartbeat has come since (R48) -/
  outvoted  : Bool := false
  /-- the die has been told or has found that the beacon is faulty, and it has found it itself (R51) -/
  faulty    : Bool := false
  found     : Bool := false
  /-- last Summit token sequence number forwarded (R52) -/
  token     : Option Nat := none
  /-- the power-on self-check has passed (R43) -/
  checked   : Bool := false
  deriving DecidableEq, Repr, Inhabited

/-- An `all:` access that is being collected (R56). -/
structure Bcast where
  acc     : Access := {}
  targets : List Nat := []
  results : List (Nat × Nat) := []
  /-- relocations the command made on the die the access set out from (R244) -/
  moves   : Nat := 0
  /-- Meridian ns at which the Summit accepted it (R389) -/
  at_     : Nat := 0
  deriving DecidableEq, Repr, Inhabited

/-- The reply of an access (R477, R489): status, data length, data. -/
structure Reply where
  status : Nat := 0
  len    : Nat := 0
  val    : Nat := 0
  deriving DecidableEq, Repr, Inhabited

/-- One settings slot of the boot flash (R474, R586). Keys: (die + 1) × 2^24 + index × 256 + sub, die 0 meaning the
package for package-wide entries. -/
structure SettingsSlot where
  format : Nat := 0
  valid  : Bool := true
  values : Map Nat := []
  deriving DecidableEq, Repr, Inhabited

/-- A key slot as the key store of the boot flash holds it (R494). -/
structure KeySlot where
  key    : Nat := 0
  level  : Nat := 0
  enable : Bool := false
  deriving DecidableEq, Repr, Inhabited

/-! ### JDP and the management relay (The Object Dictionary and JDP) -/

/-- A JDP message (Table 16.9) with its payload. -/
structure JdpMsg where
  version  : Nat := 1
  msgType  : Nat := 0
  addrMode : Nat := 0
  hops     : Nat := 0
  target   : Nat := 0
  source   : Nat := 0
  session  : Nat := 0
  sequence : Nat := 0
  status   : Nat := 0
  count    : Nat := 0
  tag      : Nat := 0
  payload  : Bytes := []
  deriving DecidableEq, Repr, Inhabited

/-- A REQUEST that a session is at (R489): its port, key and message, the reply records so far, its access in progress with the codes
of operation and selector, and the accesses after it. -/
structure JdpJob where
  port : Nat := 0
  key  : Bytes := []
  msg  : JdpMsg := {}
  out  : Bytes := []
  cur  : Nat × Nat × Access := (0, 0, {})
  rest : List (Nat × Nat × Access) := []
  deriving DecidableEq, Repr, Inhabited

/-- A JDP session beyond its entries 1130+i: key and the last four executed requests (R491, R492). -/
structure Session where
  key    : Bytes := []
  cached : List (Nat × JdpMsg) := []
  /-- when a message was last accepted, ns (R492) -/
  last   : Nat := 0
  deriving DecidableEq, Repr, Inhabited

/-- A PCIe mailbox (Table 16.8). -/
structure Mailbox where
  control : Nat := 0
  irq     : Bool := false
  acc     : Access := {}
  reply   : Reply := {}
  /-- the reply of the access in progress is to be discarded (R485) -/
  drop    : Bool := false
  deriving DecidableEq, Repr, Inhabited

/-! ### Packets (The Journey of a Packet) -/

/-- The packet descriptor of Table 2.3 (R64, R65), field by field, most significant first. -/
structure Desc where
  seq           : BitVec 24 := 0
  flowBucket    : BitVec 16 := 0
  epoch         : BitVec 4 := 0
  pass          : BitVec 2 := 0
  srcKind       : BitVec 2 := 0
  srcPort       : BitVec 9 := 0
  dispDie       : BitVec 3 := 0
  dispCluster   : BitVec 4 := 0
  destKind      : BitVec 2 := 3
  dest          : BitVec 20 := 0
  tc            : BitVec 3 := 0
  colour        : BitVec 2 := 0
  voq           : BitVec 16 := 0
  dropReason    : BitVec 8 := 0
  mirror        : BitVec 1 := 0
  mirrorSession : BitVec 6 := 0
  cutOk         : BitVec 1 := 0
  express       : BitVec 1 := 0
  tsReq         : BitVec 1 := 0
  length        : BitVec 14 := 0
  l3            : BitVec 8 := 0
  l4            : BitVec 8 := 0
  strip         : BitVec 8 := 0
  encap         : BitVec 18 := 0
  parseClass    : BitVec 4 := 0
  malformed     : BitVec 4 := 0
  firstCell     : BitVec 18 := 0
  dramPage      : BitVec 25 := 0
  inDram        : BitVec 1 := 0
  ingressTs     : BitVec 20 := 0
  deriving DecidableEq, Repr, Inhabited

/-- The descriptor as the 256-bit word of Table 2.3. -/
def Desc.bits (d : Desc) : BitVec 256 :=
  d.seq ++ d.flowBucket ++ d.epoch ++ d.pass ++ d.srcKind ++ d.srcPort ++ d.dispDie ++ d.dispCluster ++
  d.destKind ++ d.dest ++ d.tc ++ d.colour ++ d.voq ++ d.dropReason ++ d.mirror ++ d.mirrorSession ++
  d.cutOk ++ d.express ++ d.tsReq ++ (0 : BitVec 3) ++ d.length ++ d.l3 ++ d.l4 ++ d.strip ++ d.encap ++
  d.parseClass ++ d.malformed ++ d.firstCell ++ d.dramPage ++ d.inDram ++ d.ingressTs

/-- What is known of a frame's tail (R166 to R168): not received, good, or bad with its P1 drop reason. -/
inductive Tail
  | pending | good | bad (reason : Nat)
  deriving DecidableEq, Repr, Inhabited

/-- Where a packet stands. Die and unit numbers name the die that runs it. -/
inductive Stage
  | arriving                       -- cells arriving, not parsed
  | injectIn                       -- at the inject input of the shared parse engine
  | parsed                         -- waiting for the dispatcher
  | record (d : Nat)               -- dispatch record on the way to die d
  | hold (d req : Nat)             -- dispatched, held by a requester of a dispatch queue
  | queued (d c : Nat)             -- in a cluster's dispatch queue
  | stealing (d c : Nat)           -- stolen, on the way to cluster c
  | thread (d c t : Nat)           -- on a thread
  | parked (d x : Nat)             -- in park context x of die d
  | returning                      -- return record on the way to the arrival die
  | rewrite                        -- committed, at the rewrite unit
  | atReseq                        -- rewritten, on the way to its resequencer window
  | reseq                          -- held or ready in a resequencer window
  | waitList                       -- on the admission wait list
  | voq (v : Nat)                  -- in virtual output queue v
  | recirc                         -- at the recirculation input
  | punt (ring : Nat)              -- handed to a punt ring
  | toEgress (d : Nat)             -- on the way to an egress die (fabric or saddle)
  | egReseq                        -- at the egress resequencer
  | replic                         -- at the replication engine
  | line (slot tc : Nat)           -- on a residue line
  | egress (slot tc : Nat)         -- in an egress queue
  | sending (slot : Nat)           -- being transmitted
  | ended                          -- dropped, its tail still to come (R168)
  deriving DecidableEq, Repr, Inhabited

/-- The switches a parse runs under (R171, R172): a program of Table 5.6, the extra TPID and the malformed actions. -/
structure ParseCfg where
  protocols : Nat := 0
  maxTags   : Nat := 0
  maxLabels : Nat := 0
  maxExt    : Nat := 0
  innerKey  : Bool := false
  tunnel    : Bool := false
  vxPort    : Nat := 0
  mplsNever : Bool := false
  checksum  : Bool := false
  extraTpid : Nat := 0
  actions   : Map Nat := []
  deriving DecidableEq, Repr, Inhabited

/-- The settings of a mirror session that a copy is made and served by (R265, R331): kind, destination, class and truncation. -/
structure Mirror where
  kind : Nat := 0
  dest : Nat := 0
  tc   : Nat := 0
  cut  : Nat := 0
  deriving DecidableEq, Repr, Inhabited

/-- A packet inside the part: its descriptor, its body and what it holds. -/
structure Packet where
  desc    : Desc := {}
  /-- die whose cells hold the body -/
  die     : Nat := 0
  stage   : Stage := .arriving
  frame   : Bytes := []
  tail    : Tail := .pending
  /-- header window as delivered by dispatch (R110) -/
  win     : Bytes := []
  /-- header window with the journal's header writes (R121, R129) -/
  rw      : Bytes := []
  /-- flow key of Table 3.1 -/
  key     : Nat := 0
  /-- parse switches in force when its first header byte entered the parse engine (R172), and the pipeline of the engine
  it was parsed in (R151) -/
  cfg     : ParseCfg := {}
  pipe    : Nat := 0
  /-- lowest slot of the arrival port, and the priority the MAC gave the frame -/
  slot    : Nat := 0
  prio    : Nat := 0
  /-- pool requester its units are charged to (R316) -/
  req     : Nat := 0
  cells   : List Nat := []
  resv    : Nat := 0
  unit    : Option Nat := none
  pages   : List Nat := []
  /-- occupancy units counted on the arrival port (R319) -/
  occ     : Nat := 0
  /-- a sequence number has been assigned -/
  hasSeq  : Bool := false
  /-- the packet is a holder of its epoch (R277) -/
  holder  : Bool := false
  committed : Bool := false
  restarts  : Nat := 0
  /-- malformed class already counted, and a deferred length check (R164): class and bytes demanded -/
  counted : Nat := 0
  defer   : List (Nat × Nat) := []
  est     : Bool := false
  /-- maximum length the frame is checked against (R166, R170) -/
  maxLen  : Nat := 16128
  /-- inject ring, for src_kind 1 -/
  ring    : Nat := 0
  /-- Meridian receive stamp in 2^-16 ns units of its MAC (R391) -/
  rxStamp : Nat := 0
  /-- packet whose cells this replica or copy shares (R331), and how many still share this packet's cells -/
  shares  : Option Nat := none
  users   : Nat := 0
  /-- Ridgeline stream data rebuilt at the egress side (R65) -/
  srcDie  : Nat := 0
  fabSeq  : Nat := 0
  restart : Bool := false
  poison  : Bool := false
  resent  : Bool := false
  /-- first bytes are on their way before the tail (R71) -/
  cutThrough : Bool := false
  /-- bytes of the first page of the packet in its VOQ (R324, R326) -/
  pageOff : Nat := 0
  /-- the rewrite unit has built the frame (R268): bytes pushed and bytes removed -/
  built   : Bool := false
  push    : Bytes := []
  cut     : Nat := 0
  /-- a mirror copy (R265): its session, and that session's settings at the commit -/
  copyOf  : Option Nat := none
  mir     : Mirror := {}
  /-- ingress cut-through was allowed on its port when it began (R71, R392) -/
  ctRx    : Bool := false
  /-- Meridian ns at which the packet joined its queue (R366) -/
  enq     : Nat := 0
  /-- when the packet reached the replication engine (R334), and when it joined its dispatch queue (Table 19.4) -/
  atRepl  : Nat := 0
  queuedAt : Nat := 0
  /-- cells of the packet charged to its VOQ's balance (R410) -/
  charged : Nat := 0
  /-- the group whose shaper its selection charged (R344), and a word of its body was lost after its head had left (R380) -/
  txGroup : Nat := 0
  perr    : Bool := false
  /-- cells of it counted in sent_total (R410) -/
  cellsOut : Nat := 0
  /-- the owed return of cells when the tail arrives, and cells sent so far on the link it travels on -/
  sentCells : Nat := 0
  onLink  : Option Nat := none
  /-- 64-byte units of a packet in DRAM: still to be offered for writing, not yet written, still to be asked for
  reading, not yet read (R425 to R428) -/
  wrAsk   : Nat := 0
  wrLeft  : Nat := 0
  rdAsk   : Nat := 0
  rdLeft  : Nat := 0
  deriving DecidableEq, Repr, Inhabited

/-! ### Dispatch and resequencing -/

/-- A resequencer window (R101 to R103). -/
structure Window where
  expected : Nat := 0
  /-- packets ahead of expected: sequence number and packet -/
  held     : Map Nat := []
  /-- numbers marked as released ahead of expected -/
  marks    : List Nat := []
  /-- packets released and waiting for the grant of their output (R105) -/
  ready    : List Nat := []
  /-- start of the hole timer (R102) -/
  timer    : Option Nat := none
  /-- number that last resynchronised an egress window (R401) -/
  kept     : Option Nat := none
  deriving DecidableEq, Repr, Inhabited

/-! ### Micro-engines -/

/-- A journal entry (Table 4.11, Table 18.11). -/
structure JEntry where
  op     : Nat := 0
  offset : Nat := 0
  len    : Nat := 0
  val    : Word := 0
  val2   : Word := 0
  deriving DecidableEq, Repr, Inhabited

/-- A search result slot: header word and three payload words (R125), and the context number a context read was
made for (R296). -/
structure RSlot where
  hdr : Word := 0
  p1  : Word := 0
  p2  : Word := 0
  p3  : Word := 0
  ctx : Option Nat := none
  deriving DecidableEq, Repr, Inhabited

/-- The state of a run (R108 to R111). -/
structure Run where
  pkt       : Nat := 0
  /-- the model's own number of the run, by which responses find it (log entry 9) -/
  rid       : Nat := 0
  /-- run generation: that of the run before it plus 1 when it is a restart (Table 4.9) -/
  gen       : BitVec 2 := 0
  /-- descriptor and header window at the start of the run (R111, R114) -/
  desc      : Desc := {}
  win       : Bytes := []
  pc        : BitVec 14 := 0
  z : Bool := false
  n : Bool := false
  c : Bool := false
  v : Bool := false
  t : Bool := false
  stack     : List (BitVec 14) := []
  g         : Map Word := []
  slots     : Map RSlot := []
  /-- slots issued in this run, one bit each (wait code 2) -/
  issued    : BitVec 4 := 0
  journal   : List JEntry := []
  committed : Bool := false
  /-- entries applied and not yet drained (R129) -/
  draining  : Nat := 0
  /-- entries of the second group (R131) -/
  tail      : List JEntry := []
  /-- END has executed; the thread is free once draining is 0 (R131) -/
  ended     : Bool := false
  tailFault : Bool := false
  /-- contexts whose cache lines the run pins (R295), and the context whose lock it holds (R298) -/
  pins      : List Nat := []
  lock      : Option Nat := none
  /-- a park has been refused at this word (R96) -/
  stay      : Bool := false
  /-- slots in which a word of it issued (R559, R560), when it started, and the address of the word that issued each result
  slot's search (R563) -/
  words     : Nat := 0
  began     : Nat := 0
  srchAt    : Map Nat := []
  deriving DecidableEq, Repr, Inhabited

/-- A park context: a parked run, or a pre-empted packet with the fault it waits on (R127, R133). -/
structure ParkCtx where
  cluster : Nat := 0
  thread  : Nat := 0
  runGen  : BitVec 2 := 0
  run     : Option Run := none
  pkt     : Nat := 0
  /-- fault code and page for a pre-empted context (R133, Table 9.5) -/
  fault   : Option (Nat × Nat) := none
  /-- the fault is resolved (R136) -/
  ready   : Bool := false
  since   : Nat := 0
  /-- the word whose search met the fault (R563) -/
  addr    : Nat := 0
  deriving DecidableEq, Repr, Inhabited

/-- A hardware thread: idle or holding a run, and the generation its next new packet starts with, so that late responses of
the run before are told apart (R125). -/
structure Thread where
  run    : Option Run := none
  runGen : BitVec 2 := 0
  /-- a pre-empted packet waiting in the thread slot for want of a park context (R133) -/
  pre    : Option ParkCtx := none
  /-- park granted, state not yet saved: the context number (R127) -/
  parking : Option Nat := none
  deriving DecidableEq, Repr, Inhabited

/-- An engine cluster. -/
structure Cluster where
  queue    : List Nat := []
  ptrQueue : Nat := 0
  ptrStart : Nat := 0
  ptrSteal : Nat := 0
  threads  : Map Thread := []
  /-- stolen packets on the way to this cluster (R98) -/
  stolen   : List (List Nat) := []
  store    : Map (BitVec 160) := []
  entry    : Map Nat := []
  /-- word addresses under reload (R140), and those that the self-test has found and reloads (R552) -/
  reloading : List Nat := []
  testing   : List Nat := []
  /-- stored parity bits of a word (R112), as they differ from the parity of what is stored: 0 where they agree -/
  parity   : Map (BitVec 3) := []
  /-- rotating pointers: issue slot by engine (R108), write port of the control store (R138) -/
  ptrIssue : Map Nat := []
  ptrWrite : Nat := 0
  /-- rotating pointer of the counter read port over the threads (R562) -/
  ptrCnt   : Nat := 0
  /-- engines removed from dispatch for a slice, one bit each (R93) -/
  noStart  : BitVec 16 := 0
  /-- step of a rolling load: 0 none, 1 emptying, 2 store being written (R143) -/
  loading  : Nat := 0
  /-- parking for Lean or a forced-off domain (R515, R510) -/
  toPark   : Bool := false
  /-- powered back and waiting to return to service (R514) -/
  waking   : Bool := false
  deriving DecidableEq, Repr, Inhabited

/-- A microcode image: words, entry vector and version word (R110, R138, R144). -/
structure Ucode where
  words   : Map (BitVec 160) := []
  entry   : Map Nat := []
  version : Nat := 0
  deriving DecidableEq, Repr, Inhabited

/-- A search request on its way (Table 4.9): header word and keys. -/
structure SReq where
  hdr  : Word := 0
  keys : List Word := []
  /-- die and run that asked -/
  die  : Nat := 0
  rid  : Nat := 0
  /-- bucket writes the die had made when the request reached its search unit (R230) -/
  mark : Nat := 0
  /-- address of the word that issued it, carried outside the header (R563), and a 0x41 read that its home has sent back once -/
  addr : Nat := 0
  again : Bool := false
  deriving DecidableEq, Repr, Inhabited

/-- A search response on its way (Table 4.10): the tag it answers, its words, and a context map fault (0 none). -/
structure SResp where
  rid   : Nat := 0
  /-- result slot it fills, and the tag it carries over a saddle (R124) -/
  sl    : Nat := 0
  tag   : Nat := 0
  slot  : RSlot := {}
  fault : Nat := 0
  page  : Nat := 0
  deriving DecidableEq, Repr, Inhabited

/-! ### Buffers (Buffers, Pools and Admission) -/

/-- A pool of numbered units (R312 to R315). -/
structure Pool where
  /-- units in use, with the requester charged plus 1; 7 = charged to no requester -/
  used  : Map Nat := []
  ready : List Nat := []
  relq  : List Nat := []
  /-- outstanding reservations by requester -/
  resv  : Map Nat := []
  ptr   : Nat := 0
  /-- the free count at the last read of free_low, until the next count is noted (R471, Table 10.7) -/
  low   : Option Nat := none
  deriving DecidableEq, Repr, Inhabited

/-- A virtual output queue (R324 to R326). -/
structure Voq where
  pkts     : List Nat := []
  /-- the tail page and its free bytes -/
  tailPage : Nat := 0
  tailFree : Nat := 0
  deriving DecidableEq, Repr, Inhabited

/-- An egress queue with its residue line: packets that wait behind it, and multicast packets owed a replica there
(R333). -/
structure EgQueue where
  pkts  : List Nat := []
  line  : List Nat := []
  deriving DecidableEq, Repr, Inhabited

/-- A target of replication (R331). -/
inductive Target
  | queue (slot tc : Nat) | admitPkt | ring (r : Nat)
  deriving DecidableEq, Repr, Inhabited

/-- A packet in the residue table (R332 to R334). -/
structure Residue where
  since : Nat := 0
  /-- order of entry into the residue table -/
  ord   : Nat := 0
  owed  : List Target := []
  deriving DecidableEq, Repr, Inhabited

/-- A VOQ map entry (Table 10.5). -/
structure VoqMap where
  profile : Nat := 0
  port    : Nat := 0x1FF
  deriving DecidableEq, Repr, Inhabited

/-! ### Hashed tables (Longest-Prefix Route Lookup; Exact Tables, Learning and Ageing) -/

/-- One slot of a hashed table: Tables 6.3 to 6.5 and 7.2 to 7.4. `key` is the hashed byte string of R183 or R220,
byte 0 most significant (for the LFI the pair ha, hb); the other fields are the slot's own. -/
structure TEntry where
  key      : Nat := 0
  result   : Nat := 0
  static   : Bool := false
  hit      : Bool := false
  aged     : Bool := false
  ageTs    : Nat := 0
  encap    : Nat := 0
  op       : Nat := 0
  hot      : Bool := false
  coverLen : Nat := 0x7F
  coverRes : Nat := 0
  hotMask  : Nat := 0
  deepMask : Nat := 0
  deriving DecidableEq, Repr, Inhabited

/-- A bucket (Table 6.2): move generation, alternate count, and the slots in use by number. -/
structure Bucket where
  gen   : BitVec 8 := 0
  alt   : Nat := 0
  slots : Map TEntry := []
  deriving DecidableEq, Repr, Inhabited

/-- A hashed table of a die: its buckets and the relocations made since reset (R244). -/
structure HTable where
  buckets  : Map Bucket := []
  relocGen : Nat := 0
  deriving DecidableEq, Repr, Inhabited

/-- A root slot (Table 6.6). -/
structure RootSlot where
  len    : Nat := 0
  pfx    : Nat := 0
  result : Nat := 0
  deriving DecidableEq, Repr, Inhabited

/-- A bucket write: its number on the die, the requester that made it, the pointer of the bank before its grant, the table, the
bucket, and what the bucket held before (R225, R230). -/
structure BWrite where
  no     : Nat := 0
  req    : Nat := 4
  ptr    : Nat := 0
  code   : Nat := 0
  bucket : Nat := 0
  was    : Bucket := {}
  deriving DecidableEq, Repr, Inhabited

/-- A write of the shadow region that waits for its page or port (R308, R448): shadow, table and bucket or number, and what it
writes, a bucket or a value of an index table. -/
structure ShWrite where
  sub  : Nat := 0
  code : Nat := 0
  no   : Nat := 0
  v    : Bucket := {}
  val  : Nat := 0
  deriving DecidableEq, Repr, Inhabited

/-- A software command in a table engine's queue (R242): the requester, whether it came as a broadcast, the entry of 2300 that is
written (R274) or 0 for a table command, its value, and how far it is: 0 not started, 1 a FIB delete whose deep copy goes last
(R212); `on`: the engine has taken it up. -/
structure EngCmd where
  req   : Nat := 0
  all   : Bool := false
  epoch : Nat := 0
  val   : Nat := 0
  phase : Nat := 0
  on    : Bool := false
  deriving DecidableEq, Repr, Inhabited

/-- A lookup or context read that holds or waits for a deep-request queue entry (R196, R197). -/
structure DeepReq where
  /-- its number on the die, once it holds an entry -/
  no      : Nat := 0
  unit    : Nat := 0
  req     : SReq := {}
  /-- context to fill, for a context miss -/
  ctx     : Option Nat := none
  home    : Nat := 0
  /-- lengths still to read, longest first (R191) -/
  lens    : List Nat := []
  /-- best result so far: length, source code of Table 6.11, result word -/
  best    : Option (Nat × Nat × Nat) := none
  probes  : Nat := 0
  reads   : Nat := 0
  /-- 64-byte reads asked for (4610.07) -/
  asked   : Nat := 0
  /-- the read it waits for: 0 the first bucket choice, 1 the second, 2 the first one's move generation again (R232) -/
  step    : Nat := 0
  /-- retries of R232, and the first-choice move generation seen -/
  retries : Nat := 0
  gen     : BitVec 8 := 0
  /-- the line was in the cache and waits on a set with 12 pinned ways (R295) -/
  pinWait : Bool := false
  /-- a 0x41 read that waits in the staging list for its lock (R299), and one served without a lock (R298) -/
  lockWait : Bool := false
  skipped : Bool := false
  deriving DecidableEq, Repr, Inhabited

/-- What a die asks of a home die (R199, R284, R296): lines of a deep bucket, both lines of a context, a context read, a group of
context updates (context, word, operation, value) with the number of its commit, or the release of a run's pins and lock. The first
two name the asking die, its deep-request entry and the tag of the search (R124). -/
inductive HomeReq
  | bucket (die no code b lines tag : Nat)
  | fill (die no c tag : Nat)
  | context (q : SReq)
  | update (no : Nat) (es : List (Nat × Nat × Nat × Word))
  | release (pins : List Nat) (lock : Option Nat)
  deriving DecidableEq, Repr, Inhabited

/-- What a home die answers: a bucket with the fault it met and the 64-byte reads made, a response to a context read with
the deep-request entry it frees, if any, that a context read needs an entry of the asking die's deep-request queue (R294, R295) or
a place in its staging list (R299), or that it waits for its lock (R299). -/
inductive HomeAns
  | bucket (no : Nat) (v : Bucket) (code reads tag : Nat)
  | reply (no : Option Nat) (r : SResp)
  | miss (q : SReq) (skipped pinWait lockWait : Bool)
  | deferred (q : SReq)
  deriving DecidableEq, Repr, Inhabited

/-- A search unit: requests in arrival order and its deep staging list (R190, R197). -/
structure SUnit where
  reqs    : List SReq := []
  staging : List DeepReq := []
  /-- since when the staging list is full, for 4610.0F -/
  fullAt  : Nat := 0
  deriving DecidableEq, Repr, Inhabited

/-- A learn event (Table 7.8). -/
structure LEvent where
  ty : Nat := 0
  k0 : Word := 0
  k1 : Word := 0
  deriving DecidableEq, Repr, Inhabited

/-- A flush in progress (R247). -/
structure Flush where
  table   : Nat := 0x10
  port    : Nat := 0
  statics : Bool := false
  filter  : Option Nat := none
  /-- the flush came as a broadcast (R251) -/
  all     : Bool := false
  pos     : Nat := 0
  kept    : Bool := false
  deriving DecidableEq, Repr, Inhabited

/-! ### Classification and contexts -/

/-- A ternary entry (Table 8.1). -/
structure TernEntry where
  value  : BitVec 224 := 0
  mask   : BitVec 224 := 0
  epochs : BitVec 16 := 0
  prio   : BitVec 20 := 0
  action : BitVec 17 := 0
  table  : BitVec 4 := 0
  deriving DecidableEq, Repr, Inhabited

/-- A context map entry (Table 9.2). -/
structure MapEntry where
  state  : Nat := 0
  poison : Nat := 0
  gen    : BitVec 8 := 0
  hpa    : Nat := 0
  deriving DecidableEq, Repr, Inhabited

/-- A context cache line (R294, R295): sixteen words, dirty, the number of runs that pin it, and by word the number of the last
commit that wrote it (R297). -/
structure CtxLine where
  valid : Bool := false
  dirty : Bool := false
  pins  : Nat := 0
  words : Map Word := []
  wrote : Map Nat := []
  deriving DecidableEq, Repr, Inhabited

/-- A lock of a context (R298 to R300): the run of its holder and the requests that wait, oldest first, each with
the die it came from. -/
structure Lock where
  holder : Option Nat := none
  queue  : List SReq := []
  deriving DecidableEq, Repr, Inhabited

/-- A page command that takes time (R306 to R308). -/
structure PageCmd where
  op     : Nat := 0
  region : Nat := 0
  page   : Nat := 0
  hpa    : Nat := 0
  deriving DecidableEq, Repr, Inhabited

/-- A meter: its configuration word (Table 11.3) and the tokens of this die in units of 2^-32 byte, brought up to
date at `last` engine cycles (R351, R354). -/
structure Meter where
  cfg  : BitVec 128 := 0
  tc   : Nat := 0
  te   : Nat := 0
  last : Nat := 0
  deriving DecidableEq, Repr, Inhabited

/-! ### Messages between dies -/

/-- What a die sends another over the saddles (R27, R29), by the rule that makes it. -/
inductive MsgBody
  | access (req : Nat) (a : Access)                 -- R480
  | bcast (req : Nat) (a : Access)                  -- R57
  | routeTable (gen : Nat) (table : Map Route)      -- R28
  | beaconNotice                                    -- R51
  | token (seq : Nat) (via : Nat)                   -- R52: sequence number and arrival side
  | faultRec (r : FaultRec)                         -- R527
  | repeatUpd (r : FaultRec)                        -- R526
  | dispatch (pkt : Nat)                            -- R86
  | ret (pkt : Nat)                                 -- R86
  | pageEvent (home region page : Nat)              -- R302
  | fibHome (req : Nat) (ok : Bool) (rec : Nat) (del : Bool) (status : Nat)   -- R210
  | epochSwitch (cur ret : Nat)                     -- R275
  | epochAck (die : Nat)                            -- R275
  | cells (pkt : Nat)                               -- R327: a turnaround packet
  | learnRec (rec : Nat)                            -- R240
  | laneReq (side : Nat)                            -- R40: the receiver's side
  | laneAck (side : Nat)                            -- R40: the transmitter's side
  | flash                                           -- R42: a boot flash access for the flash agent
  | relay (port : Nat) (m : JdpMsg)                 -- R486: a message that the management relay consumed
  | search (r : HomeReq)                            -- R199, R284: a read for its home die
  | answer (r : HomeAns)                            -- R199, R284: what it read
  deriving DecidableEq, Repr, Inhabited

/-- A message: its number, its size in bytes, whether it has arrived, the side it arrived by, and the virtual channel and the
number of flits of the receive buffer it stands in there (R31). -/
structure Msg where
  id      : Nat := 0
  src     : Nat := 0
  dst     : Nat := 0
  size    : Nat := 0
  arrived : Bool := false
  via     : Nat := 0
  room    : Option (Nat × Nat) := none
  body    : MsgBody := .beaconNotice
  deriving DecidableEq, Repr, Inhabited

/-! ### A die -/

/-- The readings a slice looks at (R545): VIN in mV, per island (search, engines, buffer and scheduler) whether its clock lies
within ±1% of nominal, and the junction temperature in 0.1 °C. -/
structure Readings where
  vin : Nat := 12000
  clk : BitVec 3 := 7
  tj  : Int := 250
  deriving DecidableEq, Repr, Inhabited

/-- A transit slice in progress (R543 to R553): its target, its phase (1 mirror, 2 test, 3 restore for a bank; 1 drain,
2 test for an engine; 1 walk, 2 reload for a control store; 1 for a segment), when it started, and that it is abandoned and only restores (R546). -/
structure Slice where
  target : Nat := 0
  phase  : Nat := 1
  since  : Nat := 0
  off    : Bool := false
  deriving DecidableEq, Repr, Inhabited

/-- The TAP of a die (R606): instruction register, boundary register, and what the pins follow: 0 the part, 1 the
boundary register, 2 pulses, 3 pulse trains, 4 clamped, 5 high impedance; scan and debug in use. -/
structure Tap where
  ir       : BitVec 8 := 1
  boundary : List Bool := []
  pins     : Nat := 0
  scan     : Bool := false
  debug    : Bool := false
  deriving DecidableEq, Repr, Inhabited

/-- Saddles, beacon, fault collector and dump of a die. -/
structure DieCore where
  saddles   : Map Saddle := []
  /-- route table in use, by destination, and its topology generation, 0 before the first (R28) -/
  routes    : Map Route := []
  routeGen  : Nat := 0
  /-- messages that wait here for a route, with the receive buffer (side and channel) they still stand in (R31, R35) -/
  stranded  : List (Nat × Option (Nat × Nat)) := []
  /-- rotating pointer of the dictionary endpoint over its requesters, while the die is Summit (R479) -/
  endptPtr  : Nat := 0
  /-- a temperature has been read since tj_peak_c was (R471) -/
  peakRead  : Bool := false
  beacon    : Beacon := {}
  faultQ    : List FaultRec := []
  log       : List FaultRec := []
  sendQ     : List (Bool × FaultRec) := []
  writing   : Option Cairn := none
  slotA     : Option Cairn := none
  slotB     : Option Cairn := none
  host      : Option Cairn := none
  machineChecks : List Nat := []
  /-- slices in progress by kind, and kinds whose next slice is already due (R544) -/
  slices    : Map Slice := []
  sliceDue  : List Nat := []
  /-- the last readings taken for the conditions of the slices (R545, R546) -/
  readings  : Readings := {}
  /-- the target each kind visits next (Table 19.8) -/
  nextSlice : Map Nat := []
  /-- per slice kind: when its last slice fell due, in ns of `now` (R544) -/
  sliceLast : Map Nat := []
  /-- the spare bank has failed (R549) -/
  spareFailed : Bool := false
  /-- place of the die's copy of Meridian among those of the package, in ns, 0 to 4 (R362) -/
  clock     : Nat := 0
  /-- parity flips injected and waiting: block, instance, address, reads left (R541) -/
  flips     : List (Nat × Nat × Nat × Nat) := []
  /-- loopbacks and patterns by path × 256 + index (R556) -/
  loops     : Map Nat := []
  patterns  : Map Nat := []
  tap       : Tap := {}
  /-- reference clocks lost (R598) -/
  netLost   : Bool := false
  fabLost   : Bool := false
  pciLost   : Bool := false
  /-- held in power-on reset (R593), and by an exclusion in force (R26) -/
  por       : Bool := false
  /-- the junction reading was above 105 °C (R600) -/
  hot       : Bool := false
  /-- dumps: the record that was requested while none could be written, held (R534) -/
  heldDump  : Option Cairn := none
  /-- the reset that waits for this die's record is a die reset (R54) -/
  rejoin    : Bool := false
  deriving DecidableEq, Repr, Inhabited

/-- Ingress, dispatch and engines of a die. -/
structure DieEng where
  /-- packets dispatched in this 1 µs window (R513) -/
  dispatched : Nat := 0
  seqCtr    : Map Nat := []
  /-- packet being received on a port, plus 1 -/
  rx        : Map Nat := []
  /-- parsed packets waiting for the dispatcher, by requester of Table 3.3 -/
  parsed    : Map (List Nat) := []
  /-- dispatched packets held by a requester: cluster and packet, in order -/
  hold      : Map (List (Nat × Nat)) := []
  recircQ   : List Nat := []
  /-- inject input of the shared parse engine, and the rotating pointers of that engine (R152) and of the pipelines of a
  port parse engine (R151) -/
  injectIn  : List Nat := []
  sharedPtr : Nat := 0
  pipePtr   : Map Nat := []
  clusters  : Map Cluster := []
  park      : Map ParkCtx := []
  /-- rotating pointer of the park pool over clusters (R95) -/
  parkPtr   : Nat := 0
  rewriteQ  : List Nat := []
  reseqQ    : List Nat := []
  /-- hole markers on the way: window key and sequence number (R68) -/
  markers   : List (Nat × Nat) := []
  inWin     : Map Window := []
  egWin     : Map Window := []
  outPtr    : Map Nat := []
  ucodeGood : Bool := true
  /-- clusters a microcode load still has to take, in order (R143) -/
  toLoad    : List Nat := []
  /-- counter sets 0-15 of clusters and 16-19 of search units: sample records (Table 19.6), oldest first, and
  occurrences since the last one (R563) -/
  samples   : Map (List (BitVec 128)) := []
  sampCnt   : Map Nat := []
  /-- rotating pointer of each set over thread numbers, and the records whose latency has not ended: set, event, the number it is
  found by, and the record (R563) -/
  sampPtr   : Map Nat := []
  sampOpen  : List (Nat × Nat × Nat × BitVec 128) := []
  /-- time of the die's last reset, for the cycle counters (R557) -/
  perfFrom  : Nat := 0
  deriving DecidableEq, Repr, Inhabited

/-- Lookup tables and engines of a die. -/
structure DieLook where
  units     : Map SUnit := []
  deepQ     : List DeepReq := []
  deepPtr   : Nat := 0
  deepHold  : Bool := false
  /-- since when dispatch is held, for 4610.0C; the number of the next deep request -/
  holdAt    : Nat := 0
  deepNo    : Nat := 0
  /-- requests at the die's CXL port, in the order in which they reached it (R199) -/
  port      : List HomeReq := []
  /-- fills that wait for a pin of their set to be released (R295) -/
  fillWait  : List HomeReq := []
  resps     : List SResp := []
  tabs      : Map HTable := []
  /-- bucket writes of the die so far, and the latest of them, newest first (R225, R230) -/
  writes    : Nat := 0
  trail     : List BWrite := []
  /-- root entries: their slots by number (R189) -/
  root      : Map (Map RootSlot) := []
  nextHop   : Map (BitVec 128) := []
  ecmp      : Map (BitVec 32) := []
  learnQ    : List LEvent := []
  filter    : List (Nat × Nat) := []
  flush     : Option Flush := none
  /-- software commands of the table engine in order of acceptance, its rotating pointer, and sweepers (2, with the table) and
  shadow repair (3) that have asked for the engine and wait for it (R242) -/
  engQ      : List EngCmd := []
  engPtr    : Nat := 0
  engAsk    : List (Nat × Nat) := []
  /-- rotating pointers of the table SRAM banks over their requesters (R225) -/
  bankPtr   : Map Nat := []
  sweep     : Map Nat := []
  /-- shadows by table sub of 2220: copied tables, and whether the copy is complete (R251) -/
  shadow    : Map (Map HTable) := []
  shadowIdx : Map (Map Nat) := []
  shadowOn  : List Nat := []
  scrubPos  : Map Nat := []
  recheck   : List (Nat × Nat) := []
  /-- since when scrubbing stands still (R252), and shadow writes that wait (R308, R448) -/
  scrubAt   : Option Nat := none
  kept      : List ShWrite := []
  /-- writes without a completion when the CXL port went down, made before the kept ones (R448, R449) -/
  inFlight  : Nat := 0
  rebuild   : List Nat := []
  tern      : Map TernEntry := []
  actions   : Map (BitVec 192) := []
  written   : List Nat := []
  rewrite   : Map (BitVec 256) := []
  classFenced : Bool := false
  epCur     : Nat := 0
  epRet     : Option Nat := none
  /-- fenced banks of table SRAM, one bit each; bank the spare stands for (R531, R532) -/
  banks     : BitVec 8 := 0
  spareFor  : Option Nat := none
  /-- the fenced banks in the order in which they were fenced (R550) -/
  fenceOrd  : List Nat := []
  spareOk   : List Nat := []
  ctx       : Map CtxLine := []
  /-- rotating pointer of the context cache over its requesters (R294) -/
  ctxPtr    : Nat := 0
  locks     : Map Lock := []
  cmap      : Map MapEntry := []
  /-- the HPA page, plus 1, in which the contents of a page lie that this state keeps under their own numbers (R288) -/
  lies      : Map Nat := []
  /-- Cairn records whose pages are mapped elsewhere by now: the HPA pages they lie in, and the record -/
  awayDumps : List (List Nat × Cairn) := []
  tcache    : List Nat := []
  poison    : List Nat := []
  /-- the expander's memory by 128-byte line of its HPA space, as 64-bit words; lines unlisted hold zeros. The pages of the
  regions other than the contexts whose contents stand elsewhere in this state are not in it (`lies`) -/
  exp       : Map (Map Word) := []
  pageCmd   : Option PageCmd := none
  /-- pages a Notice of code 0x1 has been sent for since their last state change (Table 9.5) -/
  noticed   : List Nat := []
  outOfRangeAt : Option Nat := none
  deriving DecidableEq, Repr, Inhabited

/-! ### Scheduling (Scheduling, Shaping, Policing and Gates) -/

/-- A scheduler node: its tag, whether it was eligible when last looked at, and its shaper's credit in units of
2^-32 byte, brought up to date at `last` cycles of the buffer island (R342, R343, R346). -/
structure Node where
  tag    : BitVec 48 := 0
  awake  : Bool := false
  credit : Int := 0
  last   : Nat := 0
  deriving DecidableEq, Repr, Inhabited

/-- One gate configuration: base time, cycle, extension, and the list of gate states and intervals (R355, R356). -/
structure GateCfg where
  states : Nat := 0xFF
  base   : Nat := 0
  cycle  : Nat := 0
  ext    : Nat := 0
  len    : Nat := 0
  list   : Map (Nat × Nat) := []
  deriving DecidableEq, Repr, Inhabited

/-- The gate machine of a port: the admin list, the pending and the running configuration, and the change time from
which the running list counts (R358, R359). -/
structure Gate where
  admin   : Map (Nat × Nat) := []
  pending : Option GateCfg := none
  oper    : GateCfg := {}
  start   : Nat := 0
  running : Bool := false
  /-- Meridian ns at which the pending configuration was accepted (R358, R359) -/
  accepted : Nat := 0
  /-- entry in force, and the Meridian ns at which each gate last opened -/
  entry   : Nat := 0
  since   : Map Nat := []
  deriving DecidableEq, Repr, Inhabited

/-! ### Fabric (Ridgeline Fabric Links) -/

/-- The counters a VOQ's balance is made of (R410), and whether a demand is standing (R412). -/
structure VCred where
  granted  : Nat := 0
  sent     : Nat := 0
  /-- cells charged to the balance and not yet sent (R410) -/
  held     : Nat := 0
  released : Nat := 0
  asking   : Bool := false
  begun    : Bool := false
  dst      : Nat := 0
  tc       : Nat := 0
  deriving DecidableEq, Repr, Inhabited

/-- An egress credit entry (R413): the source die's fabric id and VOQ, the queue it asks for, and its counters. -/
structure CEntry where
  src      : Nat := 0
  voq      : Nat := 0
  dst      : Nat := 0
  tc       : Nat := 0
  queued   : Nat := 0
  granted  : Nat := 0
  sent     : Nat := 0
  released : Nat := 0
  received : Nat := 0
  /-- when a cell of the entry was last received, or sent_total last rose (R414), in ns -/
  since    : Nat := 0
  deriving DecidableEq, Repr, Inhabited

/-- A packet in reassembly (R398). -/
structure Reasm where
  src   : Nat := 0
  mcast : Bool := false
  dst   : Nat := 0
  seq   : Nat := 0
  pkt   : Nat := 0
  /-- bytes of a copy sent again that the packet has already (R400) -/
  skip  : Nat := 0
  deriving DecidableEq, Repr, Inhabited

/-- A cell in a link's retry buffer: header, payload, and the packet it belongs to (R404, R409). -/
structure FCell where
  hdr     : BitVec 128 := 0
  payload : Bytes := []
  pkt     : Option Nat := none
  deriving DecidableEq, Repr, Inhabited

/-- The transmit lane of a fabric link (R394, R395): the bytes of the flit stream that no codeword has taken yet, the places
in them where flits start, the last 58 scrambled bits, codewords sent modulo 16,384, and the codeword sent last. -/
structure FTx where
  stream : Bytes := []
  starts : List Nat := []
  scr    : BitVec 58 := 0
  no     : Nat := 0
  cw     : BitVec 5440 := 0
  deriving DecidableEq, Repr, Inhabited

/-- A fabric link beyond its entries 4110+l (R403 to R409, R417 to R419). -/
structure FLink where
  /-- cells sent and not acknowledged, oldest first, with the link number of the oldest -/
  retry    : List FCell := []
  base     : Nat := 0
  txSeq    : Nat := 0
  /-- link number expected next, whether a nak is out, and failed arrivals of that number -/
  rxSeq    : Nat := 0
  rxNak    : Bool := false
  rxFails  : Nat := 0
  /-- cells accepted since the last ACK -/
  unacked  : Nat := 0
  /-- control credit of the peer; data credit stands in 4110+l.04 -/
  ctlCredit : Nat := 0
  /-- units to return by class (R406) -/
  owed     : Map Nat := []
  /-- control cells held for credit or retry room (R407) -/
  ctlQ     : List FCell := []
  /-- packets of which this link still has cells to send, oldest first (R398) -/
  going    : List Nat := []
  /-- data cells accepted that wait in the receive buffer for pool units, oldest first (R316) -/
  rxBuf    : List FCell := []
  /-- the transmit lane -/
  tx       : FTx := {}
  /-- the last TRAIN received and how many identical ones in a row (Table 13.6) -/
  train    : BitVec 45 := 0
  trains   : Nat := 0
  /-- classes whose CREDIT_INIT has come, one bit each; READY received -/
  inits    : Nat := 0
  ready    : Bool := false
  /-- the receive direction runs; it is being woken by the peer (R393, R418) -/
  rxOn     : Bool := false
  rxWake   : Bool := false
  /-- consecutive restarts that did not reach step 6 -/
  fails    : Nat := 0
  /-- the link control flit sent last -/
  lcf      : BitVec 64 := 0
  /-- step-down of this link: 0 none, 1 emptying, 2 STEP_REQ sent; waking by WAKE_REQ -/
  step     : Nat := 0
  waking   : Bool := false
  /-- fenced and not up again since (R508) -/
  fenced   : Bool := false
  /-- disabled while it started (R512) -/
  pendDown : Bool := false
  deriving DecidableEq, Repr, Inhabited

/-- A set of links for step-down: µs below the threshold, and whether it is stepped down (R417). -/
structure LinkSet where
  below : Nat := 0
  down  : Bool := false
  deriving DecidableEq, Repr, Inhabited

/-! ### Rings (CXL Memory and Host Attach) -/

/-- A ring beyond its entries 4440+k: slots advanced since the last interrupt, and when the first was (R459). -/
structure Ring where
  unsig : Nat := 0
  since : Option Nat := none
  /-- command number within the batch being run, and its completions so far (R464) -/
  pos   : Nat := 0
  /-- rotating pointer of the ring's writer (R462) -/
  ptr   : Nat := 0
  deriving DecidableEq, Repr, Inhabited

/-! ### Buffer DRAM (Buffer DRAM Stacks) -/

/-- A DRAM request in a channel (R426). -/
structure DramReq where
  id    : Nat := 0
  write : Bool := false
  page  : Nat := 0
  burst : Nat := 0
  rbank : Nat := 0
  row   : Nat := 0
  age   : Nat := 0
  reads : Nat := 0
  pkt   : Nat := 0
  cls   : Nat := 0
  /-- it reads or writes a training pattern, not the array (R432, R433, R438) -/
  pat   : Bool := false
  deriving DecidableEq, Repr, Inhabited

/-- One pseudo-channel of a stack. -/
structure DramChan where
  /-- requests in arrival order; a bank's queue holds those of its bank, at most 32 (R425) -/
  reqs    : List DramReq := []
  /-- open row by bank, plus 1 -/
  open_   : Map Nat := []
  /-- bank last activated, and the bank refreshed next -/
  last    : Nat := 0
  refPtr  : Nat := 0
  /-- requests still to serve from the row opened last (R427) -/
  left    : Nat := 0
  /-- rows in in-order mode, bank × 16384 + row (R428) -/
  inorder : List Nat := []
  /-- scheduler in force (R427), refresh commands since training (R431) -/
  sched   : Nat := 0
  refs    : Nat := 0
  /-- a retrain window is open: no request is served (R438) -/
  closed  : Bool := false
  /-- operating values: read delay, write delay, reference voltage code (R432) -/
  rd      : Nat := 0
  wr      : Nat := 0
  vref    : Nat := 0
  deriving DecidableEq, Repr, Inhabited

/-- A DRAM stack beyond its entries. -/
structure Stack where
  chans   : Map DramChan := []
  /-- reads in the order requested, and whether their data has come (R426) -/
  reads   : List (DramReq × Bool) := []
  /-- quarantined pages (R441) -/
  quar    : List Nat := []
  /-- pseudo-channel whose retrain window comes next (R438) -/
  window  : Nat := 0
  /-- the pattern command in progress (R432) -/
  pat     : BitVec 128 := 0
  margins : Map Nat := []
  /-- the controller's pointer over the VOQ writer, the VOQ reader and the helpers (R425) -/
  reqPtr  : Nat := 0
  deriving DecidableEq, Repr, Inhabited

/-- Buffers, queues and traffic management of a die. -/
structure DieBuf where
  pools     : Map Pool := []
  voqs      : Map Voq := []
  waitList  : List Nat := []
  egq       : Map EgQueue := []
  residue   : Map Residue := []
  residueNo : Nat := 0
  replQ     : List Nat := []
  /-- mirror copies that wait for the resequencer to pass their original (R19, R265): window, sequence number, copy -/
  copyWait  : List (Nat × Nat × Nat) := []
  voqMap    : Map VoqMap := []
  groups    : Map (BitVec 64) := []
  meters    : Map Meter := []
  /-- the meter unit's pointer over cluster indices (R353) -/
  meterPtr  : Nat := 0
  stats     : Map Nat := []
  spillQ    : List (Nat × Nat) := []
  spillLost : Bool := false
  /-- packets at the egress side, whole or arriving, before the egress resequencer -/
  egIn      : List Nat := []
  /-- scheduler nodes: port s at s, group g at 64 + 4s + g, queue tc at 320 + 8s + tc (Table 11.1) -/
  nodes     : Map Node := []
  /-- virtual times: parent × 4 + band; parents lane group g at g, port s at 4 + s, group at 68 + 4s + g (R342) -/
  vtime     : Map Nat := []
  gates     : Map Gate := []
  /-- balances of the VOQs (R410) -/
  vcred     : Map VCred := []
  /-- VOQs that hold a packet for lack of balance, and the cycle up to which they are counted (Table 13.12) -/
  stalled   : List Nat := []
  stallFrom : Nat := 0
  /-- egress credit entries (R413) -/
  centries  : Map CEntry := []
  centryPtr : Map Nat := []
  reasm     : List Reasm := []
  /-- next stream sequence number plus 1, by mcast × 2^20 + dst (R399); 0 before the first packet -/
  streams   : Map Nat := []
  links     : Map FLink := []
  sets      : Map LinkSet := []
  /-- samplers: position plus 1 (0 = at the start), egress at 0 and VOQ at 1 (R365) -/
  sampPos   : Map Nat := []
  /-- highest depth since the last sample: VOQ v at v, egress queue q at 65536 + q -/
  peaks     : Map Nat := []
  /-- MAC counters frozen by a snapshot, the time of the freeze as a TIME80, and the all: snapshots awaited: their times in ns,
  oldest first (R388, R389) -/
  frozen    : Map Nat := []
  frozenAt  : Nat := 0
  snapAt    : List Nat := []
  rings     : Map Ring := []
  injectPtr : Nat := 0
  /-- punted packets at a ring writer, by ring × 8 + requester (R462) -/
  punters   : Map (List Nat) := []
  drams     : Map Stack := []
  dramIds   : Nat := 0
  /-- records waiting for a record ring, by ring (R465) -/
  recQ      : Map (List (BitVec 256)) := []
  deriving DecidableEq, Repr, Inhabited

/-! ### Network ports -/

/-- A network port's MAC beyond its entries 4050+s and 4940+s, keyed by the port's lowest slot. -/
structure Mac where
  /-- pause frames requested by R322: class 0-7 or 8 for PAUSE, and whether above xoff -/
  reqs      : List (Nat × Bool) := []
  /-- when the pause timers run out, in ps of `now`, by priority, 8 for PAUSE (R383) -/
  timers    : Map Nat := []
  /-- frames in the transmit FIFO in order, the first of them in transmission (R386) -/
  tx        : List Nat := []
  /-- the frame in transmission ends at this many bytes with a stomped FCS; 0 when it does not (R378, R381) -/
  cutAt     : Nat := 0
  /-- the first frame of the FIFO is in transmission (R383, R384), and the port's maximum and the offset of frame_id that it started
  with (R392) -/
  active    : Bool := false
  max       : Nat := 0
  idOff     : Nat := 0
  /-- the frame in transmission ended at P8 when it was cut (R378) -/
  cutDone   : Bool := false
  /-- the frame sent last, as it stood on the wire (R379) -/
  out       : Bytes := []
  /-- the port is disabled and completes the frame it is transmitting (R376) -/
  stopping  : Bool := false
  /-- the MAC control frame sent last, and when (R384) -/
  ctl       : Bytes := []
  ctlAt     : Nat := 0
  /-- a port-down flush is running (R335); a link that came up waits for it (R336) -/
  flushing  : Bool := false
  pendUp    : Bool := false
  /-- the port was disabled while it trained (R512) -/
  pendDown  : Bool := false
  deriving DecidableEq, Repr, Inhabited
/-- A Crest die. -/
structure Die where
  regs : Map Nat := []
  /-- Isolated, or Bring-up while rejoining (R496); otherwise the package mode holds -/
  own  : Option Mode := none
  /-- the die's own lost-unit word (R508) -/
  lost : BitVec 32 := 0
  /-- held in reset (R26, R516) -/
  held : Bool := false
  core : DieCore := {}
  eng  : DieEng := {}
  look : DieLook := {}
  buf  : DieBuf := {}
  macs : Map Mac := []
  deriving DecidableEq, Repr, Inhabited

/-! ### The package -/

/-- An image session and its staging (R574 to R579). -/
structure FwSession where
  hdr     : Nat := 0
  chain   : Bool := false
  apply   : Bool := false
  /-- requester that delivers it: 0-15 mailboxes, 16-31 JDP sessions; for chain sessions the arrival port -/
  owner   : Nat := 0
  port    : Nat := 0
  transfer : Nat := 0
  /-- disposition given to its OFFER (Table 20.6) -/
  disp    : Nat := 0
  next    : Nat := 0
  body    : Bytes := []
  /-- when a block was last accepted; blocks accepted since the last STATUS, and since when -/
  last    : Nat := 0
  cover   : Nat := 0
  coverAt : Nat := 0
  deriving DecidableEq, Repr, Inhabited

/-- A relay of a chain transfer (R580). -/
structure FwRelay where
  transfer : Nat := 0
  port     : Nat := 0
  hdr      : Nat := 0
  /-- 0 opening, 1 OFFER sent, 2 sending blocks, 3 END sent -/
  step     : Nat := 0
  opens    : Nat := 0
  at_      : Nat := 0
  session  : Nat := 0
  key      : Bytes := []
  nonce    : Nat := 0
  seq      : Nat := 0
  /-- blocks checked and not acknowledged downstream, oldest first; number of the oldest -/
  blocks   : List Bytes := []
  base     : Nat := 0
  sent     : Nat := 0
  resends  : Nat := 0
  ended    : Bool := false
  deriving DecidableEq, Repr, Inhabited

/-- The boot flash beside settings and keys, with the fuses (R567 to R570, R584). -/
structure Flash where
  images   : Map Bytes := []
  /-- slot states (Table 20.9) -/
  state    : Map Nat := []
  active   : Nat := 0
  probation : Nat := 0
  probEnd  : Nat := 0
  rollback : Nat := 0
  fuses    : Map Nat := []
  revoked  : BitVec 4 := 0
  /-- settings slot adopted, and the slot the previous image used (R585) -/
  setSlot  : Nat := 0
  /-- target_version of the staged image (1500.04) -/
  target   : Nat := 0
  oldSet   : Option Nat := none
  deriving DecidableEq, Repr, Inhabited

/-- A copy of the package state record (R41): the settings, lost units and epochs of the package, the master image, the fault log. -/
structure StateRec where
  regs   : Map Nat := []
  master : Ucode := {}
  pkgLog : List (Nat × FaultRec) := []
  logSeq : Nat := 0
  acked  : Nat := 0
  deriving DecidableEq, Repr, Inhabited

/-- The machine: the package, its dies, and the commands waiting. -/
structure State where
  part      : Part := .d9080
  pending   : List Instr := []
  /-- nanoseconds since power-up, as the model counts them (log entry 2) -/
  now       : Nat := 0
  /-- Meridian time in units of 10^-12 ns (R362, R364) -/
  meridian  : Nat := 0
  /-- a step (false) or set (true) of Meridian waiting to be applied, in ns (R364) -/
  adjust    : Option (Bool × Int) := none
  /-- Meridian ns at which PPS_OUT last rose (R363) -/
  ppsOut    : Option Nat := none
  /-- the model's own counter of free values (log entry 5) -/
  freeCtr   : Nat := 0
  regs      : Map Nat := []
  mode      : Mode := .standby
  summit    : Option Nat := none
  dies      : Map Die := []
  msgs      : List Msg := []
  nextMsg   : Nat := 1
  /-- flits of one virtual channel a saddle receiver has room for, a number of the part's own (R29, log entry 16) -/
  saddleCredit : Nat := 1024
  pkts      : Map Packet := []
  nextPkt   : Nat := 1
  nextRid   : Nat := 1
  /-- commits so far, by which writes to one context word are ordered (R297) -/
  commits   : Nat := 0
  tokenSeq  : Nat := 0
  /-- replies and accesses in progress, by requester (R479) -/
  replies   : Map Reply := []
  busy      : Map Access := []
  /-- accesses that wait for the end of an in-place switch (R582) -/
  waiting   : List (Nat × Access) := []
  bcasts    : Map Bcast := []
  boxes     : Map Mailbox := []
  sessions  : Map Session := []
  /-- JDP messages the relay has consumed, by arrival port: still at the relay of die 0, and at the Summit (R486, R487) -/
  relayed   : List (Nat × JdpMsg) := []
  inbox     : List (Nat × JdpMsg) := []
  /-- the REQUEST that each session is at, by requester (R479, R489) -/
  jdpJobs   : Map JdpJob := []
  /-- frames the management relay has sent: port and frame without its FCS, in order (R487) -/
  sent      : List (Nat × Bytes) := []
  relayRefFab : Bool := false
  keys      : Map KeySlot := []
  flashKeys : Map KeySlot := []
  keysDirty : List Nat := []
  flash     : Flash := {}
  fwSession : Option FwSession := none
  /-- a chain session that is only relayed (R575, R580) -/
  fwChain   : Option FwSession := none
  fwRelay   : Option FwRelay := none
  /-- the relay that has sent its END, while an abort may still follow (R576) -/
  fwDone    : Option FwRelay := none
  /-- the staging slot is to be emptied once there is a flash agent (R567) -/
  emptyDue  : Bool := false
  /-- transfer of the last completed chain transfer (R581) -/
  lastChain : Option Nat := none
  /-- an in-place switch is running: activation class (R582) -/
  switching : Option Nat := none
  /-- mode to return to after a class 1 activation -/
  switchBack : Option Mode := none
  /-- RESET_L is low; PWROK is high; straps as sampled (R599, R601) -/
  resetLow  : Bool := false
  pwrok     : Bool := true
  strap     : BitVec 4 := 0
  /-- what the resets of Table 17.7 wait for: 1 self-checks, 2 election, 3 boot image, 4 none -/
  bootStep  : Nat := 1
  therm     : Bool := false
  /-- since when VIN is above 13.2 V, below 10.8 V, not above, not below (R592); since when it has been lost (R593) -/
  vinHigh   : Option Nat := none
  vinLow    : Option Nat := none
  vinNotHi  : Option Nat := none
  vinNotLo  : Option Nat := none
  vinDown   : Option Nat := none
  slots     : Map SettingsSlot := []
  unsaved   : List Nat := []
  /-- boot flash agent reachable or not is computed; held by the Summit while none exists (R42) -/
  master    : Ucode := {}
  /-- copies of the package state record at dies that a later change did not reach (R41) -/
  stale     : Map StateRec := []
  quiesceAt : Option Nat := none
  bringupAt : Option Nat := none
  /-- time it had run when the settings became unreadable (R506) -/
  bringupRan : Nat := 0
  leanMs    : Nat := 0
  /-- since when the intervals of the transit slices run: `now` when the mode became Forwarding or Lean, or 1700.01 became 1 (R544) -/
  transitFrom : Nat := 0
  alertBringup : Bool := false
  alertR43  : Bool := false
  /-- ALERT_L for VIN above its range and below it, and whether the Notice of the excursion is out (R592) -/
  alertHi   : Bool := false
  alertLo   : Bool := false
  saidHi    : Bool := false
  saidLo    : Bool := false
  fatalPin  : Bool := false
  staging   : List Staged := []
  pkgLog    : List (Nat × FaultRec) := []
  logSeq    : Nat := 0
  acked     : Nat := 0
  lastKey   : Option Staged := none
  resetHold : Option Nat := none
  retireAt  : Option Nat := none
  retireLimit : Nat := 0
  /-- dies that were sent the switch and whose acknowledgement the Summit does not hold (R275, R278) -/
  unacked   : List Nat := []
  /-- translation caches of the endpoints, by endpoint × 2^40 + RVA page (R455) -/
  attCache  : Map (BitVec 64) := []
  /-- what the part has written to host memory: endpoint, bus address, bytes, in order (R459) -/
  dma       : List (Nat × Nat × Bytes) := []
  /-- MSI-X messages sent: endpoint and vector, in order (R459, R529) -/
  msix      : List (Nat × Nat) := []
  /-- MSI-X tables of the endpoints (R452): doubleword w of endpoint e at e × 256 + w, four to a vector, those that differ from
  `msixReset`; and the pending bit arrays, by endpoint -/
  msixTab   : Map Nat := []
  msixPend  : Map Nat := []
  deriving DecidableEq, Repr, Inhabited

/-- Why the machine stops. Raised by the meanings of the commands. -/
inductive Fault
  /-- A command names a die, or a unit of a die, that the part does not have (R7: "a number that belongs to a die
  absent from the part does not exist on that part"). Raised by every meaning that names a die. Safe: a command to
  nothing has no effect to model. -/
  | absentUnit
  deriving DecidableEq, Repr

/-- Why the model has no answer. -/
inductive Refusal
  /-- The command has no meaning yet. Raised by `exec` only. Safe. -/
  | notModelled (mnemonic : String)
  deriving DecidableEq, Repr

/-- The machine right after power-up reset: Standby, no Summit in office, every store empty, every register at its
default (Table 16.2), and no command waiting. -/
def State.reset : State := {}

end Sys2Proof.Machine
end

