-- ==== Sys2Proof/Machine/Ops.lean ====
section
/-! DEFINITION. The shared operations: numbered stores, registers, counters, time, fault messages, saddle links, packets. -/

namespace Sys2Proof.Machine

/-! ### Numbered stores

A store lists its numbers in rising order and lists no number whose content equals what an unlisted number holds. -/

/-- What a store lists at a number. -/
def mget? {α : Type} : Map α → Nat → Option α
  | [], _ => none
  | (k, v) :: r, i => if i = k then some v else mget? r i

/-- What a store holds at a number: an unlisted number holds the default. -/
def mget {α : Type} [Inhabited α] (m : Map α) (i : Nat) : α := (mget? m i).getD default

/-- Put a pair into a store, in its place. -/
def minsert {α : Type} : Map α → Nat → α → Map α
  | [], i, v => [(i, v)]
  | (k, w) :: r, i, v =>
    if i < k then (i, v) :: (k, w) :: r
    else if i = k then (i, v) :: r
    else (k, w) :: minsert r i v

/-- Take a number out of a store. -/
def mdel {α : Type} : Map α → Nat → Map α
  | [], _ => []
  | (k, w) :: r, i => if i = k then mdel r i else (k, w) :: mdel r i

/-- Write a store whose unlisted numbers hold `d`. -/
def mputD {α : Type} [DecidableEq α] (d : α) (m : Map α) (i : Nat) (v : α) : Map α :=
  if v = d then mdel m i else minsert m i v

/-- Write a store whose unlisted numbers hold the default. -/
def mput {α : Type} [Inhabited α] [DecidableEq α] (m : Map α) (i : Nat) (v : α) : Map α := mputD default m i v

/-- Change what a store holds at a number. -/
def mmod {α : Type} [Inhabited α] [DecidableEq α] (m : Map α) (i : Nat) (f : α → α) : Map α := mput m i (f (mget m i))

/-- The numbers a store lists. -/
def mkeys {α : Type} (m : Map α) : List Nat := m.map (·.1)

/-- The canonical form: numbers strictly rising, no number listed with what an unlisted number holds. -/
def mwf {α : Type} [DecidableEq α] (d : α) : Map α → Bool
  | [] => true
  | [(_, v)] => v ≠ d
  | (k, v) :: (j, w) :: r => decide (v ≠ d) && decide (k < j) && mwf d ((j, w) :: r)

/-! ### Bit fields -/

/-- Bits [hi:lo] of a number (R4). -/
def bits (x hi lo : Nat) : Nat := (x >>> lo) % 2 ^ (hi + 1 - lo)

/-- Bit i of a number. -/
def bit (x i : Nat) : Bool := x.testBit i

/-- Set or clear bit i of a number. -/
def setBit (x i : Nat) (b : Bool) : Nat :=
  if x.testBit i = b then x else if b then x + 2 ^ i else x - 2 ^ i

/-- A truth value as a number. -/
def b2n (b : Bool) : Nat := if b then 1 else 0

/-- The value of bytes, first byte most significant (R6). -/
def beNat (bs : Bytes) : Nat := bs.foldl (fun a b => a * 256 + b.toNat) 0

/-- n bytes of a number, most significant first (R6). -/
def toBytes (n x : Nat) : Bytes := (List.range n).map (fun i => BitVec.ofNat 8 (x >>> (8 * (n - 1 - i))))

/-- The value of bytes, first byte least significant (R5). -/
def leNat (bs : Bytes) : Nat := bs.foldr (fun b a => a * 256 + b.toNat) 0

/-- n bytes of a number, least significant first (R5). -/
def toBytesLE (n x : Nat) : Bytes := (List.range n).map (fun i => BitVec.ofNat 8 (x >>> (8 * i)))

/-- A two's complement 32-bit value (Table 16.1). -/
def s32 (x : Nat) : Int := if x < 2 ^ 31 then x else (x : Int) - 2 ^ 32

/-- Division rounded up. -/
def ceilDiv (a b : Nat) : Nat := (a + b - 1) / b

/-! ### CRC-32C and the flow hash (R80, R184) -/

/-- One bit step of the reflected CRC loop of R80. -/
def crcBit (poly crc : BitVec 32) : BitVec 32 := if crc.getLsbD 0 then (crc >>> 1) ^^^ poly else crc >>> 1

/-- One byte of the CRC loop. -/
def crcByte (poly crc : BitVec 32) (b : Byte) : BitVec 32 :=
  let c := crc ^^^ b.setWidth 32
  crcBit poly (crcBit poly (crcBit poly (crcBit poly (crcBit poly (crcBit poly (crcBit poly (crcBit poly c)))))))

/-- fib_hash of R184, which with the CRC-32C polynomial is the hash of R80. -/
def fibHash (key : Bytes) (seed poly : BitVec 32) : BitVec 32 := (key.foldl (crcByte poly) seed) ^^^ 0xFFFFFFFF

/-- The reflected CRC-32C polynomial (R80). -/
def polyA : BitVec 32 := 0x82F63B78

/-- The reflected CRC-32 polynomial (R184). -/
def polyB : BitVec 32 := 0xEDB88320

/-- CRC-32C with the standard seed (R252, R535, R579). -/
def crc32c (bs : Bytes) : Nat := (fibHash bs 0xFFFFFFFF polyA).toNat

/-! ### Arbitration -/

/-- The first requesting index at or after the pointer, counting upward and wrapping to 0 (R22). -/
def arbiter (n ptr : Nat) (req : Nat → Bool) : Option Nat :=
  ((List.range n).map (fun i => (ptr + i) % n)).find? req

/-- Set bits. -/
def popc (a : Word) : Nat := ((List.range 64).map (fun i => b2n (a.getLsbD i))).sum

/-! ### Parts and units -/

/-- The dies of a part (Table 0.1). -/
def partDies : Part → List Nat
  | .d9020 => [0, 1]
  | .d9040 => [0, 1, 4, 5]
  | .d9080 => [0, 1, 2, 3, 4, 5, 6, 7]

/-- The present dies. -/
def State.present (s : State) : List Nat := partDies s.part

/-- A die exists on the part (R7). -/
def State.has (s : State) (d : Nat) : Bool := (s.present).contains d

/-- A die's state. -/
def State.die (s : State) (d : Nat) : Die := mget s.dies d

/-- Change one die. -/
def State.onDie (s : State) (d : Nat) (f : Die → Die) : State := { s with dies := mput s.dies d (f (s.die d)) }

/-- Change every present die. -/
def State.onDies (s : State) (f : Nat → Die → Die) : State := (s.present).foldl (fun a d => a.onDie d (f d)) s

/-- Apply a change if a condition holds. -/
def State.when (s : State) (c : Bool) (f : State → State) : State := if c then f s else s

/-- Apply a change for each item of a list, in order. -/
def State.each {α : Type} (s : State) (l : List α) (f : α → State → State) : State := l.foldl (fun a x => f x a) s

/-! ### Registers of the dictionary -/

/-- The number of entry `idx.sub` (R9). -/
def key (idx sub : Nat) : Nat := idx * 256 + sub

/-- The row of the entry maps that allocates an entry (R481). -/
def findEntry (idx sub : Nat) : Option EntryRow :=
  entryTable.find? (fun e => decide (e.idx ≤ idx) && decide (idx < e.idx + e.n) && decide (e.lo ≤ sub) && decide (sub ≤ e.hi))

/-- Default guarantees and maximums (Table 10.3), by pool and requester. -/
def quotaDefault (pool req : Nat) (max : Bool) : Nat :=
  let row := match pool, req with
    | 0, 0 => (65536, 131072) | 0, 1 => (65536, 131072) | 0, 2 => (4096, 16384)
    | 0, 3 => (8192, 32768) | 0, 4 => (16384, 65536) | 0, 5 => (65536, 131072)
    | 1, 0 => (8388608, 16777216) | 1, 1 => (8388608, 16777216) | 1, 2 => (262144, 1048576)
    | 1, 3 => (524288, 2097152) | 1, 4 => (524288, 2097152)
    | 2, 0 => (32768, 65536) | 2, 1 => (32768, 65536) | 2, 2 => (4096, 16384)
    | 2, 3 => (8192, 32768) | 2, 4 => (32768, 131072) | 2, 5 => (65536, 131072)
    | _, _ => (0, 0)
  if max then row.2 else row.1

/-- Default actions of the malformed classes (Table 5.3). -/
def malformedDefault (c : Nat) : Nat :=
  match c with
  | 2 => 1 | 8 => 1 | 0xB => 0 | 0xC => 1 | _ => 2

/-- The default of an entry, with the defaults the tables state in words: by part (Table 16.5, R84), by table
(Tables 5.3, 7.15, 10.3), by node (Tables 11.7, 11.10), and for values the part sets without a stated default the
values of log entry 8. -/
def entryDefault (p : Part) (idx sub : Nat) : Nat :=
  if idx = 0x1810 then ((partDies p)[sub % (partDies p).length]?).getD 0
  else if idx = 0x1800 ∧ sub = 5 then ((partDies p).map (fun d => 2 ^ d)).sum
  else if idx = 0x4501 then sub - 1
  else if idx = 0x2030 then malformedDefault sub
  else if idx = 0x2210 ∧ sub = 1 then 1
  else if idx = 0x2212 ∧ sub = 1 then 2
  else if (idx = 0x2210 ∨ idx = 0x2211) ∧ sub = 4 then 65536
  else if idx = 0x2212 ∧ sub = 4 then 8192
  else if 0x4710 ≤ idx ∧ idx ≤ 0x4712 ∧ 0x10 ≤ sub ∧ sub ≤ 0x15 then quotaDefault (idx - 0x4710) (sub - 0x10) false
  else if 0x4710 ≤ idx ∧ idx ≤ 0x4712 ∧ 0x20 ≤ sub ∧ sub ≤ 0x25 then quotaDefault (idx - 0x4710) (sub - 0x20) true
  else if 0x3010 ≤ idx ∧ idx < 0x3020 ∧ 0x10 ≤ sub ∧ sub ≤ 0x1C then (if sub ≤ 0x14 then 0 else 1)
  else if 0x4880 ≤ idx ∧ idx < 0x48C0 ∧ 0x10 ≤ sub ∧ sub ≤ 0x1C then (if sub ≤ 0x14 then 0 else 1)
  else if 0x4880 ≤ idx ∧ idx < 0x48C0 ∧ 0x20 ≤ sub ∧ sub ≤ 0x2C then (if sub = 0x20 then 0 else 16)
  else if idx = 0x1040 then 3
  else if idx = 0x1100 ∧ sub = 3 then Config.factoryMac % 2 ^ 48
  else if 0x4710 ≤ idx ∧ idx ≤ 0x4712 ∧ 1 ≤ sub ∧ sub ≤ 3 then (if idx = 0x4711 then 25165824 else 262144)
  else if idx = 0x4010 ∧ sub = 6 then 0
  else ((findEntry idx sub).bind (·.dflt)).getD 0

/-- The width of an entry in bits, for counting. -/
def entryBits (idx sub : Nat) : Nat := ((findEntry idx sub).map (·.size)).getD 8 * 8

/-- A package-wide register. -/
def State.pg (s : State) (idx sub : Nat) : Nat := (mget? s.regs (key idx sub)).getD (entryDefault s.part idx sub)

/-- Write a package-wide register. -/
def State.pset (s : State) (idx sub v : Nat) : State :=
  { s with regs := mputD (entryDefault s.part idx sub) s.regs (key idx sub) v }

/-- A per-die register. -/
def State.dg (s : State) (d idx sub : Nat) : Nat :=
  (mget? (s.die d).regs (key idx sub)).getD (entryDefault s.part idx sub)

/-- The access type of an entry is RWS. -/
def isRws (idx sub : Nat) : Bool := match findEntry idx sub with
  | some e => decide (e.acc = .rws)
  | none => false

/-- Write a per-die register. -/
def State.dset (s : State) (d idx sub v : Nat) : State :=
  s.onDie d (fun x => { x with regs := mputD (entryDefault s.part idx sub) x.regs (key idx sub) v })

/-- A per-die register read as a flag. -/
def State.dflag (s : State) (d idx sub : Nat) : Bool := s.dg d idx sub != 0

/-- FREE VALUE (log entry 5): the next value the specification leaves open. -/
def State.fresh (s : State) : Nat × State := (Config.freeValue s.freeCtr, { s with freeCtr := s.freeCtr + 1 })

/-- Count on a package-wide counter. The specification does not say what a counter of its width does past its last
value: there the new value is a free value (log entry 7). -/
def State.pinc (s : State) (idx sub n : Nat) : State :=
  let v := s.pg idx sub + n
  let w := 2 ^ entryBits idx sub
  if v < w then s.pset idx sub v
  else let (f, s') := s.fresh; s'.pset idx sub (f % w)

/-- Count on a per-die counter, as `State.pinc`. -/
def State.dinc (s : State) (d idx sub n : Nat) : State :=
  let v := s.dg d idx sub + n
  let w := 2 ^ entryBits idx sub
  if v < w then s.dset d idx sub v
  else let (f, s') := s.fresh; s'.dset d idx sub (f % w)

/-- Take from a per-die level that counts units held. -/
def State.ddec (s : State) (d idx sub n : Nat) : State := s.dset d idx sub (s.dg d idx sub - n)

/-! ### Time (R362, R364) -/

/-- A TIME80 of nanoseconds: seconds × 2^32 + nanoseconds. -/
def nsT80 (n : Nat) : Nat := n / 10 ^ 9 * 2 ^ 32 + n % 10 ^ 9

/-- Nanoseconds of a TIME80, modulo 2^64. -/
def t80ns (t : Nat) : Nat := (t / 2 ^ 32 * 10 ^ 9 + t % 2 ^ 32) % 2 ^ 64

/-- Meridian time in ns, the Summit's copy: modulo 2^64. -/
def State.ns (s : State) : Nat := s.meridian / 10 ^ 12 % 2 ^ 64

/-- Meridian time as TIME80, the Summit's copy. -/
def State.time80 (s : State) : Nat := nsT80 (s.meridian / 10 ^ 12)

/-- How far a die's copy of Meridian lies from the Summit's, in ns: at most 4 (log entry 37). -/
def State.clockGap (s : State) (d : Nat) : Int :=
  match s.summit with
  | none => 0
  | some m => ((s.die d).core.clock : Int) - (s.die m).core.clock

/-- A die's copy of Meridian in whole ns, in full. -/
def State.dieTime (s : State) (d : Nat) : Nat := (((s.meridian / 10 ^ 12 : Nat) : Int) + s.clockGap d).toNat

/-- Meridian time in ns on a die's copy: modulo 2^64. -/
def State.nsOn (s : State) (d : Nat) : Nat := s.dieTime d % 2 ^ 64

/-- Meridian time as TIME80 on a die's copy. -/
def State.time80On (s : State) (d : Nat) : Nat := nsT80 (s.dieTime d)

/-- What the block does while no command waits: one nanosecond of the reference passes, and Meridian time advances by it
with the rate correction `freq_adj`, in parts in 10^12 (R364, R367; log entry 2). -/
def tick (s : State) : State :=
  { s with now := s.now + 1, meridian := s.meridian + ((10 ^ 12 : Int) + s32 (s.pg 0x1600 4)).toNat }

/-! ### Modes -/

/-- The code of a mode (Table 17.1). -/
def modeCode : Mode → Nat
  | .standby => 1 | .bringup => 2 | .forwarding => 3 | .lean => 4 | .degraded => 5 | .drain => 6
  | .quiesce => 7 | .isolated => 8 | .faultHold => 9 | .locked => 0xA | .diagnostic => 0xB | .factory => 0xC

/-- The mode of a code. -/
def modeOf (c : Nat) : Option Mode :=
  [Mode.standby, .bringup, .forwarding, .lean, .degraded, .drain, .quiesce, .isolated, .faultHold, .locked,
   .diagnostic, .factory].find? (fun m => modeCode m == c)

/-- The mode of a die (R496). -/
def State.dieMode (s : State) (d : Nat) : Mode :=
  match (s.die d).own with
  | some .isolated => .isolated
  | some m => if s.mode = .faultHold ∨ s.mode = .locked then s.mode else m
  | none => s.mode

/-- A die is Isolated. -/
def State.isolated (s : State) (d : Nat) : Bool := (s.die d).own == some .isolated

/-- Present dies that are not Isolated: those that share the package mode (R496). -/
def State.joined (s : State) : List Nat := (s.present).filter (fun d => !s.isolated d)

/-- Present dies that are not Isolated and not held in a reset. -/
def State.active (s : State) : List Nat := (s.present).filter (fun d => !(s.isolated d) && !(s.die d).held && !(s.die d).core.por)

/-- The package is in one of some modes. -/
def State.modeIn (s : State) (l : List Mode) : Bool := l.contains s.mode

/-! ### Fault messages (R518 to R520) -/

/-- A message goes into its block's fault FIFO of 16; one that finds it full is lost and counted, unless it is Fatal or Terminal
(R520). -/
def State.post (s : State) (d : Nat) (r : FaultRec) : State :=
  let q := (s.die d).core.faultQ
  if decide (r.cls < 4) && decide (16 ≤ (q.filter (fun x => x.block == r.block)).length) then s.pinc 0x1400 0x10 1
  else s.onDie d (fun x => { x with core.faultQ := x.core.faultQ ++ [r] })

/-- Send a fault message to a die's collector. A block's FIFO holds 16; a message that finds it full is lost and
counted, but Fatal and Terminal faults are never lost (R520). -/
def State.report (s : State) (d block inst cls kind addr : Nat) : State :=
  s.post d { cls := cls, die := d, block := block, inst := inst, kind := kind, addr := addr, time := s.time80On d }

/-! ### Saddle links (R26) -/

/-- The number of a saddle side (Table 1.7). -/
def sideNo : Side → Nat
  | .n => 0 | .e => 1 | .s => 2 | .w => 3

/-- The opposite side. -/
def opposite (k : Nat) : Nat := (k + 2) % 4

/-- The grid neighbour on a side, whether or not the part has it. -/
def gridNbr (d k : Nat) : Option Nat :=
  match k with
  | 0 => if 4 ≤ d then some (d - 4) else none
  | 1 => if d % 4 < 3 then some (d + 1) else none
  | 2 => if d < 4 then some (d + 4) else none
  | _ => if 0 < d % 4 then some (d - 1) else none

/-- A die is excluded from the running package (1800.07 as it stood at the last reset). -/
def State.excluded (s : State) (d : Nat) : Bool := (s.die d).held

/-- The die a saddle leads to, when the link exists (Table 1.1, R26). -/
def State.nbr (s : State) (d k : Nat) : Option Nat :=
  match gridNbr d k with
  | none => none
  | some n => if s.has d && s.has n && !s.excluded d && !s.excluded n then some n else none

/-- State of a saddle: 0 Absent to 5 Fenced (Table 1.7). -/
def State.saddleState (s : State) (d k : Nat) : Nat := s.dg d (0x4210 + k) 1

/-! ### Packets -/

/-- A packet. -/
def State.pkt (s : State) (i : Nat) : Packet := mget s.pkts i

/-- Change a packet. -/
def State.onPkt (s : State) (i : Nat) (f : Packet → Packet) : State := { s with pkts := mput s.pkts i (f (s.pkt i)) }

/-- Move a packet to a stage. -/
def State.stage (s : State) (i : Nat) (g : Stage) : State := s.onPkt i (fun p => { p with stage := g })

/-- A new packet, with its number. -/
def State.newPkt (s : State) (p : Packet) : Nat × State :=
  (s.nextPkt, { s with nextPkt := s.nextPkt + 1, pkts := mput s.pkts s.nextPkt p })

/-! ### Outcomes -/

/-- The effect of a command that names a die: a die absent from the part does not exist (R7, log entry 4). -/
def onPresent (d : Nat) (f : State → State) (s : State) : Host.Outcome State Fault Refusal :=
  if s.has d then .next (f s) else .fault .absentUnit

/-- Ports and fabric links of a die may run: Standby, Diagnostic and Factory keep them down, and so do the modes in which everything
is held (R498, R499, R52). -/
def State.netMode (s : State) (d : Nat) : Bool :=
  [Mode.bringup, .forwarding, .lean, .degraded, .drain, .quiesce].contains (s.dieMode d) && !s.modeIn [.diagnostic, .factory]

/-- A die whose functions hold still: held in reset, Isolated, in Fault-hold or Locked (R52, R498), or in Standby, where
no switched domain is on (Table 17.1). -/
def State.frozen (s : State) (d : Nat) : Bool :=
  (s.die d).held || (s.die d).core.por || [Mode.isolated, .faultHold, .locked, .standby].contains (s.dieMode d)

/-- The effect of a command on the functions of a die, which hold still while the die is frozen. -/
def onLive (d : Nat) (f : State → State) (s : State) : Host.Outcome State Fault Refusal :=
  onPresent d (fun s => if s.frozen d then s else f s) s

end Sys2Proof.Machine
end

