-- ==== Sys2Proof/Machine/Crypto.lean ====
section
/-! DEFINITION. The standards that R490, R491, R568 and R569 name: SHA-256 and SHA-384 (FIPS 180-4), HMAC (FIPS 198-1), and the check
of an ECDSA signature over P-384 (FIPS 186-4). -/

namespace Sys2Proof.Machine

/-! ### SHA-256 and SHA-384 -/

/-- The 80 constants of the 64-bit rounds; the 64 of the 32-bit rounds are the upper halves of the first. -/
def shaK : List Nat :=
  [0x428A2F98D728AE22, 0x7137449123EF65CD, 0xB5C0FBCFEC4D3B2F, 0xE9B5DBA58189DBBC, 0x3956C25BF348B538, 0x59F111F1B605D019, 0x923F82A4AF194F9B, 0xAB1C5ED5DA6D8118] ++
  [0xD807AA98A3030242, 0x12835B0145706FBE, 0x243185BE4EE4B28C, 0x550C7DC3D5FFB4E2, 0x72BE5D74F27B896F, 0x80DEB1FE3B1696B1, 0x9BDC06A725C71235, 0xC19BF174CF692694] ++
  [0xE49B69C19EF14AD2, 0xEFBE4786384F25E3, 0x0FC19DC68B8CD5B5, 0x240CA1CC77AC9C65, 0x2DE92C6F592B0275, 0x4A7484AA6EA6E483, 0x5CB0A9DCBD41FBD4, 0x76F988DA831153B5] ++
  [0x983E5152EE66DFAB, 0xA831C66D2DB43210, 0xB00327C898FB213F, 0xBF597FC7BEEF0EE4, 0xC6E00BF33DA88FC2, 0xD5A79147930AA725, 0x06CA6351E003826F, 0x142929670A0E6E70] ++
  [0x27B70A8546D22FFC, 0x2E1B21385C26C926, 0x4D2C6DFC5AC42AED, 0x53380D139D95B3DF, 0x650A73548BAF63DE, 0x766A0ABB3C77B2A8, 0x81C2C92E47EDAEE6, 0x92722C851482353B] ++
  [0xA2BFE8A14CF10364, 0xA81A664BBC423001, 0xC24B8B70D0F89791, 0xC76C51A30654BE30, 0xD192E819D6EF5218, 0xD69906245565A910, 0xF40E35855771202A, 0x106AA07032BBD1B8] ++
  [0x19A4C116B8D2D0C8, 0x1E376C085141AB53, 0x2748774CDF8EEB99, 0x34B0BCB5E19B48A8, 0x391C0CB3C5C95A63, 0x4ED8AA4AE3418ACB, 0x5B9CCA4F7763E373, 0x682E6FF3D6B2B8A3] ++
  [0x748F82EE5DEFB2FC, 0x78A5636F43172F60, 0x84C87814A1F0AB72, 0x8CC702081A6439EC, 0x90BEFFFA23631E28, 0xA4506CEBDE82BDE9, 0xBEF9A3F7B2C67915, 0xC67178F2E372532B] ++
  [0xCA273ECEEA26619C, 0xD186B8C721C0C207, 0xEADA7DD6CDE0EB1E, 0xF57D4F7FEE6ED178, 0x06F067AA72176FBA, 0x0A637DC5A2C898A6, 0x113F9804BEF90DAE, 0x1B710B35131C471B] ++
  [0x28DB77F523047D84, 0x32CAAB7B40C72493, 0x3C9EBE0A15C9BEBC, 0x431D67C49C100D4C, 0x4CC5D4BECB3E42B6, 0x597F299CFC657E2A, 0x5FCB6FAB3AD6FAEC, 0x6C44198C4A475817]

/-- What tells the two hashes apart: the amounts of the six rotations and of the two shifts, and the number of rounds. -/
structure ShaKind where
  bigA   : Nat × Nat × Nat
  bigE   : Nat × Nat × Nat
  low    : Nat × Nat × Nat
  high   : Nat × Nat × Nat
  rounds : Nat
  deriving DecidableEq, Repr

def sha32 : ShaKind := { bigA := (2, 13, 22), bigE := (6, 11, 25), low := (7, 18, 3), high := (17, 19, 10), rounds := 64 }
def sha64 : ShaKind := { bigA := (28, 34, 39), bigE := (14, 18, 41), low := (1, 8, 7), high := (19, 61, 6), rounds := 80 }

/-- Three rotations combined. -/
def shaRot {w : Nat} (k : Nat × Nat × Nat) (x : BitVec w) : BitVec w := x.rotateRight k.1 ^^^ x.rotateRight k.2.1 ^^^ x.rotateRight k.2.2

/-- Two rotations and a shift combined. -/
def shaMix {w : Nat} (k : Nat × Nat × Nat) (x : BitVec w) : BitVec w := x.rotateRight k.1 ^^^ x.rotateRight k.2.1 ^^^ (x >>> k.2.2)

/-- One round on the eight working words. -/
def shaRound {w : Nat} (kind : ShaKind) (v : List (BitVec w)) (kw : BitVec w) : List (BitVec w) :=
  match v with
  | [a, b, c, d, e, f, g, h] =>
    let t1 := h + shaRot kind.bigE e + ((e &&& f) ^^^ (~~~e &&& g)) + kw
    let t2 := shaRot kind.bigA a + ((a &&& b) ^^^ (a &&& c) ^^^ (b &&& c))
    [t1 + t2, a, b, c, d + t1, e, f, g]
  | _ => v

/-- The message schedule, last word first. -/
def shaSchedule {w : Nat} (kind : ShaKind) : Nat → List (BitVec w) → List (BitVec w)
  | 0, l => l
  | n + 1, l =>
    let at_ := fun (i : Nat) => l.getD (i - 1) 0
    shaSchedule kind n ((shaMix kind.high (at_ 2) + at_ 7 + shaMix kind.low (at_ 15) + at_ 16) :: l)

/-- One block of 16 words into the hash. -/
def shaBlock {w : Nat} (kind : ShaKind) (h : List (BitVec w)) (m : List (BitVec w)) : List (BitVec w) :=
  let ws := (shaSchedule kind (kind.rounds - 16) m.reverse).reverse
  let ks := (shaK.take kind.rounds).map (fun k => BitVec.ofNat w (k / 2 ^ (64 - w)))
  let v := (List.zipWith (· + ·) ks ws).foldl (shaRound kind) h
  List.zipWith (· + ·) h v

/-- A list cut into n pieces of k. -/
def pieces {α : Type} (k : Nat) : Nat → List α → List (List α)
  | 0, _ => []
  | n + 1, l => l.take k :: pieces k n (l.drop k)

/-- The hash words of a message: padded with a 1 bit, zeros and its length in bits, in blocks of 16 words of w bits. -/
def shaWords {w : Nat} (kind : ShaKind) (iv : List (BitVec w)) (msg : Bytes) : List (BitVec w) :=
  let n := w / 8
  let block := 16 * n
  let zeros := (2 * block - (msg.length + 1 + 2 * n) % block) % block
  let all := msg ++ [0x80] ++ List.replicate zeros 0 ++ toBytes (2 * n) (8 * msg.length)
  (pieces block (all.length / block) all).foldl (fun h b => shaBlock kind h ((pieces n 16 b).map (fun x => BitVec.ofNat w (beNat x)))) iv

/-- SHA-256: 32 bytes. -/
def sha256 (msg : Bytes) : Bytes :=
  (shaWords sha32 ([0x6A09E667, 0xBB67AE85, 0x3C6EF372, 0xA54FF53A, 0x510E527F, 0x9B05688C, 0x1F83D9AB, 0x5BE0CD19] : List (BitVec 32)) msg).flatMap (fun x => toBytes 4 x.toNat)

/-- SHA-384 (R568), as a number, first byte most significant. -/
def sha384 (msg : Bytes) : Nat :=
  beNat (((shaWords sha64 ([0xCBBB9D5DC1059ED8, 0x629A292A367CD507, 0x9159015A3070DD17, 0x152FECD8F70E5939, 0x67332667FFC00B31, 0x8EB44A8768581511, 0xDB0C2E0D64F98FA7, 0x47B5481DBEFA4FA4] : List (BitVec 64)) msg).flatMap
    (fun x => toBytes 8 x.toNat)).take 48)

/-- HMAC-SHA-256 (R490, R491). -/
def hmacSha256 (key msg : Bytes) : Bytes :=
  let k := if 64 < key.length then sha256 key else key
  let k := k ++ List.replicate (64 - k.length) 0
  sha256 (k.map (· ^^^ 0x5C) ++ sha256 (k.map (· ^^^ 0x36) ++ msg))

/-! ### ECDSA over P-384 -/

/-- The prime, the order, the coefficient b and the base point of P-384; a is −3. -/
def p384P : Nat := 2 ^ 384 - 2 ^ 128 - 2 ^ 96 + 2 ^ 32 - 1
def p384N : Nat :=
  0xFFFFFFFFFFFFFFFFFFFFFFFFFFFFFFFFFFFFFFFFFFFFFFFFC7634D81F4372DDF581A0DB248B0A77AECEC196ACCC52973
def p384B : Nat :=
  0xB3312FA7E23EE7E4988E056BE3F82D19181D9C6EFE8141120314088F5013875AC656398D8A2ED19D2A85C8EDD3EC2AEF
def p384G : Nat × Nat :=
  (0xAA87CA22BE8B05378EB1C71EF320AD746E1D3B628BA79B9859F741E082542A385502F25DBF55296C3A545E3872760AB7,
   0x3617DE4A96262C6F5D9E98BF9292DC29F8F41DBD289A147CE9DA3113B5F0B8C00A60B1CE1D7E819D7A431D7C90EA0E5F)

/-- A power modulo m by squaring, over the bits of the exponent below a bound. -/
def powMod (m b e : Nat) : Nat → Nat
  | 0 => 1 % m
  | n + 1 =>
    let r := powMod m b (e / 2) n
    let r := r * r % m
    if e % 2 = 1 then r * b % m else r

/-- The inverse modulo a prime of at most 384 bits. -/
def invMod (m a : Nat) : Nat := powMod m a (m - 2) 384

/-- The sum of two points of the curve, none being the point at infinity. -/
def ecAdd (a b : Option (Nat × Nat)) : Option (Nat × Nat) :=
  match a, b with
  | none, _ => b
  | _, none => a
  | some (x, y), some (u, v) =>
    if x = u ∧ (y + v) % p384P = 0 then none
    else
      let l := if x = u then (3 * x * x + p384P - 3) * invMod p384P (2 * y) else (v + p384P - y) * invMod p384P (u + p384P - x)
      let l := l % p384P
      let z := (l * l + 2 * p384P - x - u) % p384P
      some (z, (l * (x + p384P - z) + p384P - y) % p384P)

/-- A multiple of a point, over the bits of the factor below a bound. -/
def ecMul (a : Option (Nat × Nat)) (k : Nat) : Nat → Option (Nat × Nat)
  | 0 => none
  | n + 1 =>
    let r := ecMul a (k / 2) n
    let r := ecAdd r r
    if k % 2 = 1 then ecAdd r a else r

/-- An ECDSA signature (r, then s) verifies for a hash under an uncompressed public key (R568, R569). -/
def signatureOk (key sig hash : Nat) : Bool :=
  let x := key / 2 ^ 384 % 2 ^ 384
  let y := key % 2 ^ 384
  let r := sig / 2 ^ 384
  let s := sig % 2 ^ 384
  let onCurve := key / 2 ^ 768 == 4 && decide (x < p384P) && decide (y < p384P) &&
    y * y % p384P == (x * x * x + (p384P - 3) * x + p384B) % p384P
  if !onCurve || r == 0 || s == 0 || decide (p384N ≤ r) || decide (p384N ≤ s) then false
  else
    let w := invMod p384N s
    match ecAdd (ecMul (some p384G) (hash * w % p384N) 384) (ecMul (some (x, y)) (r * w % p384N) 384) with
    | none => false
    | some (u, _) => u % p384N == r

end Sys2Proof.Machine
end

