-- ==== Sys2Proof/Machine/Codeword.lean ====
section
/-! DEFINITION. The cells of a packet, and the codewords of a fabric lane (R394 to R399): header, scrambler, alignment codewords and
parity symbols over the flit stream. -/

namespace Sys2Proof.Machine

/-! ### Cells (R396 to R399) -/

/-- Parity of a 64-bit word: true when odd. -/
def oddParity (w : BitVec 64) : Bool := decide (popc w % 2 = 1)

/-- The words of a cell (R397): header words 0 and 1, then the payload padded to whole words. -/
def payloadWords : Nat → Bytes → List (BitVec 64)
  | 0, _ => []
  | n + 1, b => if b.isEmpty then []
    else BitVec.ofNat 64 (beNat (b.take 8 ++ List.replicate (8 - (b.take 8).length) 0)) :: payloadWords n (b.drop 8)

/-- Set the parity bits of a cell header (R397); the header's parity field is 0 on entry. -/
def cellParity (hdr : BitVec 128) (payload : Bytes) : BitVec 128 :=
  let w0 : BitVec 64 := hdr.extractLsb' 64 64
  let w1 : BitVec 64 := hdr.extractLsb' 0 64
  let ps := (payloadWords 30 payload).map oddParity
  let par := b2n (oddParity w0) + ((ps.zipIdx).map (fun x => b2n x.1 <<< (x.2 + 2))).sum
  let w1 := w1 ||| BitVec.ofNat 64 par
  let w1 := if oddParity w1 then w1 ||| 2 else w1
  w0 ++ w1

/-- Every word of a cell has even parity with its bit (R397, R405). -/
def cellOk (hdr : BitVec 128) (payload : Bytes) : Bool :=
  let w0 : BitVec 64 := hdr.extractLsb' 64 64
  let w1 : BitVec 64 := hdr.extractLsb' 0 64
  oddParity w0 == w1.getLsbD 0 && !oddParity w1 &&
    ((payloadWords 30 payload).map oddParity).zipIdx.all (fun x => x.1 == w1.getLsbD (x.2 + 2))

/-- The fabric id of a die. -/
def fabricId (s : State) (d : Nat) : Nat := s.dg d 0x4100 1

/-- Fields of a cell header (Table 13.2). -/
def chType (h : Nat) : Nat := bits h 127 126
def chLast (h : Nat) : Bool := bit h 124
def chFirst (h : Nat) : Bool := bit h 125
def chPoison (h : Nat) : Bool := bit h 123
def chMcast (h : Nat) : Bool := bit h 122
def chDst (h : Nat) : Nat := bits h 113 94
def chSrc (h : Nat) : Nat := bits h 93 74
def chTc (h : Nat) : Nat := bits h 72 70
def chColour (h : Nat) : Nat := bits h 69 68
def chSeq (h : Nat) : Nat := bits h 67 44
def chResent (h : Nat) : Bool := bit h 43
def chRestart (h : Nat) : Bool := bit h 34

/-- The source field of a packet's cells: fabric id × 64 + slot, slot 0 for CPU inject (Table 13.2). -/
def cellSrc (s : State) (p : Packet) : Nat :=
  fabricId s p.die * 64 + (if p.desc.srcPort = 0x1FF then 0 else p.desc.srcPort.toNat % 64)

/-- The n-th data cell of a frame f that takes `total` cells (R398); credit and parity enter as it is sent. -/
def dataCell (s : State) (p : Packet) (f : Bytes) (total n : Nat) (i : Nat) : FCell :=
  let pay := (f.drop (n * 240)).take 240
  let last := decide (n + 1 = total)
  let h := b2n (n == 0) <<< 125 ||| b2n last <<< 124 ||| b2n (last && p.poison) <<< 123 |||
    b2n (p.desc.destKind == 1) <<< 122 ||| (pay.length - 1) <<< 114 ||| p.desc.dest.toNat <<< 94 ||| cellSrc s p <<< 74 |||
    b2n (p.desc.srcPort == 0x1FF) <<< 73 ||| p.desc.tc.toNat <<< 70 ||| p.desc.colour.toNat <<< 68 ||| p.fabSeq <<< 44 |||
    b2n p.resent <<< 43 ||| b2n p.restart <<< 34
  { hdr := BitVec.ofNat 128 h, payload := pay, pkt := some i }

/-- Link credit units a cell takes: 64-byte units of header and payload (R406). -/
def cellUnits (c : FCell) : Nat := ceilDiv (16 + c.payload.length) 64

/-- The bytes of a cell (R396). -/
def fcellBytes (c : FCell) : Bytes := toBytes 16 c.hdr.toNat ++ c.payload

/-- The cells of a whole packet as a turnaround carries them over the saddles (R399), each in whole words. -/
def saddleCells (s : State) (p : Packet) (f : Bytes) (i : Nat) : Bytes :=
  let total := max 1 (ceilDiv f.length 240)
  (List.range total).flatMap (fun n =>
    let c := dataCell s p f total n i
    let b := fcellBytes { c with hdr := cellParity c.hdr c.payload }
    b ++ List.replicate ((8 - b.length % 8) % 8) 0)

/-! ### The Reed-Solomon code (R394)

PRESUMED from IEEE 802.3 Clause 91 (log entry 96): symbols of GF(2^10) under x^10 + x^3 + 1, generator with the roots a^0 to a^29, a
symbol the next 10 bits of the payload. -/

/-- A symbol times a. -/
def gfTimes (x : Nat) : Nat := if x < 512 then 2 * x else (2 * x) ^^^ 0x409

/-- The product of two symbols, over the low n bits of the first. -/
def gfMul : Nat → Nat → Nat → Nat
  | 0, _, _ => 0
  | n + 1, x, y => (if x % 2 = 1 then y else 0) ^^^ gfMul n (x / 2) (gfTimes y)

/-- The n-th power of a. -/
def gfPow : Nat → Nat
  | 0 => 1
  | n + 1 => gfTimes (gfPow n)

/-- The generator of 2t roots without its leading coefficient, highest power first. -/
def rsGen : Nat → List Nat
  | 0 => []
  | n + 1 =>
    let g := rsGen n
    List.zipWith (· ^^^ ·) (g ++ [0]) ((1 :: g).map (gfMul 10 (gfPow n)))

/-- One symbol of the message enters the division by the generator. -/
def rsStep (g r : List Nat) (m : Nat) : List Nat :=
  let f := m ^^^ r.headD 0
  List.zipWith (· ^^^ ·) (r.tail ++ [0]) (g.map (gfMul 10 f))

/-- The 30 parity symbols of a codeword's payload. -/
def rsParity (p : BitVec 5140) : BitVec 300 :=
  let g := rsGen 30
  let r := (List.range 514).foldl (fun r i => rsStep g r (bits p.toNat (5139 - 10 * i) (5130 - 10 * i))) (List.replicate 30 0)
  BitVec.ofNat 300 (r.foldl (fun a x => a * 1024 + x) 0)

/-! ### Codewords -/

/-- The self-synchronising scrambler 1 + x^39 + x^58 over the low n bits of p, most significant first; bit 0 of the register is
the bit scrambled last. Answers the scrambled bits after those of `out`, and the register. -/
def scramble : Nat → Nat → BitVec 58 → Nat → Nat × BitVec 58
  | 0, _, r, out => (out, r)
  | n + 1, p, r, out =>
    let b := (p.testBit n ^^ r.getLsbD 38) ^^ r.getLsbD 57
    scramble n p (r <<< 1 ||| BitVec.ofNat 58 b.toNat) (2 * out + b.toNat)

/-- The 640 bytes of an alignment codeword (R394). -/
def alignBytes : Bytes := (List.range 80).flatMap (fun _ => toBytes 8 0xC16821F43E97DE0B)

/-- A codeword's payload (Table 13.1): the offset of the first flit that starts in it, 0x3FF when none does, and 640 bytes. -/
def cwPayload (first : Nat) (b : Bytes) : Nat := first <<< 5130 ||| beNat b

/-- A codeword: its payload and the parity symbols behind it. -/
def codeword (p : Nat) : BitVec 5440 := BitVec.ofNat 5140 p ++ rsParity (BitVec.ofNat 5140 p)

/-- The offset of the first flit that starts among the first 640 bytes of a lane's stream. -/
def FTx.first (t : FTx) : Nat := match t.starts with
  | n :: _ => if n < 640 then n else 0x3FF
  | [] => 0x3FF

/-- The next codeword of a lane: every 16,384th is an alignment codeword, which takes no flits and is not scrambled. -/
def FTx.next (t : FTx) : FTx :=
  if t.no = 16383 then { t with no := 0, cw := codeword (cwPayload 0x3FF alignBytes) }
  else
    let x := scramble 5140 (cwPayload t.first (t.stream.take 640)) t.scr 0
    { stream := t.stream.drop 640, starts := (t.starts.filter (fun n => decide (640 ≤ n))).map (· - 640), scr := x.2, no := t.no + 1
      cw := codeword x.1 }

/-- A flit joins the stream of a lane without a gap (R395); 640 bytes make a codeword. -/
def FTx.put (b : Bytes) (t : FTx) : FTx :=
  let t := { t with starts := t.starts ++ [t.stream.length], stream := t.stream ++ b }
  if t.stream.length < 640 then t else t.next

/-- IDLE LCFs fill a lane up to the end of its codeword when nothing else is ready (R395, R403). -/
def FTx.idle (t : FTx) : FTx := (List.range (ceilDiv (640 - t.stream.length) 8)).foldl (fun t _ => t.put (toBytes 8 (3 <<< 62))) t

/-- A received codeword's payload is an alignment codeword (R394). -/
def aligned (p : BitVec 5140) : Bool := p.toNat % 2 ^ 5120 == beNat alignBytes

end Sys2Proof.Machine
end

