-- ==== Sys2Proof/Machine/Wire.lean ====
section
/-! DEFINITION. Routes between dies, the saddle transmitters with their arbiter, credits and retry buffers, and the
messages dies send each other (R27 to R35). -/

namespace Sys2Proof.Machine

/-! ### Routes (R27, R28) -/

/-- A saddle is in one of some states at both of its ends. -/
def State.upIn (s : State) (st : List Nat) (d k : Nat) : Bool :=
  match s.nbr d k with
  | none => false
  | some n => st.contains (s.saddleState d k) && st.contains (s.saddleState n (opposite k))

/-- A saddle carries flits: Up-full or Up-half at both of its ends, or stepping between the two (R40). -/
def State.up (s : State) (d k : Nat) : Bool := s.upIn [2, 3, 4] d k

/-- The side of a die that faces another. -/
def sideTo (a b : Nat) : Option Nat := [0, 1, 2, 3].find? (fun k => gridNbr a k == some b)

/-- One hop over a saddle in one of some states. -/
def State.hop (s : State) (st : List Nat) (a b : Nat) : Bool :=
  match sideTo a b with
  | none => false
  | some k => s.upIn st a k

/-- A path is usable, from a die through the dies listed. -/
def State.pathUp (s : State) (st : List Nat) : Nat → List Nat → Bool
  | _, [] => true
  | a, b :: r => s.hop st a b && s.pathUp st b r

/-- The dies after `d` along its row to column c. -/
def rowDies (d c : Nat) : List Nat :=
  if d % 4 ≤ c then (List.range (c - d % 4)).map (fun i => d + 1 + i)
  else (List.range (d % 4 - c)).map (fun i => d - 1 - i)

/-- The row-first path (R27 rule 1). -/
def rowFirst (a b : Nat) : List Nat := rowDies a (b % 4) ++ (if a / 4 = b / 4 then [] else [b])

/-- The column-first path (R27 rule 2). -/
def colFirst (a b : Nat) : List Nat :=
  (if a / 4 = b / 4 then [] else [b / 4 * 4 + a % 4]) ++ rowDies (b / 4 * 4 + a % 4) (b % 4)

/-- The lowest path of exactly n hops that visits no die twice (R27 rule 3). -/
def State.detour (s : State) (st : List Nat) (dst : Nat) : Nat → Nat → List Nat → Option (List Nat)
  | 0, a, _ => if a = dst then some [] else none
  | n + 1, a, seen =>
    if a = dst then none
    else (List.range 8).findSome? (fun b =>
      if s.hop st a b && !(seen.contains b) then (s.detour st dst n b (b :: seen)).map (b :: ·) else none)

/-- The route of R27 over the saddles in some states: the first rule that yields a path. -/
def State.routeIn (s : State) (st : List Nat) (a b : Nat) : Option Route :=
  if s.pathUp st a (rowFirst a b) then some { path := rowFirst a b }
  else if s.pathUp st a (colFirst a b) then some { path := colFirst a b }
  else ((List.range 8).findSome? (fun n => s.detour st b n a [a])).map (fun p => { path := p, esc := true })

/-- The route the Summit computes (R27). A saddle that is stepping carries flits (R40): it serves where no path of saddles
Up-full or Up-half exists (log entry 22). -/
def State.liveRoute (s : State) (a b : Nat) : Option Route :=
  match s.routeIn [2, 3] a b with
  | some r => some r
  | none => s.routeIn [2, 3, 4] a b

/-- The saddles join two dies (R27, R53). -/
def State.linked (s : State) (a b : Nat) : Bool := (s.liveRoute a b).isSome

/-- The route a die uses: that of its route table (R28). A die that has received no table since it was reset uses the
route as it stands (log entry 44). -/
def State.route (s : State) (a b : Nat) : Option Route :=
  if (s.die a).core.routeGen = 0 then s.liveRoute a b else mget? (s.die a).core.routes b

/-- A die can be reached from another (R27, R28). -/
def State.reach (s : State) (a b : Nat) : Bool := (s.route a b).isSome

/-- The route table of a die (R28): the dies that cannot be reached are not listed. -/
def State.routeTable (s : State) (a : Nat) : Map Route :=
  (s.present).foldl (fun m b => match s.liveRoute a b with | some r => minsert m b r | none => m) []

/-! ### Saddle ends -/

/-- A saddle end of a die. -/
def saddle (s : State) (d k : Nat) : Saddle := mget (s.die d).core.saddles k

/-- Change a saddle end. -/
def onSaddle (d k : Nat) (f : Saddle → Saddle) (s : State) : State :=
  s.onDie d (fun x => { x with core.saddles := mmod x.core.saddles k f })

/-! ### Messages and their flits (R29, R32) -/

/-- The message class of what a die sends: 0 control, 1 search response, 2 search request, 3 packet data (R29, R86, R199,
R327, R480). -/
def msgClass : MsgBody → Nat
  | .dispatch _ => 3 | .ret _ => 3 | .cells _ => 3
  | .search _ => 2 | .answer _ => 1
  | _ => 0

/-- A message travels to the neighbour on its side and nowhere else: lane control (R40). -/
def msgLocal : MsgBody → Bool
  | .laneReq _ => true | .laneAck _ => true
  | _ => false

/-- What a record of packet data carries: the descriptor, then header window or a punted frame (R86, R462), or the cells of a turnaround
(R399). -/
def msgData (s : State) : MsgBody → Bytes
  | .dispatch i => toBytes 32 (s.pkt i).desc.bits.toNat ++ (s.pkt i).win
  | .ret i => toBytes 32 (s.pkt i).desc.bits.toNat ++ (s.pkt i).rw
  | .cells i => match (s.pkt i).stage with
    | .punt _ => toBytes 32 (s.pkt i).desc.bits.toNat ++ (s.pkt i).frame
    | _ => (s.pkt i).rw
  | _ => []

/-- The bytes a message takes (R86, R87). The manual gives the length of no message but the records: an access takes 16
bytes and its data, every other message one flit (log entry 12). -/
def msgSize (s : State) : MsgBody → Nat
  | .dispatch i => 32 + (s.pkt i).win.length
  | .ret i => 32 + (s.pkt i).rw.length
  | .cells i => match (s.pkt i).stage with
    | .punt _ => 32 + (s.pkt i).frame.length
    | _ => (s.pkt i).rw.length
  | .access _ a => 16 + a.len
  | .bcast _ a => 16 + a.len
  | .relay _ m => 32 + m.payload.length
  | _ => 56

/-- The tag of a search request: bits [55:39] of its header (R124). -/
def SReq.tag (q : SReq) : Nat := bits q.hdr.toNat 55 39

/-- The transfer_id in the headers of a message (Table 1.2): the tag of a search request or its response in [16:0], with [19:17] 0
(R124), otherwise the message's number. -/
def msgTag (m : Msg) : Nat :=
  match m.body with
  | .search (.bucket _ _ _ _ _ tag) => tag % 2 ^ 17
  | .search (.fill _ _ _ tag) => tag % 2 ^ 17
  | .search (.context q) => q.tag
  | .answer (.bucket _ _ _ _ tag) => tag % 2 ^ 17
  | .answer (.reply _ r) => r.tag % 2 ^ 17
  | .answer (.miss q ..) => q.tag
  | .answer (.deferred q) => q.tag
  | _ => m.id % 2 ^ 20

/-- Flits a message takes: seven payload words each (R87). -/
def flitCount (size : Nat) : Nat := max 1 (ceilDiv size 56)

/-- Valid payload words of the last flit, minus 1 (Table 1.2). -/
def lastWords (size : Nat) : Nat := ceilDiv (max 1 (size - 56 * (flitCount size - 1))) 8 - 1

/-- A header word of Table 1.2 without what the transmitter puts in when it sends the flit. -/
def flitHeader (cls : Nat) (esc first last : Bool) (dst src words tag : Nat) : Nat :=
  cls <<< 62 ||| b2n esc <<< 61 ||| dst <<< 58 ||| src <<< 55 ||| b2n first <<< 24 ||| b2n last <<< 23 ||| words <<< 20 ||| tag

/-- Eight bytes to a payload word, the first most significant (R6). -/
def flitData (bs : Bytes) : List Word :=
  (List.range (ceilDiv bs.length 8)).map (fun i => BitVec.ofNat 64 (beNat (((bs.drop (8 * i)).take 8) ++ List.replicate (8 * i + 8 - bs.length) 0)))

/-- The flits of a message on a route (R32, R87); `via` is the receive buffer they still stand in (R31). -/
def flitsOf (s : State) (m : Msg) (r : Route) (via : Option (Nat × Nat)) : List Flit :=
  let n := flitCount m.size
  let data := flitData (msgData s m.body)
  (List.range n).map (fun i =>
    let last := decide (i + 1 = n)
    { hdr := BitVec.ofNat 64 (flitHeader (msgClass m.body) r.esc (i == 0) last m.dst m.src (if last then lastWords m.size else 0) (msgTag m))
      payload := (data.drop (7 * i)).take 7, tid := m.id, path := r.path.drop 1, src := via })

/-- The virtual channel of a flit: its class, plus 4 on the escape channel (R29). -/
def flitVc (f : Flit) : Nat := bits f.hdr.toNat 63 62 + (if bit f.hdr.toNat 61 then 4 else 0)

/-! ### The transmitter (R29 to R33) -/

/-- A virtual channel can send a flit: one waits, the far end has room for it, and the retry buffer takes it (R29, R33). -/
def Saddle.canSend (x : Saddle) (limit vc : Nat) : Bool :=
  !(mget x.queue vc).isEmpty && decide (mget x.used vc < limit) && decide (x.retry.length < 1024)

/-- The transmit arbiter (R30): control first, then classes 1 to 3 by the rotating pointer of R21 to R24. Within a class the
regular channel goes before the escape channel (log entry 16). -/
def Saddle.pick (x : Saddle) (limit : Nat) : Option Nat :=
  match [0, 4].find? (x.canSend limit) with
  | some v => some v
  | none =>
    (arbiter 3 x.txPtr (fun i => x.canSend limit (i + 1) || x.canSend limit (i + 5))).map
      (fun i => if x.canSend limit (i + 1) then i + 1 else i + 5)

/-- The classes a flit returns a credit of, one bit each (Table 1.2). -/
def Saddle.creditBits (x : Saddle) (esc : Bool) : Nat :=
  ((List.range 4).map (fun c => if 0 < mget x.owed (c + (if esc then 4 else 0)) then 2 ^ c else 0)).sum

/-- The fields of a header the transmitter fills when it sends: sequence number, acknowledgement, replay request, credits. -/
def Saddle.stamp (x : Saddle) (h seq : Nat) : BitVec 64 :=
  BitVec.ofNat 64 (h ||| seq <<< 43 ||| x.rxSeq <<< 31 ||| 1 <<< 30 ||| b2n x.nakDue <<< 29 ||| x.creditBits (bit h 61) <<< 25)

/-- What a sent header has told the far end is no longer owed. -/
def Saddle.told (x : Saddle) (esc : Bool) : Saddle :=
  { x with
    ackDue := false, nakDue := false
    owed := (List.range 4).foldl (fun m c => mput m (c + (if esc then 4 else 0)) (mget m (c + (if esc then 4 else 0)) - 1)) x.owed }

/-- The flit at the head of a channel leaves: it keeps its place in the retry buffer, takes a credit, and moves the
arbiter's pointer (R22, R33). -/
def Saddle.transmit (x : Saddle) (vc : Nat) : Saddle :=
  match mget x.queue vc with
  | [] => x
  | f :: r =>
    let f := { f with hdr := x.stamp f.hdr.toNat x.txSeq, marked := x.mark, src := none }
    let x := x.told (decide (4 ≤ vc))
    { x with
      queue := mput x.queue vc r
      used := mput x.used vc (mget x.used vc + 1)
      txPtr := if vc % 4 = 0 then x.txPtr else vc % 4 % 3
      txSeq := (x.txSeq + 1) % 4096
      retry := x.retry ++ [f], wire := x.wire ++ [f], mark := false }

/-- Something is to be told the far end and no flit is there to tell it. -/
def Saddle.mustTell (x : Saddle) : Bool := x.ackDue || x.nakDue || x.owed.any (fun c => decide (0 < c.2))

/-- A flit that carries acknowledgement, replay request and credits only: it takes no credit and no sequence number of its
own, and is not kept (log entry 16). -/
def Saddle.bareFlit (x : Saddle) : Saddle :=
  let esc := x.creditBits false == 0 && x.creditBits true != 0
  let f : Flit := { hdr := x.stamp (flitHeader 0 esc false false 0 0 0 0) ((x.txSeq + 4095) % 4096), marked := x.mark }
  let x := x.told esc
  { x with wire := x.wire ++ [f], mark := false }

/-- A flit counts on the saddle it leaves by, replays excluded (Table 1.7). -/
def countFlit (d k : Nat) (esc : Bool) (s : State) : State :=
  let s := s.dinc d (0x4210 + k) 7 1
  if esc then s.dinc d (0x4210 + k) 8 1 else s

/-- Room of a channel in a receive buffer is free again, and the far end is owed the credits (R29, R31). -/
def oweRoom (d k vc n : Nat) (s : State) : State := onSaddle d k (fun x => { x with owed := mput x.owed vc (mget x.owed vc + n) }) s

/-- The head of a channel leaves the die, and with it the receive buffer that it came by, if any (R31). -/
def leaveRoom (d k vc : Nat) (s : State) : State :=
  match (mget (saddle s d k).queue vc).head?.bind (·.src) with
  | some (j, v) => oweRoom d j v 1 s
  | none => s

/-- The transmitter of a saddle sends what it can, as often as its fuel allows. -/
def pumpN : Nat → Nat → Nat → State → State
  | 0, _, _, s => s
  | n + 1, d, k, s =>
    if !s.up d k then s
    else
      let x := saddle s d k
      match x.pick s.saddleCredit with
      | some vc => pumpN n d k (countFlit d k (decide (4 ≤ vc)) (onSaddle d k (fun x => x.transmit vc) (leaveRoom d k vc s)))
      | none =>
        if x.mustTell then pumpN n d k (countFlit d k (x.creditBits false == 0 && x.creditBits true != 0) (onSaddle d k Saddle.bareFlit s)) else s

/-- More steps than the transmitter of a saddle can make. -/
def pumpFuel (s : State) (d k : Nat) : Nat :=
  let x := saddle s d k
  (x.queue.map (fun q => q.2.length)).sum + (x.owed.map (·.2)).sum + 2

/-- The transmitter of a saddle sends every flit that credit and retry buffer allow, and what is to be told (R30, R31). The other
saddles of the die then tell what room those flits have left there. -/
def pump (d k : Nat) (s : State) : State :=
  (pumpN (pumpFuel s d k) d k s).each ((List.range 4).filter (· != k)) (fun j s => pumpN (pumpFuel s d j) d j s)

/-- Flits join their channel at a transmitter. -/
def enqueue (d k : Nat) (fs : List Flit) (s : State) : State :=
  match fs with
  | [] => s
  | f :: _ => pump d k (onSaddle d k (fun x => { x with queue := mput x.queue (flitVc f) (mget x.queue (flitVc f) ++ fs) }) s)

/-- A transfer waits at a die for a route (R35). -/
def strand (d : Nat) (ids : List (Nat × Option (Nat × Nat))) (s : State) : State :=
  if ids.isEmpty then s else s.onDie d (fun x => { x with core.stranded := x.core.stranded ++ ids })

/-- The message of a number. -/
def State.msg? (s : State) (id : Nat) : Option Msg := s.msgs.find? (fun m => m.id == id && m.id != 0)

/-- A message leaves a die on a route, or waits there while its first saddle is down. -/
def launchOn (d : Nat) (m : Msg) (r : Route) (via : Option (Nat × Nat)) (s : State) : State :=
  match r.path with
  | [] => s
  | b :: _ => match sideTo d b with
    | none => s
    | some k => if s.up d k then enqueue d k (flitsOf s m r via) s else strand d [(m.id, via)] s

/-- A message leaves a die on the route its table gives, or waits there for one (R28, R35). -/
def launch (d : Nat) (m : Msg) (via : Option (Nat × Nat)) (s : State) : State :=
  match s.route d m.dst with
  | none => strand d [(m.id, via)] s
  | some r => launchOn d m r via s

/-- The transfers that wait at a die go over the routes it has now (R35). -/
def relaunch (d : Nat) (s : State) : State :=
  let ids := (s.die d).core.stranded
  let s := s.onDie d (fun x => { x with core.stranded := [] })
  s.each ids (fun x s => match s.msg? x.1, x.2 with
    | some m, via => launch d m via s
    | none, some (k, v) => oweRoom d k v 1 s
    | none, none => s)

/-- A new message with its number, and the state that holds it. -/
def State.newMsg (s : State) (a b : Nat) (m : MsgBody) : Msg × State :=
  let x : Msg := { id := s.nextMsg, src := a, dst := b, size := msgSize s m, arrived := decide (a = b), body := m }
  (x, { s with msgs := s.msgs ++ [x], nextMsg := s.nextMsg + 1 })

/-- Send a message from one die to another. What a die sends itself is there at once. -/
def State.send (s : State) (a b : Nat) (m : MsgBody) : State :=
  let (x, s) := s.newMsg a b m
  if a = b then s else launch a x none s

/-- Send a message to the neighbour on one side over the saddle between them (R40, R51, R52). -/
def State.sendSide (s : State) (a k : Nat) (m : MsgBody) : State :=
  match s.nbr a k with
  | none => s
  | some n => let (x, s) := s.newMsg a n m; launchOn a x { path := [n] } none s

/-- A class has credit on the first saddle from a die to another, and nothing of it waits there (R31). -/
def saddleFree (s : State) (a b cls : Nat) : Bool :=
  if a = b then true
  else match s.route a b with
    | some ⟨n :: _, esc⟩ => (match sideTo a n with
      | some k =>
        let x := saddle s a k
        let vc := cls + (if esc then 4 else 0)
        s.up a k && (mget x.queue vc).isEmpty && decide (mget x.used vc < s.saddleCredit) && decide (x.retry.length < 1024)
      | none => false)
    | _ => false

/-! ### Taking messages -/

/-- Take the first message that has arrived at a die and that a test accepts, with its place in the order kept for the
others. -/
def takeMsg (d : Nat) (p : MsgBody → Bool) : List Msg → Option (Msg × List Msg)
  | [] => none
  | m :: r => if m.dst = d ∧ m.arrived = true ∧ p m.body then some (m, r) else (takeMsg d p r).map (fun x => (x.1, m :: x.2))

/-- A message that is taken leaves the receive buffer it stood in (R31). -/
def leaveBuffer (m : Msg) (s : State) : State :=
  match m.room with
  | some (v, n) => pump m.dst m.via (oweRoom m.dst m.via v n s)
  | none => s

/-- Messages are gone, and with them what they held of receive buffers. -/
def State.dropMsgs (s : State) (p : Msg → Bool) : State :=
  ({ s with msgs := s.msgs.filter (fun m => !p m) } : State).each (s.msgs.filter p) leaveBuffer

/-- Take a message for a die and act on it; without one nothing happens (log entry 3). -/
def State.receive (s : State) (d : Nat) (p : MsgBody → Bool) (f : Msg → State → State) : State :=
  match takeMsg d p s.msgs with
  | none => s
  | some (m, r) => f m (leaveBuffer m { s with msgs := r })

/-- Take the first arrived message that a test picks, whatever saddle it came on, and act on it. -/
def State.receivePick (s : State) (d : Nat) (p : Msg → Bool) (f : Msg → State → State) : State :=
  match s.msgs.find? (fun m => m.dst == d && m.arrived && p m) with
  | none => s
  | some m => f m (leaveBuffer m { s with msgs := s.msgs.erase m })

/-- The first message of a kind for a die from each sender, so that what one source sent is taken in the order in which it
was sent (R57). -/
def takeInOrder (d : Nat) (p : MsgBody → Bool) : List Nat → List Msg → Option (Msg × List Msg)
  | _, [] => none
  | seen, m :: r =>
    if m.dst = d ∧ p m.body = true ∧ seen.contains m.src = false then
      if m.arrived then some (m, r) else (takeInOrder d p (m.src :: seen) r).map (fun x => (x.1, m :: x.2))
    else (takeInOrder d p seen r).map (fun x => (x.1, m :: x.2))

/-- Take a message of a kind in its sender's order and act on it. -/
def State.receiveInOrder (s : State) (d : Nat) (p : MsgBody → Bool) (f : Msg → State → State) : State :=
  match takeInOrder d p [] s.msgs with
  | none => s
  | some (m, r) => f m (leaveBuffer m { s with msgs := r })

/-! ### Distribution of route tables (R28) -/

/-- A package-wide entry that the package state record carries: settings, epochs and lost units (R41). -/
def recordEntry (e : Nat) : Bool :=
  let i := e / 256
  decide (i < 0x4000) && (i == 0x2300 || i == 0x1202 || (match findEntry i (e % 256) with
    | some r => decide (r.acc = .rw ∨ r.acc = .rws)
    | none => false))

/-- The Summit's record changes no more at a die that it does not reach: the die keeps its copy; one that it reaches has the record
itself (R41). -/
def noteStale (m : Nat) (s : State) : State :=
  let cut := (s.present).filter (fun d => d != m && !s.linked m d)
  let new := cut.filter (fun d => (mget? s.stale d).isNone)
  if cut.isEmpty then { s with stale := [] }
  else
    let r : StateRec := { regs := s.regs.filter (fun e => recordEntry e.1), master := s.master, pkgLog := s.pkgLog, logSeq := s.logSeq, acked := s.acked }
    { s with stale := new.foldl (fun a d => mput a d r) (s.stale.filter (fun x => cut.contains x.1)) }

/-- A die elected Summit goes on from its own copy of the record (R41). -/
def ownRecord (d : Nat) (s : State) : State :=
  match mget? s.stale d with
  | none => s
  | some r => { s with
      regs := r.regs.foldl (fun m e => minsert m e.1 e.2) (s.regs.filter (fun e => !recordEntry e.1))
      master := r.master, pkgLog := r.pkgLog, logSeq := r.logSeq, acked := r.acked, stale := mdel s.stale d }

/-- The Summit computes every route table anew and distributes it over the saddles; its own is in use at once, and what
waits there for a route leaves (R28, R35). -/
def topology (s : State) : State :=
  match s.summit with
  | none => s
  | some m =>
    let s := (noteStale m s).pinc 0x1800 0xB 1
    let g := s.pg 0x1800 0xB
    let s := s.onDie m (fun x => { x with core.routes := s.routeTable m, core.routeGen := g })
    let s := s.each s.active fun d s =>
      if d ≠ m ∧ s.reach m d then s.send m d (.routeTable g (s.routeTable d)) else s
    relaunch m s

/-- Both ends of a saddle hold nothing any more but whole transfers; what either had sent without an acknowledgement, or
had still to send, waits there for a route, and lane control is void (R35). A transfer of which nothing has been sent still
stands in the receive buffer it came by; of the others no flit does (R31). -/
def saddleClear (d k : Nat) (s : State) : State :=
  let clearOne := fun (e j : Nat) (s : State) =>
    let x := saddle s e j
    let left := x.queue.flatMap (·.2)
    let ids := (((x.retry ++ left).map (·.tid)).filter (· != 0)).eraseDups
    let sent := fun (id : Nat) => x.retry.any (fun f => f.tid == id)
    let via := fun (id : Nat) => if sent id then none else (left.find? (fun f => f.tid == id)).bind (·.src)
    let here := fun (id : Nat) => match s.msg? id with | some m => !msgLocal m.body | none => false
    let s : State := { s with msgs := (s.msgs.filter (fun m => !(msgLocal m.body && ids.contains m.id))).map (fun m =>
      if m.dst = e ∧ m.via = j then { m with room := none } else m) }
    let s := s.each (left.filter (fun f => sent f.tid)) (fun f s => match f.src with | some (k, v) => oweRoom e k v 1 s | none => s)
    let s := strand e ((ids.filter here).map (fun i => (i, via i))) (onSaddle e j (fun x => { rxWhole := x.rxWhole }) s)
    s.each ((List.range 4).filter (· != j)) (pump e)
  match s.nbr d k with
  | some n => clearOne n (opposite k) (clearOne d k s)
  | none => clearOne d k s

end Sys2Proof.Machine
end

