-- ==== Sys2Proof/Machine/Lost.lean ====
section
/-! DEFINITION. The package mode, lost units and what their clearing does to the mode (R500, R505, R508). -/

namespace Sys2Proof.Machine

/-- A die is forwarding-ready: function bits 0 to 6 are set (R505). -/
def State.fwdReady (s : State) (d : Nat) : Bool := s.pg 0x1203 d % 128 == 127

/-- A unit of some present die is lost. -/
def State.anyLost (s : State) : Bool := (s.present).any (fun d => s.pg 0x1202 d != 0)

/-- What the pins, the scan chains and debug follow under a TAP's instruction: the part, unless the instruction acts on them and
may act (R555, R606). -/
def tapActs (ir : BitVec 8) (on : Bool) (t : Tap) : Tap :=
  let pins := match ir.toNat with
    | 0x03 => 1 | 0x04 => 2 | 0x05 => 3 | 0x06 => 4 | 0x07 => 5 | _ => 0
  { t with ir := ir, pins := if on then pins else 0, scan := on && ir == 0x10, debug := on && ir == 0x11 }

/-- With Factory ended no TAP's instruction acts any more (R555). -/
def tapsRest (s : State) : State :=
  if s.mode = .factory then s.onDies (fun _ x => { x with core.tap := tapActs x.core.tap.ir false x.core.tap }) else s

/-! ### Injected parity flips (R541) -/

/-- A parity flip that waits for the next read of a target, by block, instance and address. -/
def State.flipAt (s : State) (d block inst addr : Nat) : Option (Nat × Nat × Nat × Nat) :=
  (s.die d).core.flips.find? (fun f => f.1 == block && f.2.1 == inst && f.2.2.1 == addr && decide (0 < f.2.2.2))

/-- n reads have met a flip: it is left with the others, for the fault record that follows. -/
def spendFlip (d : Nat) (f : Nat × Nat × Nat × Nat) (n : Nat) (s : State) : State :=
  s.onDie d (fun x => { x with core.flips := x.core.flips.replace f (f.1, f.2.1, f.2.2.1, f.2.2.2 - n) })

/-! ### Transit slices end early (R546, R550) -/

/-- The spare bank is free: not failed, not in a slice, not assigned, its domain on (R532, R550). -/
def spareFree (s : State) (d : Nat) : Bool :=
  !(s.die d).core.spareFailed && (s.die d).look.spareFor.isNone && (mget? (s.die d).core.slices 0).isNone && s.pg (0x1310 + d) 77 == 2

/-- The spare is assigned to a fenced bank when it is free (R532). -/
def assignSpare (d b : Nat) (s : State) : State :=
  if spareFree s d then (s.onDie d (fun x => { x with look.spareFor := some b, look.spareOk := [] })).pset (0x1710 + d) 7 4 else s

/-- The spare bank is free again; the bank fenced first while it was in use takes it (R550). -/
def spareBack (d : Nat) (s : State) : State :=
  let s := s.pset (0x1710 + d) 7 0
  match (s.die d).look.fenceOrd.head? with
  | some b => assignSpare d b s
  | none => s

/-- Change the slice of a kind. -/
def setSlice (d k : Nat) (x : Option Slice) (s : State) : State :=
  s.onDie d (fun y => { y with core.slices := match x with | some v => minsert y.core.slices k v | none => mdel y.core.slices k })

/-- Remove an engine from dispatch, or return it (R93, R551). -/
def engineOut (d t : Nat) (out : Bool) (s : State) : State :=
  let m : BitVec 16 := (1 : BitVec 16) <<< (t % 16)
  s.onDie d (fun x => { x with eng.clusters := mmod x.eng.clusters (t / 16) (fun c =>
    { c with noStart := if out then c.noStart ||| m else c.noStart &&& ~~~m }) })

/-- No target of a slice is restored any more (R546). -/
def restoreHeld (s : State) : Bool := s.modeIn [.faultHold, .locked]

/-- A slice is abandoned (R546). A bank past its mirror phase is still restored, and words of a control store whose reload has begun are
still written; in Fault-hold nothing is restored. -/
def sliceAbandon (d k : Nat) (s : State) : State :=
  match mget? (s.die d).core.slices k with
  | none => s
  | some x =>
    if x.off then s
    else
      let s := (s.pinc (0x1710 + d) 3 1).report d 0x12 k 1 0x805 x.target
      let left := setSlice d k (some { x with off := true }) s
      match k with
      | 0 =>
        if x.phase = 1 then spareBack d (setSlice d 0 none s)
        else if restoreHeld s then left
        else (setSlice d 0 (some { x with off := true, phase := 3 }) s).pset (0x1710 + d) 7 3
      | 1 => if restoreHeld s then left else engineOut d x.target false (setSlice d 1 none s)
      | 2 => if x.phase = 2 then left else setSlice d 2 none s
      | _ => if restoreHeld s then left else setSlice d k none s

/-- The slices of a die are abandoned, and none falls due (R544, R546). -/
def stopSlices (d : Nat) (s : State) : State :=
  (s.each [0, 1, 2, 3] (sliceAbandon d)).onDie d (fun x => { x with core.sliceDue := [] })

/-- A transition completes: the package is in a mode (R500). The bring-up timeout runs from entry to Bring-up and is
cancelled on leaving it (R506); slices are abandoned on leaving Forwarding and Lean (R546). -/
def setMode (m : Mode) (s : State) : State :=
  let s := (s.pset 0x1200 4 0).pset 0x1200 5 (modeCode m)
  let s := if m = Mode.drain ∨ m = Mode.quiesce then s else s.pset 0x1200 6 0
  let s := { s with quiesceAt := none }
  if s.mode = m then s
  else
    let s := tapsRest s
    let ends := s.modeIn [.forwarding, .lean] && !(decide (m = Mode.forwarding) || decide (m = Mode.lean))
    let s := { s with
      mode := m
      bringupAt := if m = Mode.bringup then some s.now else none, bringupRan := 0
      alertBringup := s.alertBringup && m == Mode.bringup
      transitFrom := if [Mode.forwarding, .lean].contains m && !s.modeIn [.forwarding, .lean] then s.now else s.transitFrom }
    let s := s.when ends (fun s => s.each s.present stopSlices)
    (s.pinc 0x1200 9 1).pset 0x1200 0x10 s.time80

/-- The mode follows readiness and lost units (Table 17.2): Bring-up ends when every die that is not excluded is
forwarding-ready and no accepted request ends it, Degraded when no unit is lost. A transition to Quiesce goes on (R504). -/
def reviewMode (s : State) : State :=
  match s.mode with
  | .bringup =>
    if s.pg 0x1200 4 ≠ 1 ∧ ((s.present).filter (fun d => !(s.die d).held)).all s.fwdReady then setMode (if s.anyLost then .degraded else .forwarding) s else s
  | .degraded => if !s.anyLost && s.quiesceAt.isNone then setMode .forwarding s else s
  | _ => s

/-- A lost-unit bit of a die clears, in its own word and in 1202 (R508). -/
def clearLost (d b : Nat) (s : State) : State :=
  let s := s.onDie d (fun x => { x with lost := x.lost &&& ~~~((1 : BitVec 32) <<< b) })
  if bit (s.pg 0x1202 d) b then reviewMode (s.pset 0x1202 d (setBit (s.pg 0x1202 d) b false)) else s

/-- A lost-unit bit of a die is set in its own word (R508). -/
def setLost (d b : Nat) (s : State) : State := s.onDie d (fun x => { x with lost := x.lost ||| ((1 : BitVec 32) <<< b) })

end Sys2Proof.Machine
end

