-- ==== Sys2Proof/Machine/Perf.lean ====
section
/-! DEFINITION. Performance counter sets: event counts and samples (Transit Self-Test and Performance Counters). -/

namespace Sys2Proof.Machine

/-- A fault whose kind code the manual does not name: the kind is a free value of the block's range (Table 18.2, log
entry 15). -/
def State.reportOpen (s : State) (d block inst cls lo n addr : Nat) : State :=
  let (f, s) := s.fresh
  s.report d block inst cls (lo + f % n) addr

/-- A power domain of a die is on (Table 17.9). -/
def State.domOn (s : State) (d n : Nat) : Bool := s.pg (0x1310 + d) n == 2

/-- The first entry index of a counter set: clusters 0 to 15, search unit u at 16 + u (R566). -/
def setBase (k : Nat) : Nat := if k < 16 then 0x4580 + k else 0x4590 + (k - 16)

/-- The cycle counter of a set (R557): cycles of its island since die reset, engines 2 GHz, search 1.6 GHz, while domain 74 is on. -/
def setCycles (s : State) (d k : Nat) : Nat :=
  let n := s.now - (s.die d).eng.perfFrom
  if !s.domOn d 74 then 0 else if k < 16 then n * 2 else n * 8 / 5

/-- An occurrence of an event (R563, Table 19.6): the thread and the word address behind it, its latency, and the number under
which a latency that ends later finds its record. -/
structure Occ where
  c    : Nat := 0
  t    : Nat := 0
  addr : Nat := 0
  lat  : Nat := 0
  tag  : Option Nat := none
  deriving DecidableEq, Repr, Inhabited

/-- Engine cycles since a moment (Table 19.4). -/
def engSince (s : State) (at_ : Nat) : Nat := 2 * (s.now - at_)

/-- A result slot of a run, as the latency of its search is found by it (R563). -/
def searchTag (rid sl : Nat) : Nat := rid * 4 + sl

/-- Bits [95:64] of a sample record: the latency, which saturates. -/
def latBits (n : Nat) : BitVec 128 := BitVec.ofNat 128 (min n (2 ^ 32 - 1) <<< 64)

/-- Write one sample record (Table 19.6, R563). The pointer over thread numbers moves past the thread recorded (R23). -/
def sample (d k code : Nat) (o : Occ) (s : State) : State :=
  let b := setBase k
  let old := mget (s.die d).eng.samples k
  let s := s.onDie d (fun x => { x with eng.sampPtr := mput x.eng.sampPtr k ((o.t + 1) % 64) })
  if s.dg d b 0x32 = 1 ∧ 4096 ≤ old.length then s
  else
    let r : BitVec 128 := BitVec.ofNat 128 (o.c <<< 124 ||| o.t <<< 118 ||| o.addr <<< 104 ||| code <<< 96 |||
      (setCycles s d k % 2 ^ 64)) ||| latBits o.lat
    let s := s.onDie d (fun x => { x with
      eng.samples := mput x.eng.samples k ((old ++ [r]).drop (old.length + 1 - 4096))
      eng.sampOpen := match o.tag with
        | some n => x.eng.sampOpen.filter (fun y => !(y.1 == k && y.2.1 == code && y.2.2.1 == n)) ++ [(k, code, n, r)]
        | none => x.eng.sampOpen })
    s.dinc d b 0x33 1

/-- The latency of an event that has been sampled ends now: it goes into the record, if the buffer still holds it (R563). -/
def sampleEnd (d k code n : Nat) (s : State) : State :=
  let mine := fun (y : Nat × Nat × Nat × BitVec 128) => y.1 == k && y.2.1 == code && y.2.2.1 == n
  match (s.die d).eng.sampOpen.find? mine with
  | none => s
  | some y =>
    let r := y.2.2.2 ||| latBits (setCycles s d k - y.2.2.2.toNat % 2 ^ 64)
    s.onDie d (fun x => { x with
      eng.sampOpen := x.eng.sampOpen.filter (fun y => !mine y)
      eng.samples := mmod x.eng.samples k (fun l => l.map (fun v => if v = y.2.2.2 then r else v)) })

/-- n occurrences of an event in the programmable counters of a set (R557). -/
def perfCount (d k code n : Nat) (s : State) : State :=
  let b := setBase k
  s.each (List.range 8) fun i s =>
    if bit (s.dg d b 2) i && s.dg d b (0x10 + i) == code && !bit (s.dg d b 0x28) i then
      let v := s.dg d b (0x20 + i) + n
      if v < 2 ^ 48 - 1 then s.dset d b (0x20 + i) v
      else (s.dset d b (0x20 + i) (2 ^ 48 - 1)).dset d b 0x28 (setBit (s.dg d b 0x28) i true)
    else s

/-- n occurrences of an event in one cycle of a counter set, of which a sample records the one given (R557, R563). -/
def perfNote (d k code n : Nat) (o : Occ) (s : State) : State :=
  if !s.domOn d 74 || n == 0 then s
  else
    let b := setBase k
    let s := perfCount d k code n s
    if s.dg d b 0x30 = code then
      let v := mget (s.die d).eng.sampCnt k + n
      let p := s.dg d b 0x31
      let put := fun (w : Nat) (s : State) => s.onDie d (fun x => { x with eng.sampCnt := mput x.eng.sampCnt k w })
      if v < p then put v s else sample d k code o (put (v - p) s)
    else s

/-- n occurrences of an event that carries no latency. -/
def perfEvent (d k code n c t addr : Nat) (s : State) : State := perfNote d k code n { c := c, t := t, addr := addr } s

/-- Occurrences of an event at several threads of a cluster in one cycle, each with its word address: a sample records the one that
the pointer over thread numbers picks (R563, R22). -/
def perfThreads (d c code : Nat) (l : List (Nat × Nat)) (s : State) : State :=
  match arbiter 64 (mget (s.die d).eng.sampPtr c) (fun t => l.any (fun x => x.1 == t)) with
  | none => s
  | some t => perfEvent d c code l.length c t (((l.find? (fun x => x.1 == t)).map (·.2)).getD 0) s

end Sys2Proof.Machine
end

