-- ==== Sys2Proof/Machine/Map.lean ====
section
/-! DEFINITION. The context map: pages, translation, faults and the poison list (Flow Contexts and the Context Map). -/

namespace Sys2Proof.Machine

/-! ### The map (R286 to R291) -/

/-- Pages of a region of a die's map (Table 9.8). -/
def regionPages (s : State) (h r : Nat) : Nat :=
  match r with
  | 0 => s.dg h 0x4410 2 | 1 => s.dg h 0x4410 3 | 2 => s.dg h 0x4410 4 | 3 => s.dg h 0x4410 5 | 4 => s.dg h 0x4410 6
  | _ => 0

/-- The number of a page of a die: region × 2^21 + page, as in a DVA (Table 9.1). -/
def pageNo (r p : Nat) : Nat := r * 2 ^ 21 + p

/-- The index of a page's entry in the map array (R288): the pages of the regions below, and its number within its own. -/
def mapIdx (s : State) (h n : Nat) : Nat := ((List.range (n / 2 ^ 21)).map (regionPages s h)).sum + n % 2 ^ 21

/-- A DVA (Table 9.1). -/
def dva (h r p off : Nat) : Nat := h <<< 45 ||| r <<< 42 ||| p <<< 21 ||| off

/-- The map entry of a page. -/
def mapEntry (s : State) (h n : Nat) : MapEntry := mget (s.die h).look.cmap (mapIdx s h n)

/-- Change the map entry of a page. -/
def onEntry (h n : Nat) (f : MapEntry → MapEntry) (s : State) : State :=
  s.onDie h (fun x => { x with look.cmap := mmod x.look.cmap (mapIdx s h n) f })

/-- The page whose entry stands at an index of the map array (R288). -/
def idxPage (s : State) (h idx : Nat) : Option Nat :=
  ((List.range 5).findSome? (fun r =>
    let b := ((List.range r).map (regionPages s h)).sum
    if b ≤ idx ∧ idx < b + regionPages s h r then some (pageNo r (idx - b)) else none))

/-- A map entry as its 64 bits (Table 9.2). -/
def MapEntry.bits64 (e : MapEntry) : Nat := e.state <<< 62 ||| e.poison <<< 55 ||| e.gen.toNat <<< 47 ||| e.hpa

/-- The CXL port of a die is ready. -/
def cxlReady (s : State) (h : Nat) : Bool := s.dg h 0x4401 1 == 3

/-- Send the page event of a page to every present die that is not Isolated (R302). -/
def sendPageEvent (h n : Nat) (s : State) : State :=
  s.each ((s.present).filter (fun x => !s.isolated x)) (fun x s => s.send h x (.pageEvent h (n / 2 ^ 21) (n % 2 ^ 21)))

/-- Change the state of a page: its generation moves on, its Notice may be sent again, its translation is dropped, and
an event is sent when it leaves state 0 or 2 (R288, R290, R302, Table 9.5). The line of its 8-byte entry is read and written whole
(R444, R467). -/
def setPage (h n st hpa : Nat) (s : State) : State :=
  let old := (mapEntry s h n).state
  let s := onEntry h n (fun e => { e with state := st, hpa := hpa, gen := e.gen + 1 }) s
  let s := s.onDie h (fun x => { x with
    look.noticed := x.look.noticed.filter (· != n)
    look.tcache := x.look.tcache.filter (· != n) })
  let s := (s.dinc h 0x4401 0xB 1).dinc h 0x4401 0xC 1
  let s := if old == 3 && (s.die h).look.cmap.all (fun e => e.2.state != 3) then clearLost h 8 s else s
  s.when (old == 0 || old == 2) (sendPageEvent h n)

/-- Every map entry is written state 0 and change_gen 0, and nothing is listed, cached or noted any more (R446); a page that
was migrating leaves that state (R302). The map's 2 MiB take 32,768 writes (Table 15.1, R467). -/
def clearMap (h : Nat) (s : State) : State :=
  let moving := ((s.die h).look.cmap.filter (fun e => e.2.state == 2)).filterMap (fun e => idxPage s h e.1)
  let s := s.onDie h (fun x => { x with look.cmap := [], look.tcache := [], look.noticed := [], look.poison := [], look.pageCmd := none })
  (s.dinc h 0x4401 0xC 32768).each moving (sendPageEvent h)

/-- Look a page up in the translation cache; a miss reads the map and takes the place of a free victim (R290). -/
def translate (h n : Nat) (s : State) : State :=
  let tc := (s.die h).look.tcache
  if tc.contains n then s
  else
    let s := (s.dinc h 0x4420 0x13 1).dinc h 0x4401 0xB 1
    let (v, s) := if tc.length < 8192 then (tc.length, s) else (fun (p : Nat × State) => (p.1 % 8192, p.2)) s.fresh
    s.onDie h (fun x => { x with look.tcache := x.look.tcache.eraseIdx v ++ [n] })

/-- A fault of a code at a DVA: counted, and reported as Table 9.5 says. -/
def mapFault (h code at_ : Nat) (s : State) : State :=
  let n := at_ / 2 ^ 21 % 2 ^ 24
  let s := s.dinc h 0x4420 (8 + code) 1
  match code with
  | 1 =>
    if (s.die h).look.noticed.contains n then s
    else (s.onDie h (fun x => { x with look.noticed := x.look.noticed ++ [n] })).report h 7 0 1 0x201 at_
  | 6 =>
    match (s.die h).look.outOfRangeAt with
    | some t => if s.now < t + 1000000 then s
      else (s.onDie h (fun x => { x with look.outOfRangeAt := some s.now })).report h 7 0 1 0x206 at_
    | none => (s.onDie h (fun x => { x with look.outOfRangeAt := some s.now })).report h 7 0 1 0x206 at_
  | _ => s

/-- What an access to a DVA of a region meets: a fault code, or 0 (R286, R301, R304, R305). -/
def accessCode (s : State) (h r p off : Nat) : Nat :=
  let n := pageNo r p
  if regionPages s h r ≤ p then 6
  else if !cxlReady s h then 5
  else match (mapEntry s h n).state with
    | 0 => 1 | 2 => 2 | 3 => 4
    | _ => if (s.die h).look.poison.contains (dva h r p (off / 64 * 64)) then 3 else 0

/-- An access through the map: the fault code, with translation and counting done (R290, R301). -/
def access (h r p off : Nat) (s : State) : Nat × State :=
  let s := if regionPages s h r ≤ p ∨ !cxlReady s h then s else translate h (pageNo r p) s
  let c := accessCode s h r p off
  if c = 0 then (0, s) else (c, mapFault h c (dva h r p off) s)

/-- Page state 3 is entered: Degrade of code 4 (Table 9.5). -/
def poisonPage (h n : Nat) (s : State) : State :=
  (setPage h n 3 (mapEntry s h n).hpa s).report h 7 0 3 0x204 (dva h (n / 2 ^ 21) (n % 2 ^ 21) 0)

/-- A 64-byte line read as poison enters the poison list; a 65th makes its page poisoned (R304). -/
def poisonLine (h at_ : Nat) (s : State) : State :=
  let l := (s.die h).look.poison
  let n := at_ / 2 ^ 21 % 2 ^ 24
  if l.contains at_ then s
  else if 64 ≤ l.length then (if (mapEntry s h n).state = 3 then s else poisonPage h n s)
  else
    let s := onEntry h n (fun e => { e with poison := e.poison + 1 }) (s.onDie h (fun x => { x with look.poison := x.look.poison ++ [at_] }))
    s.report h 7 0 2 0x203 at_

/-- No line of a page stands in the poison list any more (R304, R307). -/
def curePage (h n : Nat) (s : State) : State :=
  onEntry h n (fun e => { e with poison := 0 }) (s.onDie h (fun x => { x with look.poison := x.look.poison.filter (fun a => a / 2 ^ 21 % 2 ^ 24 != n) }))

/-- A whole line is written: it leaves the poison list (R304). -/
def cureLine (h at_ : Nat) (s : State) : State :=
  if !(s.die h).look.poison.contains at_ then s
  else
    let n := at_ / 2 ^ 21 % 2 ^ 24
    onEntry h n (fun e => { e with poison := e.poison - 1 }) (s.onDie h (fun x => { x with look.poison := x.look.poison.erase at_ }))

end Sys2Proof.Machine
end

