-- ==== Sys2Proof/Machine/Pools.lean ====
section
/-! DEFINITION. The pools of cells, pages and descriptors, ingress occupancy and its pause requests, and the end of a
packet at a drop point (Buffers, Pools and Admission; The Journey of a Packet). -/

namespace Sys2Proof.Machine

/-! ### Pools (R312 to R318) -/

/-- A stack's pages are not in the pool: it is fenced or absent, or in full training (R329, R439, Table 14.9). -/
def stackLost (s : State) (d k : Nat) : Bool := !([2, 3].contains (s.dg d (0x4310 + k) 1))

/-- Units of a pool (Table 10.1), less those lost under R329; the page pool has none in shallow mode (R328). -/
def poolSize (s : State) (d p : Nat) : Nat :=
  if p = 1 then
    (if s.dg d 0x4700 1 = 0 then 0
     else (if stackLost s d 0 then 0 else 12582912) + (if stackLost s d 1 then 0 else 12582912))
  else 262144

/-- A page lies in a lost stack (R329). -/
def unitLost (s : State) (d p u : Nat) : Bool := p == 1 && stackLost s d (u % 2)

/-- A die's pool. -/
def pool (s : State) (d p : Nat) : Pool := mget (s.die d).buf.pools p

/-- Change a die's pool. -/
def onPool (s : State) (d p : Nat) (f : Pool → Pool) : State :=
  s.onDie d (fun x => { x with buf.pools := mmod x.buf.pools p f })

/-- The pool and the segment a segment number of Table 19.1 names (R543). -/
def segmentOf (t : Nat) : Nat × Nat := if t < 64 then (0, t) else if t < 6208 then (1, t - 64) else (2, t - 6208)

/-- The segment of a pool that a transit slice has taken out of service, if any (R553). -/
def slicedSeg (s : State) (d p : Nat) : Option Nat :=
  match mget? (s.die d).core.slices 3 with
  | some x => if (segmentOf x.target).1 = p then some (segmentOf x.target).2 else none
  | none => none

/-- A unit is free but out of service with its segment; units in the ready list stay grantable (R553). -/
def unitSliced (s : State) (d p u : Nat) : Bool :=
  slicedSeg s d p == some (u / 4096) && !(pool s d p).ready.contains u

/-- Free units of a pool that a slice keeps back (R553). -/
def slicedFree (s : State) (d p : Nat) : Nat :=
  match slicedSeg s d p with
  | none => 0
  | some g =>
    let q := pool s d p
    ((List.range 4096).filter (fun k =>
      let u := g * 4096 + k
      (mget? q.used u).isNone && !q.relq.contains u && !q.ready.contains u && !unitLost s d p u)).length

/-- Free units of a pool, ready list included (R313), less those of a segment under slice (R553). -/
def poolFree (s : State) (d p : Nat) : Nat :=
  let q := pool s d p
  poolSize s d p - (q.used.filter (fun x => !(unitLost s d p x.1))).length - (q.relq.filter (fun u => !(unitLost s d p u))).length -
    slicedFree s d p

/-- Units charged to a requester (R318). -/
def poolInUse (s : State) (d p r : Nat) : Nat := ((pool s d p).used.filter (fun x => x.2 == r + 1)).length

/-- Units reserved and not yet drawn, of every requester. -/
def poolResv (s : State) (d p : Nat) : Nat := ((pool s d p).resv.map (·.2)).sum

/-- Unused guarantees of every requester (R317): units charged and units reserved use a guarantee up. -/
def unusedGuarantees (s : State) (d p : Nat) : Nat :=
  ((List.range 6).map (fun r => s.dg d (0x4710 + p) (0x10 + r) - (poolInUse s d p r + mget (pool s d p).resv r))).sum

/-- A request or reservation of n units by a requester fits (R314, R317). Reserved units count as the requester's. -/
def poolFits (s : State) (d p r n : Nat) : Bool :=
  let use := poolInUse s d p r + mget (pool s d p).resv r
  let avail := poolFree s d p - poolResv s d p
  decide (n ≤ avail) && decide (use + n ≤ s.dg d (0x4710 + p) (0x20 + r)) &&
    (decide (use < s.dg d (0x4710 + p) (0x10 + r)) || decide (n + unusedGuarantees s d p ≤ avail))

/-- The n lowest units that a test does not call busy, looking at `fuel` units from `k` on. -/
def lowestFree (busy : Nat → Bool) : Nat → Nat → Nat → List Nat
  | 0, _, _ => []
  | fuel + 1, k, n =>
    if n = 0 then []
    else if busy k then lowestFree busy fuel (k + 1) n
    else k :: lowestFree busy fuel (k + 1) (n - 1)

/-- A unit is in use, in the ready list, waiting for release, or lost. -/
def unitBusy (s : State) (d p u : Nat) : Bool :=
  let q := pool s d p
  (mget? q.used u).isSome || q.ready.contains u || q.relq.contains u || unitLost s d p u || unitSliced s d p u

/-- The lowest number of free units that a pool has had is noted whenever it may have fallen (R337). -/
def noteFree (d p : Nat) (s : State) : State :=
  let f := poolFree s d p
  match (pool s d p).low with
  | some l => (onPool s d p (fun q => { q with low := none })).dset d (0x4710 + p) 3 (min f l)
  | none => s.when (decide (f < s.dg d (0x4710 + p) 3)) (fun s => s.dset d (0x4710 + p) 3 f)

/-- Take n units for a requester: from the ready list first, then the lowest free units (R313). -/
def poolTake (s : State) (d p r n : Nat) : List Nat × State :=
  let q := pool s d p
  let a := (q.ready.filter (fun u => !(unitLost s d p u))).take n
  let fuel := 2 * (q.used.length + q.ready.length + q.relq.length + n) + 4098
  let us := a ++ lowestFree (unitBusy s d p) fuel 0 (n - a.length)
  let s := onPool s d p (fun q => { q with
    ready := q.ready.filter (fun u => !(us.contains u)), used := us.foldl (fun m u => minsert m u (r + 1)) q.used })
  (us, noteFree d p s)

/-- The requesters of a pool in the order in which one cycle considers them (R315). -/
def poolOrder (s : State) (d p : Nat) : List Nat := (List.range 6).map (fun i => ((pool s d p).ptr + i) % 6)

/-- Request n units (R314): the units, or none when the request fails and is counted. -/
def poolRequest (s : State) (d p r n : Nat) : Option (List Nat) × State :=
  if poolFits s d p r n then
    let (us, s) := poolTake s d p r n
    (some us, onPool s d p (fun q => { q with ptr := (r + 1) % 6 }))
  else (none, s.dinc d (0x4710 + p) (0x40 + r) 1)

/-- Reserve n units for later draws (R314). -/
def poolReserve (s : State) (d p r n : Nat) : Bool × State :=
  if poolFits s d p r n then
    (true, onPool s d p (fun q => { q with resv := mput q.resv r (mget q.resv r + n), ptr := (r + 1) % 6 }))
  else (false, s.dinc d (0x4710 + p) (0x40 + r) 1)

/-- Give reserved units back, drawn or not (R314, R321). -/
def poolUnreserve (s : State) (d p r n : Nat) : State :=
  onPool s d p (fun q => { q with resv := mput q.resv r (mget q.resv r - n) })

/-- Draw n reserved units; a draw never fails (R314). -/
def poolDraw (s : State) (d p r n : Nat) : List Nat × State := poolTake (poolUnreserve s d p r n) d p r n

/-- Release units: they enter the release queue (R313). A unit charged to no requester stays in use (R441, Table 18.6). -/
def poolFreeUnits (s : State) (d p : Nat) (us : List Nat) : State :=
  onPool s d p (fun q =>
    let l := us.filter (fun u => (mget? q.used u).isSome && mget? q.used u != some 7)
    { q with used := l.foldl mdel q.used, relq := q.relq ++ l })

/-- POOL_RELEASE (R313): the release queue sets up to 24 bits per cycle, or 6 in the page pool. -/
def poolReleaseStep (d p : Nat) (s : State) : State :=
  onPool s d p (fun q => { q with relq := q.relq.drop (if p = 1 then 6 else 24) })

/-- The units of a segment are withdrawn: in use, charged to no requester, until die reset (Table 18.6, R553). -/
def segmentOut (d p g : Nat) (s : State) : State :=
  onPool s d p (fun q => { q with
    used := (List.range 4096).foldl (fun m k => minsert m (g * 4096 + k) 7) q.used
    relq := q.relq.filter (fun u => u / 4096 != g), ready := q.ready.filter (fun u => u / 4096 != g) })

/-- The allocator reads a segment of the page pool's bitmap (R530): a flip that a re-read clears is Corrected, one that stays withdraws
the segment. Flips in the other two pools lie in the words of their units (log entry 122). -/
def segmentParity (d p g : Nat) (s : State) : Bool × State :=
  match (s.die d).core.flips.find? (fun f => p == 1 && f.1 == 9 && f.2.1 == 1 && f.2.2.1 / 4096 == g && decide (0 < f.2.2.2)) with
  | none => (false, s)
  | some f =>
    let s := spendFlip d f f.2.2.2 s
    let (k, s) := s.fresh
    if f.2.2.2 < 3 then (false, s.report d 9 p 2 (0x2C0 + k % 128) f.2.2.1)
    else (true, (noteFree d p (segmentOut d p g s)).report d 9 p 1 (0x2C0 + k % 128) f.2.2.1)

/-- ALLOCATOR_REFILL (R313): the lowest free units of the lowest segment with a free unit enter the ready list, which
holds 32. -/
def refillStep (d p : Nat) (s : State) : State :=
  let q := pool s d p
  let n := 32 - q.ready.length
  let us := lowestFree (unitBusy s d p) (2 * (q.used.length + q.ready.length + q.relq.length + n) + 4098) 0 n
  let us := us.filter (fun u => decide (u < 25165824) && decide (p = 1 ∨ u < 262144) && decide (0 < poolSize s d p))
  let g := (us.head?.getD 0) / 4096
  let (out, s) := segmentParity d p g s
  if out then s else onPool s d p (fun q => { q with ready := q.ready ++ us.filter (fun u => u / 4096 == g) })

/-! ### Ingress occupancy (R319 to R322) -/

/-- Drain is in force: thresholds stand at 0 (R501). -/
def State.draining (s : State) : Bool := s.modeIn [.drain, .quiesce] || s.quiesceAt.isSome

/-- Egress grants and egress selection run: not in Quiesce, nor where the die holds still (R502, R498, R499). -/
def State.egressRuns (s : State) (d : Nat) : Bool :=
  !(s.die d).held && [Mode.bringup, .forwarding, .lean, .degraded, .drain].contains (s.dieMode d)

/-- Ask the MAC for a pause frame (R322): class 0-7, or 8 for PAUSE; above xoff or back at xon. -/
def pauseAsk (d slot cls : Nat) (above : Bool) (s : State) : State :=
  let s := s.dset d (0x4050 + slot) 5 (setBit (s.dg d (0x4050 + slot) 5) cls above)
  let s := s.dinc d (0x4740 + slot) 0x50 1
  s.onDie d (fun x => { x with macs := mmod x.macs slot (fun m => { m with reqs := m.reqs ++ [(cls, above)] }) })

/-- Compare one occupancy with its thresholds after a change (PAUSE_XOFF_CROSS, PAUSE_XON_CROSS, R322). In Drain the
xoff stands at 0 and the pause is kept (R501). -/
def pauseCheck (d slot cls : Nat) (s : State) : State :=
  let (occ, xoff, xon) := if cls = 8
    then (s.dg d (0x4740 + slot) 0x30, s.dg d (0x4740 + slot) 3, s.dg d (0x4740 + slot) 4)
    else (s.dg d (0x4740 + slot) (0x31 + cls), s.dg d (0x4740 + slot) (0x10 + cls), s.dg d (0x4740 + slot) (0x18 + cls))
  let xoff := if s.draining then 0 else xoff
  let on := bit (s.dg d (0x4050 + slot) 5) cls
  if !on && decide (xoff < occ) then pauseAsk d slot cls true s
  else if on && decide (occ ≤ xon) && !s.draining then pauseAsk d slot cls false s
  else s

/-- Compare every occupancy of a port with the thresholds of its flow control. -/
def pauseCheckPort (d slot : Nat) (s : State) : State :=
  match s.dg d (0x4740 + slot) 1 with
  | 1 => pauseCheck d slot 8 s
  | 2 => s.each (List.range 8) (fun p => pauseCheck d slot p)
  | _ => s

/-- Change the occupancy of a port and of a priority by units of 256 bytes (R319). -/
def occAdd (d slot prio n : Nat) (s : State) : State :=
  let s := s.dset d (0x4740 + slot) 0x30 (s.dg d (0x4740 + slot) 0x30 + n)
  let s := s.dset d (0x4740 + slot) (0x31 + prio) (s.dg d (0x4740 + slot) (0x31 + prio) + n)
  pauseCheckPort d slot s

/-- Take units of occupancy away. -/
def occSub (d slot prio n : Nat) (s : State) : State :=
  let s := s.ddec d (0x4740 + slot) 0x30 n
  let s := s.ddec d (0x4740 + slot) (0x31 + prio) n
  pauseCheckPort d slot s

/-- A packet stops counting toward occupancy (R319). -/
def occEnd (i : Nat) (s : State) : State :=
  let p := s.pkt i
  if p.occ = 0 then s else (occSub p.die p.slot p.prio p.occ s).onPkt i (fun p => { p with occ := 0 })

/-! ### Runs, pins and locks (R295, R300) -/

/-- The home die of a context (R284). -/
def ctxHome (s : State) (c : Nat) : Nat := s.pg 0x1810 (bits c 23 16)

/-- JCTX_APPLY: apply an update of commit `no` to a word of a context at its home die's cache (R296). A write is void once a later
commit has written the word (R297). -/
def ctxUpdate (no c word op : Nat) (v : Word) (s : State) : State :=
  let h := ctxHome s c
  if 16 ≤ word then s.dinc h 0x4420 8 1
  else if op = 0 ∧ no < mget (mget (s.die h).look.ctx c).wrote word then s
  else s.onDie h (fun x => { x with look.ctx := mmod x.look.ctx c (fun l =>
    let old := mget l.words word
    let new := match op with
      | 0 => v
      | 1 => old + v
      | 2 => old ||| v
      | _ => old &&& ~~~v
    { l with dirty := true, words := mput l.words word new, wrote := if op = 0 then mput l.wrote word no else l.wrote }) })

/-- Unpin a context's line at its home (R295). -/
def unpin (c : Nat) (s : State) : State :=
  s.onDie (ctxHome s c) (fun x => { x with look.ctx := mmod x.look.ctx c (fun l => { l with pins := l.pins - 1 }) })

/-- Release the lock of a context (R300); LOCK_GRANT passes it on. -/
def unlock (c : Nat) (s : State) : State :=
  s.onDie (ctxHome s c) (fun x => { x with look.locks := mmod x.look.locks c (fun l => { l with holder := none }) })

/-- What a home die does at once with a request that needs no answer: a group of updates, or a release (R296, R300). -/
def homeApply (q : HomeReq) (s : State) : State :=
  match q with
  | .update no es => s.each es (fun e s => ctxUpdate no e.1 e.2.1 e.2.2.1 e.2.2.2 s)
  | .release pins lock =>
    let s := s.each pins unpin
    match lock with
    | some c => unlock c s
    | none => s
  | _ => s

/-- Such a request goes to its home: over the saddles when that is another die (R284, R296). A die that cannot send any more has
its runs' holds let go by the home itself (log entry 12). -/
def toHome (d h : Nat) (q : HomeReq) (s : State) : State :=
  if h = d ∨ s.frozen d then homeApply q s else s.send d h (.search q)

/-- A group of context updates goes to the homes of its contexts, as one group to each (R296). -/
def shipGroup (d no : Nat) (es : List (Nat × Nat × Nat × Word)) (s : State) : State :=
  s.each ((es.map (fun e => ctxHome s e.1)).dedup) (fun h t => toHome d h (.update no (es.filter (fun e => ctxHome s e.1 == h))) t)

/-- The context updates of a journal group that is applied now, as the next commit (R296, R297). -/
def shipUpdates (d : Nat) (es : List (Nat × Nat × Nat × Word)) (s : State) : State :=
  if es.isEmpty then s else shipGroup d s.commits es { s with commits := s.commits + 1 }

/-- Pins and a lock are released at the homes of their contexts (R295, R300). -/
def shipRelease (d : Nat) (pins : List Nat) (lock : Option Nat) (s : State) : State :=
  s.each (((pins ++ lock.toList).map (ctxHome s)).dedup) (fun h t =>
    toHome d h (.release (pins.filter (fun c => ctxHome s c == h)) (lock.filter (fun c => ctxHome s c == h))) t)

/-- A run of a die lets go of its pins and its lock. -/
def releaseRun (d : Nat) (r : Run) (s : State) : State := shipRelease d r.pins r.lock s

/-- A die's cluster. -/
def cluster (s : State) (d c : Nat) : Cluster := mget (s.die d).eng.clusters c

/-- Change a die's cluster. -/
def onCluster (s : State) (d c : Nat) (f : Cluster → Cluster) : State :=
  s.onDie d (fun x => { x with eng.clusters := mmod x.eng.clusters c f })

/-- A thread of a cluster. -/
def thread (s : State) (d c t : Nat) : Thread := mget (cluster s d c).threads t

/-- Change a thread. -/
def onThread (s : State) (d c t : Nat) (f : Thread → Thread) : State :=
  onCluster s d c (fun k => { k with threads := mmod k.threads t f })

/-- A thread is free: it holds neither a run nor a waiting packet. -/
def threadFree (k : Cluster) (t : Nat) : Bool := (mget k.threads t).run.isNone && (mget k.threads t).pre.isNone

/-- Free a thread; the generation moves on from that of its run, so late responses are discarded (R125). -/
def freeThread (d c t : Nat) (s : State) : State :=
  onThread s d c t (fun h => { run := none, runGen := ((h.run.map (·.gen)).getD h.runGen) + 1, pre := none, parking := none })

/-- Give back a park context (R95). -/
def freePark (d x : Nat) (s : State) : State :=
  sampleEnd d (mget (s.die d).eng.park x).cluster 0x0A x (s.onDie d (fun y => { y with eng.park := mdel y.eng.park x }))

/-- The key of a packet's ingress window (R81). -/
def winKey (p : Packet) : Nat := p.desc.dispDie.toNat * 65536 + p.desc.flowBucket.toNat

/-- Take a packet off the place it stands on: a thread or park context with its pins, lock and context (R300, R128), a queue,
its window with a hole timer that stops when nothing more is held there (R102), or a record on its way between dies. -/
def leaveEngine (i : Nat) (s : State) : State :=
  match (s.pkt i).stage with
  | .thread d c t =>
    let h := thread s d c t
    let s := match h.run with
      | some r => releaseRun d r s
      | none => s
    let s := match h.parking with
      | some x => freePark d x s
      | none => s
    freeThread d c t s
  | .parked d x =>
    let s := match ((mget (s.die d).eng.park x).run) with
      | some r => releaseRun d r s
      | none => s
    freePark d x s
  | .queued d c => onCluster s d c (fun k => { k with queue := k.queue.filter (· != i) })
  | .stealing d c => onCluster s d c (fun k => { k with stolen := k.stolen.map (fun l => l.filter (· != i)) })
  | .hold d r => s.onDie d (fun x => { x with eng.hold := mmod x.eng.hold r (fun l => l.filter (fun y => y.2 != i)) })
  | .parsed => s.onDie (s.pkt i).die (fun x =>
      let ps := (mkeys x.eng.parsed).foldl (fun m k => mmod m k (fun l => l.filter (· != i))) x.eng.parsed
      { x with eng.parsed := ps })
  | .injectIn => s.onDie (s.pkt i).die (fun x => { x with eng.injectIn := x.eng.injectIn.filter (· != i) })
  | .recirc => s.onDie (s.pkt i).die (fun x => { x with eng.recircQ := x.eng.recircQ.filter (· != i) })
  | .rewrite => s.onDie (s.pkt i).die (fun x => { x with eng.rewriteQ := x.eng.rewriteQ.filter (· != i) })
  | .atReseq => s.onDie (s.pkt i).die (fun x => { x with eng.reseqQ := x.eng.reseqQ.filter (· != i) })
  | .reseq =>
    let q := (s.pkt i).desc.seq.toNat
    s.onDie (s.pkt i).die (fun x => { x with eng.inWin := mmod x.eng.inWin (winKey (s.pkt i)) (fun w =>
      let held := if mget? w.held q = some i then mdel w.held q else w.held
      { w with held := held, ready := w.ready.filter (· != i), timer := if held.isEmpty then none else w.timer }) })
  | .record _ => s.dropMsgs (fun m => m.body == .dispatch i)
  | .returning => s.dropMsgs (fun m => m.body == .ret i)
  | .waitList => s.onDie (s.pkt i).die (fun x => { x with buf.waitList := x.buf.waitList.filter (· != i) })
  | .voq v => s.onDie (s.pkt i).die (fun x => { x with buf.voqs := mmod x.buf.voqs v (fun q => { q with pkts := q.pkts.filter (· != i) }) })
  | .replic => s.onDie (s.pkt i).die (fun x => { x with
      buf.replQ := x.buf.replQ.filter (· != i), buf.copyWait := x.buf.copyWait.filter (fun c => c.2.2 != i) })
  | .punt _ => s.onDie (s.pkt i).die (fun x =>
      let ps := (mkeys x.buf.punters).foldl (fun m k => mmod m k (fun l => l.filter (· != i))) x.buf.punters
      { x with buf.punters := ps })
  | .line slot tc => s.onDie (s.pkt i).die (fun x => { x with buf.egq := mmod x.buf.egq (slot * 8 + tc) (fun q =>
      { q with line := q.line.filter (· != i) }) })
  | .egress slot tc => s.onDie (s.pkt i).die (fun x => { x with buf.egq := mmod x.buf.egq (slot * 8 + tc) (fun q =>
      { q with pkts := q.pkts.filter (· != i) }) })
  | _ => s

/-! ### The end of a packet -/

/-- The bytes of a packet are in its DRAM pages, wholly written (R324, R425). -/
def inPages (p : Packet) : Bool := p.desc.inDram == 1 && !p.pages.isEmpty && p.wrLeft == 0

/-- Release the cells, pages, descriptor and reservation of a packet (R73, R318). Cells shared with replicas are
released with the last of them (R331); those of a packet whose bytes are in DRAM by then go as well. -/
def releaseUnits (i : Nat) (s : State) : State :=
  let p := s.pkt i
  let s := if p.resv = 0 then s else poolUnreserve s p.die 0 p.req p.resv
  let s := if p.users = 0 then poolFreeUnits s p.die 0 p.cells else s
  let s := poolFreeUnits s p.die 1 (p.pages.filter (fun g =>
    !(s.pkts.any (fun x => x.1 != i && x.2.die == p.die && x.2.pages.contains g))))
  let s := match p.unit with
    | some u => poolFreeUnits s p.die 2 [u]
    | none => s
  let s := match p.shares with
    | none => s
    | some o =>
      let q := s.pkt o
      let s := s.onPkt o (fun q => { q with users := q.users - 1 })
      if q.users = 1 ∧ q.stage ≠ Stage.ended ∧ inPages q then
        (poolFreeUnits s q.die 0 q.cells).onPkt o (fun q => { q with cells := [] })
      else if q.users = 1 ∧ q.stage = Stage.ended then
        let s := poolFreeUnits s q.die 0 q.cells
        if q.tail = Tail.pending then s.onPkt o (fun q => { q with cells := [] }) else { s with pkts := mdel s.pkts o }
      else s
  s.onPkt i (fun p => { p with resv := 0, pages := [], unit := none, shares := none, cells := if p.users = 0 then [] else p.cells })

/-- A packet is no longer a holder of its epoch (R277). -/
def endHolder (i : Nat) (s : State) : State := s.onPkt i (fun p => { p with holder := false })

/-- A packet leaves the part's books: the record goes unless its tail is still to come or replicas share its cells. -/
def forget (i : Nat) (s : State) : State :=
  let p := s.pkt i
  if p.tail = .pending ∨ 0 < p.users then s.onPkt i (fun p => { p with stage := .ended })
  else { s with pkts := mdel s.pkts i }

/-- A packet stands before the ingress resequencer (R68): the recirculation input lies before it again. -/
def beforeReseq : Stage → Bool
  | .record _ | .hold _ _ | .queued _ _ | .stealing _ _ | .thread _ _ _ | .parked _ _ | .returning | .rewrite | .atReseq
  | .parsed | .recirc => true
  | _ => false

/-- The ingress resequencer holds a packet and has not released it. -/
def heldInWindow (s : State) (i : Nat) : Bool :=
  let p := s.pkt i
  p.stage == .reseq && mget? (mget (s.die p.die).eng.inWin (winKey p)).held p.desc.seq.toNat == some i

/-- End a packet at a drop point on a die, with its reason (R73): count it, release what it holds, send a hole marker
when it has a sequence number and the ingress resequencer has not released it (R68, R168). -/
def dropPkt (d i reason : Nat) (s : State) : State :=
  let p := s.pkt i
  let s := s.dinc d 0x4920 reason 1
  let mark := p.hasSeq && (beforeReseq p.stage || heldInWindow s i)
  let s := leaveEngine i s
  let s := s.when mark
    (fun s => s.onDie p.die (fun x => { x with eng.markers := x.eng.markers ++ [(winKey p, p.desc.seq.toNat)] }))
  let s := occEnd i s
  let s := releaseUnits i s
  let s := endHolder i s
  let s := s.onPkt i (fun p => { p with desc := { p.desc with destKind := 3, dropReason := BitVec.ofNat 8 reason } })
  forget i s

end Sys2Proof.Machine
end

