-- ==== Sys2Proof/Machine/Build.lean ====
section
/-! DEFINITION. The rewrite unit: building the outgoing frame (R268, R169), and mirror copies (R265, R331). -/

namespace Sys2Proof.Machine

/-- The FCS of IEEE 802.3: CRC-32 over the bytes before it, least significant byte first. -/
def fcsOf (bs : Bytes) : Bytes := toBytesLE 4 (fibHash bs 0xFFFFFFFF polyB).toNat

/-- The push data of a chain of rewrite entries, at most n entries, and whether it goes on (R268). -/
def chainPush (m : Map (BitVec 256)) : Nat → Nat → Bytes × Bool
  | 0, k => ([], decide (k ≠ 0))
  | n + 1, k =>
    if k = 0 then ([], false)
    else
      let e := (mget m k).toNat
      let (r, more) := chainPush m n (bits e 250 233)
      ((toBytes 24 (bits e 191 0)).take (bits e 255 251) ++ r, more)

/-- What of a frame lies behind its header window: the body without the FCS, when the tail has come. -/
def frameBody (p : Packet) : Bytes :=
  (if p.tail = .pending then p.frame else p.frame.take (p.frame.length - 4)).drop p.win.length

/-- The frame a packet leaves with, before padding and without its FCS (R268). -/
def outBytes (p : Packet) : Bytes :=
  if p.built then p.push ++ (p.rw ++ frameBody p).drop p.cut else p.win ++ frameBody p

/-- The frame a packet leaves with: padded to 64 bytes, with its FCS (R169, R268). A packet no rewrite unit has built
keeps its own. -/
def outFrame (p : Packet) : Bytes :=
  if p.built then
    let b := outBytes p
    let b := b ++ List.replicate (60 - b.length) 0
    b ++ fcsOf b
  else p.frame

/-- The frame is padded under R169. -/
def padded (p : Packet) : Bool := p.built && decide ((outBytes p).length < 60)

/-- A packet with its frame built (R268): strip, push and length. -/
def builtPkt (s : State) (d : Nat) (p : Packet) : Packet :=
  let n := min p.desc.strip.toNat p.win.length
  let p := { p with built := true, push := (chainPush (s.die d).look.rewrite 4 p.desc.encap.toNat).1, cut := n }
  let len := if p.tail = .pending then p.desc.length.toNat + p.push.length - n else (outFrame p).length
  { p with desc := { p.desc with length := BitVec.ofNat 14 len } }

/-- The rewrite unit builds a packet's frame (R268): clamps, cut chains and padded frames are counted, once for a packet. -/
def buildHead (d i : Nat) (s : State) : State :=
  let p := s.pkt i
  let more := (chainPush (s.die d).look.rewrite 4 p.desc.encap.toNat).2
  let s := s.when (decide (p.win.length < p.desc.strip.toNat)) (fun s => s.dinc d 0x4660 8 1)
  let s := s.when more (fun s => s.dinc d 0x4660 9 1)
  let q := builtPkt s d p
  let s := s.when (padded q && q.tail != .pending) (fun s => s.dinc d 0x4931 2 1)
  s.onPkt i (fun _ => q)

/-- A reader takes a packet's descriptor and body from the buffer, from a cell on (R530): the place of the first word that three reads
leave bad, none when every word is good. A copy's body is in the cells it shares (R331). A flip that a re-read clears is a Corrected fault;
one that stays is a Notice (Table 18.6; kinds: log entry 5). -/
def bodyRead (d i from_ : Nat) (s : State) : Option Nat × State :=
  let p := s.pkt i
  let cells := p.cells ++ (p.shares.map (fun j => (s.pkt j).cells)).getD []
  let place := fun (f : Nat × Nat × Nat × Nat) =>
    if f.1 ≠ 9 ∨ f.2.2.2 = 0 then none
    else if f.2.1 = 0 then (cells.findIdx? (· == f.2.2.1)).filter (fun k => decide (from_ ≤ k))
    else if f.2.1 = 2 ∧ p.unit = some f.2.2.1 then some 0
    else none
  match (s.die d).core.flips.find? (fun f => (place f).isSome) with
  | none => (none, s)
  | some f =>
    let s := s.onDie d (fun x => { x with core.flips := x.core.flips.replace f (f.1, f.2.1, f.2.2.1, 0) })
    let (k, s) := s.fresh
    if f.2.2.2 < 3 then (none, s.report d 9 f.2.1 2 (0x2C0 + k % 128) f.2.2.1)
    else (place f, s.report d 9 f.2.1 1 (0x2C0 + k % 128) f.2.2.1)

/-- A word of a packet's body is lost behind its head: it is counted, and the packet ends as a bad one (R380, Table 12.2). -/
def poisonBody (d i : Nat) (s : State) : State := (s.dinc d 0x4920 0x0F 1).onPkt i (fun p => { p with poison := true })

/-- A reader whose packet's head has left reads what has come since, from a cell on (R380, R416). -/
def readRest (d i from_ : Nat) (s : State) : State :=
  if (s.pkt i).poison then s
  else
    let (bad, s) := bodyRead d i from_ s
    s.when bad.isSome (poisonBody d i)

/-- The packet names the recirculation destination (R270). -/
def namesRecirc (x : Desc) : Bool := x.destKind == 0 && x.dest == 0xFFFFF

/-- A packet ends at its commit: dropped, or asking for a fourth pass (R130, R270). -/
def endsAtCommit (x : Desc) : Bool := x.destKind == 3 || namesRecirc x && x.pass == 3

/-- A mirror copy of a committed packet is asked of its arrival die's replication engine (R265); a session of kind 0
makes none and is counted. The session's settings are those of the commit (log entry 151). The copy shares the packet's cells
(R331). It waits until the resequencer has passed the number of its original, so that copies keep the order of the bucket (R19). The rewrite unit builds the frame of a copy of the rewritten packet,
and counts there when no original comes to it (R268). -/
def mirrorAsk (i : Nat) (s : State) : State :=
  let p := s.pkt i
  if p.desc.mirror = 0 then s
  else
    let n := p.desc.mirrorSession.toNat
    if s.pg (0x2340 + n) 1 = 0 then s.dinc p.die 0x4660 7 1
    else
      let (j, s) := s.newPkt { p with
        stage := .replic, shares := some i, users := 0, cells := [], pages := [], unit := none, resv := 0, occ := 0
        hasSeq := false, holder := false, copyOf := some n, enq := s.nsOn p.die
        mir := { kind := s.pg (0x2340 + n) 1, dest := s.pg (0x2340 + n) 2, tc := s.pg (0x2340 + n) 3, cut := s.pg (0x2340 + n) 4 } }
      let s := s.onPkt i (fun p => { p with users := p.users + 1 })
      let s := if s.pg (0x2340 + n) 5 ≠ 1 then s
        else if endsAtCommit p.desc then buildHead p.die j s
        else s.onPkt j (builtPkt s p.die)
      s.onDie p.die (fun x => { x with buf.copyWait := x.buf.copyWait ++ [(winKey p, p.desc.seq.toNat, j)] })

end Sys2Proof.Machine
end

