-- ==== Sys2Proof/Machine/Parse.lean ====
section
/-! DEFINITION. The parse engine: headers recognised, malformed classes, parse outcome and flow key (Header Parsing
and Malformed Packets; the flow key of Dispatch, Work Stealing and Resequencing). -/

namespace Sys2Proof.Machine

/-- What the key needs of an IP header. -/
structure IpInfo where
  v6    : Bool := false
  src   : Nat := 0
  dst   : Nat := 0
  proto : Nat := 0
  frag  : Bool := false
  sp    : Nat := 0
  dp    : Nat := 0

/-- What the parse stands before. -/
inductive PNode
  | eth (o : Nat) | etype (p : Nat) | label (o k : Nat) | ip4 (o : Nat) | ip6 (o : Nat)
  | ext (o nh n plen : Nat) (hbhOk : Bool) | l4 (o proto plen : Nat) | vxlan (o : Nat) | ptp (o : Nat) | done

/-- The progress of a parse. -/
structure PState where
  node     : PNode := .eth 0
  hdrs     : Nat := 0
  tags     : Nat := 0
  exts     : Nat := 0
  inner    : Bool := false
  noted    : Nat := 0
  recorded : Nat := 0
  action   : Nat := 0
  depth    : Bool := false
  ptp      : Bool := false
  l2ctl    : Bool := false
  mpls     : Bool := false
  mplsOff  : Nat := 0
  label    : Nat := 0
  gre      : Bool := false
  vxlan    : Bool := false
  ip       : Option IpInfo := none     -- outermost
  ipIn     : Option IpInfo := none     -- innermost
  special  : Bool := false             -- outermost IP: IHL above 5, fragment, or extension headers
  l3       : Nat := 0
  l3len    : Nat := 0                  -- IP length of the header l3 names
  l4       : Nat := 0
  etherType : Nat := 0
  vlan     : Option Nat := none
  defer    : List (Nat × Nat) := []

/-- Bytes of the window, as a number. -/
def wb (w : Bytes) (o n : Nat) : Nat := beNat ((w.drop o).take n)

/-- A header in the window: recognised, past the window, or truncated (R155). -/
inductive Fit
  | ok | depth | trunc

/-- Where a header of k bytes at o stands; `avail` is the bytes before the FCS, none while the tail is to come. -/
def fits (avail : Option Nat) (o k : Nat) : Fit :=
  match avail with
  | none => if o + k ≤ 128 then .ok else .depth
  | some n =>
    if n ≤ 128 then (if o + k ≤ n then .ok else .trunc)
    else if o + k ≤ 128 then .ok else .depth

/-- The parse ends. -/
def pend (s : PState) : PState := { s with node := .done }

/-- The parse ends at a depth stop (R155, R156). -/
def pdepth (s : PState) : PState := { s with node := .done, depth := true }

/-- A malformed class is found (R164): action 0 is noted and the parse goes on; actions 1 and 2 are recorded and the
parse ends. -/
def malf (c : ParseCfg) (cls : Nat) (s : PState) : PState :=
  if s.recorded ≠ 0 then s
  else match mget c.actions cls with
    | 0 => if s.noted = 0 then { s with noted := cls } else s
    | a => { s with recorded := cls, action := a, node := .done }

/-- Check a condition of Table 5.3. -/
def chk (c : ParseCfg) (bad : Bool) (cls : Nat) (s : PState) : PState := if bad then malf c cls s else s

/-- Go on to a node unless the parse has ended. -/
def goto_ (n : PNode) (s : PState) : PState := if s.recorded ≠ 0 then s else { s with node := n }

/-- Recognise one more header. -/
def hdr (s : PState) (f : PState → PState) : PState := f { s with hdrs := s.hdrs + 1 }

/-- A header is recognised when it fits and sixteen have not been recognised before it (R156); a truncated one has a class
(Table 5.8), 0 meaning none. -/
def need (c : ParseCfg) (avail : Option Nat) (o k cls : Nat) (s : PState) (f : PState → PState) : PState :=
  if 16 ≤ s.hdrs then pdepth s else
  match fits avail o k with
  | .ok => f s
  | .depth => pdepth s
  | .trunc => pend (if cls = 0 then s else malf c cls s)

/-- One's complement sum of 16-bit words is all ones when a header checksum is right. -/
def ipSumOk (w : Bytes) (o len : Nat) : Bool :=
  let t := ((List.range (len / 2)).map (fun i => wb w (o + 2 * i) 2)).sum
  let t := t % 65536 + t / 65536
  let t := t % 65536 + t / 65536
  t == 0xFFFF

/-- The class of a truncated inner layer 2 header: that of its tunnel (Table 5.8). -/
def l2Class (s : PState) : Nat := if s.inner then (if s.vxlan then 0xD else 0xC) else 0

/-- Record an IP header for the outcome and the key. -/
def addIp (i : IpInfo) (o len : Nat) (special : Bool) (s : PState) : PState :=
  match s.ip with
  | none => { s with ip := some i, ipIn := some i, special := special, l3 := o, l3len := len }
  | some _ => { s with ipIn := some i }

/-- Give the current IP header its transport ports (R77, R78). -/
def addPorts (sp dp : Nat) (s : PState) : PState :=
  let f := fun (i : IpInfo) => if i.frag then i else { i with sp := sp, dp := dp }
  if s.inner then { s with ipIn := s.ipIn.map f } else { s with ip := s.ip.map f, ipIn := s.ipIn.map f }

/-- Name the transport header of the outermost IP header (Table 5.4). A GRE header counts as one even when `tunnel_decode` is 0:
DESIGN CHOICE (log entry 119). -/
def setL4 (o : Nat) (s : PState) : PState := if s.inner || s.l4 != 0 then s else { s with l4 := o }

/-- One step of the parse: the header the parse stands before (Table 5.1). DESIGN CHOICES: a UDP port that is both VXLAN's and
IEEE 1588's is VXLAN's when the tunnel can be decoded (log entry 116); a first nibble that lies past the window ends the parse
without a depth stop (log entry 117); a GRE header is a decoded tunnel whatever its payload type (log entry 118). -/
def pstep (c : ParseCfg) (w : Bytes) (avail : Option Nat) (s : PState) : PState :=
  let on := fun b => bit c.protocols b
  match s.node with
  | .done => s
  | .eth o =>
    need c avail o 14 (l2Class s) s fun s => hdr s fun s =>
      let src := wb w (o + 6) 6
      goto_ (.etype (o + 12)) (chk c (bit (wb w (o + 6) 1) 0 || src == 0) 0xE { s with tags := 0 })
  | .etype p =>
    let t := wb w p 2
    let isTag := (t == 0x8100 && on 0) || (t == 0x88A8 && on 1) || (t == c.extraTpid && on 2)
    if isTag then
      need c avail p 6 (l2Class s) s fun s => hdr s fun s =>
        let s := if s.inner then s else { s with vlan := s.vlan.or (some (wb w (p + 2) 2 % 4096)), etherType := wb w (p + 4) 2 }
        goto_ (.etype (p + 4)) (chk c (decide (c.maxTags ≤ s.tags)) 1 { s with tags := s.tags + 1 })
    else
      let s := if s.inner then s else { s with etherType := t }
      if t < 0x600 then pend s
      else if (t == 0x8847 && on 3) || (t == 0x8848 && on 4) then
        { s with node := .label (p + 2) 0 }
      else if t == 0x0800 && on 5 then { s with node := .ip4 (p + 2) }
      else if t == 0x86DD && on 6 then { s with node := .ip6 (p + 2) }
      else if (t == 0x0806 || t == 0x8808 || t == 0x8809 || t == 0x88CC) && on 12 then
        need c avail (p + 2) (if t == 0x0806 then 28 else 2) 0 s fun s => hdr s fun s => pend { s with l2ctl := true }
      else if t == 0x88F7 && on 13 then { s with node := .ptp (p + 2) }
      else pend s
  | .ptp o => need c avail o 34 0 s fun s => hdr s fun s => pend { s with ptp := true }
  | .label o k =>
    if c.maxLabels ≤ k then pend (malf c 2 s)
    else need c avail o 4 2 s fun s => hdr s fun s =>
      let x := wb w o 4
      let s := if s.inner then s else
        { s with mpls := true, mplsOff := if k = 0 then o else s.mplsOff, label := x / 4096 }
      if bit x 8 then
        if c.mplsNever then pend s
        else match fits avail (o + 4) 1 with
          | .ok =>
            if wb w (o + 4) 1 / 16 = 4 ∧ on 5 then { s with node := .ip4 (o + 4) }
            else if wb w (o + 4) 1 / 16 = 6 ∧ on 6 then { s with node := .ip6 (o + 4) }
            else pend s
          | _ => pend s
      else { s with node := .label (o + 4) (k + 1) }
  | .ip4 o =>
    need c avail o 20 3 s fun s =>
    let ihl := wb w o 1 % 16
    need c avail o (4 * ihl) 3 s fun s => hdr s fun s =>
      let tot := wb w (o + 2) 2
      let fo := wb w (o + 6) 2 % 8192
      let mf := bit (wb w (o + 6) 2) 13
      let src := wb w (o + 12) 4
      let dst := wb w (o + 16) 4
      let frag := mf || fo != 0
      let long := match avail with | some n => decide (n < o + tot) | none => false
      let s := chk c (wb w o 1 / 16 != 4 || decide (ihl < 5)) 3 s
      let s := chk c (c.checksum && !(ipSumOk w o (4 * ihl))) 4 s
      let s := chk c (decide (tot < 4 * ihl) || long) 5 s
      let s := if avail.isNone && s.recorded == 0 then { s with defer := s.defer ++ [(5, o + tot)] } else s
      let s := chk c (decide (7 ≤ src / 2 ^ 29) || src / 2 ^ 24 == 127 || dst / 2 ^ 24 == 127) 6 s
      let s := chk c (fo == 1 || decide (65535 + 4 * ihl < fo * 8 + tot)) 0xF s
      if s.recorded ≠ 0 then s else
      let s := addIp { src := src, dst := dst, proto := wb w (o + 9) 1, frag := frag } o tot (decide (5 < ihl) || frag) s
      if fo ≠ 0 then pend s else { s with node := .l4 (o + 4 * ihl) (wb w (o + 9) 1) (tot - 4 * ihl) }
  | .ip6 o =>
    need c avail o 40 7 s fun s => hdr s fun s =>
      let pl := wb w (o + 4) 2
      let src := wb w (o + 8) 16
      let dst := wb w (o + 24) 16
      let long := match avail with | some n => decide (n < o + 40 + pl) | none => false
      let s := chk c (wb w o 1 / 16 != 6 || long) 7 s
      let s := if avail.isNone && s.recorded == 0 then { s with defer := s.defer ++ [(7, o + 40 + pl)] } else s
      let s := chk c (src / 2 ^ 120 == 0xFF || src == 1 || dst == 1) 9 s
      if s.recorded ≠ 0 then s else
      let s := addIp { v6 := true, src := src, dst := dst, proto := wb w (o + 6) 1 } o (pl + 40) false s
      { s with node := .ext (o + 40) (wb w (o + 6) 1) 0 pl true }
  | .ext o nh n plen hbh =>
    let upd := fun (g : IpInfo → IpInfo) (s : PState) =>
      if s.inner then { s with ipIn := s.ipIn.map g } else { s with ip := s.ip.map g, ipIn := s.ipIn.map g }
    if [0, 43, 44, 60, 51].contains nh then
      need c avail o 2 8 s fun s =>
      let len := if nh = 44 then 8 else if nh = 51 then (wb w (o + 1) 1 + 2) * 4 else (wb w (o + 1) 1 + 1) * 8
      need c avail o len 8 s fun s => hdr s fun s =>
        let s := chk c ((nh == 0 && !hbh) || decide (c.maxExt ≤ n)) 8 s
        if s.recorded ≠ 0 then s else
        let nx := wb w o 1
        let s := if s.inner then s else { s with special := true }
        let s := upd (fun i => { i with proto := nx, frag := i.frag || nh == 44 }) s
        if nh = 44 ∧ wb w (o + 2) 2 / 8 ≠ 0 then pend s
        else { s with node := .ext (o + len) nx (n + 1) (plen - len) false }
    else if nh = 50 then pend s
    else { s with node := .l4 o nh plen }
  | .l4 o proto plen =>
    let frag := ((if s.inner then s.ipIn else s.ip).map (·.frag)).getD false
    if proto = 6 ∧ on 7 then
      need c avail o 20 0xA s fun s =>
      let doff := wb w (o + 12) 1 / 16
      need c avail o (4 * doff) 0xA s fun s => hdr s fun s =>
        let fl := wb w (o + 13) 1
        let s := chk c (decide (doff < 5)) 0xA s
        let s := chk c ((bit fl 1 && (bit fl 0 || bit fl 2)) || fl == 0) 0xB s
        if s.recorded ≠ 0 then s else pend (setL4 o (addPorts (wb w o 2) (wb w (o + 2) 2) s))
    else if proto = 17 ∧ on 8 then
      need c avail o 8 0xA s fun s => hdr s fun s =>
        let len := wb w (o + 4) 2
        let dp := wb w (o + 2) 2
        let s := chk c (decide (len < 8) || (!frag && decide (plen < len))) 0xA s
        if s.recorded ≠ 0 then s else
        let s := setL4 o (addPorts (wb w o 2) dp s)
        if dp = c.vxPort ∧ on 11 ∧ c.tunnel ∧ !s.inner then { s with node := .vxlan (o + 8) }
        else if (dp = 319 ∨ dp = 320) ∧ on 13 then { s with node := .ptp (o + 8) }
        else pend s
    else if proto = 132 ∧ on 9 then
      need c avail o 12 0xA s fun s => hdr s fun s => pend (setL4 o (addPorts (wb w o 2) (wb w (o + 2) 2) s))
    else if proto = 47 ∧ on 10 ∧ !s.inner then
      need c avail o 4 0xC s fun s =>
      let f := wb w o 2
      let len := 4 + 4 * (b2n (bit f 15) + b2n (bit f 13) + b2n (bit f 12))
      need c avail o len 0xC s fun s => hdr s fun s =>
        let s := chk c (f % 8 != 0 || bit f 14 || bits f 11 3 != 0) 0xC s
        if s.recorded ≠ 0 then s else
        let s := setL4 o s
        if !c.tunnel then pend s else
        let s := { s with gre := true, inner := true }
        let t := wb w (o + 2) 2
        if t == 0x0800 && on 5 then { s with node := .ip4 (o + len) }
        else if t == 0x86DD && on 6 then { s with node := .ip6 (o + len) }
        else if t == 0x6558 then { s with node := .eth (o + len) }
        else if t == 0x8847 && on 3 then { s with node := .label (o + len) 0 }
        else pend s
    else pend s
  | .vxlan o =>
    need c avail o 8 0xD s fun s => hdr s fun s =>
      let s := chk c (!(bit (wb w o 1) 3)) 0xD s
      if s.recorded ≠ 0 then s else { s with vxlan := true, inner := true, node := .eth (o + 8) }

/-- Run the parse; sixteen headers and their sequels end within the fuel. -/
def prun (c : ParseCfg) (w : Bytes) (avail : Option Nat) : Nat → PState → PState
  | 0, s => s
  | n + 1, s => match s.node with
    | .done => s
    | _ => prun c w avail n (pstep c w avail s)

/-- Parse class: the first row of Table 5.2 that holds (R160). -/
def parseClass (s : PState) : Nat :=
  let v4 := match s.ip with | some i => !i.v6 | none => false
  let v6 := match s.ip with | some i => i.v6 | none => false
  if s.recorded ≠ 0 ∧ s.action = 1 then 0xF
  else if s.ptp then 0xD
  else if s.l2ctl then 0xC
  else if v4 && s.vxlan then 0xA
  else if v6 && s.vxlan then 0xB
  else if v4 && s.gre then 8
  else if v6 && s.gre then 9
  else if s.mpls && v4 then 5
  else if s.mpls && v6 then 6
  else if s.mpls then 7
  else if v4 && s.special then 2
  else if v4 then 1
  else if v6 && s.special then 4
  else if v6 then 3
  else 0

/-- The flow key of Table 3.1 (R76, R77): bits [319:0] as a number. -/
def flowKey (c : ParseCfg) (w : Bytes) (s : PState) : Nat :=
  let mk := fun (lo hi proto ty plo phi vlan : Nat) =>
    lo <<< 192 ||| hi <<< 64 ||| proto <<< 56 ||| ty <<< 48 ||| plo <<< 32 ||| phi <<< 16 ||| vlan
  match (if c.innerKey then s.ipIn else s.ip) with
  | some i =>
    let a := i.src * 65536 + i.sp
    let b := i.dst * 65536 + i.dp
    let ty := if i.v6 then 2 else 1
    if a ≤ b then mk i.src i.dst i.proto ty i.sp i.dp 0 else mk i.dst i.src i.proto ty i.dp i.sp 0
  | none =>
    if s.mpls then mk s.label 0 0 4 0 0 0
    else
      let dst := wb w 0 6
      let src := wb w 6 6
      let v := s.vlan.getD 0
      if src ≤ dst then mk src dst 0 3 s.etherType 0 v else mk dst src 0 3 s.etherType 0 v

/-- The switches in force for a program (R171). -/
def parseCfg (s : State) (prog : Nat) : ParseCfg :=
  let i := 0x2040 + prog
  { protocols := s.pg i 1, maxTags := s.pg i 2, maxLabels := s.pg i 3, maxExt := s.pg i 4
    innerKey := s.pg i 5 != 0, tunnel := s.pg i 6 != 0, vxPort := s.pg i 7, mplsNever := s.pg i 8 != 0
    checksum := s.pg i 9 != 0, extraTpid := s.pg 0x2020 4
    actions := (List.range 16).foldl (fun m k => mput m k (if k = 0 then 0 else s.pg 0x2030 k)) [] }

/-- The parse program of a packet (R171): its port's, recirculation's or inject's. -/
def parseProg (s : State) (p : Packet) : Nat :=
  if p.desc.srcKind = 1 then s.pg 0x2020 2
  else if p.desc.srcKind = 2 then s.pg 0x2020 3
  else
    let port := p.die * 64 + p.slot
    if port < 256 then s.pg 0x2021 port else s.pg 0x2022 (port - 256)

/-- The header window of a frame: its first 128 bytes, or the frame less its FCS when that is shorter (R154); a dispatch record
(R86) carries no more of a short frame: DESIGN CHOICE (log entry 115). -/
def headerWindow (p : Packet) : Bytes :=
  if p.tail = .pending then p.frame.take 128 else (p.frame.take (p.frame.length - 4)).take 128

/-- The parse of a packet: the end state over its window. -/
def parseOf (p : Packet) : PState :=
  let w := headerWindow p
  let avail := if p.tail = .pending then none else some (p.frame.length - 4)
  prun p.cfg w avail 64 {}

/-- A packet's first header byte enters the parse engine: the switches in force go with it (R172). -/
def latchCfg (i : Nat) (s : State) : State := s.onPkt i (fun p => { p with cfg := parseCfg s (parseProg s p) })

/-- Length of the frame as the parse knows it (R162), and whether it is an estimate. -/
def parseLength (p : Packet) (r : PState) : Nat × Bool :=
  if p.tail ≠ .pending then (p.frame.length, false)
  else if r.l3 ≠ 0 then (r.l3 + r.l3len + 4, true)
  else (p.maxLen, true)

/-- Run the parse engine on packet i, which stands at requester q of Table 3.3 (PARSE_START, R154 to R165). DESIGN CHOICES: a
length that does not fit its field is kept modulo 2^14 (log entry 120); a packet found malformed again on a later pass is
counted again (log entry 121). -/
def parsePacket (i q : Nat) (s : State) : State :=
  let p := s.pkt i
  let r := parseOf p
  let w := headerWindow p
  let cls := if r.recorded ≠ 0 then r.recorded else r.noted
  let s := s.when (cls != 0) (fun s => s.dinc p.die 0x4930 cls 1)
  let s := s.when r.depth (fun s => s.dinc p.die 0x4931 1 1)
  if r.recorded ≠ 0 ∧ r.action = 2 then dropPkt p.die i 4 s
  else
    let (len, est) := parseLength p r
    let l3 := if parseClass r = 7 then r.mplsOff else r.l3
    let d : Desc := { p.desc with
      parseClass := BitVec.ofNat 4 (parseClass r), malformed := BitVec.ofNat 4 cls
      l3 := BitVec.ofNat 8 l3, l4 := BitVec.ofNat 8 r.l4, length := BitVec.ofNat 14 len, strip := 0, encap := 0 }
    let s := s.onPkt i (fun p => { p with
      desc := d, win := w, rw := w, stage := .parsed, est := est, counted := if r.action = 1 then cls else 0
      defer := r.defer, key := if p.desc.srcKind = 2 then p.key else flowKey p.cfg w r })
    s.onDie p.die (fun x => { x with eng.parsed := mmod x.eng.parsed q (fun l => l ++ [i]) })

/-- The packet of a port that waits for its parse, oldest first. -/
def toParse (s : State) (d slot : Nat) : Option Nat :=
  (s.pkts.find? (fun x => x.2.stage == .arriving && x.2.die == d && x.2.slot == slot && x.2.desc.srcKind == 0)).map (·.1)

/-- A pipeline of a requester's parse engine is free: no packet of it waits for the dispatcher or is held for a queue. -/
def pipeFree (s : State) (d q j : Nat) : Bool :=
  !(mget (s.die d).eng.parsed q ++ (mget (s.die d).eng.hold q).map (·.2)).any (fun i => (s.pkt i).pipe == j)

/-- PARSE_START: the parse engine of a port starts when it holds the header window (R154), in the first of its two
pipelines that is free (R150, R151; log entry 92); with neither free the frame waits. -/
def parseStart (d slot : Nat) (s : State) : State :=
  match toParse s d slot with
  | none => s
  | some i =>
    let p := s.pkt i
    if p.tail = .pending ∧ p.frame.length < 133 then s
    else match (List.range 2).find? (pipeFree s d (slot / 16)) with
      | none => s
      | some j => parsePacket i (slot / 16) (s.onPkt i (fun p => { p with pipe := j }))

end Sys2Proof.Machine
end

