-- ==== Sys2Proof/Machine/Ingress.lean ====
section
/-! DEFINITION. Frames at the port ingress point: the frame-start check, the tail, and the MAC's receive counts. -/

namespace Sys2Proof.Machine

/-- A port is up (R375) and its die forwards (R505). -/
def portForwards (s : State) (d slot : Nat) : Bool :=
  s.dg d (0x4050 + slot) 1 == 3 && s.fwdReady d && s.netMode d && s.pg 0x1503 3 != 2

/-- The priority the MAC gives a received frame (R385). -/
def framePriority (s : State) (d slot : Nat) (f : Bytes) : Nat :=
  let t := wb f 12 2
  if (t = 0x8100 ∨ t = 0x88A8) ∧ 15 ≤ f.length then s.dg d (0x4010 + slot) 9 >>> (3 * (wb f 14 1 / 32)) % 8
  else s.dg d (0x4010 + slot) 0xA

/-- A message timestamp: the die's Meridian time with an adjustment in ps added, in ns (R390, R391; log entry 17). -/
def stampNs (s : State) (d adj : Nat) : Nat := (((s.meridian / 10 ^ 9 : Nat) : Int) + 1000 * s.clockGap d + s32 adj).toNat / 1000

/-- The pool requester of a port ingress point (Table 10.2). -/
def ingressReq (slot : Nat) : Nat := if slot < 32 then 0 else 1

/-- The frame-start check of R320: the drop reason, or none. In Drain the thresholds stand at 0 (R501). -/
def startCheck (s : State) (d slot prio : Nat) : Option Nat :=
  let i := 0x4740 + slot
  let z := fun v => if s.draining then 0 else v
  match s.dg d i 1 with
  | 1 => if z (s.dg d i 3) + s.dg d i 5 ≤ s.dg d i 0x30 then some 0x16 else none
  | 2 => if z (s.dg d i (0x10 + prio)) + s.dg d i (0x20 + prio) ≤ s.dg d i (0x31 + prio) then some 0x16 else none
  | _ => if z (s.dg d i 2) ≤ s.dg d i 0x30 then some 0x05 else none

/-- The reason for a failed reservation (R321). -/
def noRoomReason (s : State) (d slot : Nat) : Nat := if s.dg d (0x4740 + slot) 1 = 0 then 0x05 else 0x16

/-- A frame of which that much has come is a MAC control frame of opcode 0x0001 or 0x0101: the MAC consumes it (R382), and it
reaches no port ingress point; PAUSE_FRAME_RECEIVE is its command. -/
def macControl (head : Bytes) : Bool :=
  decide (16 ≤ head.length) && wb head 12 2 == 0x8808 && (wb head 14 2 == 0x0001 || wb head 14 2 == 0x0101)

/-- The first cell of a frame can reach the port ingress point: the port receives, and no other frame is under way. -/
def canStart (s : State) (d : Nat) (x : Nat × Bytes) : Bool :=
  portForwards s d x.1 && mget (s.die d).eng.rx x.1 == 0 && !x.2.isEmpty && !macControl x.2

/-- The frame at a port takes its place there: what has arrived of it, its priority and its descriptor. -/
def startPkt (s : State) (d slot : Nat) (head : Bytes) : Packet :=
  { die := d, slot := slot, prio := framePriority s d slot head, frame := head, req := ingressReq slot
    maxLen := s.dg d (0x4010 + slot) 2, ctRx := s.dflag d (0x4010 + slot) 3, rxStamp := stampNs s d (s.dg d (0x4010 + slot) 0xE)
    desc := { srcKind := 0, srcPort := BitVec.ofNat 9 (d * 64 + slot), ingressTs := BitVec.ofNat 20 (s.nsOn d) } }

/-- A port is receiving a packet. -/
def rxTake (d slot i : Nat) (s : State) : State := s.onDie d (fun x => { x with eng.rx := mput x.eng.rx slot (i + 1) })

/-- A frame is discarded at its start (R320, R321). It keeps a record until its tail, for the MAC's counts. -/
def startDiscard (d slot reason : Nat) (p : Packet) (s : State) : State :=
  let (i, s) := s.newPkt { p with stage := .ended }
  rxTake d slot i (s.dinc d 0x4920 reason 1)

/-- The cells that a frame of a port reserves (R320). -/
def startCells (s : State) (d slot : Nat) : Nat := ceilDiv (s.dg d (0x4010 + slot) 2) 256

/-- Frames make their reservations of cells, in the order of a list: the slots for which they fail, and the effect (R320). -/
def startReserve (d : Nat) : List (Nat × Bytes) → State → List Nat × State
  | [], s => ([], s)
  | (k, _) :: r, s =>
    let (ok, s) := poolReserve s d 0 (ingressReq k) (startCells s d k)
    let (l, s) := startReserve d r s
    (if ok then l else k :: l, s)

/-- Frames request their descriptors, in the order of a list: the descriptor of each slot that gets one, and the effect (R320). -/
def startUnits (d : Nat) : List (Nat × Bytes) → State → List (Nat × Nat) × State
  | [], s => ([], s)
  | (k, _) :: r, s =>
    let (u, s) := poolRequest s d 2 (ingressReq k) 1
    let (l, s) := startUnits d r s
    (match u.bind (·.head?) with | some x => (k, x) :: l | none => l, s)

/-- A frame that has both its reservation and its descriptor starts; one that lacks either is discarded, and what it got goes
back (R321). -/
def startOne (d : Nat) (failed : List Nat) (units : List (Nat × Nat)) (x : Nat × Bytes) (s : State) : State :=
  let (slot, head) := x
  let p := startPkt s d slot head
  let n := startCells s d slot
  match failed.contains slot, units.find? (fun y => y.1 == slot) with
  | false, some (_, u) =>
    let k := ceilDiv head.length 256
    let (cs, s) := poolDraw s d 0 p.req k
    let (i, s) := s.newPkt { p with
      cells := cs, resv := n - k, unit := some u, occ := k
      desc := { p.desc with firstCell := BitVec.ofNat 18 (cs.head?.getD 0) } }
    occAdd d slot p.prio k (rxTake d slot i (latchCfg i s))
  | false, none => startDiscard d slot (noRoomReason s d slot) p (poolUnreserve s d 0 p.req n)
  | true, some (_, u) => startDiscard d slot (noRoomReason s d slot) p (poolFreeUnits s d 2 [u])
  | true, none => startDiscard d slot (noRoomReason s d slot) p s

/-- FRAME_START: first cells that reach the port ingress points of a die in one cycle. Those that the thresholds turn away end
at once (R320); each pool takes the requests of the others in the order of its own pointer (R315), frames of one requester in the
order given. -/
def frameStart (d : Nat) (frames : List (Nat × Bytes)) (s : State) : State :=
  let l := (frames.filter (canStart s d)).foldl (fun a x => if a.any (fun y => y.1 == x.1) then a else a ++ [x]) []
  let check := fun (x : Nat × Bytes) => startCheck s d x.1 (framePriority s d x.1 x.2)
  let go := l.filter (fun x => (check x).isNone)
  let s' := s.each l (fun x s => match check x with
    | some reason => startDiscard d x.1 reason (startPkt s d x.1 x.2) s
    | none => s)
  let order := fun (p : Nat) => (poolOrder s d p).flatMap (fun q => go.filter (fun x => ingressReq x.1 == q))
  let (failed, s1) := startReserve d (order 0) s'
  let (units, s2) := startUnits d (order 2) s1
  s2.each go (startOne d failed units)

/-- What a frame's tail shows (R166, R167, R379): good, or the P1 reason and whether the FCS was a stomp. -/
def judgeTail (f : Bytes) (max : Nat) : Tail × Bool :=
  let n := f.length
  let body := f.take (n - 4)
  let fcs := f.drop (n - 4)
  if n < 64 then (.bad 1, false)
  else if max < n then (.bad 2, false)
  else if fcs = fcsOf body then (.good, false)
  else (.bad 3, decide (fcs = (fcsOf body).map (fun b => ~~~b)))

/-- The size bin of a good frame (Table 12.8). -/
def sizeBin (n : Nat) : Nat :=
  if n ≤ 64 then 0x0B else if n ≤ 127 then 0x0C else if n ≤ 255 then 0x0D else if n ≤ 511 then 0x0E
  else if n ≤ 1023 then 0x0F else if n ≤ 1518 then 0x10 else 0x11

/-- The MAC counts a received frame (R387). -/
def macRxCount (d slot : Nat) (n : Nat) (t : Tail) (stomp : Bool) (s : State) : State :=
  let i := 0x4940 + slot
  match t with
  | .good => ((s.dinc d i 1 1).dinc d i 2 n).dinc d i (sizeBin n) 1
  | .bad 1 => s.dinc d i 5 1
  | .bad 2 => s.dinc d i 6 1
  | .bad _ => s.dinc d i (if stomp then 4 else 3) 1
  | .pending => s

/-- A packet of the ingress side ends at P1 after dispatch (R168). -/
def badAfterDispatch (i reason : Nat) (s : State) : State :=
  let p := s.pkt i
  let s := s.dinc p.die 0x4931 4 1
  let s := s.when p.committed (fun s => s.dinc p.die 0x4931 5 1)
  dropPkt p.die i reason s

/-- A dispatched packet whose tail is bad (R168): it ends when its commit has occurred as well; one whose head has
left is ended as a bad frame by its reader (Table 12.2) and counted here. -/
def tailBad (i reason : Nat) (s : State) : State :=
  let p := s.pkt i
  if !p.hasSeq then dropPkt p.die i reason s
  else if p.cutThrough then (s.dinc p.die 0x4920 reason 1).onPkt i (fun p => { p with poison := true })
  else if p.committed then badAfterDispatch i reason s
  else s

/-- The deferred length checks of R164 at the tail: the classes that fail, in header order. -/
def deferredFail (p : Packet) : List Nat := (p.defer.filter (fun x => decide (p.frame.length - 4 < x.2))).map (·.1)

/-- The tail shows these classes failed (R164): each is counted unless a class of action 1 was, up to the first whose action
ends the packet. -/
def deferredEnd (i : Nat) : List Nat → State → State
  | [], s => s
  | c :: r, s =>
    let p := s.pkt i
    let s := s.when (p.counted == 0) (fun s => s.dinc p.die 0x4930 c 1)
    if mget p.cfg.actions c = 0 then deferredEnd i r s else tailBad i 4 (s.onPkt i (fun p => { p with tail := .bad 4 }))

/-- Mirror copies of a packet take its tail with it (R331). -/
def copiesTail (i : Nat) (t : Tail) (f : Bytes) (s : State) : State :=
  s.each ((s.pkts.filter (fun x => x.2.shares == some i)).map (·.1)) (fun j s => s.onPkt j (fun q => { q with tail := t, frame := f }))

/-- The tail of packet i has arrived with the rest of its bytes (R164 to R168, R321). The length checks deferred to it are made for a
packet that still goes on and whose tail is good (log entry 112). -/
def tailArrived (i : Nat) (rest : Bytes) (s : State) : State :=
  let p := s.pkt i
  let f := p.frame ++ rest
  let t := (judgeTail f p.maxLen).1
  if p.stage = .ended then forget i (copiesTail i t f (s.onPkt i (fun p => { p with tail := t, frame := f })))
  else
    let k := ceilDiv (min f.length p.maxLen) 256 - p.cells.length
    let k := min k p.resv
    let (cs, s) := if k = 0 then ([], s) else poolDraw s p.die 0 p.req k
    let s := poolUnreserve s p.die 0 p.req (p.resv - k)
    let s := s.onPkt i (fun p => { p with tail := t, frame := f, cells := p.cells ++ cs, resv := 0, occ := p.occ + k })
    let s := copiesTail i t f s
    let s := s.when (decide (t = .good) && padded (s.pkt i)) (fun s => s.dinc p.die 0x4931 2 1)
    let s := s.when (decide (t = .good) && (s.pkt i).built) (fun s => s.onPkt i (fun p =>
      { p with desc := { p.desc with length := BitVec.ofNat 14 (outFrame p).length } }))
    let s := if k = 0 then s else occAdd p.die p.slot p.prio k s
    match t with
    | .bad reason => tailBad i reason s
    | _ =>
      deferredEnd i (deferredFail (s.pkt i)) s

/-- FRAME_TAIL_RECEIVE (R166 to R168): the rest of the frame a port is receiving arrives, its FCS last. -/
def frameTail (d slot : Nat) (rest : Bytes) (s : State) : State :=
  match mget (s.die d).eng.rx slot with
  | 0 => s
  | i + 1 =>
    let p := s.pkt i
    let f := p.frame ++ rest
    let (t, stomp) := judgeTail f p.maxLen
    let s := s.onDie d (fun x => { x with eng.rx := mput x.eng.rx slot 0 })
    tailArrived i rest (macRxCount d slot f.length t stomp s)

/-- A frame being received when its link goes down is truncated (R376): its mirror copies have their tail with it (R331), and
what it has not drawn of its reservation goes back (R321). -/
def truncateRx (d slot : Nat) (s : State) : State :=
  match mget (s.die d).eng.rx slot with
  | 0 => s
  | i + 1 =>
    let p := s.pkt i
    let s := s.onDie d (fun x => { x with eng.rx := mput x.eng.rx slot 0 })
    let s := s.dinc d (0x4940 + slot) 7 1
    let s := copiesTail i (.bad 3) p.frame (s.onPkt i (fun p => { p with tail := .bad 3 }))
    if p.stage = .ended then forget i s
    else tailBad i 3 ((poolUnreserve s p.die 0 p.req p.resv).onPkt i (fun p => { p with resv := 0 }))

/-- FRAME_START of one die (R320): ports and the heads of their frames, all of one cycle. -/
def execFrameStart (d : DieId) (frames : List (Slot × Bytes)) (s : State) : Host.Outcome State Fault Refusal :=
  onLive d (frameStart d (frames.map (fun x => (x.1.val, x.2)))) s

/-- PARSE_START of one die (R154). -/
def execParseStart (d : DieId) (slot : Slot) (s : State) : Host.Outcome State Fault Refusal :=
  onLive d (parseStart d slot) s

end Sys2Proof.Machine
end

