-- ==== Sys2Proof/Machine/Steer.lean ====
section
/-! DEFINITION. Dispatch: flow hash, sequence numbers, steering, dispatch queues, thread start and work stealing
(Dispatch, Work Stealing and Resequencing). -/

namespace Sys2Proof.Machine

/-- The flow hash of a 40-byte key (R80). -/
def flowHash (s : State) (key : Nat) : Nat := (fibHash (toBytes 40 key) (BitVec.ofNat 32 (s.pg 0x2010 1)) polyA).toNat

/-- The flow bucket of a hash (R80). -/
def bucketOf (h : Nat) : Nat := (h >>> 16) ^^^ (h % 65536)

/-- A cluster is in service: neither parked, fenced nor leaving service (R88). -/
def inService (s : State) (d c : Nat) : Bool :=
  let k := cluster s d c
  s.dg d (0x4510 + c) 1 == 0 && k.loading == 0 && !k.toPark && !k.waking

/-- The cluster a hint leads to (R88): the redirect entry, or the next in service. -/
def pickCluster (s : State) (d hint : Nat) : Option Nat := arbiter 16 (s.dg d 0x4501 (hint + 1)) (inService s d)

/-- The die dispatches: it is not Isolated, held or stopped (R52, R498, R499). -/
def dispatches (s : State) (d : Nat) : Bool :=
  !(s.die d).held && s.netMode d && s.mode != .quiesce

/-- The packet holds an Expiring epoch (R279). -/
def expired (s : State) (p : Packet) : Bool :=
  p.holder && s.pg 0x2300 4 == 2 && p.desc.epoch.toNat == s.pg 0x2300 2

/-- Give a packet its place in a requester's hold for a cluster. -/
def holdFor (d q c i : Nat) (s : State) : State :=
  (s.onDie d (fun x => { x with eng.hold := mmod x.eng.hold q (fun l => l ++ [(c, i)]) })).stage i (.hold d q)

/-- Assign bucket, sequence number and epoch on the first pass (R80, R89, R276); later passes keep them (R90). -/
def assignSeq (d i : Nat) (s : State) : State :=
  let p := s.pkt i
  if p.hasSeq then s.onPkt i (fun p => { p with desc := { p.desc with destKind := 3, dropReason := 0 } })
  else
    let b := bucketOf (flowHash s p.key)
    let n := mget (s.die d).eng.seqCtr b
    let s := s.onDie d (fun x => { x with eng.seqCtr := mput x.eng.seqCtr b ((n + 1) % 2 ^ 24) })
    s.onPkt i (fun p => { p with
      hasSeq := true, holder := true
      desc := { p.desc with seq := BitVec.ofNat 24 n, flowBucket := BitVec.ofNat 16 b, dispDie := BitVec.ofNat 3 d
                            epoch := BitVec.ofNat 4 (s.die d).look.epCur, destKind := 3, dropReason := 0 } })

/-- PACKET_DISPATCH: the dispatcher takes a parsed packet of a requester of Table 3.3 (R83 to R91). A requester that still
holds a packet for a queue takes no other, and a record for which there is no saddle credit holds the dispatcher (R31, R87,
R92). -/
def packetDispatch (d q : Nat) (s : State) : State :=
  match mget (s.die d).eng.parsed q with
  | [] => s
  | i :: r =>
    if !dispatches s d then s else
    let s' := assignSeq d i s
    let p := s'.pkt i
    let take := fun (s : State) => s.onDie d (fun x => { x with eng.parsed := mput x.eng.parsed q r, eng.dispatched := x.eng.dispatched + 1 })
    let est := fun (s : State) => s.when p.est (fun s => s.dinc d 0x4931 3 1)
    let home := s.pg 0x1810 (p.desc.flowBucket.toNat / 256)
    let hint := p.desc.flowBucket.toNat % 16
    let homeOk := s.has home && !s.isolated home && !(s.die home).held && s.reach d home && (pickCluster s home hint).isSome
    if (if q < 4 then 2 else 1) ≤ (mget (s.die d).eng.hold q).length then s
    else if s.dg d 0x4500 1 = 1 ∧ home ≠ d ∧ homeOk then
      if !saddleFree s d home 3 then s else
      let s := est (take s')
      ((s.dinc d 0x4530 1 1).stage i (.record home)).send d home (.dispatch i)
    else
      match pickCluster s d hint with
      | none => s
      | some c =>
        let s := est (take s')
        let s := s.when (s.dg d 0x4500 1 == 1 && home != d) (fun s => s.dinc d 0x4530 3 1)
        holdFor d q c i s

/-- DISPATCH_RECORD_RECEIVE (R86, R88): the first record whose saddle's requester holds no other asks (R92); it waits while no cluster of
the die is in service. -/
def recordReceive (d : Nat) (s : State) : State :=
  let free := fun (m : Msg) => match m.body with
    | .dispatch _ => (mget (s.die d).eng.hold (4 + m.via)).isEmpty
    | _ => false
  s.receivePick d free fun m s' =>
    match m.body with
    | .dispatch i =>
      match pickCluster s d ((s.pkt i).desc.flowBucket.toNat % 16) with
      | none => s
      | some c => holdFor d (4 + m.via) c i (s'.dinc d 0x4530 2 1)
    | _ => s

/-- RETURN_RECORD_RECEIVE (R86): the arrival die has the descriptor and the rewritten window back. -/
def returnReceive (d : Nat) (s : State) : State :=
  s.receive d (fun m => match m with | .ret _ => true | _ => false) fun m s =>
    match m.body with
    | .ret i => (s.onDie d (fun x => { x with eng.rewriteQ := x.eng.rewriteQ ++ [i] })).stage i .rewrite
    | _ => s

/-- The packet with which a requester asks a cluster's queue: of those it holds for the cluster that of the pipeline its
pointer picks (R151). -/
def holdPick (s : State) (d q c : Nat) : Option Nat :=
  let l := ((mget (s.die d).eng.hold q).filter (fun x => x.1 == c)).map (·.2)
  match arbiter 2 (mget (s.die d).eng.pipePtr q) (fun j => l.any (fun i => (s.pkt i).pipe == j)) with
  | none => none
  | some j => l.find? (fun i => (s.pkt i).pipe == j)

/-- Packets held for a cluster that has left service go to the cluster R88 now names. -/
def holdMoved (s : State) (d c : Nat) (x : Nat × Nat) : Nat × Nat :=
  if x.1 = c then ((pickCluster s d ((s.pkt x.2).desc.flowBucket.toNat % 16)).getD c, x.2) else x

/-- The unstarted packets of a cluster out of service move in order to the cluster R88 now names, as far as its queue takes
them (R92), counted as stolen from the one they leave (R143 step 1, R140, R515). Those that find no room stay; with no cluster in
service they are held as R88 says, at requester 0 (log entry 90). -/
def moveSome (d c : Nat) : List Nat → State → State
  | [], s => s
  | i :: r, s =>
    match pickCluster s d ((s.pkt i).desc.flowBucket.toNat % 16) with
    | none =>
      let s := onCluster (s.dinc d (0x4510 + c) 8 1) d c (fun k => { k with queue := k.queue.drop 1 })
      moveSome d c r (holdFor d 0 c i s)
    | some c' =>
      if 256 ≤ (cluster s d c').queue.length then s
      else
        let s := onCluster (s.dinc d (0x4510 + c) 8 1) d c (fun k => { k with queue := k.queue.drop 1 })
        let s := onCluster s d c' (fun k => { k with queue := k.queue ++ [i] })
        moveSome d c r (s.onPkt i (fun p => { p with stage := .queued d c', desc := { p.desc with dispCluster := BitVec.ofNat 4 c' } }))

/-- A cluster that leaves service gives up its unstarted packets. -/
def moveUnstarted (d c : Nat) (s : State) : State := moveSome d c (cluster s d c).queue s

/-- Packets that wait in clusters out of service move on where room has appeared. -/
def moveWaiting (d : Nat) (s : State) : State :=
  s.each ((List.range 16).filter (fun c => !inService s d c && !(cluster s d c).queue.isEmpty)) (moveUnstarted d)

/-- DISPATCH_QUEUE_REQUEST (R92): the requesters named ask a cluster's queue in one engine cycle. Each of them that the full
queue turns away counts in 4530.04 (log entry 88). -/
def queueRequest (d c : Nat) (reqs : List Nat) (s : State) : State :=
  let asks := fun q => reqs.contains q && (holdPick s d q c).isSome
  if !inService s d c then
    s.each ((List.range 10).filter asks) fun q s =>
      s.onDie d (fun x => { x with eng.hold := mmod x.eng.hold q (fun l => l.map (holdMoved s d c)) })
  else if 256 ≤ (cluster s d c).queue.length then
    s.dinc d 0x4530 4 ((List.range 10).filter asks).length
  else
    match arbiter 10 (cluster s d c).ptrQueue asks with
    | none => s
    | some q =>
      match holdPick s d q c with
      | none => s
      | some i =>
        let s := s.onDie d (fun x => { x with
          eng.hold := mmod x.eng.hold q (fun l => l.filter (fun y => y.2 != i))
          eng.pipePtr := mput x.eng.pipePtr q (((s.pkt i).pipe + 1) % 2) })
        let s := onCluster s d c (fun k => { k with ptrQueue := (q + 1) % 10 })
        if expired s (s.pkt i) then dropPkt d i 0x0B (s.stage i (.parsed))
        else
          let s := onCluster s d c (fun k => { k with queue := k.queue ++ [i] })
          s.onPkt i (fun p => { p with stage := .queued d c, queuedAt := s.now, desc := { p.desc with dispCluster := BitVec.ofNat 4 c } })

/-- Threads of a cluster that can take a run: free and on an engine open to dispatch (R93). -/
def canTake (s : State) (d c t : Nat) : Bool :=
  threadFree (cluster s d c) t && !(cluster s d c).noStart.getLsbD (t / 4)

/-- The entry address of a routine (R110). -/
def entryAddr (k : Cluster) (p : Packet) : BitVec 14 :=
  BitVec.ofNat 14 (mget k.entry (p.desc.srcKind.toNat * 16 + p.desc.parseClass.toNat))

/-- Start a run of a packet on a thread (R110, R111) with a run generation; g0 holds the restart count. -/
def startRun (d c t i : Nat) (gen : BitVec 2) (s : State) : State :=
  let p := s.pkt i
  let r : Run := { pkt := i, rid := s.nextRid, gen := gen, desc := p.desc, win := p.win, pc := entryAddr (cluster s d c) p, began := s.now
                   g := mput [] 0 (BitVec.ofNat 64 p.restarts) }
  let s := { s with nextRid := s.nextRid + 1 }
  (onThread s d c t (fun h => { h with run := some r, pre := none, parking := none })).stage i (.thread d c t)

/-- Free threads of a cluster. -/
def freeThreads (s : State) (d c : Nat) : Nat := ((List.range 64).filter (threadFree (cluster s d c))).length

/-- STEAL_LOOK (R97 to R100): the idle clusters of a die look for the deepest victim; the packets count as stolen in (R566). -/
def stealLook (d : Nat) (s : State) : State :=
  let depth := fun v => (cluster s d v).queue.length
  let t := s.dg d 0x4500 3
  let victims := (List.range 16).filter (fun v => inService s d v && decide (t < depth v))
  let best := victims.foldl (fun b v => match b with
    | none => some v
    | some w => if depth w < depth v then some v else some w) (none : Option Nat)
  match best with
  | none => s
  | some v =>
    let idle := fun c => decide (c ≠ v) && inService s d c && (cluster s d c).queue.isEmpty &&
      decide (s.dg d 0x4500 5 ≤ freeThreads s d c)
    if s.dg d 0x4500 2 = 0 then s else
    match arbiter 16 (cluster s d v).ptrSteal idle with
    | none => s
    | some c =>
      let n := min (s.dg d 0x4500 4) (min (freeThreads s d c) (depth v - t))
      let moved := (cluster s d v).queue.take n
      let s := onCluster s d v (fun k => { k with queue := k.queue.drop n, ptrSteal := (c + 1) % 16 })
      let s := onCluster s d c (fun k => { k with stolen := k.stolen ++ [moved] })
      let s := perfEvent d c 0x0F n c 0 0 ((s.dinc d (0x4510 + v) 8 n).dinc d (0x4510 + c) 7 n)
      s.each moved (fun i s => s.onPkt i (fun p => { p with
        stage := .stealing d c, desc := { p.desc with dispCluster := BitVec.ofNat 4 c } }))

/-- STEAL_ARRIVE (R98): stolen packets reach the thief in order; one that has left service meanwhile gives them up at once. -/
def stealArrive (d c : Nat) (s : State) : State :=
  match (cluster s d c).stolen with
  | [] => s
  | l :: r =>
    let s := onCluster s d c (fun k => { k with stolen := r, queue := k.queue ++ l })
    moveWaiting d (s.each l (fun i s => s.stage i (.queued d c)))

/-- The shared parse engine takes the oldest recirculated frame (R174, R90). -/
def parseRecirc (d : Nat) (s : State) : State :=
  match (s.die d).eng.recircQ with
  | [] => s
  | i :: r =>
    let s := s.onDie d (fun x => { x with eng.recircQ := r })
    if expired s (s.pkt i) then dropPkt d i 0x0B s
    else
      let s := s.onPkt i (fun p => { p with maxLen := 16128, committed := false, restarts := 0, est := false
                                            desc := { p.desc with pass := p.desc.pass + 1, srcKind := 2 } })
      if 16128 < (s.pkt i).frame.length then dropPkt d i 2 s else parsePacket i 8 (latchCfg i s)

/-- The shared parse engine takes the injected frame at its input (R91). -/
def parseInject (d : Nat) (s : State) : State :=
  match (s.die d).eng.injectIn with
  | [] => s
  | i :: r => parsePacket i 9 (latchCfg i (s.onDie d (fun x => { x with eng.injectIn := r })))

/-- One cycle of the shared parse engine (R152): recirculation (index 0) and inject (index 1) contend for it; an input whose
requester still holds a packet has none ready. -/
def sharedParse (d : Nat) (s : State) : State :=
  let e := (s.die d).eng
  let ready := fun j => !(if j == 0 then e.recircQ else e.injectIn).isEmpty && pipeFree s d (8 + j) 0
  match arbiter 2 e.sharedPtr ready with
  | none => s
  | some j =>
    let s := s.onDie d (fun x => { x with eng.sharedPtr := (j + 1) % 2 })
    if j = 0 then parseRecirc d s else parseInject d s

/-- PACKET_DISPATCH of one die and requester. -/
def execPacketDispatch (d : DieId) (q : Fin 10) (s : State) : Host.Outcome State Fault Refusal := onLive d (packetDispatch d q) s
/-- DISPATCH_RECORD_RECEIVE. -/
def execDispatchRecordReceive (d : DieId) (s : State) : Host.Outcome State Fault Refusal := onLive d (recordReceive d) s
/-- RETURN_RECORD_RECEIVE. -/
def execReturnRecordReceive (d : DieId) (s : State) : Host.Outcome State Fault Refusal := onLive d (returnReceive d) s
/-- DISPATCH_QUEUE_REQUEST: the requesters named ask in one cycle. -/
def execDispatchQueueRequest (d : DieId) (c : ClusterId) (reqs : List (Fin 10)) (s : State) : Host.Outcome State Fault Refusal :=
  onLive d (queueRequest d c (reqs.map (·.val))) s
/-- STEAL_LOOK. -/
def execStealLook (d : DieId) (s : State) : Host.Outcome State Fault Refusal := onLive d (stealLook d) s
/-- STEAL_ARRIVE. -/
def execStealArrive (d : DieId) (c : ClusterId) (s : State) : Host.Outcome State Fault Refusal := onLive d (stealArrive d c) s
/-- RECIRC_INPUT: a recirculated frame asks for the shared parse engine. -/
def execRecircInput (d : DieId) (s : State) : Host.Outcome State Fault Refusal := onLive d (sharedParse d) s

end Sys2Proof.Machine
end

