-- ==== Sys2Proof/Machine/Meters.lean ====
section
/-! DEFINITION. Meters (Scheduling, Shaping, Policing and Gates), statistics counters, context updates and learn events:
what journal entries act on. -/

namespace Sys2Proof.Machine

/-! ### Meters (R348 to R354) -/

/-- Engine cycles since power-up: two a nanosecond (Table 0.4). -/
def State.cycles (s : State) : Nat := s.now * 2

/-- Bytes of a burst field in units of 2^-32 byte (Table 11.3). -/
def burst32 (f : Nat) : Nat := f * 64 * 2 ^ 32

/-- Tokens accrued at a rate in kb/s over engine cycles, in units of 2^-32 byte (R351): rate × cycles ÷ 2 GHz bytes. -/
def accrued (kbps cycles : Nat) : Nat := kbps * 125 * cycles * 2 ^ 32 / 2000000000

/-- A meter brought up to date (R351): srTCM fills the committed bucket and overflows into the excess bucket, trTCM
fills both buckets at their own rates. -/
def meterRefill (now : Nat) (m : Meter) : Meter :=
  let c := m.cfg.toNat
  let dt := now - m.last
  let cbs := burst32 (bits c 112 93)
  let ebs := burst32 (bits c 92 73)
  if bit c 127 then
    { m with last := now, tc := min cbs (m.tc + accrued (bits c 63 32) dt), te := min ebs (m.te + accrued (bits c 31 0) dt) }
  else
    let t := m.tc + accrued (bits c 63 32) dt
    { m with last := now, tc := min cbs t, te := min ebs (m.te + (t - cbs)) }

/-- The bytes a packet is charged (R350): length plus length_adjust, at least 1. -/
def meterBytes (c len : Nat) : Nat :=
  let a : Int := bits c 124 117
  let a := if 128 ≤ a then a - 256 else a
  (max 1 ((len : Int) + a)).toNat

/-- Colour of a charge and the meter after it (RFC 2697, RFC 2698 as R351 reads them): 0 green, 1 yellow, 2 red. -/
def meterColour (m : Meter) (len col : Nat) : Nat × Meter :=
  let c := m.cfg.toNat
  let b := meterBytes c len * 2 ^ 32
  let pre := if bit c 126 then (if col = 3 then 2 else col) else 0
  if bit c 127 then
    if pre = 2 ∨ m.te < b then (2, m)
    else if pre = 1 ∨ m.tc < b then (1, { m with te := m.te - b })
    else (0, { m with te := m.te - b, tc := m.tc - b })
  else
    if pre = 0 ∧ b ≤ m.tc then (0, { m with tc := m.tc - b })
    else if pre ≤ 1 ∧ b ≤ m.te then (1, { m with te := m.te - b })
    else (2, m)

/-- METER_CHARGE: charge meter n on a die with a packet of that length and colour (R350 to R352); the descriptor's
colour, and under a red action its drop. A meter at its reset values charges nothing. The unit's pointer moves past the
cluster (R353). -/
def meterCharge (d c n : Nat) (dsc : Desc) (s : State) : Desc × State :=
  let s := s.onDie d (fun x => { x with buf.meterPtr := (c + 1) % 16 })
  let m := mget (s.die d).buf.meters n
  if m.cfg = 0 then (dsc, s)
  else
    let (col, m') := meterColour (meterRefill s.cycles m) dsc.length.toNat dsc.colour.toNat
    let s := s.onDie d (fun x => { x with buf.meters := mput x.buf.meters n m' })
    let s := s.dinc d 0x4800 (col + 1) 1
    let dsc := { dsc with colour := BitVec.ofNat 2 col }
    if col = 2 ∧ bit m.cfg.toNat 125 then
      ({ dsc with destKind := 3, dropReason := 7 }, s.dinc d 0x4800 4 1)
    else (dsc, s)

/-! ### Statistics counters (R129, Table 9.3) -/

/-- Add a packet and its bytes to counter n (JCNT). The totals stand in the counter spill region of the die's
expander (Table 9.3), which the map reaches: packets at 2n, bytes at 2n + 1 of `stats`. One whose page faults is lost, as
the fault's count says (R301; log entry 21). While the CXL port is down spills are held in a queue of 4,096 entries, and one
beyond it is discarded and counted, and reported once (R448). -/
def countAdd (d n bytes : Nat) (s : State) : State :=
  if s.dg d 0x4401 1 = 4 then
    if (s.die d).buf.spillQ.length < 4096 then
      s.onDie d (fun x => { x with buf.spillQ := x.buf.spillQ ++ [(n, bytes)] })
    else
      let first := !(s.die d).buf.spillLost
      let s := (s.dinc d 0x4401 0x0F 1).onDie d (fun x => { x with buf.spillLost := true })
      s.when first (fun s => s.report d 0x0B 0 1 0x403 0)
  else
    let (c, s) := access d 2 (n * 16 / 2 ^ 21) (n * 16 % 2 ^ 21) s
    if c ≠ 0 then s
    else (s.dinc d 0x4401 0xC 1).onDie d (fun x =>
      let m := mmod x.buf.stats (2 * n) (fun v => (v + 1) % 2 ^ 64)
      let m := mmod m (2 * n + 1) (fun v => (v + bytes) % 2 ^ 64)
      { x with buf.stats := m })

/-! ### Learn events (R233, R234) -/

/-- The key a learn event is filtered by. -/
def eventKey (e : LEvent) : Nat := if e.ty = 1 then bits e.k0.toNat 61 0 else 2 ^ 64 + e.k0.toNat

/-- LEARN_EVENT_QUEUE: post an event of type 0x01 or 0x02 to the die's learn engine: suppressed by the filter,
queued, or discarded when the queue holds 1,024 (R234). Other types have no use the specification gives. -/
def learnPost (d : Nat) (e : LEvent) (s : State) : State :=
  if e.ty ≠ 1 ∧ e.ty ≠ 2 then s
  else
    let hold := s.pg 0x2200 4 * 1000
    let recent := (s.die d).look.filter.any (fun x => x.1 == eventKey e && decide (s.now < x.2 + hold))
    if recent then s.dinc d 0x4640 6 1
    else if 1024 ≤ (s.die d).look.learnQ.length then s.dinc d 0x4640 5 1
    else s.onDie d (fun x => { x with look.learnQ := x.look.learnQ ++ [e] })

end Sys2Proof.Machine
end

