-- ==== Sys2Proof/Machine/Micro.lean ====
section
/-! DEFINITION. Micro-engines: the microword and its fields, operands, the ALU and its flags, the sequencer, header
access, the journal, the commit word and END (Micro-engines and Microcode). A command of a microword row issues the
whole word a thread stands at, when the word's field matches the row and its waits hold (log entry 9). -/

namespace Sys2Proof.Machine

/-! ### Fields of a microword (Table 4.1) -/

def uSeq (w : Nat) : Nat := bits w 159 156
def uCond (w : Nat) : Nat := bits w 155 150
def uInv (w : Nat) : Bool := bit w 149
def uTarget (w : Nat) : Nat := bits w 148 135
def uWait (w : Nat) : Nat := bits w 134 132
def uWaitSlot (w : Nat) : Nat := bits w 131 130
def uAlu (w : Nat) : Nat := bits w 129 124
def uDst (w : Nat) : Nat := bits w 123 119
def uSrcA (w : Nat) : Nat := bits w 118 113
def uSrcB (w : Nat) : Nat := bits w 112 107
def uMem (w : Nat) : Nat := bits w 106 102
def uReg (w : Nat) : Nat := bits w 101 97
def uOff (w : Nat) : Nat := bits w 96 89
def uLen (w : Nat) : Nat := bits w 88 85
def uSrch (w : Nat) : Nat := bits w 84 83
def uSrchSlot (w : Nat) : Nat := bits w 82 81
def uProfile (w : Nat) : Nat := bits w 80 73
def uKey (w : Nat) : Nat := bits w 72 68
def uKeyLen (w : Nat) : Nat := bits w 67 64
def uImm (w : Nat) : Nat := bits w 63 0

/-! ### Result slots (R125) -/

/-- Status of a result slot (Table 4.10). -/
def slotStatus (r : Run) (k : Nat) : Nat := bits (mget r.slots k).hdr.toNat 63 60

/-- A result slot is present: hit, miss or fault (Table 4.4). -/
def slotPresent (r : Run) (k : Nat) : Bool := decide (3 ≤ slotStatus r k) && decide (slotStatus r k ≤ 5)

/-- A result slot is pending or deferred (R119). -/
def slotOpen (r : Run) (k : Nat) : Bool := slotStatus r k == 1 || slotStatus r k == 2

/-- The header of a slot by its parts (Table 4.10). -/
def slotHdr (status source profile probes retries result : Nat) : Word :=
  BitVec.ofNat 64 (status <<< 60 ||| source <<< 56 ||| profile <<< 48 ||| probes <<< 40 ||| retries <<< 38 |||
    result % 2 ^ 32)

/-! ### Operands (Table 4.2) -/

/-- Thread status (operand 0x32). -/
def threadStatus (r : Run) : Nat :=
  b2n r.z ||| b2n r.n <<< 1 ||| b2n r.c <<< 2 ||| b2n r.v <<< 3 ||| b2n r.t <<< 4 ||| b2n r.committed <<< 5 |||
    r.stack.length <<< 8 ||| ((List.range 4).map (fun k => b2n (slotOpen r k) <<< (16 + k))).sum

/-- Identity (operand 0x34). -/
def threadId (d c t : Nat) : Nat := d <<< 10 ||| c <<< 6 ||| t

/-- The value of an operand code, or none for a reserved code. -/
def opnd (s : State) (d c t : Nat) (r : Run) (w code : Nat) : Option Word :=
  if code < 0x10 then some (mget r.g code)
  else if code < 0x14 then some ((r.desc.bits >>> (64 * (code - 0x10))).setWidth 64)
  else if 0x20 ≤ code ∧ code < 0x30 then
    let k := mget r.slots ((code - 0x20) / 4)
    some (match code % 4 with | 0 => k.hdr | 1 => k.p1 | 2 => k.p2 | _ => k.p3)
  else match code with
    | 0x30 => some (BitVec.ofNat 64 (uImm w))
    | 0x31 => some 0
    | 0x32 => some (BitVec.ofNat 64 (threadStatus r))
    | 0x33 => some (BitVec.ofNat 64 (s.nsOn d))
    | 0x34 => some (BitVec.ofNat 64 (threadId d c t))
    | _ => none

/-- An operand read; a reserved code, which the load checks of R146 keep out, reads a free value (log entry 5). -/
def readOpnd (d c t : Nat) (r : Run) (w code : Nat) (s : State) : Word × State :=
  match opnd s d c t r w code with
  | some v => (v, s)
  | none => let (f, s) := s.fresh; (BitVec.ofNat 64 f, s)

/-! ### The ALU (Table 4.3, R115) -/

/-- Leading zero bits. -/
def clz (a : Word) : Nat := if a.toNat = 0 then 64 else 63 - a.toNat.log2

/-- The field mask of EXT and INS: 2^(b[13:8] + 1) − 1. -/
def fieldMask (b : Word) : Word := BitVec.ofNat 64 (2 ^ (bits b.toNat 13 8 + 1) - 1)

/-- The position of EXT and INS and the amount of a shift: b[5:0]. -/
def fieldPos (b : Word) : Nat := bits b.toNat 5 0

/-- The result of an ALU operation on a, b and the current value of dst; none for NOP and reserved codes. -/
def aluResult (op : Nat) (a b old : Word) : Option Word :=
  match op with
  | 0x01 => some a
  | 0x02 => some (a + b)
  | 0x03 => some (a - b)
  | 0x04 => some (a &&& b)
  | 0x05 => some (a ||| b)
  | 0x06 => some (a ^^^ b)
  | 0x07 => some (a &&& ~~~b)
  | 0x08 => some (a <<< fieldPos b)
  | 0x09 => some (a >>> fieldPos b)
  | 0x0A => some ((a >>> fieldPos b) &&& fieldMask b)
  | 0x0B => some ((old &&& ~~~(fieldMask b <<< fieldPos b)) ||| ((a &&& fieldMask b) <<< fieldPos b))
  | 0x0C => some (a - b)
  | 0x0D => some (if a.toNat ≤ b.toNat then a else b)
  | 0x0E => some (if a.toNat ≤ b.toNat then b else a)
  | 0x0F => some (BitVec.ofNat 64 (popc a))
  | 0x10 => some (BitVec.ofNat 64 (clz a))
  | _ => none

/-- Carry of ADD, borrow of SUB and CMP; cleared by every other operation (R115). -/
def aluCarry (op : Nat) (a b : Word) : Bool :=
  if op = 2 then decide (2 ^ 64 ≤ a.toNat + b.toNat)
  else if op = 3 ∨ op = 0xC then decide (a.toNat < b.toNat)
  else false

/-- Signed overflow of ADD, SUB and CMP; cleared by every other operation (R115). -/
def aluOverflow (op : Nat) (a b : Word) : Bool :=
  let x : Int := if op = 2 then a.toInt + b.toInt else a.toInt - b.toInt
  if op = 2 ∨ op = 3 ∨ op = 0xC then decide (x < -(2 ^ 63)) || decide (2 ^ 63 ≤ x) else false

/-- Write a register g0 to g15; other destinations write nothing. -/
def Run.setG (r : Run) (k : Nat) (v : Word) : Run := if k < 16 then { r with g := mput r.g k v } else r

/-- The run after the ALU field of a word: register and flags (R115). CMP writes no register. An INS that names no dst has no
current dst: 0 stands for it (log entry 91). -/
def runAlu (op dst : Nat) (a b : Word) (r : Run) : Run :=
  match aluResult op a b (mget r.g dst) with
  | none => r
  | some x =>
    let r := if op = 0xC then r else r.setG dst x
    { r with z := decide (x = 0), n := x.msb, c := aluCarry op a b, v := aluOverflow op a b }

/-! ### Conditions and the sequencer (Tables 4.4 and 4.5) -/

/-- A condition on the run as it stood before the word (R116); reserved codes are never true. -/
def condHolds (r : Run) (code : Nat) : Bool :=
  if 0x20 ≤ code then (mget r.g 14).getLsbD (code - 0x20)
  else if 0x08 ≤ code ∧ code < 0x0C then slotPresent r (code - 8)
  else if 0x0C ≤ code ∧ code < 0x10 then slotStatus r (code - 0xC) == 3
  else match code with
    | 0 => true
    | 1 => r.z
    | 2 => r.n
    | 3 => r.c
    | 4 => r.v
    | 5 => r.t
    | 6 => r.committed
    | _ => false

/-- A word's condition, inverted when cond_inv is 1. -/
def wordCond (r : Run) (w : Nat) : Bool := condHolds r (uCond w) != uInv w

/-- The next word address and the call stack (Table 4.5), from the run before the word and the word's ALU result. -/
def nextAddr (r : Run) (w : Nat) (res : Word) : BitVec 14 × List (BitVec 14) :=
  let go := wordCond r w
  let tgt := BitVec.ofNat 14 (uTarget w)
  match uSeq w with
  | 1 => (if go then tgt else r.pc + 1, r.stack)
  | 2 => (BitVec.ofNat 14 (uTarget w / 16 * 16 + bits res.toNat 3 0), r.stack)
  | 3 => if go then (tgt, (r.pc + 1) :: r.stack) else (r.pc + 1, r.stack)
  | 4 => match go, r.stack with
    | true, a :: k => (a, k)
    | _, _ => (r.pc + 1, r.stack)
  | _ => (r.pc + 1, r.stack)

/-! ### Header window access (R120, R121) -/

/-- The offsets a header access covers: they wrap past 255 (R120). -/
def hdrOffsets (off n : Nat) : List Nat := (List.range n).map (fun i => (off + i) % 256)

/-- A header load: the bytes, and whether any lay past a limit. The window holds what lies below both limits. Of more than 8
bytes the register takes the last 8 (log entry 91). -/
def hdrLoad (win : Bytes) (off n : Nat) : Word × Bool :=
  (BitVec.ofNat 64 (beNat ((hdrOffsets off n).map (fun o => win.getD o 0))), (hdrOffsets off n).any (fun o => decide (win.length ≤ o)))

/-- A journaled header write applied to the rewrite window: bytes past the limits are discarded (R121). Of more than 8 bytes
those ahead of the register's 8 are zeros (log entry 91). -/
def hdrWrite (limit off n : Nat) (v : Word) (win : Bytes) : Bytes :=
  ((List.range n).map (fun i => ((off + i) % 256, BitVec.ofNat 8 (v.toNat >>> (8 * (n - 1 - i)))))).foldl
    (fun w x => if x.1 < limit then w.set x.1 x.2 else w) win

/-- A header or descriptor offset of a word: fixed, or indexed by g15[7:0] (Table 4.7). -/
def hdrOff (r : Run) (w : Nat) : Nat :=
  if uMem w = 2 ∨ uMem w = 4 then (uOff w + bits (mget r.g 15).toNat 7 0) % 256 else uOff w

/-! ### The journal (R129 to R132) -/

/-- A write to a descriptor field of Table 4.8, low bits of the value (R122). -/
def setDesc (sel : Nat) (v : Word) (x : Desc) : Desc :=
  match sel with
  | 0 => { x with destKind := v.setWidth 2 }
  | 1 => { x with dest := v.setWidth 20 }
  | 2 => { x with tc := v.setWidth 3 }
  | 3 => { x with colour := v.setWidth 2 }
  | 4 => { x with voq := v.setWidth 16 }
  | 5 => { x with dropReason := v.setWidth 8 }
  | 6 => { x with mirror := v.setWidth 1 }
  | 7 => { x with mirrorSession := v.setWidth 6 }
  | 8 => { x with cutOk := v.setWidth 1 }
  | 9 => { x with tsReq := v.setWidth 1 }
  | 10 => { x with l3 := v.setWidth 8 }
  | 11 => { x with l4 := v.setWidth 8 }
  | 12 => { x with strip := v.setWidth 8 }
  | 13 => { x with encap := v.setWidth 18 }
  | _ => x

/-- The journal entry a word makes, if any, with the run as it stood before the word. -/
def wordEntry (r : Run) (w : Nat) : Option JEntry :=
  let v := mget r.g (uReg w)
  match uMem w with
  | 3 | 4 => some { op := 3, offset := hdrOff r w, len := uLen w + 1, val := v }
  | 5 | 6 | 7 => some { op := uMem w, offset := uOff w, len := uLen w, val := v }
  | 8 => some { op := 8, offset := uOff w, len := uLen w, val := v }
  | 9 => some { op := 9, offset := uOff w, len := uLen w, val := v, val2 := mget r.g (uReg w + 1) }
  | _ => none

/-- Journal entries in use (R129, R132): written, applied and not drained, and those of the second group. -/
def journalUsed (r : Run) : Nat := r.journal.length + r.draining + r.tail.length

/-- The context updates of a journal group, for the homes of their contexts (R296); those of slots that hold no context read are
discarded. -/
def groupUpdates (r : Run) (l : List JEntry) : List (Nat × Nat × Nat × Word) :=
  l.filterMap (fun e => match e.op, (mget r.slots (e.offset % 4)).ctx, slotStatus r (e.offset % 4) with
    | 8, some c, 3 => some (c, e.offset / 4, e.len, e.val)
    | _, _, _ => none)

/-- Apply one entry to a packet's descriptor and rewrite window, on the die that ran it (Table 4.11). Context updates go to
their homes as a group (`groupUpdates`). -/
def applyEntry (d c : Nat) (r : Run) (e : JEntry) (x : Desc × Bytes × State) : Desc × Bytes × State :=
  let (dsc, win, s) := x
  match e.op with
  | 3 => (dsc, hdrWrite r.win.length e.offset e.len e.val win, s)
  | 5 => (setDesc e.offset e.val dsc, win, s)
  | 6 => (dsc, win, countAdd d (bits e.val.toNat 23 0) dsc.length.toNat s)
  | 7 => let (dsc, s) := meterCharge d c (bits e.val.toNat 18 0) dsc s; (dsc, win, s)
  | 9 => (dsc, win, learnPost d { ty := e.offset, k0 := e.val, k1 := e.val2 } s)
  | _ => (dsc, win, s)

/-- The slots named by context updates of a group. -/
def ctxSlots (l : List JEntry) : List Nat := (l.filter (fun e => e.op == 8)).map (fun e => e.offset % 4)

/-! ### Issue (R109, R118, R119) -/

/-- The commit word acts with this word: COMMIT, or END in a run that has not committed (R131). -/
def wordCommits (r : Run) (w : Nat) : Bool := (uMem w == 0xA || uSeq w == 5) && !r.committed

/-- The result slots whose presence a word waits for (R118, R119, R130, R296). -/
def waitSlots (r : Run) (w : Nat) : List Nat :=
  (if uWait w = 1 then [uWaitSlot w].filter (fun k => !slotPresent r k) else []) ++
  (if uWait w = 2 then (List.range 4).filter (fun k => r.issued.getLsbD k && !slotPresent r k) else []) ++
  (if uSrch w = 1 then [uSrchSlot w].filter (slotOpen r) else []) ++
  (if wordCommits r w then (ctxSlots (r.journal ++ (wordEntry r w).toList)).filter
      (fun k => !(slotPresent r k && (mget r.slots k).ctx.isSome)) else []) ++
  (if uSeq w = 5 && r.committed then (ctxSlots (r.tail ++ (wordEntry r w).toList)).filter (slotOpen r) else [])

/-- A run's release of its pins and its lock can be sent to their homes now (R31). -/
def relFree (s : State) (d : Nat) (r : Run) : Bool := (r.pins ++ r.lock.toList).all (fun c => saddleFree s d (ctxHome s c) 2)

/-- What a commit word or an END sends to other dies can leave now (R31): the context updates of its group (R296), what END
releases (R295, R300), and the return record (R86). -/
def sendsFree (s : State) (d : Nat) (r : Run) (w : Nat) : Bool :=
  let es := (if wordCommits r w then r.journal else if uSeq w = 5 then r.tail else []) ++ (wordEntry r w).toList
  (!(wordCommits r w || uSeq w == 5) || (groupUpdates r es).all (fun e => saddleFree s d (ctxHome s e.1) 2)) &&
    (uSeq w != 5 || relFree s d r) && (!wordCommits r w || saddleFree s d (s.pkt r.pkt).die 3)

/-- A word of a control store is being reloaded (R140, R552). -/
def underReload (k : Cluster) (a : Nat) : Bool := k.reloading.contains a || k.testing.contains a

/-- The word of a thread has all it waits for but the counter read port (R109): a run is present and not parking, its address is
not under reload, and its other waits hold. -/
def waitsHold (s : State) (d c t : Nat) (r : Run) (w : Nat) : Bool :=
  !r.ended && (thread s d c t).parking.isNone && !underReload (cluster s d c) r.pc.toNat &&
    mget (cluster s d c).parity r.pc.toNat == 0 &&
    (waitSlots r w).isEmpty &&
    (!(uWait w == 3 || (wordEntry r w).isSome) || decide (journalUsed r < 16)) &&
    (uSrch w != 1 || decide ((mget (s.die d).look.units (c % 4)).staging.length < 64)) && sendsFree s d r w

/-- The word a thread stands at. -/
def threadWord (s : State) (d c : Nat) (r : Run) : Nat := (mget (cluster s d c).store r.pc.toNat).toNat

/-- A thread asks for the counter read port of its cluster (R118, R562): it stands at a CNTRD word with wait code 4 that waits for
nothing else. A word with wait code 4 and another operation is never granted (log entry 91). -/
def asksCounter (s : State) (d c t : Nat) : Bool :=
  match (thread s d c t).run with
  | none => false
  | some r => let w := threadWord s d c r; uWait w == 4 && uMem w == 0xB && waitsHold s d c t r w

/-- The thread the counter read port of a cluster grants in this cycle: the first of those that ask at or after the pointer
(R562, R21, R22). -/
def counterGrant (s : State) (d c : Nat) : Option Nat := arbiter 64 (cluster s d c).ptrCnt (asksCounter s d c)

/-- A word can issue (R109): its waits hold, and the counter read port grants a thread that waits for it. -/
def canIssue (s : State) (d c t : Nat) (r : Run) (w : Nat) : Bool :=
  waitsHold s d c t r w && (uWait w != 4 || counterGrant s d c == some t)

/-! ### Searches and counter reads (R124, R562) -/

/-- The request header of a search (Table 4.9). -/
def reqHdr (d c t : Nat) (gen : BitVec 2) (r : Run) (w : Nat) : Word :=
  BitVec.ofNat 64 (uProfile w <<< 56 ||| d <<< 53 ||| c <<< 49 ||| t <<< 43 ||| uSrchSlot w <<< 41 ||| gen.toNat <<< 39 |||
    uKeyLen w <<< 35 ||| r.desc.epoch.toNat <<< 31)

/-- The search a word issues: the request goes to search unit c mod 4, and its slot is pending (R124, R190). -/
def issueSearch (d c t : Nat) (r : Run) (w : Nat) (x : Run × State) : Run × State :=
  if uSrch w ≠ 1 then x
  else
    let (n, s) := x
    let q : SReq := { hdr := reqHdr d c t r.gen r w, die := d, rid := r.rid, mark := (s.die d).look.writes, addr := r.pc.toNat
                      keys := (List.range (uKeyLen w + 1)).map (fun i => mget r.g (uKey w + i)) }
    let s := s.onDie d (fun x => { x with look.units := mmod x.look.units (c % 4) (fun u => { u with reqs := u.reqs ++ [q] }) })
    let s := perfNote d c 0x0B 1 { c := c, t := t, addr := r.pc.toNat, tag := some (searchTag r.rid (uSrchSlot w)) } s
    let s := perfEvent d (16 + c % 4) 0x40 1 c t r.pc.toNat s
    ({ n with slots := mput n.slots (uSrchSlot w) { hdr := slotHdr 1 0 (uProfile w) 0 0 0 }
              issued := n.issued ||| (1 <<< uSrchSlot w), srchAt := mput n.srchAt (uSrchSlot w) r.pc.toNat }, s)

/-- What CNTRD returns (R123, R562): none when the cluster's permission does not allow it. -/
def cntrd (s : State) (d c off : Nat) : Option Nat :=
  if !bit (s.dg d 0x45A0 c) 1 then none
  else if off < 8 then some (s.dg d (0x4580 + c) (0x20 + off))
  else some (setCycles s d c % 2 ^ 64)

/-- The run after the memory field of a word: a load, a counter read, or a journal entry. -/
def runMem (d c : Nat) (r0 : Run) (w : Nat) (x : Run × State) : Run × State :=
  let (r, s) := x
  match uMem w with
  | 1 | 2 =>
    let (v, past) := hdrLoad r0.win (hdrOff r0 w) (uLen w + 1)
    ({ r.setG (uReg w) v with t := r.t || past }, s)
  | 0xB =>
    if 9 ≤ uOff w then let (f, s) := s.fresh; (r.setG (uReg w) (BitVec.ofNat 64 f), s)
    else match cntrd s d c (uOff w) with
      | none => ({ r.setG (uReg w) 0 with z := true }, s)
      | some v => (r.setG (uReg w) (BitVec.ofNat 64 v), s)
  | _ =>
    match wordEntry r0 w with
    | none => (r, s)
    | some e =>
      let past := e.op == 3 && (hdrOffsets e.offset e.len).any (fun o => decide (r0.win.length ≤ o))
      let r := { r with t := r.t || past }
      (if r0.committed then { r with tail := r.tail ++ [e] } else { r with journal := r.journal ++ [e] }, s)

/-! ### Machine checks (R139, R141) -/

/-- Record a machine check (Table 4.13), count it and send its Notice of kind 0x102. -/
def machineCheck (d c t addr cause : Nat) (committed : Bool) (dsc : Desc) (s : State) : State :=
  let rec13 := d <<< 125 ||| c <<< 121 ||| t <<< 115 ||| addr <<< 101 ||| cause <<< 97 ||| b2n committed <<< 96 |||
    dsc.flowBucket.toNat <<< 73 ||| dsc.seq.toNat <<< 49 ||| s.nsOn d % 2 ^ 48
  let s := s.dset d 0x4541 1 rec13
  let s := (s.dinc d 0x4541 2 1).dinc d (0x4550 + c) 6 1
  let s := s.onDie d (fun x => { x with core.machineChecks := x.core.machineChecks ++ [rec13] })
  let s := perfEvent d c 0x11 1 c t addr s
  s.report d 4 c 1 0x102 (addr <<< 34 ||| cause <<< 30 ||| b2n committed <<< 29 ||| t <<< 23)

/-! ### Commit and END (R129 to R131) -/

/-- The journal is discarded before commit: the run's words were wasted (R560). -/
def wasted (d c t : Nat) (r : Run) (s : State) : State := perfEvent d c 0x03 r.words c t r.pc.toNat s

/-- The commit word of a run on a thread (R130): the run's journal applied as one, or the packet's end. -/
def commitRun (d c t : Nat) (s0 : State) : State :=
  match (thread s0 d c t).run with
  | none => s0
  | some r =>
    let s := perfNote d c 0x08 1 { c := c, t := t, addr := r.pc.toNat, lat := engSince s0 r.began } (s0.dinc d (0x4550 + c) 1 1)
    let p := s.pkt r.pkt
    match p.tail with
    | .bad reason => badAfterDispatch r.pkt reason (wasted d c t r s)
    | _ =>
      let (dsc, win, s1) := r.journal.foldl (fun x e => applyEntry d c r e x) (p.desc, p.rw, s)
      if dsc.destKind = 3 ∧ dsc.dropReason = 0 then
        dropPkt d r.pkt 0x0E (machineCheck d c t r.pc.toNat 2 false r.desc (wasted d c t r s))
      else
        let s := shipUpdates d (groupUpdates r r.journal) s1
        let s := s.onPkt r.pkt (fun p => { p with desc := dsc, rw := win, committed := true })
        let s := onThread s d c t (fun h => { h with run := h.run.map (fun r =>
          { r with committed := true, draining := r.journal.length, journal := [] }) })
        let s := mirrorAsk r.pkt (s.stage r.pkt .returning)
        if dsc.destKind = 3 then dropPkt d r.pkt dsc.dropReason.toNat s
        else if namesRecirc dsc ∧ dsc.pass = 3 then dropPkt d r.pkt 0x0C s
        else
          let s := s.when (!namesRecirc dsc) (endHolder r.pkt)
          if d = p.die then (s.onDie d (fun x => { x with eng.rewriteQ := x.eng.rewriteQ ++ [r.pkt] })).stage r.pkt .rewrite
          else s.send d p.die (.ret r.pkt)

/-- An ended run whose entries have drained lets go of its pins, lock and thread (R131, R295, R300). -/
def endDrained (d c t : Nat) (s : State) : State :=
  match (thread s d c t).run with
  | some r => if r.ended && r.draining == 0 then freeThread d c t (releaseRun d r s) else s
  | none => s

/-- END of a committed run (R131, R135): the second group is applied as one, or discarded after a deferred fault. A packet
on its way to recirculation whose epoch has expired ends here (R279). -/
def endRun (d c t : Nat) (s : State) : State :=
  match (thread s d c t).run with
  | none => s
  | some r =>
    let s := perfEvent d c 0x02 r.words c t r.pc.toNat s
    let s := if r.tailFault then s.dinc d (0x4550 + c) 4 r.tail.length
      else shipUpdates d (groupUpdates r r.tail) (r.tail.foldl (fun x e => applyEntry d c r e x) (r.desc, r.win, s)).2.2
    let n := if r.tailFault then 0 else r.tail.length
    let s := onThread s d c t (fun h => { h with run := h.run.map (fun r =>
      { r with ended := true, draining := r.draining + n, tail := [] }) })
    let s := endDrained d c t s
    if expired s (s.pkt r.pkt) then dropPkt d r.pkt 0x0B s else s

/-- The cycles of an engine are slots (R559): its cluster is in service, and it is not removed from dispatch. -/
def engineServes (s : State) (d c e : Nat) : Bool := inService s d c && !(cluster s d c).noStart.getLsbD e

/-- The effect of issuing the word a thread stands at (R112): every operand is read before any field writes. A word whose
alu_op is NOP has no result: an MWAY in it takes 0 for its low four bits (log entry 91). A journal operation in an END word
that acts as commit word belongs to the first group (log entry 91). -/
def runWord (d c t w : Nat) (r0 : Run) (s : State) : State :=
  let (a, s) := readOpnd d c t r0 w (uSrcA w) s
  let (b, s) := readOpnd d c t r0 w (uSrcB w) s
  let res := (aluResult (uAlu w) a b (mget r0.g (uDst w))).getD 0
  let r := runAlu (uAlu w) (uDst w) a b r0
  let (r, s) := runMem d c r0 w (issueSearch d c t r0 w (r, s))
  let (pc, stack) := nextAddr r0 w res
  let last := uMem w == 0xA || uSeq w == 5
  let r := { r with pc := if last then r0.pc else pc, stack := stack, words := r.words + b2n (engineServes s d c (t / 4)), stay := false }
  let s := onThread s d c t (fun h => { h with run := some r })
  let s := perfEvent d c 0x06 1 c t r0.pc.toNat (perfEvent d c 0x01 (b2n (engineServes s d c (t / 4))) c t r0.pc.toNat s)
  let s := if wordCommits r0 w then commitRun d c t s else s
  let alive := ((thread s d c t).run.map (·.rid)) == some r0.rid
  if !alive then s
  else
    let s := onThread s d c t (fun h => { h with run := h.run.map (fun r => { r with pc := pc }) })
    if uSeq w = 5 then endRun d c t s else s

/-- A thread is ready (R109): it holds a routine whose word can issue. -/
def threadReady (s : State) (d c t : Nat) : Bool :=
  match (thread s d c t).run with
  | none => false
  | some r => canIssue s d c t r (threadWord s d c r)

/-- The engine's issue slot goes to a thread (R108): the first ready one at or after the pointer, of its threads 0 to 3. -/
def hasSlot (s : State) (d c t : Nat) : Bool :=
  arbiter 4 (mget (cluster s d c).ptrIssue (t / 4)) (fun j => threadReady s d c (t / 4 * 4 + j)) == some (t % 4)

/-- The word of a thread issues: the pointer of its engine's issue slot moves past the thread, and that of the counter read port
when it was granted (R23, R562). -/
def issueWord (d c t w : Nat) (r : Run) (s : State) : State :=
  runWord d c t w r (onCluster s d c (fun k => { k with
    ptrIssue := mput k.ptrIssue (t / 4) ((t % 4 + 1) % 4)
    ptrCnt := if uWait w = 4 then (t + 1) % 64 else k.ptrCnt }))

/-- CS_FETCH_PARITY_FAIL (R139): the fetch of a thread's next word fails parity, and `fails` of its re-reads fail as
well. At most two re-reads are made; a word that failed its reload keeps failing (R140). A word whose re-read passes executes
when the issue slot is its thread's in that cycle, otherwise in a later one (R108). -/
def fetchFail (d c t fails : Nat) (s : State) : State :=
  match (thread s d c t).run with
  | none => s
  | some r =>
    let a := r.pc.toNat
    let known := mget (cluster s d c).parity a != 0
    let fails := if known then 2 else fails
    if r.ended || underReload (cluster s d c) a || (thread s d c t).parking.isSome then s
    else
      let s := perfEvent d c 0x10 (min (fails + 1) 2) c t a s
      if fails < 2 then
        let s := s.dinc d (0x4550 + c) 5 1
        let s := s.report d 4 c 2 0x101 a
        let w := threadWord s d c r
        if hasSlot s d c t then issueWord d c t w r s else s
      else
        let s := machineCheck d c t a 1 r.committed r.desc s
        let s :=
          if r.committed then freeThread d c t (releaseRun d r (s.dinc d (0x4550 + c) 4 r.tail.length))
          else dropPkt d r.pkt 0x0E (wasted d c t r s)
        if known then s else onCluster s d c (fun k => { k with reloading := a :: k.reloading })

/-- Issue the word of a thread when its field is the row's and the engine's issue slot is the thread's in this cycle;
otherwise nothing happens (log entry 3). Its fetch may meet an injected parity flip (R541). -/
def issue (d c t : Nat) (row : Nat → Bool) (s : State) : State :=
  match (thread s d c t).run with
  | none => s
  | some r =>
    let w := threadWord s d c r
    if row w && hasSlot s d c t then
      match s.flipAt d 4 c r.pc.toNat with
      | some f => fetchFail d c t (f.2.2.2 - 1) (spendFlip d f f.2.2.2 s)
      | none => issueWord d c t w r s
    else s

/-- JOURNAL_ENTRY_DRAIN (R129): one applied entry drains and frees its entry; the last one of an ended run waits while its release
cannot be sent (R31). -/
def entryDrain (d c t : Nat) (s : State) : State :=
  match (thread s d c t).run with
  | none => s
  | some r =>
    if r.draining = 0 ∨ (r.ended && r.draining == 1 && !relFree s d r) then s
    else endDrained d c t (onThread s d c t (fun h => { h with run := some { r with draining := r.draining - 1 } }))

/-- NOP: issue a word whose field is the row's. -/
def execNop (d : DieId) (c : ClusterId) (t : ThreadId) (s : State) : Host.Outcome State Fault Refusal :=
  onLive d (issue d c t (fun w => uAlu w == 0)) s
/-- MOV: issue a word whose field is the row's. -/
def execMov (d : DieId) (c : ClusterId) (t : ThreadId) (s : State) : Host.Outcome State Fault Refusal :=
  onLive d (issue d c t (fun w => uAlu w == 1)) s
/-- ADD: issue a word whose field is the row's. -/
def execAdd (d : DieId) (c : ClusterId) (t : ThreadId) (s : State) : Host.Outcome State Fault Refusal :=
  onLive d (issue d c t (fun w => uAlu w == 2)) s
/-- SUB: issue a word whose field is the row's. -/
def execSub (d : DieId) (c : ClusterId) (t : ThreadId) (s : State) : Host.Outcome State Fault Refusal :=
  onLive d (issue d c t (fun w => uAlu w == 3)) s
/-- AND: issue a word whose field is the row's. -/
def execAnd (d : DieId) (c : ClusterId) (t : ThreadId) (s : State) : Host.Outcome State Fault Refusal :=
  onLive d (issue d c t (fun w => uAlu w == 4)) s
/-- OR: issue a word whose field is the row's. -/
def execOr (d : DieId) (c : ClusterId) (t : ThreadId) (s : State) : Host.Outcome State Fault Refusal :=
  onLive d (issue d c t (fun w => uAlu w == 5)) s
/-- XOR: issue a word whose field is the row's. -/
def execXor (d : DieId) (c : ClusterId) (t : ThreadId) (s : State) : Host.Outcome State Fault Refusal :=
  onLive d (issue d c t (fun w => uAlu w == 6)) s
/-- ANDN: issue a word whose field is the row's. -/
def execAndn (d : DieId) (c : ClusterId) (t : ThreadId) (s : State) : Host.Outcome State Fault Refusal :=
  onLive d (issue d c t (fun w => uAlu w == 7)) s
/-- SHL: issue a word whose field is the row's. -/
def execShl (d : DieId) (c : ClusterId) (t : ThreadId) (s : State) : Host.Outcome State Fault Refusal :=
  onLive d (issue d c t (fun w => uAlu w == 8)) s
/-- SHR: issue a word whose field is the row's. -/
def execShr (d : DieId) (c : ClusterId) (t : ThreadId) (s : State) : Host.Outcome State Fault Refusal :=
  onLive d (issue d c t (fun w => uAlu w == 9)) s
/-- EXT: issue a word whose field is the row's. -/
def execExt (d : DieId) (c : ClusterId) (t : ThreadId) (s : State) : Host.Outcome State Fault Refusal :=
  onLive d (issue d c t (fun w => uAlu w == 10)) s
/-- INS: issue a word whose field is the row's. -/
def execIns (d : DieId) (c : ClusterId) (t : ThreadId) (s : State) : Host.Outcome State Fault Refusal :=
  onLive d (issue d c t (fun w => uAlu w == 11)) s
/-- CMP: issue a word whose field is the row's. -/
def execCmp (d : DieId) (c : ClusterId) (t : ThreadId) (s : State) : Host.Outcome State Fault Refusal :=
  onLive d (issue d c t (fun w => uAlu w == 12)) s
/-- MINU: issue a word whose field is the row's. -/
def execMinu (d : DieId) (c : ClusterId) (t : ThreadId) (s : State) : Host.Outcome State Fault Refusal :=
  onLive d (issue d c t (fun w => uAlu w == 13)) s
/-- MAXU: issue a word whose field is the row's. -/
def execMaxu (d : DieId) (c : ClusterId) (t : ThreadId) (s : State) : Host.Outcome State Fault Refusal :=
  onLive d (issue d c t (fun w => uAlu w == 14)) s
/-- POPC: issue a word whose field is the row's. -/
def execPopc (d : DieId) (c : ClusterId) (t : ThreadId) (s : State) : Host.Outcome State Fault Refusal :=
  onLive d (issue d c t (fun w => uAlu w == 15)) s
/-- CLZ: issue a word whose field is the row's. -/
def execClz (d : DieId) (c : ClusterId) (t : ThreadId) (s : State) : Host.Outcome State Fault Refusal :=
  onLive d (issue d c t (fun w => uAlu w == 16)) s
/-- NEXT: issue a word whose field is the row's. -/
def execNext (d : DieId) (c : ClusterId) (t : ThreadId) (s : State) : Host.Outcome State Fault Refusal :=
  onLive d (issue d c t (fun w => uSeq w == 0)) s
/-- JUMP: issue a word whose field is the row's. -/
def execJump (d : DieId) (c : ClusterId) (t : ThreadId) (s : State) : Host.Outcome State Fault Refusal :=
  onLive d (issue d c t (fun w => uSeq w == 1)) s
/-- MWAY: issue a word whose field is the row's. -/
def execMway (d : DieId) (c : ClusterId) (t : ThreadId) (s : State) : Host.Outcome State Fault Refusal :=
  onLive d (issue d c t (fun w => uSeq w == 2)) s
/-- CALL: issue a word whose field is the row's. -/
def execCall (d : DieId) (c : ClusterId) (t : ThreadId) (s : State) : Host.Outcome State Fault Refusal :=
  onLive d (issue d c t (fun w => uSeq w == 3)) s
/-- RET: issue a word whose field is the row's. -/
def execRet (d : DieId) (c : ClusterId) (t : ThreadId) (s : State) : Host.Outcome State Fault Refusal :=
  onLive d (issue d c t (fun w => uSeq w == 4)) s
/-- END: issue a word whose field is the row's. -/
def execEnd (d : DieId) (c : ClusterId) (t : ThreadId) (s : State) : Host.Outcome State Fault Refusal :=
  onLive d (issue d c t (fun w => uSeq w == 5)) s
/-- LDH: issue a word whose field is the row's. -/
def execLdh (d : DieId) (c : ClusterId) (t : ThreadId) (s : State) : Host.Outcome State Fault Refusal :=
  onLive d (issue d c t (fun w => uMem w == 1)) s
/-- LDHX: issue a word whose field is the row's. -/
def execLdhx (d : DieId) (c : ClusterId) (t : ThreadId) (s : State) : Host.Outcome State Fault Refusal :=
  onLive d (issue d c t (fun w => uMem w == 2)) s
/-- JHDR: issue a word whose field is the row's. -/
def execJhdr (d : DieId) (c : ClusterId) (t : ThreadId) (s : State) : Host.Outcome State Fault Refusal :=
  onLive d (issue d c t (fun w => uMem w == 3)) s
/-- JHDRX: issue a word whose field is the row's. -/
def execJhdrx (d : DieId) (c : ClusterId) (t : ThreadId) (s : State) : Host.Outcome State Fault Refusal :=
  onLive d (issue d c t (fun w => uMem w == 4)) s
/-- JDESC: issue a word whose field is the row's. -/
def execJdesc (d : DieId) (c : ClusterId) (t : ThreadId) (s : State) : Host.Outcome State Fault Refusal :=
  onLive d (issue d c t (fun w => uMem w == 5)) s
/-- JCNT: issue a word whose field is the row's. -/
def execJcnt (d : DieId) (c : ClusterId) (t : ThreadId) (s : State) : Host.Outcome State Fault Refusal :=
  onLive d (issue d c t (fun w => uMem w == 6)) s
/-- JMETER: issue a word whose field is the row's. -/
def execJmeter (d : DieId) (c : ClusterId) (t : ThreadId) (s : State) : Host.Outcome State Fault Refusal :=
  onLive d (issue d c t (fun w => uMem w == 7)) s
/-- JCTX: issue a word whose field is the row's. -/
def execJctx (d : DieId) (c : ClusterId) (t : ThreadId) (s : State) : Host.Outcome State Fault Refusal :=
  onLive d (issue d c t (fun w => uMem w == 8)) s
/-- JEVT: issue a word whose field is the row's. -/
def execJevt (d : DieId) (c : ClusterId) (t : ThreadId) (s : State) : Host.Outcome State Fault Refusal :=
  onLive d (issue d c t (fun w => uMem w == 9)) s
/-- COMMIT: issue a word whose field is the row's. -/
def execCommit (d : DieId) (c : ClusterId) (t : ThreadId) (s : State) : Host.Outcome State Fault Refusal :=
  onLive d (issue d c t (fun w => uMem w == 10)) s
/-- CNTRD: issue a word whose field is the row's; the counter read port must grant the thread (R562). -/
def execCntrd (d : DieId) (c : ClusterId) (t : ThreadId) (s : State) : Host.Outcome State Fault Refusal :=
  onLive d (issue d c t (fun w => uMem w == 11)) s
/-- SEARCH_ISSUE: issue a word that sends a search. -/
def execSearchIssue (d : DieId) (c : ClusterId) (t : ThreadId) (s : State) : Host.Outcome State Fault Refusal :=
  onLive d (issue d c t (fun w => uSrch w == 1)) s
/-- JOURNAL_ENTRY_DRAIN of one thread. -/
def execJournalEntryDrain (d : DieId) (c : ClusterId) (t : ThreadId) (s : State) : Host.Outcome State Fault Refusal :=
  onLive d (entryDrain d c t) s

end Sys2Proof.Machine
end

