-- ==== Sys2Proof/Machine/Threads.lean ====
section
/-! DEFINITION. Threads: starting, parking, resuming, pre-emption and restart, and search responses (Dispatch, Work
Stealing and Resequencing; Micro-engines and Microcode; Flow Contexts and the Context Map). -/

namespace Sys2Proof.Machine

/-! ### Runs by their number -/

/-- Where a run stands: a thread (cluster, thread) or a park context. -/
inductive RunAt
  | thread (c t : Nat) | park (x : Nat)
  deriving DecidableEq, Repr

/-- Find a run of a die by its number, with its place. -/
def findRun (s : State) (d rid : Nat) : Option (RunAt × Run) :=
  let e := (s.die d).eng
  let th := e.clusters.findSome? (fun k => k.2.threads.findSome? (fun h =>
    match h.2.run with
    | some r => if r.rid = rid then some (RunAt.thread k.1 h.1, r) else none
    | none => none))
  match th with
  | some x => some x
  | none => e.park.findSome? (fun k =>
    match k.2.run with
    | some r => if r.rid = rid then some (RunAt.park k.1, r) else none
    | none => none)

/-- Put a run back at its place. -/
def putRun (d : Nat) (a : RunAt) (r : Run) (s : State) : State :=
  match a with
  | .thread c t => onThread s d c t (fun h => { h with run := some r })
  | .park x => s.onDie d (fun y => { y with eng.park := mmod y.eng.park x (fun k => { k with run := some r }) })

/-- The cluster and thread number of a place, the thread as parked. -/
def placeCT (s : State) (d : Nat) : RunAt → Nat × Nat
  | .thread c t => (c, t)
  | .park x => let k := mget (s.die d).eng.park x; (k.cluster, k.thread)

/-- Change the run of that number, wherever it stands; a run that has gone stays gone (R125). -/
def onRun (d rid : Nat) (f : Run → Run) (s : State) : State :=
  match findRun s d rid with
  | some (a, r) => putRun d a (f r) s
  | none => s

/-- Status deferred reaches the slot of a request that waits in a queue (R126). -/
def deferSlot (d rid sl : Nat) (s : State) : State :=
  match findRun s d rid with
  | none => s
  | some (a, r) =>
    let k := mget r.slots sl
    let s := putRun d a { r with slots := mput r.slots sl { k with hdr := slotHdr 2 0 (bits k.hdr.toNat 55 48) 0 0 0 } } s
    let (c, t) := placeCT s d a
    perfEvent d c 0x0C 1 c t r.pc.toNat s

/-! ### Starting (R93, R94) -/

/-- The word of a parked run's wait holds (R128). -/
def parkReady (s : State) (d : Nat) (k : ParkCtx) : Bool :=
  match k.run with
  | some r => (waitSlots r (threadWord s d k.cluster r)).isEmpty
  | none => k.fault.isSome && k.ready

/-- Contexts of a cluster that are ready to resume or restart. -/
def readyCount (s : State) (d c : Nat) : Nat :=
  ((s.die d).eng.park.filter (fun x => x.2.cluster == c && parkReady s d x.2)).length

/-- The thread a new run takes: a free one by rotation, if any (R93). -/
def nextThread (s : State) (d c : Nat) : Option Nat := arbiter 64 (cluster s d c).ptrStart (canTake s d c)

/-- Threads of a cluster a run can take. -/
def takeable (s : State) (d c : Nat) : Nat := ((List.range 64).filter (canTake s d c)).length

/-- THREAD_START (R93, R94, R197, R279). -/
def threadStart (d c : Nat) (s : State) : State :=
  match (cluster s d c).queue with
  | [] => s
  | i :: r =>
    if (s.die d).look.deepHold || !inService s d c || decide (takeable s d c ≤ readyCount s d c) then s
    else match nextThread s d c with
      | none => s
      | some t =>
        let s := onCluster s d c (fun k => { k with queue := r })
        if expired s (s.pkt i) then dropPkt d i 0x0B (s.stage i .parsed)
        else
          let s := onCluster s d c (fun k => { k with ptrStart := (t + 1) % 64 })
          let s := s.dinc d (0x4510 + c) 5 1
          let s := startRun d c t i (thread s d c t).runGen s
          let o : Occ := { c := c, t := t, addr := (entryAddr (cluster s d c) (s.pkt i)).toNat, lat := engSince s (s.pkt i).queuedAt }
          moveWaiting d (perfNote d c 0x07 1 o s)

/-! ### Parking (R95, R96, R127, R128) -/

/-- Park contexts a cluster holds. -/
def parkHeld (s : State) (d c : Nat) : Nat := ((s.die d).eng.park.filter (fun x => x.2.cluster == c)).length

/-- The park pool grants a cluster a context (R95). -/
def parkGrants (s : State) (d c : Nat) : Bool :=
  let free := 4096 - (s.die d).eng.park.length
  let g := s.dg d 0x4500 8
  let unused := ((List.range 16).map (fun k => g - parkHeld s d k)).sum
  decide (0 < free) && decide (parkHeld s d c < s.dg d 0x4500 9) && (decide (parkHeld s d c < g) || decide (unused < free))

/-- The lowest free park context. -/
def freeParkNo (s : State) (d : Nat) : Option Nat :=
  (lowestFree (fun x => (mget? (s.die d).eng.park x).isSome) 4096 0 1).head?

/-- A thread asks to park (R127): its word waits on a deferred slot, and neither commit nor a refusal stands in the way. -/
def parkAsks (s : State) (d c t : Nat) : Bool :=
  match (thread s d c t).run with
  | none => false
  | some r =>
    !r.committed && !r.ended && !r.stay && (thread s d c t).parking.isNone && s.dflag d 0x4540 2 &&
      (waitSlots r (threadWord s d c r)).any (fun k => slotStatus r k == 2)

/-- The park pool considers one request (R95, R96): a context, and the pointer moves past the cluster; or a refusal. -/
def parkOne (d : Nat) (q : Nat × Nat) (s : State) : State :=
  let (c, t) := q
  match (thread s d c t).run with
  | none => s
  | some r =>
    match (if parkGrants s d c then freeParkNo s d else none) with
    | none => (onThread s d c t (fun h => { h with run := some { r with stay := true } })).dinc d (0x4510 + c) 6 1
    | some x =>
      let k : ParkCtx := { cluster := c, thread := t, runGen := r.gen, pkt := r.pkt, since := s.now }
      let s := s.onDie d (fun y => { y with eng.park := mput y.eng.park x k, eng.parkPtr := (c + 1) % 16 })
      onThread s d c t (fun h => { h with parking := some x })

/-- PARK_REQUEST (R127, R95, R96): threads ask for park contexts in one cycle. The pool takes their clusters in the order of
its pointer; a request that finds no context it may have is refused, as one that loses is (R22, R24). Several requests of one
cluster are taken in the order of the operand: DESIGN CHOICE (log entry 111). -/
def parkRequest (d : Nat) (reqs : List (Nat × Nat)) (s : State) : State :=
  let l := reqs.filter (fun q => parkAsks s d q.1 q.2)
  let p := (s.die d).eng.parkPtr
  s.each ((List.range 16).flatMap (fun i => l.filter (fun q => q.1 == (p + i) % 16))) (parkOne d)

/-- PARK_COMPLETE (R127): the thread state is in its context and the thread is free. -/
def parkComplete (d c t : Nat) (s : State) : State :=
  match (thread s d c t).run, (thread s d c t).parking with
  | some r, some x =>
    let s := s.onDie d (fun y => { y with eng.park := mmod y.eng.park x (fun k => { k with run := some r }) })
    let s := s.dinc d (0x4550 + c) 7 1
    let s := perfNote d c 0x0A 1 { c := c, t := t, addr := r.pc.toNat, tag := some x } s
    (freeThread d c t s).stage r.pkt (.parked d x)
  | _, _ => s

/-- CONTEXT_RESUME (R94, R128): a ready parked run takes a free thread of its cluster. -/
def contextResume (d x : Nat) (s : State) : State :=
  let k := mget (s.die d).eng.park x
  match k.run with
  | none => s
  | some r =>
    if !parkReady s d k then s
    else match nextThread s d k.cluster with
      | none => s
      | some t =>
        let s := freePark d x s
        let s := onCluster s d k.cluster (fun y => { y with ptrStart := (t + 1) % 64 })
        (onThread s d k.cluster t (fun h => { h with run := some r, parking := none })).stage r.pkt (.thread d k.cluster t)

/-! ### Pre-emption and restart (R133 to R137, R302, R303) -/

/-- The state of a page in its die's context map (Table 9.2); the page is numbered DVA ÷ 2 MiB (Table 9.1). -/
def pageState (s : State) (p : Nat) : Nat := (mapEntry s (p / 2 ^ 24) (p % 2 ^ 24)).state

/-- A fault of code 1 or 2 still holds for its page (R302). -/
def faultHolds (s : State) (code p : Nat) : Bool :=
  (code == 1 && pageState s p == 0) || (code == 2 && pageState s p == 2)

/-- The run on a place is discarded: pins, lock and journal go, and its words are wasted (R133, R295, R300, R560). -/
def discardRun (d : Nat) (a : RunAt) (r : Run) (s : State) : State :=
  let (c, t) := placeCT s d a
  releaseRun d r (wasted d c t r s)

/-- A pre-empted packet takes a park context, or waits in its thread slot (R133, R96). A park that is granted and not yet
complete is taken over: its context becomes that of the pre-empted packet and counts neither as a park nor as an abandoned
one (log entry 91). The park context a pre-emption takes is not counted in 4550+c.07, one that it is refused is counted in
4510+c.06: DESIGN CHOICE (log entry 113). -/
def preemptAt (d : Nat) (a : RunAt) (r : Run) (code page addr : Nat) (s : State) : State :=
  let (c, t) := placeCT s d a
  let s := discardRun d a r s
  let k : ParkCtx := { cluster := c, thread := t, runGen := r.gen + 1, pkt := r.pkt
                       fault := some (code, page), ready := !faultHolds s code page, since := s.now, addr := addr }
  let park := fun (x : Nat) (s : State) =>
    (s.onDie d (fun y => { y with eng.park := mput y.eng.park x k })).stage r.pkt (.parked d x)
  match a with
  | .park x => park x (sampleEnd d c 0x0A x s)
  | .thread c t =>
    match (thread s d c t).parking with
    | some x => park x (freeThread d c t s)
    | none =>
      match (if parkGrants s d c then freeParkNo s d else none) with
      | some x => park x (freeThread d c t (s.onDie d (fun y => { y with eng.parkPtr := (c + 1) % 16 })))
      | none =>
        let s := s.dinc d (0x4510 + c) 6 1
        onThread s d c t (fun _ => { run := none, runGen := k.runGen, pre := some k, parking := none })

/-- PREEMPT (R133, R137): the oldest response of a die is a fault for a run that has not committed. -/
def preempt (d : Nat) (s : State) : State :=
  match (s.die d).look.resps with
  | [] => s
  | q :: rest =>
    if q.fault = 0 then s
    else match findRun s d q.rid with
      | none => s
      | some (a, r) =>
        if r.committed then s
        else
          let s := s.onDie d (fun y => { y with look.resps := rest })
          if q.fault = 0xA then dropPkt d r.pkt 0x0A (discardRun d a { r with pins := [], lock := none } s)
          else if 3 ≤ q.fault then dropPkt d r.pkt 0x09 (discardRun d a { r with pins := [], lock := none } s)
          else preemptAt d a r q.fault q.page (mget r.srchAt q.sl) s

/-- The waiting context at a place. -/
def waitingAt (s : State) (d : Nat) : WaitPlace → Option ParkCtx
  | .park x => mget? (s.die d).eng.park x.val
  | .slot c t => (thread s d c t).pre

/-- Give up a waiting place: the context or the thread slot is free again. -/
def clearWait (d : Nat) (w : WaitPlace) (s : State) : State :=
  match w with
  | .park x => freePark d x.val s
  | .slot c t => onThread s d c t (fun h => { h with pre := none })

/-- A waiting packet ends at P3 with 0x09 and gives up its place in the same step (R137, R303). -/
def endWaiting (d : Nat) (w : WaitPlace) (i : Nat) (s : State) : State :=
  clearWait d w (dropPkt d i 0x09 s)

/-- CONTEXT_RESTART (R136, R137): on a free thread of the cluster, granted as any start is (R23, R93), with the next run
generation (Table 4.9). -/
def contextRestart (d : Nat) (w : WaitPlace) (s : State) : State :=
  match waitingAt s d w with
  | none => s
  | some k =>
    match k.fault with
    | none => s
    | some (code, page) =>
      if !k.ready || k.run.isSome then s
      else if s.dg d 0x4540 1 < (s.pkt k.pkt).restarts + 1 then
        let s := s.dinc d (0x4550 + k.cluster) 9 1
        endWaiting d w k.pkt (s.report d 7 0 1 (0x200 + code) (page * 2 ^ 21))
      else
        let t := match w with
          | .park _ => nextThread s d k.cluster
          | .slot c t => if (cluster s d c).noStart.getLsbD (t.val / 4) then none else some t.val
        match t with
        | none => s
        | some t =>
          let s := clearWait d w s
          let s := match w with
            | .park _ => onCluster s d k.cluster (fun y => { y with ptrStart := (t + 1) % 64 })
            | .slot _ _ => s
          let s := s.onPkt k.pkt (fun p => { p with restarts := p.restarts + 1 })
          let s := s.dinc d (0x4550 + k.cluster) 2 1
          let s := perfNote d k.cluster 0x09 1 { c := k.cluster, t := t, addr := k.addr, lat := engSince s k.since } s
          startRun d k.cluster t k.pkt k.runGen s

/-- PAGE_WAIT_EXPIRE (R303). -/
def pageWaitExpire (d : Nat) (w : WaitPlace) (s : State) : State :=
  match waitingAt s d w with
  | none => s
  | some k =>
    if k.fault.isNone || k.ready || decide (s.now ≤ k.since + s.dg d 0x4410 8 * 1000) then s
    else endWaiting d w k.pkt (s.dinc d 0x4420 0x10 1)

/-! ### Search responses (R125, R135) -/

/-- A response of a die waits for delivery. -/
def respond (d : Nat) (q : SResp) (s : State) : State := s.onDie d (fun x => { x with look.resps := x.look.resps ++ [q] })

/-- SEARCH_RESPONSE (R125, R126, R135): the oldest response of a die reaches its slot, or is discarded. A park in progress is
abandoned by the final response of a deferred slot its word waits for (R127), though the word may wait on a second deferred
slot still: DESIGN CHOICE (log entry 114). A fault after commit counts even when END has
executed and its entries still drain, since the thread still holds the routine (log entry 91). -/
def searchResponse (d : Nat) (s : State) : State :=
  match (s.die d).look.resps with
  | [] => s
  | q :: rest =>
    let gone := s.onDie d (fun y => { y with look.resps := rest })
    match findRun s d q.rid with
    | none => gone
    | some (a, r) =>
      if q.fault ≠ 0 ∧ !r.committed then s
      else
        let c := (placeCT s d a).1
        let n := searchTag q.rid q.sl
        let gone := sampleEnd d (16 + c % 4) 0x44 n (sampleEnd d c 0x0B n gone)
        let final := slotStatus r q.sl == 2 && (waitSlots r (threadWord s d c r)).contains q.sl
        let put := fun (r : Run) (v : RSlot) => { r with slots := mput r.slots q.sl v }
        let s :=
          if q.fault = 0 then putRun d a (put r q.slot) gone
          else
            let prof := bits (mget r.slots q.sl).hdr.toNat 55 48
            (putRun d a { put r { hdr := slotHdr 5 4 prof 0 0 (q.fault % 16) } with tailFault := true } gone).dinc d (0x4550 + c) 3 1
        match a with
        | .thread c t =>
          match (if final then (thread s d c t).parking else none) with
          | some x => (onThread (freePark d x s) d c t (fun h => { h with parking := none })).dinc d (0x4550 + c) 8 1
          | none => s
        | .park _ => s

/-- THREAD_START of one cluster. -/
def execThreadStart (d : DieId) (c : ClusterId) (s : State) : Host.Outcome State Fault Refusal := onLive d (threadStart d c) s
/-- PARK_REQUEST of the threads that ask in one cycle, each by cluster and thread number. -/
def execParkRequest (d : DieId) (reqs : List (ClusterId × ThreadId)) (s : State) : Host.Outcome State Fault Refusal :=
  onLive d (parkRequest d (reqs.map (fun q => (q.1.val, q.2.val)))) s
/-- PARK_COMPLETE of one thread. -/
def execParkComplete (d : DieId) (c : ClusterId) (t : ThreadId) (s : State) : Host.Outcome State Fault Refusal :=
  onLive d (parkComplete d c t) s
/-- CONTEXT_RESUME of one park context. -/
def execContextResume (d : DieId) (x : Fin 4096) (s : State) : Host.Outcome State Fault Refusal := onLive d (contextResume d x) s
/-- PREEMPT by the oldest response of a die. -/
def execPreempt (d : DieId) (s : State) : Host.Outcome State Fault Refusal := onLive d (preempt d) s
/-- CONTEXT_RESTART of a waiting packet. -/
def execContextRestart (d : DieId) (w : WaitPlace) (s : State) : Host.Outcome State Fault Refusal := onLive d (contextRestart d w) s
/-- PAGE_WAIT_EXPIRE of a waiting packet. -/
def execPageWaitExpire (d : DieId) (w : WaitPlace) (s : State) : Host.Outcome State Fault Refusal := onLive d (pageWaitExpire d w) s
/-- SEARCH_RESPONSE of one die. -/
def execSearchResponse (d : DieId) (s : State) : Host.Outcome State Fault Refusal := onLive d (searchResponse d) s

end Sys2Proof.Machine
end

