-- ==== Sys2Proof/Machine/CStore.lean ====
section
/-! DEFINITION. Control stores: parity failures, reload, cluster fences, and microcode loads (Micro-engines and
Microcode). -/

namespace Sys2Proof.Machine

/-- Set the state field of a cluster's version word (Table 4.14). -/
def verState (d c st : Nat) (s : State) : State :=
  let k := d * 16 + c
  s.pset 0x1040 k (s.pg 0x1040 k / 16 * 16 + st)

/-- A fenced cluster takes no new packet; its unstarted packets move to the cluster R88 now names (R88, R140). -/
def fenceCluster (d c : Nat) (s : State) : State :=
  moveUnstarted d c (verState d c 2 (s.dset d (0x4510 + c) 1 2))

/-- The parity bits kept beside a word (R112): over bits 63 to 0, 127 to 64 and 159 to 128. -/
def wordParity (w : BitVec 160) : BitVec 3 :=
  let p := fun (lo n : Nat) => ((List.range n).filter (fun i => w.getLsbD (lo + i))).length % 2
  BitVec.ofNat 3 (p 0 64 + 2 * p 64 64 + 4 * p 128 32)

/-- The parity bits a cluster's store holds at an address. -/
def storedParity (k : Cluster) (a : Nat) : BitVec 3 := wordParity (mget k.store a) ^^^ mget k.parity a

/-- Parity of a word fails: some of its three bits differ; which ones the event does not say (log entry 5). -/
def breakParity (d c a : Nat) (s : State) : State :=
  let (f, s) := s.fresh
  onCluster s d c (fun k => { k with parity := mput k.parity a (BitVec.ofNat 3 (1 + f % 7)) })

/-- The words of a control store that differ from the master copy or fail parity. -/
def differingWords (s : State) (d c : Nat) : List Nat :=
  let k := cluster s d c
  (mkeys k.store ++ mkeys s.master.words ++ mkeys k.parity).dedup.filter
    (fun a => mget k.store a != mget s.master.words a || mget k.parity a != 0)

/-- A requester asks for the write port of a control store (R138): 0 a reload, 1 image loading, 2 the self-test. Each asks from
the moment its write is due until it is made (log entry 109). -/
def writeAsks (s : State) (d c q : Nat) : Bool :=
  match q with
  | 0 => !(cluster s d c).reloading.isEmpty
  | 1 => (cluster s d c).loading == 2
  | _ => match mget? (s.die d).core.slices 2 with
    | some x => x.target == c && x.phase == 2
    | none => false

/-- A requester takes its turn at the write port (R138, R22, R23): the pointer moves past it when it is granted. A requester that
loses to another waits, with nothing written and no grant made, and asks again. -/
def writePort (d c q : Nat) (f : State → State) (s : State) : State :=
  match arbiter 3 (cluster s d c).ptrWrite (writeAsks s d c) with
  | none => f s
  | some w =>
    if w = q then f (onCluster s d c (fun k => { k with ptrWrite := (w + 1) % 3 })) else s

/-- A reloaded word is written and read back (R140). -/
def reloadWrite (d c a : Nat) (ok : Bool) (s : State) : State :=
  let s := onCluster s d c (fun k => { k with
    reloading := k.reloading.filter (· != a), store := mput k.store a (mget s.master.words a), parity := mdel k.parity a })
  if ok then s
  else
    let s := breakParity d c a s
    let s := machineCheck d c 0 a 3 false {} s
    let s := s.report d 4 c 3 0x103 a
    fenceCluster d c s

/-- CS_RELOAD_DONE (R140): the word has come from the master copy and asks for the write port (R138). -/
def reloadDone (d c a : Nat) (ok : Bool) (s : State) : State :=
  if !(cluster s d c).reloading.contains a then s else writePort d c 0 (reloadWrite d c a ok) s

/-! ### Microcode loads (R143) -/

/-- A cluster holds no packet: no run, no waiting packet, no park context, nothing queued or on the way. -/
def clusterEmpty (s : State) (d c : Nat) : Bool :=
  let k := cluster s d c
  k.queue.isEmpty && k.stolen.isEmpty && decide (parkHeld s d c = 0) &&
    k.threads.all (fun h => h.2.run.isNone && h.2.pre.isNone)

/-- Start the load of the next cluster a die has to take (R143 step 1). -/
def loadNext (d : Nat) (s : State) : State :=
  match (s.die d).eng.toLoad with
  | [] => s
  | c :: r =>
    let s := s.onDie d (fun x => { x with eng.toLoad := r })
    moveUnstarted d c (verState d c 1 (onCluster s d c (fun k => { k with loading := 1 })))

/-- A microcode load starts (R143): rolling, one cluster of a die at a time in ascending order; whole, all at once. A fenced
cluster takes no part: DESIGN CHOICE (log entry 110). -/
def startLoad (whole : Bool) (s : State) : State :=
  let s := s.pset 0x1041 2 1
  s.each s.active fun d s =>
    let l := (List.range 16).filter (fun c => [0, 1].contains (s.dg d (0x4510 + c) 1))
    let s := s.onDie d (fun x => { x with eng.toLoad := l })
    if whole then s.each l (fun _ s => loadNext d s) else loadNext d s

/-- Every cluster of the load has been taken. -/
def loadDone (s : State) : Bool :=
  (s.present).all (fun d => (s.die d).eng.toLoad.isEmpty && (s.die d).eng.clusters.all (fun k => k.2.loading == 0))

/-- ROLLING_LOAD_CLUSTER_EMPTY (R143 steps 2 and 3). -/
def loadEmpty (d c : Nat) (s : State) : State :=
  if (cluster s d c).loading = 1 ∧ clusterEmpty s d c then onCluster s d c (fun k => { k with loading := 2 }) else s

/-- Write a cluster's control store and entry vector from the master copy (R138). -/
def writeStore (d c : Nat) (s : State) : State :=
  onCluster s d c (fun k => { k with store := s.master.words, entry := s.master.entry, reloading := [], testing := [], parity := [] })

/-- A cluster's store is written and read back, and the load goes on (R143 steps 3 and 4). -/
def storeLoaded (d c : Nat) (bad : Option Nat) (s : State) : State :=
  let s := onCluster (writeStore d c s) d c (fun k => { k with loading := 0 })
  let s :=
    match bad with
    | none => s.pset 0x1040 (d * 16 + c) (s.master.version / 16 * 16)
    | some a =>
      let s := machineCheck d c 0 a 3 false {} (breakParity d c a s)
      (fenceCluster d c (s.report d 4 c 3 0x103 a)).pset 0x1041 2 3
  let s := loadNext d s
  if loadDone s && s.pg 0x1041 2 != 3 then s.pset 0x1041 2 2 else s

/-- CLUSTER_STORE_WRITTEN (R138, R143 steps 3 and 4): the store asks for the write port, is written and read back; `bad` is the
first address whose read-back fails. -/
def storeWritten (d c : Nat) (bad : Option Nat) (s : State) : State :=
  if (cluster s d c).loading ≠ 2 then s else writePort d c 1 (storeLoaded d c bad) s

/-- CS_FETCH_PARITY_FAIL of one thread; `fails` re-reads fail. -/
def execCsFetchParityFail (d : DieId) (c : ClusterId) (t : ThreadId) (fails : Fin 3) (s : State) : Host.Outcome State Fault Refusal :=
  onLive d (fetchFail d c t fails) s
/-- CS_RELOAD_DONE of one word. -/
def execCsReloadDone (d : DieId) (c : ClusterId) (a : Fin 16384) (ok : Bool) (s : State) : Host.Outcome State Fault Refusal :=
  onLive d (reloadDone d c a ok) s
/-- ROLLING_LOAD_CLUSTER_EMPTY of one cluster. -/
def execRollingLoadClusterEmpty (d : DieId) (c : ClusterId) (s : State) : Host.Outcome State Fault Refusal := onLive d (loadEmpty d c) s
end Sys2Proof.Machine
end

