-- ==== Sys2Proof/Machine/Reseq.lean ====
section
/-! DEFINITION. The resequencers: windows, hole timers, markers and forced skips, for both directions (Dispatch, Work
Stealing and Resequencing; R400 and R401 of Ridgeline Fabric Links), and the rewrite unit's step. -/

namespace Sys2Proof.Machine

/-- The windows of a die, ingress or egress. -/
def wins (s : State) (d : Nat) (eg : Bool) : Map Window := if eg then (s.die d).eng.egWin else (s.die d).eng.inWin

/-- A window. -/
def win (s : State) (d : Nat) (eg : Bool) (k : Nat) : Window := mget (wins s d eg) k

/-- Write a window. -/
def putWin (d : Nat) (eg : Bool) (k : Nat) (w : Window) (s : State) : State :=
  s.onDie d (fun x => if eg then { x with eng.egWin := mput x.eng.egWin k w } else { x with eng.inWin := mput x.eng.inWin k w })

/-- Sequence number a lies ahead of b (R101); a difference of 2^23 counts as behind. -/
def seqAhead (a b : Nat) : Bool :=
  let x := (a + 2 ^ 24 - b) % 2 ^ 24
  decide (0 < x) && decide (x < 2 ^ 23)

/-- How far a lies ahead of b. -/
def seqDist (a b : Nat) : Nat := (a + 2 ^ 24 - b) % 2 ^ 24

/-- Release what follows on from expected: held packets in order, marked numbers passed over (R101, R103). -/
def advance : Nat → Window → Window
  | 0, w => w
  | n + 1, w =>
    match mget? w.held w.expected with
    | some i => advance n { w with expected := (w.expected + 1) % 2 ^ 24, held := mdel w.held w.expected, ready := w.ready ++ [i] }
    | none =>
      if w.marks.contains w.expected then
        advance n { w with expected := (w.expected + 1) % 2 ^ 24, marks := w.marks.filter (· != w.expected) }
      else w

/-- Advance as far as it goes. -/
def advanceAll (w : Window) : Window := advance (w.held.length + w.marks.length) w

/-- The hole timer (R102): it runs while something is held, and restarts when expected has moved. -/
def rewind (now : Nat) (old : Nat) (w : Window) : Window :=
  if w.held.isEmpty then { w with timer := none }
  else if w.expected = old then { w with timer := some (w.timer.getD now) }
  else { w with timer := some now }

/-- The lowest held number: the nearest one ahead of expected. -/
def lowestHeld (w : Window) : Option Nat :=
  (mkeys w.held).foldl (fun b k => match b with
    | none => some k
    | some x => if seqDist k w.expected < seqDist x w.expected then some k else some x) none

/-- Mirror copies whose original's number an ingress window has passed go to the replication engine, in the order of their
numbers (R19, R265). -/
def copiesOut (d k : Nat) (s : State) : State :=
  let e := (win s d false k).expected
  let out := fun (c : Nat × Nat × Nat) => c.1 == k && c.2.1 != e && !seqAhead c.2.1 e
  let go := ((s.die d).buf.copyWait.filter out).mergeSort (fun a b => decide (seqDist e b.2.1 ≤ seqDist e a.2.1))
  if go.isEmpty then s
  else
    let s := s.onDie d (fun x => { x with
      buf.copyWait := x.buf.copyWait.filter (fun c => !out c), buf.replQ := x.buf.replQ ++ go.map (·.2.2) })
    s.each go (fun c s => s.onPkt c.2.2 (fun p => { p with atRepl := s.now }))

/-- Write a window and let go the mirror copies that it no longer holds back. -/
def setWin (d : Nat) (eg : Bool) (k : Nat) (w : Window) (s : State) : State :=
  let s := putWin d eg k w s
  if eg then s else copiesOut d k s

/-- Skip a window's hole (R102): expected moves to the lowest held number. Numbers a marker has released are passed
over without a count (R103). Answers the numbers skipped. -/
def skipHole (now : Nat) (w : Window) : Nat × Window :=
  match lowestHeld w with
  | none => (0, w)
  | some n =>
    let gap := seqDist n w.expected
    let inGap := fun m => decide (seqDist m w.expected < gap)
    let marked := (w.marks.filter inGap).length
    (gap - marked, rewind now w.expected (advanceAll { w with expected := n, marks := w.marks.filter (fun m => !inGap m) }))

/-- Subindexes of 4520 for a direction: skips, late, forced. -/
def reseqSub (eg : Bool) (k : Nat) : Nat := match k with
  | 0 => if eg then 6 else 1
  | 1 => if eg then 7 else 2
  | _ => if eg then 8 else 3

/-- Entries of a pending store in use. -/
def pendingHeld (s : State) (d : Nat) (eg : Bool) : Nat := ((wins s d eg).map (fun x => x.2.held.length)).sum

/-- The window whose timer started earliest, the lowest index among equals (R104). -/
def oldestTimer (s : State) (d : Nat) (eg : Bool) : Option Nat :=
  ((wins s d eg).foldl (fun b x => match x.2.timer, b with
    | none, _ => b
    | some t, none => some (t, x.1)
    | some t, some (u, k) => if t < u then some (t, x.1) else some (u, k)) (none : Option (Nat × Nat))).map (·.2)

/-- Skip the hole of a window, counted (R102). -/
def skipWin (d : Nat) (eg : Bool) (k : Nat) (s : State) : State :=
  let (n, w) := skipHole s.now (win s d eg k)
  (setWin d eg k w s).dinc d 0x4520 (reseqSub eg 0) n

/-- HOLE_TIMEOUT (R102). -/
def holeTimeout (d : Nat) (eg : Bool) (k : Nat) (s : State) : State :=
  match (win s d eg k).timer with
  | none => s
  | some t => if t + s.dg d 0x4500 (if eg then 7 else 6) ≤ s.now then skipWin d eg k s else s

/-- A packet with a sequence number reaches its window (R101, R104). -/
def reseqPut (d : Nat) (eg : Bool) (k n i : Nat) (s : State) : State :=
  let s := if seqAhead n (win s d eg k).expected && decide (32768 ≤ pendingHeld s d eg) then
      match oldestTimer s d eg with
      | some j => (skipWin d eg j s).dinc d 0x4520 (reseqSub eg 2) 1
      | none => s
    else s
  let w := win s d eg k
  if n = w.expected then
    setWin d eg k (rewind s.now w.expected (advanceAll { w with expected := (n + 1) % 2 ^ 24, ready := w.ready ++ [i] })) s
  else if seqAhead n w.expected then
    setWin d eg k (rewind s.now w.expected { w with held := mput w.held n i }) s
  else (setWin d eg k { w with ready := w.ready ++ [i] } s).dinc d 0x4520 (reseqSub eg 1) 1

/-- The key of a packet's egress window (R400): flow bucket field src[19:6], mcast and dst. -/
def egKey (p : Packet) : Nat := p.desc.flowBucket.toNat * 2 ^ 21 + (b2n (p.desc.destKind == 1)) * 2 ^ 20 + p.desc.dest.toNat

/-- The credit entry a packet of the fabric belongs to (R413): its source die's fabric id, its port and class. -/
def creditEntryOf (s : State) (d src dst tc : Nat) : Option Nat :=
  ((s.die d).buf.centries.find? (fun e => e.2.src == src && e.2.dst == dst && e.2.tc == tc)).map (·.1)

/-- Cells granted to an entry and not yet come (R413). -/
def entryReserved (e : CEntry) : Nat := (e.granted + 2 ^ 33 - e.released - e.received) % 2 ^ 32

/-- Write a credit entry; one whose reserved and queued values are both 0 is freed (R413). -/
def putEntry (d k : Nat) (e : CEntry) (s : State) : State :=
  let free := entryReserved e == 0 && e.queued == 0
  s.onDie d (fun x => { x with buf.centries := bif free then mdel x.buf.centries k else minsert x.buf.centries k e })

/-- n cells of a packet that is no duplicate count in its entry's received_total (R413). -/
def creditReceived (d i n : Nat) (s : State) : State :=
  let p := s.pkt i
  match creditEntryOf s d p.desc.flowBucket.toNat p.desc.dest.toNat p.desc.tc.toNat with
  | none => s
  | some k =>
    let e := mget (s.die d).buf.centries k
    putEntry d k { e with received := (e.received + n) % 2 ^ 32, since := s.now } s

/-- Discard a duplicate at the egress side (R400). -/
def dropDuplicate (d i : Nat) (s : State) : State := forget i (releaseUnits i (s.dinc d 0x4130 7 1))

/-- A restart packet resynchronises its window (R401): what it holds is released in order, and expected restarts. -/
def resync (now n i : Nat) (w : Window) : Window :=
  let order := w.held.mergeSort (fun a b => decide (seqDist a.1 w.expected ≤ seqDist b.1 w.expected))
  rewind now w.expected { w with
    ready := w.ready ++ order.map (·.2) ++ [i], held := [], marks := [], expected := (n + 1) % 2 ^ 24, kept := some n }

/-- RESEQ_ARRIVE at the egress side (R400, R401). -/
def egArrive (d i : Nat) (s : State) : State :=
  let p := s.pkt i
  let k := egKey p
  let n := p.desc.seq.toNat
  let w := win s d true k
  let behind := decide (n ≠ w.expected) && !seqAhead n w.expected
  let dup := p.resent && (behind || (mget? w.held n).isSome || (p.restart && w.kept == some n))
  if dup then dropDuplicate d i s
  else
    let s := s.when (p.onLink.isSome && p.desc.destKind == 0) (creditReceived d i (ceilDiv p.desc.length.toNat 240))
    let s := s.stage i .egReseq
    if p.restart then putWin d true k (resync s.now n i w) s else reseqPut d true k n i s

/-- RESEQ_ARRIVE (R101): the next packet on its way to a resequencer of the die reaches its window. -/
def reseqArrive (d : Nat) (eg : Bool) (s : State) : State :=
  if eg then
    match (s.die d).buf.egIn with
    | [] => s
    | i :: r => egArrive d i (s.onDie d (fun x => { x with buf.egIn := r }))
  else
    match (s.die d).eng.reseqQ with
    | [] => s
    | i :: r =>
      let s := (s.onDie d (fun x => { x with eng.reseqQ := r })).stage i .reseq
      reseqPut d false (winKey (s.pkt i)) (s.pkt i).desc.seq.toNat i s

/-- HOLE_MARKER_RECEIVE (R103): the next hole marker releases its number. -/
def markerReceive (d : Nat) (s : State) : State :=
  match (s.die d).eng.markers with
  | [] => s
  | (k, n) :: r =>
    let s := (s.onDie d (fun x => { x with eng.markers := r })).dinc d 0x4520 4 1
    let w := win s d false k
    if n = w.expected then setWin d false k (rewind s.now w.expected (advanceAll { w with expected := (n + 1) % 2 ^ 24 })) s
    else if seqAhead n w.expected then setWin d false k { w with marks := w.marks ++ [n] } s
    else copiesOut d k s

/-- REWRITE (R268): the rewrite unit builds the next committed packet's frame and hands it to the resequencer. -/
def rewriteStep (d : Nat) (s : State) : State :=
  match (s.die d).eng.rewriteQ with
  | [] => s
  | i :: r =>
    let s := s.onDie d (fun x => { x with eng.rewriteQ := r })
    let s := (buildHead d i s).stage i .atReseq
    s.onDie d (fun x => { x with eng.reseqQ := x.eng.reseqQ ++ [i] })

/-- RESEQ_ARRIVE of one die and direction. -/
def execReseqArrive (d : DieId) (eg : Bool) (s : State) : Host.Outcome State Fault Refusal := onLive d (reseqArrive d eg) s
/-- HOLE_TIMEOUT of one window. -/
def execHoleTimeout (d : DieId) (eg : Bool) (k : Nat) (s : State) : Host.Outcome State Fault Refusal := onLive d (holeTimeout d eg k) s
/-- HOLE_MARKER_RECEIVE of one die. -/
def execHoleMarkerReceive (d : DieId) (s : State) : Host.Outcome State Fault Refusal := onLive d (markerReceive d) s
/-- REWRITE of one die. -/
def execRewrite (d : DieId) (s : State) : Host.Outcome State Fault Refusal := onLive d (rewriteStep d) s

end Sys2Proof.Machine
end

