-- ==== Sys2Proof/Machine/Rings.lean ====
section
/-! DEFINITION. Host rings: address translation, doorbells, enables, punt, inject and record rings, interrupts and
endpoint resets (CXL Memory and Host Attach). Host memory is not the part's: what the part reads there comes with the
command, and what it writes there stands in `dma`. -/

namespace Sys2Proof.Machine

/-! ### Translation (R454 to R456) -/

/-- The page size of an endpoint's table (R454). -/
def attPage (s : State) (e : Nat) : Nat := if s.pg (0x1120 + e) 6 = 1 then 2097152 else 4096

/-- The entry for an RVA page: cached, or as host memory holds it. -/
def attEntry (s : State) (e : Nat) (atts : List (Nat × BitVec 64)) (page : Nat) : BitVec 64 :=
  match mget? s.attCache (e * 2 ^ 40 + page) with
  | some v => v
  | none => ((atts.find? (fun x => x.1 == page)).map (·.2)).getD 0

/-- Bus address of an RVA, when the access is permitted (R454, R456). -/
def attTranslate (s : State) (e : Nat) (atts : List (Nat × BitVec 64)) (write : Bool) (rva : Nat) : Option Nat :=
  let page := rva / attPage s e
  let v := (attEntry s e atts page).toNat
  if page < s.pg (0x1120 + e) 5 ∧ bit v 63 ∧ bit v (if write then 62 else 61) then
    some (bits v 51 12 * 4096 + rva % attPage s e)
  else none

/-- Keep the entry of a page that an access used; a full cache of 1,024 gives up an entry of free choice (R455). -/
def attKeep (e : Nat) (atts : List (Nat × BitVec 64)) (page : Nat) (s : State) : State :=
  let k := e * 2 ^ 40 + page
  if (mget? s.attCache k).isSome then s
  else
    let (c, s) := if (s.attCache.filter (fun x => x.1 / 2 ^ 40 == e)).length < 1024 then (s.attCache, s)
      else
        let mine := s.attCache.filter (fun x => x.1 / 2 ^ 40 == e)
        let (f, s) := s.fresh
        (match mine[f % mine.length]? with | some x => mdel s.attCache x.1 | none => s.attCache, s)
    { s with attCache := minsert c k (attEntry s e atts page) }

/-- The pages an access of n bytes touches. -/
def attPages (s : State) (e rva n : Nat) : List Nat :=
  (List.range ((rva + n - 1) / attPage s e - rva / attPage s e + 1)).map (fun i => rva / attPage s e + i)

/-- Keep the entries of the pages that a read of n bytes used (R455). -/
def attKeepAll (e : Nat) (atts : List (Nat × BitVec 64)) (rva n : Nat) (s : State) : State :=
  s.each (attPages s e rva n) (attKeep e atts)

/-- The first RVA of an access of n bytes that does not translate, if any. -/
def attFault (s : State) (e : Nat) (atts : List (Nat × BitVec 64)) (write : Bool) (rva n : Nat) : Option Nat :=
  ((attPages s e rva n).map (fun p => max rva (p * attPage s e))).find? (fun r => (attTranslate s e atts write r).isNone)

/-- Write bytes to host memory at an RVA that translates (R459). -/
def dmaWrite (e : Nat) (atts : List (Nat × BitVec 64)) (rva : Nat) (bs : Bytes) (s : State) : State :=
  s.each (attPages s e rva bs.length) fun p s =>
    let lo := max rva (p * attPage s e)
    let hi := min (rva + bs.length) ((p + 1) * attPage s e)
    match attTranslate s e atts true lo with
    | some a => let s := attKeep e atts p s; { s with dma := s.dma ++ [(e, a, (bs.drop (lo - rva)).take (hi - lo))] }
    | none => s

/-! ### Rings (R457 to R460) -/

/-- Index of a ring's entries. -/
def ringIdx (k : Nat) : Nat := 0x4440 + k
/-- State of a ring (Table 15.9). -/
def ringState (s : State) (d k : Nat) : Nat := s.dg d (ringIdx k) 0x0C
/-- Slots of a ring. -/
def ringSize (s : State) (d k : Nat) : Nat := 2 ^ s.dg d (ringIdx k) 4
/-- The endpoint a ring is bound to. -/
def ringEp (s : State) (d k : Nat) : Nat := s.dg d (ringIdx k) 2
/-- Posted and not yet consumed, or written and not yet consumed by the host: index difference modulo 2^32. -/
def posted (s : State) (d k : Nat) : Nat := (s.dg d (ringIdx k) 0x0A + 2 ^ 32 - s.dg d (ringIdx k) 0x0B) % 2 ^ 32
/-- Records of a record ring the host has not consumed. -/
def unread (s : State) (d k : Nat) : Nat := (s.dg d (ringIdx k) 0x0B + 2 ^ 32 - s.dg d (ringIdx k) 0x0A) % 2 ^ 32
/-- RVA of the slot of an index (R458). -/
def slotRva (s : State) (d k i : Nat) : Nat := s.dg d (ringIdx k) 3 + i % ringSize s d k * 32

/-- Change a ring's own state. -/
def onRing (d k : Nat) (f : Ring → Ring) (s : State) : State :=
  s.onDie d (fun x => { x with buf.rings := mmod x.buf.rings k f })

/-- Stop a ring in state 4 with a cause (R456, R458, R460). -/
def ringError (d k cause : Nat) (s : State) : State := (s.dset d (ringIdx k) 0x0C 4).dset d (ringIdx k) 0x0D cause

/-- A translation fault of a ring (R456). -/
def ringFault (d k rva : Nat) (s : State) : State :=
  let s := (ringError d k 1 s).dset d (ringIdx k) 0x0E rva
  (s.pinc (0x1120 + ringEp s d k) 8 1).reportOpen d 0x0F k 1 0x680 128 rva

/-- Why a ring cannot reach its endpoint, if so: 3 link down, 4 unreachable (R460). -/
def ringLinkCause (s : State) (d k : Nat) : Option Nat :=
  let e := ringEp s d k
  if !s.reach d e && decide (d ≠ e) then some 4
  else if s.pg (0x1120 + e) 1 = 0 then some 3
  else none

/-- Rings that are not disabled and whose endpoint's link is down, or whose endpoint's die cannot be reached, stop (R460). -/
def ringsCheck (s : State) : State :=
  s.each s.present fun d s => s.each (List.range 24) fun k s =>
    if [1, 2, 3].contains (ringState s d k) then
      match ringLinkCause s d k with
      | some c => ringError d k c s
      | none => s
    else s

/-- The reset value of a doubleword of an MSI-X table: every vector is masked (PCI Express; log entry 128). -/
def msixReset (w : Nat) : Nat := if w % 4 = 3 then 1 else 0

/-- A doubleword of an endpoint's MSI-X table (R452). -/
def msixWord (s : State) (e w : Nat) : Nat := (mget? s.msixTab (e * 256 + w)).getD (msixReset w)

/-- A vector of an endpoint is masked: bit 0 of its vector control doubleword. -/
def msixMasked (s : State) (e v : Nat) : Bool := bit (msixWord s e (4 * v + 3)) 0

/-- Raise an interrupt of an endpoint (R459): a masked vector waits in the pending bit array. -/
def fireMsix (e v : Nat) (s : State) : State :=
  if msixMasked s e v then { s with msixPend := mput s.msixPend e (setBit (mget s.msixPend e) v true) }
  else { s with msix := s.msix ++ [(e, v)] }

/-- Software writes a doubleword of an endpoint's MSI-X table: a vector that it unmasks fires when it is pending. -/
def msixWrite (e w v : Nat) (s : State) : State :=
  let s := { s with msixTab := mputD (msixReset w) s.msixTab (e * 256 + w) v }
  let n := w / 4
  if bit (mget s.msixPend e) n && !msixMasked s e n then
    fireMsix e n { s with msixPend := mput s.msixPend e (setBit (mget s.msixPend e) n false) }
  else s

/-- Interrupt of a ring when enough slots have advanced (R459). -/
def ringSignal (d k : Nat) (s : State) : State :=
  let r := mget (s.die d).buf.rings k
  if s.dg d (ringIdx k) 7 ≤ r.unsig then
    fireMsix (ringEp s d k) (s.dg d (ringIdx k) 6) (onRing d k (fun r => { r with unsig := 0, since := none }) s)
  else s

/-- device_index advances by one: the index word is written after the data, and the interrupt follows it (R458, R459). -/
def ringAdvance (d k : Nat) (atts : List (Nat × BitVec 64)) (s : State) : State :=
  let v := (s.dg d (ringIdx k) 0x0B + 1) % 2 ^ 32
  let s := (s.dset d (ringIdx k) 0x0B v).dinc d (ringIdx k) 0x0F 1
  let e := ringEp s d k
  let rva := s.dg d (ringIdx k) 5
  let s := match attFault s e atts true rva 4 with
    | some r => ringFault d k r s
    | none => dmaWrite e atts rva (toBytesLE 4 v) s
  ringSignal d k (onRing d k (fun r => { r with unsig := r.unsig + 1, since := some (r.since.getD s.now) }) s)

/-- RING_IRQ_TIMER (R459): the timer of a ring's unsignalled advance has run. -/
def ringIrqTimer (d k : Nat) (s : State) : State :=
  let r := mget (s.die d).buf.rings k
  let us := s.dg d (ringIdx k) 8
  match r.since with
  | some t =>
    if us ≠ 0 ∧ t + us * 1000 ≤ s.now then
      fireMsix (ringEp s d k) (s.dg d (ringIdx k) 6) (onRing d k (fun r => { r with unsig := 0, since := none }) s)
    else s
  | none => s

/-- A doorbell of ring (d, k) is written through endpoint e (R458): the host_index; a bad value stops the ring, and one in error keeps
its cause (log entry 99). -/
def doorbell (e d k v : Nat) (s : State) : State :=
  if ringState s d k = 0 ∨ ringEp s d k ≠ e ∨ 24 ≤ k then s.pinc (0x1120 + e) 9 1
  else
    let dev := s.dg d (ringIdx k) 0x0B
    let bad := if k ≤ 20 then decide (ringSize s d k < (v + 2 ^ 32 - dev) % 2 ^ 32)
      else decide (unread s d k < (v + 2 ^ 32 - s.dg d (ringIdx k) 0x0A) % 2 ^ 32)
    let s := s.dset d (ringIdx k) 0x0A v
    if bad && ringState s d k != 4 then ringError d k 5 s else s

/-- The ring whose doorbell register lies at an offset into the doorbells of BAR0: die × 0x800 + k × 0x40 (Table 15.2). -/
def doorbellAt (off : Nat) : Option (Nat × Nat) := if off % 0x40 = 0 ∧ off < 0x4000 then some (off / 0x800, off % 0x800 / 0x40) else none

/-- DOORBELL_WRITE (R452, R458): the host writes 32 bits of BAR0 at 0x10000 + off: a doorbell, or a doubleword of the MSI-X table at
0x20000, whose 64 vectors take its first KiB. No other register takes it (log entry 128). -/
def barWrite (e off v : Nat) (s : State) : State :=
  match doorbellAt off with
  | some (d, k) => if s.has d then doorbell e d k v s else s.pinc (0x1120 + e) 9 1
  | none => if 0x10000 ≤ off ∧ off < 0x10400 ∧ off % 4 = 0 then msixWrite e ((off - 0x10000) / 4) v s else s

/-- A write to ring_enable (R457, R460): the status, and the ring started, stopping, or to be restarted. -/
def ringEnable (d k : Nat) (on : Bool) (s : State) : Nat × State :=
  if 24 ≤ k then (0x13, s)
  else
    let i := ringIdx k
    let s' := s.dset d i 1 (b2n on)
    let start := fun (s : State) =>
      let s := ((s.dset d i 0x0A 0).dset d i 0x0B 0).dset d i 0x0D 0
      let s := onRing d k (fun r => { r with unsig := 0, since := none, pos := 0 }) s
      match ringLinkCause s d k with
      | some c => ringError d k c s
      | none => s.dset d i 0x0C 1
    match on, ringState s d k with
    | true, 0 => (0, start s')
    | true, 2 => (0, s'.dset d i 0x0C 3)
    | false, 1 => (0, s'.dset d i 0x0C 2)
    | false, 3 => (0, s'.dset d i 0x0C 2)
    | false, 4 => (0, (s'.dset d i 0x0C 0).dset d i 0x0D 0)
    | _, _ => (0, s')

/-- RING_STOP_DONE (R460): the slot in progress is complete. -/
def ringStopDone (d k : Nat) (s : State) : State :=
  match ringState s d k with
  | 2 => s.dset d (ringIdx k) 0x0C 0
  | 3 => (ringEnable d k true (s.dset d (ringIdx k) 0x0C 0)).2
  | _ => s

/-- ENDPOINT_RESET (R453): one endpoint is reset: its rings are disabled, its translation cache is cleared, and its MSI-X table and
pending bits are at their reset values (log entry 128). -/
def endpointReset (e : Nat) (s : State) : State :=
  let s := s.pinc (0x1120 + e) 0x0A 1
  let s := { s with
    attCache := s.attCache.filter (fun x => x.1 / 2 ^ 40 != e)
    msixTab := s.msixTab.filter (fun x => x.1 / 256 != e), msixPend := mdel s.msixPend e }
  s.each s.present fun d s => s.each (List.range 24) fun k s =>
    if ringState s d k ≠ 0 ∧ ringEp s d k = e then (ringEnable d k false s).2 else s

/-- A write to att_invalidate (R455). -/
def attInvalidate (e first last : Nat) (s : State) : State :=
  let ps := attPage s e
  { s with attCache := s.attCache.filter (fun x =>
      !(x.1 / 2 ^ 40 == e && decide (first / ps ≤ x.1 % 2 ^ 40) && decide (x.1 % 2 ^ 40 ≤ last / ps))) }

/-! ### Punt rings (R461, R462) -/

/-- A packet is handed to a punt ring's writer on a die, from a requester of R462. -/
def puntTo (d r q i : Nat) (s : State) : State :=
  (s.onDie d (fun x => { x with buf.punters := mmod x.buf.punters (r % 32 * 8 + q) (fun l => l ++ [i]) })).stage i (.punt r)

/-- The punt completion of Table 15.5. -/
def puntRecord (p : Packet) (len cookie : Nat) (trunc : Bool) : Nat :=
  let d := p.desc
  len <<< 242 ||| b2n trunc <<< 241 ||| b2n (d.srcKind == 0) <<< 240 ||| d.srcPort.toNat <<< 231 ||| d.dispDie.toNat <<< 228 |||
    d.srcKind.toNat <<< 226 ||| d.pass.toNat <<< 224 ||| d.seq.toNat <<< 200 ||| d.flowBucket.toNat <<< 184 |||
    d.epoch.toNat <<< 180 ||| d.tc.toNat <<< 177 ||| b2n p.copyOf.isSome <<< 176 ||| d.parseClass.toNat <<< 172 |||
    d.malformed.toNat <<< 168 ||| d.l3.toNat <<< 160 ||| nsT80 p.rxStamp <<< 80 ||| d.l4.toNat <<< 72 ||| cookie

/-- The punted bytes: the frame as rewritten without its FCS, cut by a mirror session (R461). -/
def puntBytes (p : Packet) : Bytes × Bool :=
  let f := outFrame p
  let b := f.take (f.length - 4)
  match p.copyOf with
  | some _ => let t := p.mir.cut; if t ≠ 0 ∧ t < b.length then (b.take t, true) else (b, false)
  | none => (b, false)

/-- The packet the ring's writer takes next, with its requester (R462). -/
def puntNext (s : State) (d k : Nat) : Option (Nat × Nat) :=
  let q := fun (r : Nat) => mget (s.die d).buf.punters (k * 8 + r)
  match arbiter 6 (mget (s.die d).buf.rings k).ptr (fun r => !(q r).isEmpty) with
  | some r => ((q r).head?).map (fun i => (r, i))
  | none => none

/-- A packet leaves the part's books: occupancy, units and record. -/
def finishPkt (i : Nat) (s : State) : State := forget i (releaseUnits i (occEnd i s))

/-- PUNT_WRITE (R461, R462): the writer takes the next packet and its posted slot, whose content host memory gives. -/
def puntWrite (d k : Nat) (slot : BitVec 256) (atts : List (Nat × BitVec 64)) (s : State) : State :=
  match puntNext s d k with
  | none => s
  | some (r, i) =>
    if (s.pkt i).tail = .pending then s
    else
    let s := s.onDie d (fun x => { x with buf.punters := mmod x.buf.punters (k * 8 + r) (fun l => l.drop 1) })
    let s := onRing d k (fun x => { x with ptr := (r + 1) % 6 }) s
    let (bad, s) := bodyRead d i 0 s
    if bad.isSome then dropPkt d i 0x0F s else
    let s := match ringLinkCause s d k with
      | some c => if ringState s d k = 1 then ringError d k c s else s
      | none => s
    let w := slot.toNat
    let rva := bits w 255 208
    let blen := bits w 207 193
    let s := if ringState s d k = 1 ∧ posted s d k ≠ 0 ∧ (blen % 64 ≠ 0 ∨ blen < 256 ∨ 16384 < blen) then ringError d k 2 s else s
    if ringState s d k ≠ 1 ∨ posted s d k = 0 then dropPkt d i 0x13 s
    else
      let e := ringEp s d k
      let (b, cut) := puntBytes (s.pkt i)
      let out := b.take blen
      let at_ := slotRva s d k (s.dg d (ringIdx k) 0x0B)
      match (attFault s e atts false at_ 32).or (attFault s e atts true rva out.length), attFault s e atts true at_ 32 with
      | none, none =>
        let s := attKeepAll e atts at_ 32 s
        let s := dmaWrite e atts rva out s
        let rec_ := puntRecord (s.pkt i) out.length (bits w 63 0) (cut || decide (blen < b.length))
        finishPkt i (ringAdvance d k atts (dmaWrite e atts at_ (toBytesLE 32 rec_) s))
      | some f, _ => dropPkt d i 0x13 (ringFault d k f s)
      | none, some f => dropPkt d i 0x13 (ringFault d k f s)

/-! ### Inject rings (R463, R91, R170) -/

/-- INJECT_READ (R463): no slot is read in Drain, in Quiesce or on the way to it (R501, R502). Inject ring k is the one served next, and host memory gives its slot and the frame's bytes.
The frame goes to the inject input of the shared parse engine, which it asks for at once (R152); while one waits there, the
command asks again and reads none. -/
def injectRead (d k : Nat) (slot : BitVec 256) (frame : Bytes) (atts : List (Nat × BitVec 64)) (s : State) : State :=
  let ready := fun j => ringState s d (16 + j) == 1 && decide (posted s d (16 + j) ≠ 0)
  if !(s.die d).eng.injectIn.isEmpty then sharedParse d s
  else if s.draining ∨ arbiter 4 (s.die d).buf.injectPtr ready ≠ some (k - 16) ∨ k < 16 then s
  else
    let w := slot.toNat
    let len := bits w 207 194
    let body := frame.take len
    let f := if bit w 193 then body else body ++ fcsOf body
    let e := ringEp s d k
    let at_ := slotRva s d k (s.dg d (ringIdx k) 0x0B)
    match ringLinkCause s d k, (attFault s e atts false at_ 32).or (attFault s e atts false (bits w 255 208) len) with
    | some c, _ => ringError d k c s
    | none, some r => ringFault d k r s
    | none, none =>
      let s := attKeepAll e atts (bits w 255 208) len (attKeepAll e atts at_ 32 s)
      let (t, _) := judgeTail f (s.dg d (ringIdx k) 9)
      let (cs, s) := poolRequest s d 0 2 (ceilDiv f.length 256)
      match cs with
      | none => s
      | some cs =>
        let (u, s) := poolRequest s d 2 2 1
        match u with
        | none => poolFreeUnits s d 0 cs
        | some us =>
          let s := s.onDie d (fun x => { x with buf.injectPtr := (k - 16 + 1) % 4 })
          let s := ringAdvance d k atts s
          let (i, s) := s.newPkt {
            die := d, frame := f, tail := t, req := 2, maxLen := s.dg d (ringIdx k) 9, ring := k, cells := cs, unit := us.head?
            rxStamp := s.nsOn d
            desc := { srcKind := 1, srcPort := 0x1FF, ingressTs := BitVec.ofNat 20 (s.nsOn d)
                      firstCell := BitVec.ofNat 18 (cs.head?.getD 0) } }
          match t with
          | .bad reason => dropPkt d i reason s
          | _ => sharedParse d ((s.onDie d (fun x => { x with eng.injectIn := [i] })).stage i .injectIn)

/-! ### Record rings (R465) -/

/-- A record for ring 21, 22 or 23 of a die waits for its writer. -/
def recordPost (d k : Nat) (r : BitVec 256) (s : State) : State :=
  s.onDie d (fun x => { x with buf.recQ := mmod x.buf.recQ k (fun l => l ++ [r]) })

/-- A lost record is counted where its kind is (R236, R367, R391). -/
def recordLost (d k : Nat) (r : BitVec 256) (s : State) : State :=
  match k with
  | 21 => s.dinc d 0x4640 7 1
  | 22 => s.dinc d 0x4801 7 1
  | _ => s.dinc d (0x4050 + bits r.toNat 247 239 % 64) 8 1

/-- RECORD_RING_WRITE (R465): the next record of a ring is written into its next slot, or lost. -/
def recordWrite (d k : Nat) (atts : List (Nat × BitVec 64)) (s : State) : State :=
  match mget (s.die d).buf.recQ k with
  | [] => s
  | r :: rest =>
    let s := s.onDie d (fun x => { x with buf.recQ := mput x.buf.recQ k rest })
    let s := match ringLinkCause s d k with
      | some c => if ringState s d k = 1 then ringError d k c s else s
      | none => s
    if ringState s d k ≠ 1 ∨ ringSize s d k ≤ unread s d k then recordLost d k r s
    else
      let e := ringEp s d k
      let at_ := slotRva s d k (s.dg d (ringIdx k) 0x0B)
      match attFault s e atts true at_ 32 with
      | some f => recordLost d k r (ringFault d k f s)
      | none =>
        let s := dmaWrite e atts at_ (toBytesLE 32 r.toNat) s
        let s := s.when (k == 22) (fun s => s.dinc d 0x4801 6 1)
        ringAdvance d k atts s

/-- RING_IRQ_TIMER of one ring. -/
def execRingIrqTimer (d : DieId) (k : Fin 24) (s : State) : Host.Outcome State Fault Refusal := onLive d (ringIrqTimer d k) s
/-- DOORBELL_WRITE through an endpoint, at an offset from 0x10000 of BAR0. -/
def execDoorbellWrite (e : Fin 2) (off : Fin 0x12000) (v : BitVec 32) (s : State) : Host.Outcome State Fault Refusal :=
  .next (barWrite e off v.toNat s)
/-- RING_STOP_DONE of one ring. -/
def execRingStopDone (d : DieId) (k : Fin 24) (s : State) : Host.Outcome State Fault Refusal := onLive d (ringStopDone d k) s
/-- PUNT_WRITE of one ring. -/
def execPuntWrite (d : DieId) (k : Fin 16) (slot : BitVec 256) (atts : List (Nat × BitVec 64)) (s : State) :
    Host.Outcome State Fault Refusal := onLive d (puntWrite d k slot atts) s
/-- INJECT_READ of one ring, 16 to 19. -/
def execInjectRead (d : DieId) (k : Fin 4) (slot : BitVec 256) (frame : Bytes) (atts : List (Nat × BitVec 64)) (s : State) :
    Host.Outcome State Fault Refusal := onLive d (injectRead d (16 + k) slot frame atts) s
/-- RECORD_RING_WRITE of one ring, 21 to 23. -/
def execRecordRingWrite (d : DieId) (k : Fin 3) (atts : List (Nat × BitVec 64)) (s : State) : Host.Outcome State Fault Refusal :=
  onLive d (recordWrite d (21 + k) atts) s

end Sys2Proof.Machine
end

