-- ==== Sys2Proof/Machine/Fabric.lean ====
section
/-! DEFINITION. Ridgeline fabric links: cells and link control flits, link credit and replay, bring-up, end-to-end
credit, sending and receiving packets, step-down (Ridgeline Fabric Links). -/

namespace Sys2Proof.Machine

/-! ### Links -/

/-- Cycles of the buffer and scheduler island, 1.5 GHz (R346). -/
def bufCycles (s : State) : Nat := s.now * 3 / 2

/-- A die's link. -/
def flink (s : State) (d l : Nat) : FLink := mget (s.die d).buf.links l
/-- Change a link. -/
def onLink (d l : Nat) (f : FLink → FLink) (s : State) : State :=
  s.onDie d (fun x => { x with buf.links := mmod x.buf.links l f })
/-- State of a link (Table 13.11). -/
def linkState (s : State) (d l : Nat) : Nat := s.dg d (0x4110 + l) 1

/-- Bytes in a link's retry buffer. -/
def retryBytes (k : FLink) : Nat := (k.retry.map (fun c => 16 + c.payload.length)).sum

/-- A cell finds room in a link's retry buffer: 64 KiB or 1,024 cells (R404). -/
def retryRoom (k : FLink) (c : FCell) : Bool :=
  decide (k.retry.length < 1024) && decide (retryBytes k + 16 + c.payload.length ≤ 65536)

/-- A link can send a data cell now: up, not idle, with retry room and data credit (R404, R407, R418). -/
def cellFits (s : State) (d l : Nat) (c : FCell) : Bool :=
  linkState s d l == 4 && (flink s d l).step != 2 && retryRoom (flink s d l) c && decide (cellUnits c ≤ s.dg d (0x4110 + l) 4)

/-- A link runs in one direction or the other: up, or idle or woken in its transmit direction (R393, R418). -/
def linkAlive (s : State) (d l : Nat) : Bool := [4, 5, 6].contains (linkState s d l) || (flink s d l).waking && linkState s d l == 3

/-- Flits are taken from a link, whatever its transmit direction does (R393, R418). -/
def rxUp (s : State) (d l : Nat) : Bool := (flink s d l).rxOn && linkAlive s d l

/-- The transmit lane of a link is on (Table 13.6, R418). -/
def laneOn (s : State) (d l : Nat) : Bool := [2, 3, 4, 6].contains (linkState s d l)

/-- The active link with the most free data credit, the lowest number among equals (R398). -/
def bestLink (s : State) (d : Nat) (not_ : Option Nat) : Option Nat :=
  (List.range 32).foldl (fun b l =>
    if linkState s d l ≠ 4 ∨ (flink s d l).step ≠ 0 ∨ not_ = some l then b
    else match b with
      | none => some l
      | some m => if s.dg d (0x4110 + m) 4 < s.dg d (0x4110 + l) 4 then some l else some m) none

/-- A flit leaves on a link's lane (R395). -/
def onLane (b : Bytes) (k : FLink) : FLink := { k with tx := k.tx.put b }

/-- The credit fields of the next header of a link, and what is owed then (R406): data units first, at most 127. -/
def creditBits (k : FLink) : Nat × FLink :=
  let c := if mget k.owed 0 = 0 ∧ mget k.owed 1 ≠ 0 then 1 else 0
  let n := min 127 (mget k.owed c)
  (c <<< 42 ||| n <<< 35, { k with owed := mput k.owed c (mget k.owed c - n) })

/-- Send a cell for the first time: its header returns credit, it gets its parity, and it enters the retry buffer (R397, R404,
R406). -/
def sendCell (d l : Nat) (c : FCell) (s : State) : State :=
  onLink d l (fun k =>
    let (b, k) := creditBits k
    let h := bits c.hdr.toNat 127 43 <<< 43 ||| bits c.hdr.toNat 34 34 <<< 34 ||| b
    let c := { c with hdr := cellParity (BitVec.ofNat 128 h) c.payload }
    onLane (fcellBytes c) { k with retry := k.retry ++ [c], txSeq := (k.txSeq + 1) % 4096 }) (s.dinc d (0x4110 + l) 8 1)

/-- Send as many of a packet's cells, in order, as a link takes now; answers how many (R398, R404, R406). -/
def sendFitting (d l : Nat) : List FCell → State → Nat × State
  | [], s => (0, s)
  | c :: r, s =>
    if cellFits s d l c then
      let (n, s) := sendFitting d l r (sendCell d l c (s.ddec d (0x4110 + l) 4 (cellUnits c)))
      (n + 1, s)
    else (0, s)

/-- Send the control cells that a link holds while it has credit and retry room for them (R407). -/
def ctlPump : Nat → Nat → Nat → State → State
  | 0, _, _, s => s
  | n + 1, d, l, s =>
    let k := flink s d l
    match k.ctlQ with
    | [] => s
    | c :: r =>
      if linkState s d l = 4 ∧ k.step ≠ 2 ∧ cellUnits c ≤ k.ctlCredit ∧ retryRoom k c then
        ctlPump n d l (sendCell d l c (onLink d l (fun k => { k with ctlQ := r, ctlCredit := k.ctlCredit - cellUnits c }) s))
      else s

/-- A control cell joins those of a link and goes out when it can. -/
def ctlPut (d l : Nat) (cs : List FCell) (s : State) : State :=
  ctlPump ((flink s d l).ctlQ.length + cs.length) d l (onLink d l (fun k => { k with ctlQ := k.ctlQ ++ cs }) s)

/-- The active link that takes a control cell: the lowest with control credit, else the lowest (log entry 97). -/
def ctlLink (s : State) (d : Nat) : Option Nat :=
  let up := (List.range 32).filter (fun l => linkState s d l == 4 && (flink s d l).step == 0)
  match up.find? (fun l => (flink s d l).ctlCredit != 0) with
  | some l => some l
  | none => up.head?

/-- A control cell of 16-byte messages for a die by its fabric id (Table 13.2, R411). -/
def controlOf (s : State) (d fid : Nat) (msgs : Bytes) : FCell :=
  { hdr := BitVec.ofNat 128 (2 <<< 126 ||| (msgs.length - 1) <<< 114 ||| (fid * 64) <<< 94 ||| (fabricId s d * 64) <<< 74), payload := msgs }

/-- Send a control message to a die by its fabric id (R407, R411): it joins the cell for that die that waits last on the link, up to
15 in one. With no link up nothing is sent; the counters are cumulative and the next message carries them. -/
def sendControl (d fid : Nat) (msg : BitVec 128) (s : State) : Bool × State :=
  match ctlLink s d with
  | none => (false, s)
  | some l =>
    match (flink s d l).ctlQ.getLast? with
    | some c =>
      if chDst c.hdr.toNat = fid * 64 ∧ c.payload.length < 240 then
        (true, ctlPut d l [controlOf s d fid (c.payload ++ toBytes 16 msg.toNat)] (onLink d l (fun k => { k with ctlQ := k.ctlQ.dropLast }) s))
      else (true, ctlPut d l [controlOf s d fid (toBytes 16 msg.toNat)] s)
    | none => (true, ctlPut d l [controlOf s d fid (toBytes 16 msg.toNat)] s)

/-! ### End-to-end credit at the source (R410 to R412) -/

/-- The balance of a VOQ, 0 when it has run below: what is charged and not yet sent no longer belongs to it (R410). -/
def balance (c : VCred) : Nat :=
  let x := (c.granted + 2 ^ 33 - c.sent - c.released) % 2 ^ 32
  if x < 2 ^ 31 then x - c.held else 0

/-- Change a VOQ's counters. -/
def onCred (d v : Nat) (f : VCred → VCred) (s : State) : State :=
  s.onDie d (fun x => { x with buf.vcred := mmod x.buf.vcred v f })

/-- Cells queued in a VOQ (R412). Multicast packets use link credit alone (R415). -/
def queuedCells (s : State) (d v : Nat) : Nat :=
  ((mget (s.die d).buf.voqs v).pkts.map (fun i =>
    if (s.pkt i).desc.destKind = 1 then 0 else ceilDiv (s.pkt i).desc.length.toNat 240)).sum

/-- Send the DEMAND of a VOQ (Table 13.7, R412, R401). -/
def sendDemand (d v : Nat) (s : State) : State :=
  let c := mget (s.die d).buf.vcred v
  let q := min (queuedCells s d v) 0xFFFFF
  let m := 1 <<< 124 ||| c.tc <<< 121 ||| b2n (!c.begun) <<< 120 ||| v <<< 104 ||| c.dst <<< 84 ||| q <<< 64 ||| c.sent <<< 32 ||| c.released
  let (ok, s) := sendControl d (c.dst / 64) (BitVec.ofNat 128 m) s
  if ok then onCred d v (fun c => { c with begun := true }) (s.dinc d 0x4130 1 1) else s

/-- A VOQ feeds the fabric (R327). -/
def voqPort (s : State) (d v : Nat) : Nat := (mget (s.die d).buf.voqMap v).port

/-- The cells a packet is charged (R410); multicast uses link credit alone (R415). -/
def chargeOf (p : Packet) : Nat :=
  if p.desc.destKind = 1 then 0 else ceilDiv (if p.tail = .pending then p.maxLen + 1 else p.desc.length.toNat) 240

/-- A VOQ holds a packet for lack of balance (Table 13.12). -/
def voqStalled (s : State) (d v : Nat) : Bool :=
  voqPort s d v == 0x1FF && match (mget (s.die d).buf.voqs v).pkts with
    | [] => false
    | i :: _ => decide (balance (mget (s.die d).buf.vcred v) < chargeOf (s.pkt i))

/-- The cycles in which a VOQ held a packet for lack of balance are counted up to now. -/
def stallSettle (d : Nat) (s : State) : State :=
  let s := if (s.die d).buf.stalled.isEmpty then s else s.dinc d 0x4130 4 (bufCycles s - (s.die d).buf.stallFrom)
  s.onDie d (fun x => { x with buf.stallFrom := bufCycles s })

/-- After a change of a VOQ: whether it is one of those that hold a packet for lack of balance. -/
def stallNote (d v : Nat) (s : State) : State :=
  if voqStalled s d v = (s.die d).buf.stalled.contains v then s
  else (stallSettle d s).onDie d (fun x => { x with
    buf.stalled := if x.buf.stalled.contains v then x.buf.stalled.erase v else x.buf.stalled ++ [v] })

/-- After a change of a VOQ: a demand when its queued cells first exceed its balance, and the balance given back when it
has emptied (R412). -/
def creditCheck (d v : Nat) (s : State) : State :=
  let s := stallNote d v s
  if voqPort s d v ≠ 0x1FF then s
  else
    let c := mget (s.die d).buf.vcred v
    let q := queuedCells s d v
    if balance c < q then
      if c.asking then s else sendDemand d v (onCred d v (fun c => { c with asking := true }) s)
    else if q = 0 ∧ balance c ≠ 0 ∧ (mget (s.die d).buf.voqs v).pkts.isEmpty then
      sendDemand d v (onCred d v (fun c => { c with asking := false, released := (c.released + balance c) % 2 ^ 32 }) s)
    else onCred d v (fun c => { c with asking := false }) s

/-! ### Sending a packet (R398, R399, R409, R416, R327) -/

/-- The stream number of a packet that leaves a die (R399), and whether it is the stream's first (R401). -/
def streamNumber (d i : Nat) (s : State) : State :=
  let p := s.pkt i
  let k := b2n (p.desc.destKind == 1) * 2 ^ 20 + p.desc.dest.toNat
  let n := mget (s.die d).buf.streams k
  let s := s.onDie d (fun x => { x with buf.streams := mput x.buf.streams k ((n - 1 + (if n = 0 then 0 else 1)) % 2 ^ 24 + 1) })
  s.onPkt i (fun p => { p with fabSeq := if n = 0 then 0 else n % 2 ^ 24, restart := n == 0 })

/-- The bytes a packet sends: its frame, cut at maximum + 1 received bytes when oversize (R416). -/
def sendBytes (p : Packet) : Bytes :=
  let q := if p.tail = .bad 2 ∨ p.tail = .pending then { p with frame := p.frame.take (p.maxLen + 1) } else p
  if p.tail = .pending then outBytes q else outFrame q

/-- The cells of a packet still to be sent: all of them once the tail has come, and before those behind which more bytes have come, so
that one is left to be the last (R71, R416). -/
def cellsLeft (s : State) (i : Nat) : List FCell :=
  let p := s.pkt i
  let f := sendBytes p
  let upto := if p.tail = .pending then (f.length - 1) / 240 else max 1 (ceilDiv f.length 240)
  let total := if p.tail = .pending then upto + 1 else upto
  (List.range' p.sentCells (upto - p.sentCells)).map (fun n => dataCell s p f total n i)

/-- A packet's charge becomes n cells: the difference returns to the balance (R410). -/
def recharge (d i n : Nat) (s : State) : State :=
  let p := s.pkt i
  if p.desc.destKind = 1 then s
  else (onCred d p.desc.voq.toNat (fun c => { c with held := c.held + n - p.charged }) s).onPkt i (fun p => { p with charged := n })

/-- Cells of a packet have been sent: they count in sent_total and are held no longer (R410). Cells sent again do not count again. -/
def countSent (d i : Nat) (s : State) : State :=
  let p := s.pkt i
  let n := p.sentCells - p.cellsOut
  if p.desc.destKind = 1 ∨ n = 0 then s
  else (onCred d p.desc.voq.toNat (fun c => { c with sent := (c.sent + n) % 2 ^ 32, held := c.held - n }) s).onPkt i
    (fun p => { p with cellsOut := p.sentCells })

/-- The cells a packet takes when its tail has come (R410): those it was charged beyond them return to the balance. -/
def tailCharge (d i : Nat) (s : State) : State :=
  let p := s.pkt i
  if p.tail = .pending ∨ p.onLink.isNone then s else recharge d i (max p.cellsOut (max 1 (ceilDiv (sendBytes p).length 240))) s

/-- The first buffer cell that a packet on its way to a link has not yet sent. -/
def nextCell (p : Packet) : Nat := p.sentCells * 240 / 256

/-- Send what a packet on a link has ready and the link takes; its occupancy ends with its last byte (R319). -/
def pushCells (d i : Nat) (s : State) : State :=
  match (s.pkt i).onLink with
  | none => s
  | some l =>
    let s := s.when ((s.pkt i).cutThrough && (s.pkt i).sentCells != 0) (readRest d i (nextCell (s.pkt i)))
    let cs := cellsLeft s i
    let (n, s) := sendFitting d l cs s
    let s := countSent d i (s.onPkt i (fun p => { p with sentCells := p.sentCells + n }))
    if n < cs.length ∨ (s.pkt i).tail = .pending then s
    else occEnd i (recharge d i (s.pkt i).cellsOut (onLink d l (fun k => { k with going := k.going.filter (· != i) }) s))

/-- A link has got credit or retry room: what it holds goes on, control cells first (R404, R407). -/
def linkPump (d l : Nat) (s : State) : State :=
  let s := ctlPump (flink s d l).ctlQ.length d l s
  s.each (flink s d l).going (pushCells d)

/-- A packet leaves toward the fabric (R326, R398): none when no link takes its first cell now. -/
def departFabric (d i : Nat) (s : State) : Option State :=
  match bestLink s d none with
  | none => none
  | some l =>
    let s := streamNumber d i s
    let n := chargeOf (s.pkt i)
    let s := s.onPkt i (fun p => { p with onLink := some l, sentCells := 0, charged := n, cellsOut := 0, cutThrough := p.tail == .pending })
    match cellsLeft s i with
    | [] => none
    | c :: _ =>
      if !cellFits s d l c then none
      else
        let s := s.when (decide ((s.pkt i).desc.destKind ≠ 1)) (onCred d (s.pkt i).desc.voq.toNat (fun c => { c with held := c.held + n }))
        some (pushCells d i (onLink d l (fun k => { k with going := k.going ++ [i] }) (s.stage i (.toEgress d))))

/-- The record of a turnaround at its egress side, with the cells that it travels in: its descriptor is rebuilt from their headers (R65,
R399, R400). -/
def egressRecord (s : State) (p : Packet) (f : Bytes) (b : Nat) : Packet :=
  { die := b, stage := .toEgress b, frame := f, rw := saddleCells s p f 0, tail := .good, req := 5, srcDie := p.die, fabSeq := p.fabSeq
    restart := p.restart, resent := p.resent, poison := p.poison, enq := s.nsOn b
    desc := { srcKind := 3, seq := BitVec.ofNat 24 p.fabSeq, flowBucket := BitVec.ofNat 16 (cellSrc s p / 64)
              dispDie := BitVec.ofNat 3 b, destKind := if p.desc.destKind = 1 then 1 else 0, dest := p.desc.dest
              tc := p.desc.tc, colour := p.desc.colour, length := BitVec.ofNat 14 f.length } }

/-- A turnaround comes to the egress side of its die (R316, R399): it takes cells and a descriptor of requester 5. None when the pools
refuse. -/
def egressTake (d j : Nat) (s : State) : Option State × State :=
  match poolRequest s d 0 5 (ceilDiv (s.pkt j).frame.length 256) with
  | (none, s') => (none, s')
  | (some cs, s1) =>
    match poolRequest s1 d 2 5 1 with
    | (none, s2) => (none, poolFreeUnits s2 d 0 cs)
    | (some us, s2) =>
      let s3 := s2.onPkt j (fun p => { p with
        rw := [], cells := cs, unit := us.head?, desc := { p.desc with firstCell := BitVec.ofNat 18 (cs.head?.getD 0) } })
      (some (s3.onDie d (fun x => { x with buf.egIn := x.buf.egIn ++ [j] })), s3)

/-- What requests of cells and descriptors made on the way to a state leave in another, in which they have no other effect: refused ones of
requester 5 are counted (R337), and the pointers of the pools stand behind the requesters they granted (R23). -/
def refusedHere (d : Nat) (after s : State) : State :=
  let s := s.each [0x4710, 0x4712] (fun i s => s.dset d i 0x45 (after.dg d i 0x45))
  s.each [0, 2] (fun p s => onPool s d p (fun q => { q with ptr := (pool after d p).ptr }))

/-- A turnaround of a port on its own die crosses no saddle (R327): it passes to the egress side when it is whole and the pools have
room. -/
def departHere (d i : Nat) (s : State) : Option State × State :=
  if (s.pkt i).tail = .pending then (none, s)
  else
    let s1 := streamNumber d i s
    let (j, s1) := s1.newPkt (egressRecord s1 (s1.pkt i) (sendBytes (s1.pkt i)) d)
    match egressTake d j s1 with
    | (some t, _) => (some (finishPkt i (t.stage i (.toEgress d))), s)
    | (none, t) => (none, refusedHere d t s)

/-- A packet leaves as a turnaround over the saddles (R327, R399): it waits for its tail. -/
def departSaddle (d i : Nat) (s : State) : Option State :=
  let b := voqPort s d (s.pkt i).desc.voq.toNat / 64
  if !saddleFree s d b 3 then none
  else
    let s := streamNumber d i s
    let s := s.onPkt i (fun p => { p with cutThrough := p.tail == .pending, onLink := none })
    if (s.pkt i).tail = .pending then some (s.stage i (.toEgress b))
    else
      let p := s.pkt i
      let (j, s) := s.newPkt (egressRecord s p (sendBytes p) b)
      some (finishPkt i ((s.send d b (.cells j)).stage i (.toEgress b)))

/-- Credit is present for a packet (R69, R326, R410). Multicast and mirror copies of kind 2 use link credit alone (R415). -/
def creditFor (s : State) (d i : Nat) : Bool :=
  let p := s.pkt i
  let v := p.desc.voq.toNat
  if voqPort s d v ≠ 0x1FF then saddleFree s d (voqPort s d v / 64) 3
  else p.desc.destKind == 1 || decide (chargeOf p ≤ balance (mget (s.die d).buf.vcred v))

/-- A packet leaves its die when credit is present; none when it cannot, with the state in which refused requests are counted. -/
def depart (d i : Nat) (s : State) : Option State × State :=
  let q := voqPort s d (s.pkt i).desc.voq.toNat
  if !creditFor s d i then (none, s)
  else if q = 0x1FF then (departFabric d i s, s)
  else if q / 64 = d then departHere d i s
  else (departSaddle d i s, s)

/-- A packet leaves with its body read (R326, R530): one whose first word is lost ends at P4, one that loses a later word goes on poisoned
(R380). A packet that leaves by the express lane is counted (R69). None when it cannot leave, with what its requests leave. -/
def departRead (d i : Nat) (express : Bool) (s : State) : Option State × State :=
  match depart d i s with
  | (none, t) => (none, t)
  | (some _, _) =>
    match bodyRead d i 0 s with
    | (some 0, s1) => (some (dropPkt d i 0x0F s1), s1)
    | (bad, s1) =>
      let r := depart d i (s1.when bad.isSome (poisonBody d i))
      (r.1.map (fun s => if express then s.dinc d 0x4700 7 1 else s), r.2)

/-- A packet whose head left before its tail sends the rest once the tail has come (R71, R410, R416). -/
def flushCut (d i : Nat) (s : State) : State :=
  let p := s.pkt i
  if !p.cutThrough || p.tail == .pending then s
  else
    match p.onLink with
    | some _ => pushCells d i (tailCharge d i s)
    | none =>
      match p.stage with
      | .toEgress b =>
        let s := readRest d i 1 s
        let p := s.pkt i
        let (j, s) := s.newPkt (egressRecord s p (sendBytes p) b)
        finishPkt i (s.send d b (.cells j))
      | _ => s

/-! ### Link control flits (R403) -/

/-- A link control flit: op, sequence number and data, with its parity bit (Table 13.4). -/
def mkLcf (op seq data : Nat) : BitVec 64 :=
  let w := BitVec.ofNat 64 (3 <<< 62 ||| op <<< 58 ||| seq <<< 46 ||| data <<< 1)
  if oddParity w then w ||| 1 else w

/-- Send a link control flit, while the lane is on. -/
def sendLcf (d l op seq data : Nat) (s : State) : State :=
  if !laneOn s d l then s else onLink d l (fun k => onLane (toBytes 8 (mkLcf op seq data).toNat) { k with lcf := mkLcf op seq data }) s

/-- A received flit is the LCF of that operation, with good parity; any other is discarded. -/
def lcfIs (f : BitVec 64) (op : Nat) : Bool := bits f.toNat 63 62 == 3 && bits f.toNat 61 58 == op && !oddParity f

/-- The TRAIN flit of a link (Table 13.5). -/
def sendTrain (d l : Nat) (s : State) : State := sendLcf d l 3 0 (fabricId s d <<< 31 ||| l <<< 25 ||| 1 <<< 21) s

/-- Packets whose last cell a link has not had acknowledged: with a cell in its retry buffer, or with cells to send (R409). -/
def unackedPkts (k : FLink) : List Nat := (k.retry.filterMap (·.pkt) ++ k.going).dedup

/-- A link whose transmit direction takes flits: up, with no STEP_REQ out (R418). -/
def linkSends (s : State) (d l : Nat) : Bool := linkState s d l == 4 && (flink s d l).step != 2

/-- Wake the idle links of a set, those whose STEP_REQ is out among them, and let those that are emptying go on (R418, R419): WAKE_REQ
names each on an active link of the set. `not_` is a link that is going down. -/
def wakeSet (d set not_ : Nat) (s : State) : State :=
  let n := s.dg d 0x4100 3
  let ls := ((List.range n).map (fun i => set * n + i)).filter (· != not_)
  let s := s.onDie d (fun x => { x with buf.sets := mmod x.buf.sets set (fun t => { t with down := false, below := 0 }) })
  let via := ls.find? (linkSends s d)
  s.each ls fun l s =>
    if linkState s d l = 5 ∨ linkState s d l = 4 ∧ (flink s d l).step = 2 then
      let s := onLink d l (fun k => { k with waking := true, step := 0 }) (s.dset d (0x4110 + l) 1 6)
      match via with
      | some v => sendLcf d v 8 0 (l <<< 40) s
      | none => s
    else if (flink s d l).step ≠ 0 then onLink d l (fun k => { k with step := 0 }) s
    else s

/-- The link on which what a link held goes on (R409): the best active one; with only links that are emptying left, one of those, whose
step-down then does not happen, one that has asked for it last. -/
def otherLink (d not_ : Nat) (s : State) : Option Nat × State :=
  match bestLink s d (some not_) with
  | some l => (some l, s)
  | none => match ((List.range 32).find? (fun l => linkSends s d l && l != not_)).or
      ((List.range 32).find? (fun l => linkState s d l == 4 && l != not_)) with
    | none => (none, s)
    | some l => (some l, wakeSet d (l / s.dg d 0x4100 3) not_ s)

/-- Send a packet again from its first cell on another link (R409); with no link up it is lost. -/
def resendPkt (d i : Nat) (not_ : Nat) (s : State) : State :=
  match otherLink d not_ s with
  | (none, s) => finishPkt i (recharge d i (s.pkt i).cellsOut s)
  | (some l, s) =>
    let s := s.dinc d 0x4130 8 1
    let s := s.onPkt i (fun p => { p with resent := true, onLink := some l, sentCells := 0 })
    pushCells d i (onLink d l (fun k => { k with going := k.going ++ [i] }) s)

/-- A link loses its peer: credits and numbers are void, and what was not acknowledged is sent again elsewhere (R409). Cells that it has
accepted stay in its receive buffer, and the lane goes on sending codewords (Table 13.6). -/
def linkVoid (d l : Nat) (s : State) : State :=
  let k := flink s d l
  let ctl := k.retry.filter (fun c => c.pkt.isNone && decide (chType c.hdr.toNat = 2)) ++ k.ctlQ
  let s := onLink d l (fun k => { fails := k.fails, fenced := k.fenced, tx := k.tx, rxBuf := k.rxBuf }) (s.dset d (0x4110 + l) 4 0)
  let s := s.each (unackedPkts k) (fun i s => resendPkt d i l s)
  if ctl.isEmpty then s
  else match otherLink d l s with
    | (some m, s) => ctlPut d m ctl s
    | (none, s) => s

/-- A link whose lanes carry nothing any more is fenced for a cause (R408). -/
def linkFenced (d l cause : Nat) (s : State) : State :=
  onLink d l (fun k => { k with fenced := true }) ((s.dset d (0x4110 + l) 1 7).dset d (0x4110 + l) 0x0C cause)

/-- A link that is disabled stops (R408). -/
def linkOff (d l : Nat) (s : State) : State :=
  onLink d l (fun k => { fenced := k.fenced, tx := k.tx }) (((linkVoid d l s).dset d (0x4110 + l) 1 0).dset d (0x4110 + l) 0x0C 0)

/-- FABRIC_LINK_DOWN (R408, R409, R419): a link goes down for a cause of Table 13.11. The idle links of its set are woken first. It
restarts from step 2, unless as many restarts in a row have failed already: then it is fenced. -/
def linkDown (d l cause : Nat) (s : State) : State :=
  if [2, 3, 4, 5, 6].contains (linkState s d l) then
    let k := flink s d l
    let wasUp := linkState s d l == 4
    let s := if wasUp then wakeSet d (l / s.dg d 0x4100 3) l s else s
    let s := (linkVoid d l s).dset d (0x4110 + l) 1 2
    if k.waking then s
    else if k.pendDown then linkOff d l s
    else if !wasUp && decide (s.dg d 0x4100 0x0A ≤ k.fails) then (linkFenced d l cause s).report d 0x0C l 3 0x482 k.rxSeq
    else
      onLink d l (fun x => { x with fails := if wasUp then 1 else k.fails + 1 }) ((s.dinc d (0x4110 + l) 0x0A 1).reportOpen d 0x0C l 1 0x483 125 k.rxSeq)
  else s

/-- A link that is enabled starts once a fabric id is set (R408) where the mode lets links run (R499): its transmitter sends codewords
holding IDLE (Table 13.6 step 1). -/
def linkStart (d l : Nat) (s : State) : State :=
  if fabricId s d < 16383 ∧ s.netMode d then onLink d l (fun k => { k with tx := k.tx.idle }) (s.dset d (0x4110 + l) 1 2) else s.dset d (0x4110 + l) 1 1

/-- LINK_ENABLE_WRITE (R408, R512): links enabled start at step 1 once a fabric id is set; links disabled stop, one that starts when its
start has ended. -/
def linkEnables (d v : Nat) (s : State) : State :=
  let old := s.dg d 0x4100 2
  let s := s.dset d 0x4100 2 v
  s.each (List.range 32) fun l s =>
    match bit old l, bit v l with
    | false, true => if (flink s d l).pendDown then onLink d l (fun k => { k with pendDown := false }) s else linkStart d l s
    | true, false => if [2, 3].contains (linkState s d l) then onLink d l (fun k => { k with pendDown := true }) s else linkOff d l s
    | _, _ => s

/-- A fabric id has been set: enabled links that waited for it start (R408). -/
def fabricIdSet (d : Nat) (s : State) : State :=
  if fabricId s d < 16383 then
    s.each (List.range 32) (fun l s => if linkState s d l = 1 ∧ bit (s.dg d 0x4100 2) l then linkStart d l s else s)
  else s

/-- FABRIC_ALIGNMENT_LOCK (Table 13.6 steps 2 to 4): the receiver has locked and found two codewords 16,384 codewords apart, given by
their payloads; when both are alignment codewords, TRAIN is sent. -/
def alignmentLock (d l : Nat) (a b : BitVec 5140) (s : State) : State :=
  if linkState s d l = 2 && aligned a && aligned b then sendTrain d l (s.dset d (0x4110 + l) 1 3) else s

/-- The codewords under a flit are counted (Table 13.11). -/
def cwCount (d l : Nat) (cw : Cw) (s : State) : State := (s.dinc d (0x4110 + l) 6 cw.corrected).dinc d (0x4110 + l) 7 cw.lost

/-- A cell with a parity error, or a flit over a codeword that could not be corrected, is discarded, and the last good cell is named in
a NAK (R405); the third failed arrival of a number takes the link down. -/
def cellBroken (d l : Nat) (replay : Bool) (s : State) : State :=
  let k := flink s d l
  if !rxUp s d l || (k.rxNak && !replay) then s
  else if 3 ≤ k.rxFails + 1 then linkDown d l 1 s
  else sendLcf d l 2 ((k.rxSeq + 4095) % 4096) 0 (onLink d l (fun x => { x with rxNak := true, rxFails := k.rxFails + 1 }) s)

/-- A link control flit arrives: its codewords are counted; over one that could not be corrected it counts as a cell with a parity error
(R405). -/
def lcfIn (d l : Nat) (cw : Cw) (f : State → State) (s : State) : State :=
  let s := cwCount d l cw s
  if cw.broken then cellBroken d l false s else f s

/-- A link that has sent and received READY is up (Table 13.6 step 6); with no link left fenced, lost-unit bit 6 clears
(R508). A woken one has its transmit direction back, and its receive direction is what it was (R418). -/
def linkReady (d l : Nat) (s : State) : State :=
  let k := flink s d l
  if linkState s d l = 3 ∧ k.inits = 3 ∧ (k.waking ∨ 3 ≤ k.trains) ∧ k.ready then
    let s := onLink d l (fun k =>
      let k := if k.waking then k else { k with rxSeq := 0, rxNak := false, rxFails := 0, unacked := 0, rxOn := true, rxWake := false }
      { k with txSeq := 0, base := 0, fails := 0, waking := false, fenced := false }) (s.dset d (0x4110 + l) 1 4)
    let s := if (List.range 32).all (fun j => !(flink s d j).fenced) then clearLost d 6 s else s
    if k.pendDown then linkOff d l s else linkPump d l s
  else s

/-- Units of data credit that a receiver advertises: 992 less what its buffer holds (R406; log entry 97). -/
def freeUnits (k : FLink) : Nat := 992 - (k.rxBuf.map cellUnits).sum

/-- LCF_TRAIN (Table 13.6 step 4): three identical TRAINs of version 1, then CREDIT_INIT is sent, and READY where both of the peer's have
come already; what has been freed so far is part of what it advertises and is owed no more (R406). Another version restarts the link. It serves a link that comes up, and a receive direction that the peer wakes (R418). -/
def lcfTrain (d l : Nat) (f : BitVec 64) (s : State) : State :=
  let k := flink s d l
  let up := linkState s d l == 3 && !k.waking
  if !lcfIs f 3 || !(up || k.rxWake) then s
  else
    let data := bits f.toNat 45 1
    if bits data 24 21 ≠ 1 then linkDown d l 3 s
    else
      let n := if k.trains ≠ 0 ∧ k.train.toNat = data then k.trains + 1 else 1
      let s := onLink d l (fun k => { k with train := BitVec.ofNat 45 data, trains := n }) s
      if n = 3 then
        let s := (s.dset d (0x4110 + l) 2 (bits data 44 31)).dset d (0x4110 + l) 3 (bits data 30 25)
        let s := sendLcf d l 4 0 (1 <<< 44 ||| 32 <<< 32) (sendLcf d l 4 0 (freeUnits k <<< 32) s)
        let s := onLink d l (fun k => { k with owed := [] }) s
        if up && decide (k.inits = 3) then linkReady d l (sendLcf d l 5 0 0 s) else s
      else s

/-- LCF_CREDIT_INIT (Table 13.6 step 5, R406): with both classes sent and received, READY is sent. A link that is woken sends none of its
own (Table 13.8). -/
def lcfCreditInit (d l : Nat) (f : BitVec 64) (s : State) : State :=
  if !lcfIs f 4 || linkState s d l ≠ 3 then s
  else
    let units := bits f.toNat 44 33
    let s := if bit f.toNat 45 then onLink d l (fun k => { k with ctlCredit := units, inits := k.inits ||| 2 }) s
      else onLink d l (fun k => { k with inits := k.inits ||| 1 }) (s.dset d (0x4110 + l) 4 units)
    let k := flink s d l
    linkReady d l (if k.inits = 3 ∧ (k.waking ∨ 3 ≤ k.trains) then sendLcf d l 5 0 0 s else s)

/-- LCF_READY (Table 13.6 step 6). The receiving end of a woken direction answers it, and the numbers of that direction start at 0
(Table 13.8). -/
def lcfReady (d l : Nat) (f : BitVec 64) (s : State) : State :=
  if !lcfIs f 5 then s
  else
    let k := flink s d l
    let s := if k.rxWake ∧ 3 ≤ k.trains then
        sendLcf d l 5 0 0 (onLink d l (fun k => { k with
          rxSeq := 0, rxNak := false, rxFails := 0, unacked := 0, rxOn := true, rxWake := false }) s)
      else s
    if linkState s d l = 3 then linkReady d l (onLink d l (fun k => { k with ready := true }) s) else s

/-- The cells up to a link number leave the retry buffer; packets whose last cell they carry are done with (R404, R409). -/
def ackTo (d l seq : Nat) (s : State) : State :=
  let k := flink s d l
  let n := (seq + 1 + 4096 - k.base) % 4096
  if k.retry.length < n then s
  else
    let done := ((k.retry.take n).filter (fun c => chLast c.hdr.toNat && decide (chType c.hdr.toNat = 0))).filterMap (·.pkt)
    let s := onLink d l (fun k => { k with retry := k.retry.drop n, base := (k.base + n) % 4096 }) s
    linkPump d l (s.each done finishPkt)

/-- LCF_ACK (R404). -/
def lcfAck (d l : Nat) (f : BitVec 64) (s : State) : State :=
  if !lcfIs f 1 || !rxUp s d l then s else ackTo d l (bits f.toNat 57 46) s

/-- LCF_NAK (R405): everything up to the named cell is acknowledged, and the rest is sent again in order. -/
def lcfNak (d l : Nat) (f : BitVec 64) (s : State) : State :=
  if !lcfIs f 2 || !rxUp s d l then s
  else
    let again := fun (k : FLink) => k.retry.foldl (fun k c => onLane (fcellBytes c) k) k
    linkPump d l (onLink d l again (ackTo d l (bits f.toNat 57 46) s))

/-- The link on which an answer about a link goes: itself while its transmit direction is up, else the lowest active one (R418). -/
def answerLink (s : State) (d l : Nat) : Option Nat :=
  if linkSends s d l then some l else (List.range 32).find? (linkSends s d)

/-- LCF_STEP_REQ (R418): the peer idles its direction; until it is woken no flit is taken from it. -/
def lcfStepReq (d l : Nat) (f : BitVec 64) (s : State) : State :=
  if !lcfIs f 6 || !linkAlive s d l then s
  else
    let s := onLink d l (fun k => { k with rxOn := false, rxWake := false }) s
    match answerLink s d l with
    | some v => sendLcf d v 7 0 (l <<< 40) s
    | none => s

/-- LCF_STEP_ACK (R418 step 4): the transmit lane of the acknowledged link powers down. -/
def lcfStepAck (d l : Nat) (f : BitVec 64) (s : State) : State :=
  let k := bits f.toNat 45 41
  if !lcfIs f 7 || !rxUp s d l || (flink s d k).step ≠ 2 || linkState s d k ≠ 4 then s
  else onLink d k (fun x => { x with step := 0 }) (s.dset d (0x4110 + k) 1 5)

/-- LCF_WAKE_REQ (R418): the receiving end has locked on the named link, whose receive direction starts anew, and answers on an active
reverse link. -/
def lcfWakeReq (d l : Nat) (f : BitVec 64) (s : State) : State :=
  let k := bits f.toNat 45 41
  if !lcfIs f 8 || !rxUp s d l || !linkAlive s d k then s
  else
    let x := flink s d k
    let s := if x.rxOn || x.rxWake then s else onLink d k (fun x => { x with rxWake := true, trains := 0 }) s
    match answerLink s d l with
    | some v => sendLcf d v 9 0 (k <<< 40) s
    | none => s

/-- LCF_WAKE_ACK (R418): the woken link runs steps 4 to 6 of Table 13.6 in its transmit direction. -/
def lcfWakeAck (d l : Nat) (f : BitVec 64) (s : State) : State :=
  let k := bits f.toNat 45 41
  if !lcfIs f 9 || !rxUp s d l || linkState s d k ≠ 6 then s
  else sendTrain d k (onLink d k (fun x => { x with
    retry := [], base := 0, txSeq := 0, ctlCredit := 0, inits := 0, ready := false, waking := true }) (s.dset d (0x4110 + k) 1 3))

/-- LCF_REPEAT (R395, R403): TRAIN, STEP_REQ and WAKE_REQ are sent again every 1 µs until answered, TRAIN by a CREDIT_INIT; then IDLE
fills the lane. -/
def lcfRepeat (d l : Nat) (s : State) : State :=
  let k := flink s d l
  let s := if linkState s d l = 3 ∧ k.inits = 0 then sendTrain d l s
    else if linkState s d l = 4 ∧ k.step = 2 then sendLcf d l 6 0 0 s
    else if linkState s d l = 6 then
      let n := s.dg d 0x4100 3
      match ((List.range n).map (fun i => l / n * n + i)).find? (linkSends s d) with
      | some via => sendLcf d via 8 0 (l <<< 40) s
      | none => s
    else s
  if laneOn s d l then onLink d l (fun k => { k with tx := k.tx.idle }) s else s

/-- Return the units still owed in type 1 cells, at most 127 in each (R406). -/
def creditCells : Nat → Nat → Nat → State → State
  | 0, _, _, s => s
  | n + 1, d, l, s =>
    let k := flink s d l
    let c : FCell := { hdr := BitVec.ofNat 128 (1 <<< 126 ||| (fabricId s d * 64) <<< 74) }
    if mget k.owed 0 + mget k.owed 1 = 0 ∨ !retryRoom k c then s else creditCells n d l (sendCell d l c s)

/-- LINK_ACK_TIMER (R404, R406): an ACK at least every 100 ns while cells arrive; the units that no other cell has returned
by then go back in type 1 cells. What a lane that is off would tell waits until it is on again (log entry 97). -/
def linkAckTimer (d l : Nat) (s : State) : State :=
  let k := flink s d l
  if !rxUp s d l || !laneOn s d l then s
  else
    let s := if k.unacked = 0 then s
      else onLink d l (fun k => { k with unacked := 0 }) (sendLcf d l 1 ((k.rxSeq + 4095) % 4096) 0 s)
    if linkSends s d l then creditCells (mget k.owed 0 + mget k.owed 1) d l s else s

/-- NAK_REPEAT (R405): the NAK is sent again every 200 ns until a replayed cell arrives. -/
def nakRepeat (d l : Nat) (s : State) : State :=
  let k := flink s d l
  if rxUp s d l && k.rxNak then sendLcf d l 2 ((k.rxSeq + 4095) % 4096) 0 s else s

/-! ### Depths of queues -/

/-- Bytes in a list of packets. -/
def pktBytes (s : State) (l : List Nat) : Nat := (l.map (fun i => (s.pkt i).desc.length.toNat)).sum

/-- Note a queue's depth for its peak (R365): VOQ v at v, egress queue q at 65536 + q. -/
def notePeak (d k depth : Nat) (s : State) : State :=
  if mget (s.die d).buf.peaks k < depth then s.onDie d (fun x => { x with buf.peaks := mput x.buf.peaks k depth }) else s

/-- An egress queue. -/
def egq (s : State) (d q : Nat) : EgQueue := mget (s.die d).buf.egq q

/-! ### Receiving cells (R398, R400, R405, R406) -/

/-- A cell arrives: none when it is discarded (R405), else the state with it accepted and link credit returned. Its parity is judged
before anything its header says; an injected flip of the link number that comes next breaks it (R541). `fits` says that the header is that of the row; `replay` that it is the first cell of a replay. -/
def acceptCell (d l : Nat) (hdr : BitVec 128) (payload : Bytes) (cw : Cw) (fits replay : Bool) (s : State) : Option State × State :=
  let s := cwCount d l cw s
  let k := flink s d l
  let (flip, s) := match s.flipAt d 0x0C l k.rxSeq with
    | some f => (true, spendFlip d f 1 s)
    | none => (false, s)
  if flip || cw.broken || !cellOk hdr payload then (none, cellBroken d l replay s)
  else if !fits || !rxUp s d l || (k.rxNak && !replay) then (none, s)
  else
    let s := if k.rxNak then (s.dinc d (0x4110 + l) 5 1).reportOpen d 0x0C l 2 0x480 2 k.rxSeq else s
    let h := hdr.toNat
    let cnt := bits h 41 35
    let s := s.dinc d (0x4110 + l) 9 1
    let s := if bit h 42 then onLink d l (fun k => { k with ctlCredit := k.ctlCredit + cnt }) s
      else s.dset d (0x4110 + l) 4 (s.dg d (0x4110 + l) 4 + cnt)
    let s := onLink d l (fun k => { k with
      rxSeq := (k.rxSeq + 1) % 4096, rxNak := false, rxFails := 0, unacked := k.unacked + 1
      owed := if chType h = 2 then mmod k.owed 1 (· + ceilDiv (16 + payload.length) 64) else k.owed }) s
    let s := linkPump d l s
    let s := if 64 ≤ (flink s d l).unacked then linkAckTimer d l s else s
    (some s, s)

/-- CREDIT_CELL_RECEIVE (R406): a type 1 cell returns link credit. -/
def creditCell (d l : Nat) (hdr : BitVec 128) (cw : Cw) (replay : Bool) (s : State) : State :=
  (acceptCell d l hdr [] cw (decide (chType hdr.toNat = 1)) replay s).2

/-- The packet a data cell belongs to (R398): the one in reassembly for its source, destination and number, or a new one that
its first cell starts (R400). A packet sent again starts over in place while no window holds it. Once a window holds it the copy is a
duplicate: it is counted, and only what the packet still lacks is taken from it (R409, log entry 98). -/
def openReasm (d l h : Nat) (s : State) : Option Nat × State :=
  let hit := fun (r : Reasm) => r.src == chSrc h && r.dst == chDst h && r.seq == chSeq h && r.mcast == chMcast h
  match (s.die d).buf.reasm.find? hit, chFirst h with
  | some r, false => (some r.pkt, s)
  | none, false => (none, s)
  | old, true =>
    match (if chResent h then old else none) with
    | some r =>
      if (s.pkt r.pkt).stage = .toEgress d then (some r.pkt, s.onPkt r.pkt (fun p => { p with frame := [] }))
      else (some r.pkt, (s.dinc d 0x4130 7 1).onDie d (fun x => { x with
        buf.reasm := x.buf.reasm.map (fun y => if y.pkt == r.pkt then { y with skip := (s.pkt r.pkt).frame.length } else y) }))
    | none =>
      let (i, s) := s.newPkt {
        die := d, stage := .toEgress d, req := 5, fabSeq := chSeq h, onLink := some l, enq := s.nsOn d
        restart := chRestart h, resent := chResent h
        desc := { srcKind := 3, seq := BitVec.ofNat 24 (chSeq h), flowBucket := BitVec.ofNat 16 (chSrc h / 64)
                  dispDie := BitVec.ofNat 3 d, destKind := if chMcast h then 1 else 0, dest := BitVec.ofNat 20 (chDst h)
                  tc := BitVec.ofNat 3 (chTc h), colour := BitVec.ofNat 2 (chColour h) } }
      (some i, s.onDie d (fun x => { x with
        buf.reasm := x.buf.reasm.filter (fun r => !hit r) ++
          [{ src := chSrc h, mcast := chMcast h, dst := chDst h, seq := chSeq h, pkt := i }]
        buf.egIn := x.buf.egIn ++ [i] }))

/-- Bytes of a copy sent again that a packet in reassembly has already. -/
def reasmSkip (s : State) (d i : Nat) : Nat := (((s.die d).buf.reasm.find? (fun r => r.pkt == i)).map (·.skip)).getD 0

/-- A packet's reassembly ends with its last cell. -/
def closeReasm (d i : Nat) (s : State) : State :=
  s.onDie d (fun x => { x with buf.reasm := x.buf.reasm.filter (fun r => r.pkt != i) })

/-- A data cell joins its packet in reassembly (R398), or starts one (R400). None when requester 5 gets no units: the request
is counted. A packet that has ended takes no more cells and goes with its last. -/
def reassemble (d l : Nat) (h : Nat) (payload : Bytes) (s0 : State) : Option State × State :=
  match openReasm d l h s0 with
  | (none, s) => (some s, s)
  | (some i, s) =>
    let p := s.pkt i
    let close := fun (s : State) => if chLast h then closeReasm d i s else s
    if p.stage = .ended then
      let s := close s
      (some (if chLast h then { s with pkts := mdel s.pkts i } else s), s)
    else if 0 < reasmSkip s d i then
      let s := s.onDie d (fun x => { x with buf.reasm := x.buf.reasm.map (fun r =>
        if r.pkt == i then { r with skip := r.skip - payload.length } else r) })
      (some s, s)
    else
      let n := ceilDiv (p.frame.length + payload.length) 256 - p.cells.length
      let (cs, s) := if n = 0 then (some [], s) else poolRequest s d 0 5 n
      match cs with
      | none => (none, s0.dinc d 0x4710 0x45 1)
      | some cs =>
        let (u, s) := if p.unit.isSome then (some [], s) else poolRequest s d 2 5 1
        match u with
        | none => (none, s0.dinc d 0x4712 0x45 1)
        | some us =>
          let s := s.onPkt i (fun p => { p with
            frame := p.frame ++ payload, cells := p.cells ++ cs, unit := if p.unit.isSome then p.unit else us.head?
            tail := if chLast h then .good else p.tail, poison := p.poison || (chLast h && chPoison h)
            desc := { p.desc with length := BitVec.ofNat 14 (p.frame.length + payload.length)
                                  firstCell := if p.cells.isEmpty then BitVec.ofNat 18 (cs.head?.getD 0) else p.desc.firstCell } })
          let s := s.when (p.stage != .toEgress d && !chMcast h) (creditReceived d i 1)
          let s := match p.stage with
            | .egress slot tc => notePeak d (65536 + (slot * 8 + tc)) (pktBytes s (egq s d (slot * 8 + tc)).pkts) s
            | _ => s
          let s := match creditEntryOf s d (chSrc h / 64) (chDst h) (chTc h) with
            | some k => s.onDie d (fun x => { x with buf.centries := mmod x.buf.centries k (fun e => { e with since := s.now }) })
            | none => s
          let s := close s
          (some s, s)

/-- A packet found poisoned while it waits in an egress queue ends at P8 (R380, Table 12.2). -/
def poisonQueued (d : Nat) (s : State) : State :=
  s.each ((s.pkts.filter (fun x => x.2.die == d && x.2.poison && x.2.tail == .good && (match x.2.stage with
    | .egress _ _ => true
    | .line _ _ => true
    | _ => false))).map (·.1)) (fun i s => dropPkt d i 0x14 s)

/-- The cells of a link's receive buffer are reassembled in order, each as soon as its pool units are there; its units of link
credit are owed from then on (R316, R398, R406). -/
def rxDrain : Nat → Nat → Nat → State → State
  | 0, _, _, s => s
  | n + 1, d, l, s =>
    match (flink s d l).rxBuf with
    | [] => s
    | c :: r =>
      let h := c.hdr.toNat
      match reassemble d l h c.payload s with
      | (none, s') => s'
      | (some s', _) =>
        let s' := onLink d l (fun k => { k with rxBuf := r, owed := mmod k.owed 0 (· + cellUnits c) }) s'
        rxDrain n d l (if chLast h && chPoison h then poisonQueued d s' else s')

/-- Every link's receive buffer is looked at: units have become free (R316). -/
def rxDrainAll (d : Nat) (s : State) : State :=
  s.each (List.range 32) (fun l s => rxDrain (flink s d l).rxBuf.length d l s)

/-- DATA_CELL_RECEIVE (R394, R398, R400, R405): a data cell comes in, over the codewords `cw`. A cell that finds no pool units stays in
the link's receive buffer. -/
def dataCellReceive (d l : Nat) (hdr : BitVec 128) (payload : Bytes) (cw : Cw) (replay : Bool) (s : State) : State :=
  let h := hdr.toNat
  match acceptCell d l hdr payload cw (decide (chType h = 0 ∧ bits h 121 114 + 1 = payload.length)) replay s with
  | (none, s') => s'
  | (some s', _) =>
    let s' := onLink d l (fun k => { k with rxBuf := k.rxBuf ++ [{ hdr := hdr, payload := payload }] }) s'
    rxDrain (flink s' d l).rxBuf.length d l s'

/-! ### Control messages (R411 to R414) -/

/-- A counter's newer value, compared modulo 2^32 (R411). -/
def newer (old v : Nat) : Nat := if (v + 2 ^ 32 - old) % 2 ^ 32 < 2 ^ 31 then v else old

/-- The lowest free credit entry. -/
def freeEntry (s : State) (d : Nat) : Option Nat :=
  (lowestFree (fun x => (mget? (s.die d).buf.centries x).isSome) 65536 0 1).head?

/-- Demand of an entry (R413). -/
def entryDemand (e : CEntry) : Nat :=
  let b := (e.granted + 2 ^ 33 - e.sent - e.released) % 2 ^ 32
  e.queued - (if b < 2 ^ 31 then b else 0)

/-- sent_total of an entry exceeds its received_total (R414). -/
def entryOver (e : CEntry) : Bool :=
  let x := (e.sent + 2 ^ 32 - e.received) % 2 ^ 32
  decide (0 < x) && decide (x < 2 ^ 31)

/-- A DEMAND of a source die (R411, R413, R401). An entry that had been freed had nothing outstanding: it starts again as after a restart
(log entry 125). -/
def demandTake (d src m : Nat) (s : State) : State :=
  let voq := bits m 119 104
  let found := ((s.die d).buf.centries.find? (fun e => e.2.src == src && e.2.voq == voq)).map (·.1)
  match (match found with | some k => some k | none => freeEntry s d) with
  | none => s.dinc d 0x4130 5 1
  | some k =>
    let e0 := mget (s.die d).buf.centries k
    let sent := bits m 63 32
    let rel := bits m 31 0
    let e : CEntry := { e0 with src := src, voq := voq, dst := bits m 103 84, tc := bits m 123 121, queued := bits m 83 64 }
    let e := if bit m 120 ∨ found.isNone then { e with sent := sent, released := rel, granted := (sent + rel) % 2 ^ 32, received := sent, since := s.now }
      else { e with sent := newer e0.sent sent, released := newer e0.released rel, since := if entryOver e0 then e0.since else s.now }
    putEntry d k e s

/-- A GRANT comes back to its source die (R410): a VOQ whose cells still exceed its balance asks again (R412). -/
def grantTake (d m : Nat) (s : State) : State :=
  let v := bits m 119 104
  let s := onCred d v (fun c => { c with granted := newer c.granted (bits m 63 32) }) s
  let c := mget (s.die d).buf.vcred v
  if balance c < queuedCells s d v then sendDemand d v (stallNote d v s) else onCred d v (fun c => { c with asking := false }) (stallNote d v s)

/-- The messages of a control cell in order (Table 13.7). -/
def messagesTake (d src : Nat) (msgs : List (BitVec 128)) (s : State) : State :=
  s.each msgs fun w s =>
    match bits w.toNat 127 124 with
    | 1 => demandTake d src w.toNat s
    | 2 => grantTake d w.toNat s
    | _ => s

/-- A type 2 cell with 1 to 15 messages arrives, one of them of a type (R411). -/
def controlCell (d l ty : Nat) (hdr : BitVec 128) (msgs : List (BitVec 128)) (cw : Cw) (replay : Bool) (s : State) : State :=
  let h := hdr.toNat
  let fits := decide (chType h = 2 ∧ 1 ≤ msgs.length ∧ msgs.length ≤ 15 ∧ bits h 121 114 + 1 = 16 * msgs.length) &&
    msgs.any (fun w => bits w.toNat 127 124 == ty)
  match acceptCell d l hdr (msgs.flatMap (fun w => toBytes 16 w.toNat)) cw fits replay s with
  | (none, s) => s
  | (some s, _) => messagesTake d (chSrc h / 64) msgs s

/-- DEMAND_RECEIVE (R411, R413, R401): a control cell with a DEMAND arrives at the egress die. -/
def demandReceive (d l : Nat) (hdr : BitVec 128) (msgs : List (BitVec 128)) (cw : Cw) (replay : Bool) (s : State) : State :=
  controlCell d l 1 hdr msgs cw replay s

/-- GRANT_RECEIVE (R410, R412): a control cell with a GRANT arrives at the source die. -/
def grantReceive (d l : Nat) (hdr : BitVec 128) (msgs : List (BitVec 128)) (cw : Cw) (replay : Bool) (s : State) : State :=
  controlCell d l 2 hdr msgs cw replay s

/-- DEMAND_TIMER (R412): a VOQ whose queued cells still exceed its balance asks again. -/
def demandTimer (d v : Nat) (s : State) : State :=
  let c := mget (s.die d).buf.vcred v
  if voqPort s d v = 0x1FF ∧ balance c < queuedCells s d v then sendDemand d v (onCred d v (fun c => { c with asking := true }) s)
  else s

/-- Cells in an egress queue: its packets in 256-byte cells (R413). -/
def queueCells (s : State) (d q : Nat) : Nat :=
  ((mget (s.die d).buf.egq q).pkts.map (fun i => ceilDiv (s.pkt i).desc.length.toNat 256)).sum

/-- EGRESS_GRANT (R413): an egress queue grants cells to one entry in rotation. -/
def egressGrant (d slot tc : Nat) (s : State) : State :=
  let g := s.dg d 0x4100 8
  let mine := (s.die d).buf.centries.filter (fun e => e.2.dst % 64 == slot && e.2.tc == tc)
  let room := queueCells s d (slot * 8 + tc) + (mine.map (fun e => entryReserved e.2)).sum + g
  if s.dg d (0x4740 + slot) (0x40 + tc) < room ∨ !s.egressRuns d then s
  else
    let ptr := mget (s.die d).buf.centryPtr (slot * 8 + tc)
    let want := mine.filter (fun e => decide (0 < entryDemand e.2))
    match (match want.find? (fun e => decide (ptr ≤ e.1)) with | some e => some e | none => want.head?) with
    | none => s
    | some (k, e) =>
      let e := { e with granted := (e.granted + g) % 2 ^ 32 }
      let s := s.onDie d (fun x => { x with
        buf.centries := minsert x.buf.centries k e, buf.centryPtr := mput x.buf.centryPtr (slot * 8 + tc) ((k + 1) % 65536) })
      let m := 2 <<< 124 ||| e.tc <<< 121 ||| e.voq <<< 104 ||| e.dst <<< 84 ||| e.granted <<< 32
      let (ok, s) := sendControl d e.src (BitVec.ofNat 128 m) s
      if ok then s.dinc d 0x4130 2 1 else s

/-- CREDIT_AUDIT (R414): cells that an entry's source has sent and that never came are given up. -/
def creditAudit (d k : Nat) (s : State) : State :=
  match mget? (s.die d).buf.centries k with
  | none => s
  | some e =>
    let lost := (e.sent + 2 ^ 32 - e.received) % 2 ^ 32
    if !entryOver e ∨ s.now < e.since + s.dg d 0x4100 9 * 1000 then s
    else
      let s := putEntry d k { e with received := e.sent } s
      (s.dinc d 0x4130 6 lost).reportOpen d 0x0C 0 1 0x483 125 0

/-! ### Step-down (R417 to R419) -/

/-- FABRIC_UTIL_WINDOW_END (R417): a 1 µs window of a set of links closes, at a utilisation of each link in hundredths of a percent. The
set is judged by the mean of its active links. -/
def fabricWindow (d set : Nat) (utils : List Nat) (s : State) : State :=
  let n := s.dg d 0x4100 3
  let ls := ((List.range n).map (fun i => set * n + i)).filter (fun l => decide (l < 32))
  let up := ls.filter (fun l => linkState s d l == 4)
  let of := fun (l : Nat) => if up.contains l then (utils[l - set * n]?).getD 0 else 0
  let util := (up.map of).sum / up.length
  let s := s.each ls (fun l s => s.dset d (0x4110 + l) 0x0B (of l / 100))
  let t := mget (s.die d).buf.sets set
  let put := fun (t : LinkSet) (s : State) => s.onDie d (fun x => { x with buf.sets := mput x.buf.sets set t })
  if t.down then
    if s.dg d 0x4100 7 * 100 < util then wakeSet d set 32 s else s
  else if !s.dflag d 0x4100 4 || decide (n = 1) || decide (s.dg d 0x4100 6 * 100 ≤ util) then put { t with below := 0 } s
  else
    let b := t.below + 1
    if b < s.dg d 0x4100 5 then put { t with below := b } s
    else
      let idle := up.drop (up.length - up.length / 2)
      if idle.isEmpty then put { t with below := 0 } s
      else s.each idle (fun l s => onLink d l (fun k => { k with step := 1 }) s) |> put { below := 0, down := true }

/-- LINK_IDLE_READY (R418 steps 2 and 3): packets in progress on a link have ended and its retry buffer is empty. -/
def linkIdleReady (d l : Nat) (s : State) : State :=
  let k := flink s d l
  if k.step = 1 ∧ k.retry.isEmpty ∧ k.going.isEmpty ∧ k.ctlQ.isEmpty then
    sendLcf d l 6 0 0 (onLink d l (fun k => { k with step := 2 }) s)
  else s

/-- The rest of a port's frame arrives (R168): a packet whose head has left sends its rest. `cw` counts the FEC codewords under the
frame (Table 12.8). -/
def tailReceive (d slot : Nat) (rest : Bytes) (cw : Cw) (s : State) : State :=
  match mget (s.die d).eng.rx slot with
  | 0 => s
  | i + 1 =>
    let s := (s.dinc d (0x4940 + slot) 0x19 cw.corrected).dinc d (0x4940 + slot) 0x1A cw.lost
    flushCut d i (frameTail d slot rest s)

/-- FRAME_TAIL_RECEIVE of one die (R168): a packet whose head has left sends its rest. -/
def execFrameTailReceive (d : DieId) (slot : Slot) (rest : Bytes) (cw : Cw) (s : State) : Host.Outcome State Fault Refusal :=
  onLive d (tailReceive d slot rest cw) s

/-- DATA_CELL_RECEIVE on one link. -/
def execDataCellReceive (d : DieId) (l : LinkId) (hdr : BitVec 128) (payload : Bytes) (cw : Cw) (replay : Bool) (s : State) :
    Host.Outcome State Fault Refusal :=
  onLive d (dataCellReceive d l hdr payload cw replay) s
/-- CREDIT_CELL_RECEIVE on one link. -/
def execCreditCellReceive (d : DieId) (l : LinkId) (hdr : BitVec 128) (cw : Cw) (replay : Bool) (s : State) :
    Host.Outcome State Fault Refusal :=
  onLive d (creditCell d l hdr cw replay) s
/-- DEMAND_RECEIVE on one link. -/
def execDemandReceive (d : DieId) (l : LinkId) (hdr : BitVec 128) (msgs : List (BitVec 128)) (cw : Cw) (replay : Bool) (s : State) :
    Host.Outcome State Fault Refusal :=
  onLive d (demandReceive d l hdr msgs cw replay) s
/-- GRANT_RECEIVE on one link. -/
def execGrantReceive (d : DieId) (l : LinkId) (hdr : BitVec 128) (msgs : List (BitVec 128)) (cw : Cw) (replay : Bool) (s : State) :
    Host.Outcome State Fault Refusal :=
  onLive d (grantReceive d l hdr msgs cw replay) s
/-- LCF_ACK on one link. -/
def execLcfAck (d : DieId) (l : LinkId) (f : BitVec 64) (cw : Cw) (s : State) : Host.Outcome State Fault Refusal :=
  onLive d (lcfIn d l cw (lcfAck d l f)) s
/-- LCF_NAK on one link. -/
def execLcfNak (d : DieId) (l : LinkId) (f : BitVec 64) (cw : Cw) (s : State) : Host.Outcome State Fault Refusal :=
  onLive d (lcfIn d l cw (lcfNak d l f)) s
/-- LCF_TRAIN on one link. -/
def execLcfTrain (d : DieId) (l : LinkId) (f : BitVec 64) (cw : Cw) (s : State) : Host.Outcome State Fault Refusal :=
  onLive d (lcfIn d l cw (lcfTrain d l f)) s
/-- LCF_CREDIT_INIT on one link. -/
def execLcfCreditInit (d : DieId) (l : LinkId) (f : BitVec 64) (cw : Cw) (s : State) : Host.Outcome State Fault Refusal :=
  onLive d (lcfIn d l cw (lcfCreditInit d l f)) s
/-- LCF_READY on one link. -/
def execLcfReady (d : DieId) (l : LinkId) (f : BitVec 64) (cw : Cw) (s : State) : Host.Outcome State Fault Refusal :=
  onLive d (lcfIn d l cw (lcfReady d l f)) s
/-- LCF_STEP_REQ on one link. -/
def execLcfStepReq (d : DieId) (l : LinkId) (f : BitVec 64) (cw : Cw) (s : State) : Host.Outcome State Fault Refusal :=
  onLive d (lcfIn d l cw (lcfStepReq d l f)) s
/-- LCF_STEP_ACK on one link. -/
def execLcfStepAck (d : DieId) (l : LinkId) (f : BitVec 64) (cw : Cw) (s : State) : Host.Outcome State Fault Refusal :=
  onLive d (lcfIn d l cw (lcfStepAck d l f)) s
/-- LCF_WAKE_REQ on one link. -/
def execLcfWakeReq (d : DieId) (l : LinkId) (f : BitVec 64) (cw : Cw) (s : State) : Host.Outcome State Fault Refusal :=
  onLive d (lcfIn d l cw (lcfWakeReq d l f)) s
/-- LCF_WAKE_ACK on one link. -/
def execLcfWakeAck (d : DieId) (l : LinkId) (f : BitVec 64) (cw : Cw) (s : State) : Host.Outcome State Fault Refusal :=
  onLive d (lcfIn d l cw (lcfWakeAck d l f)) s
/-- LINK_ACK_TIMER on one link. -/
def execLinkAckTimer (d : DieId) (l : LinkId) (s : State) : Host.Outcome State Fault Refusal :=
  onLive d (linkAckTimer d l) s
/-- NAK_REPEAT on one link. -/
def execNakRepeat (d : DieId) (l : LinkId) (s : State) : Host.Outcome State Fault Refusal :=
  onLive d (nakRepeat d l) s
/-- LCF_REPEAT on one link. -/
def execLcfRepeat (d : DieId) (l : LinkId) (s : State) : Host.Outcome State Fault Refusal :=
  onLive d (lcfRepeat d l) s
/-- FABRIC_LINK_DOWN on one link. -/
def execFabricLinkDown (d : DieId) (l : LinkId) (cause : Fin 5) (s : State) : Host.Outcome State Fault Refusal :=
  onLive d (linkDown d l cause) s
/-- LINK_IDLE_READY on one link. -/
def execLinkIdleReady (d : DieId) (l : LinkId) (s : State) : Host.Outcome State Fault Refusal :=
  onLive d (linkIdleReady d l) s
/-- FABRIC_ALIGNMENT_LOCK on one link. -/
def execFabricAlignmentLock (d : DieId) (l : LinkId) (a b : BitVec 5140) (s : State) : Host.Outcome State Fault Refusal :=
  onLive d (alignmentLock d l a b) s
/-- DEMAND_TIMER of one VOQ. -/
def execDemandTimer (d : DieId) (v : Fin 65536) (s : State) : Host.Outcome State Fault Refusal := onLive d (demandTimer d v) s
/-- EGRESS_GRANT of one egress queue. -/
def execEgressGrant (d : DieId) (slot : Slot) (tc : Fin 8) (s : State) : Host.Outcome State Fault Refusal := onLive d (egressGrant d slot tc) s
/-- CREDIT_AUDIT of one entry. -/
def execCreditAudit (d : DieId) (k : Fin 65536) (s : State) : Host.Outcome State Fault Refusal := onLive d (creditAudit d k) s
/-- FABRIC_UTIL_WINDOW_END of one set of links, at the utilisation of each in hundredths of a percent. -/
def execFabricUtilWindowEnd (d : DieId) (set : Fin 32) (utils : List (Fin 10001)) (s : State) : Host.Outcome State Fault Refusal :=
  onLive d (fabricWindow d set (utils.map (·.val))) s

end Sys2Proof.Machine
end

