-- ==== Sys2Proof/Machine/Sram.lean ====
section
/-! DEFINITION. Table SRAM: the layout of Table 7.19, fenced banks, and the next-hop, ECMP and root tables (Longest-Prefix
Route Lookup; Exact Tables, Learning and Ageing; Faults, Reactions and the Cairn Dump). -/

namespace Sys2Proof.Machine

/-! ### Tables and their places (R184, R186, R217, R219, Table 7.19) -/

/-- The code of a hot per-length table in `DieLook.tabs`; families 0 IPv4, 1 IPv6. -/
def hotCode (fam len : Nat) : Nat := 0x1000 + fam * 256 + len

/-- The code of a deep per-length table. -/
def deepCode (fam len : Nat) : Nat := 0x2000 + fam * 256 + len

/-- The code of the stem map. -/
def stemCode : Nat := 0x3000

/-- The width W, stem length S and floor F of a family. -/
def famW (fam : Nat) : Nat := if fam = 0 then 32 else 128
def famS (fam : Nat) : Nat := if fam = 0 then 16 else 32
def famF (fam : Nat) : Nat := if fam = 0 then 8 else 20

/-- The bytes of a per-length bucket of a family (Table 6.2). -/
def famBytes (fam : Nat) : Nat := if fam = 0 then 64 else 128

/-- The family and length of a per-length table's code. -/
def codeFam (code : Nat) : Nat := code / 256 % 16
def codeLen (code : Nat) : Nat := code % 256

/-- The buckets of a hashed table. -/
def tabBuckets (s : State) (code : Nat) : Nat :=
  if code = 0x10 ∨ code = 0x11 then 262144
  else if code = 0x12 ∨ code = stemCode then 131072
  else if code < 0x2000 then s.pg (0x2110 + codeFam code) (codeLen code)
  else s.pg (0x2112 + codeFam code) (codeLen code)

/-- The bytes of a bucket of a hashed table. -/
def bucketBytes (code : Nat) : Nat := if code < 0x100 then 64 else if code = stemCode then 128 else famBytes (codeFam code)

/-- Slots of a bucket: 4, and 3 in the stem map (R186). -/
def bucketSlots (code : Nat) : Nat := if code = stemCode then 3 else 4

/-- The entry of `2220` of a table in SRAM (Table 7.15). -/
def shadowSub (code : Nat) : Nat := if code < 0x100 then code else if code = stemCode then 4 else 1

/-- The hot tables in the order in which they lie (R613): family and length. -/
def hotOrder : List (Nat × Nat) := (List.range 16).map (fun i => (0, 17 + i)) ++ (List.range 96).map (fun i => (1, 33 + i))

/-- The bytes of hot tables (2100.03). -/
def hotBytes (s : State) : Nat := (hotOrder.map (fun x => tabBuckets s (hotCode x.1 x.2) * famBytes x.1)).sum

/-- The deep tables in the order in which they lie in region 0 (Table 9.3). -/
def deepOrder : List (Nat × Nat) := (List.range 25).map (fun i => (0, 8 + i)) ++ (List.range 109).map (fun i => (1, 20 + i))

/-- The bytes of deep tables on each home die (2100.04). -/
def deepBytes (s : State) : Nat := (deepOrder.map (fun x => tabBuckets s (deepCode x.1 x.2) * famBytes x.1)).sum

/-- The byte offset of a table: in SRAM (R613), or in region 0 for a deep table. -/
def tabOffset (s : State) (code : Nat) : Nat :=
  if code = 0x10 then 0x0B000000
  else if code = 0x11 then 0x0C000000
  else if code = 0x12 then 0x0F000000
  else if code = stemCode then 0x0A000000
  else if code < 0x2000 then
    ((hotOrder.takeWhile (fun x => hotCode x.1 x.2 != code)).map (fun x => tabBuckets s (hotCode x.1 x.2) * famBytes x.1)).sum
  else
    ((deepOrder.takeWhile (fun x => deepCode x.1 x.2 != code)).map (fun x => tabBuckets s (deepCode x.1 x.2) * famBytes x.1)).sum

/-- The byte offset of a bucket. -/
def bucketOffset (s : State) (code b : Nat) : Nat := tabOffset s code + b * bucketBytes code

/-! ### Fenced banks (R531, R532) -/

/-- The line of a byte offset lies in a fenced bank that no rebuilt spare stands for. With no bank fenced the offset is not looked at,
which keeps evaluation short. -/
def lineFenced (s : State) (d off sub : Nat) : Bool :=
  let k := (s.die d).look
  let b := off / 64 % 8
  k.banks != 0 && k.banks.getLsbD b && !(k.spareFor == some b && k.spareOk.contains sub)

/-- A bucket of a table in SRAM is fenced: one of its lines is. -/
def bucketFenced (s : State) (d code b : Nat) : Bool :=
  let o := bucketOffset s code b
  (List.range (bucketBytes code / 64)).any (fun i => lineFenced s d (o + 64 * i) (shadowSub code))

/-! ### The banks' arbiters (R225) -/

/-- The 64-byte lines a bucket lies in, and their banks (R613, R531). -/
def sramLines (s : State) (code b : Nat) : List Nat :=
  (List.range (bucketBytes code / 64)).map (fun i => bucketOffset s code b / 64 + i)
def bucketBanks (s : State) (code b : Nat) : List Nat := (sramLines s code b).map (· % 8)

/-- The bank that serves the accesses of bank b: the spare, as number 8, while a slice tests or restores b or the spare stands for it
(R532, R547, R548). What a line holds is kept once, whichever of the two holds it. -/
def servedBy (s : State) (d b : Nat) : Nat :=
  let sliced := match mget? (s.die d).core.slices 0 with
    | some x => decide (2 ≤ x.phase) && x.target == b
    | none => false
  if sliced || (s.die d).look.spareFor == some b then 8 else b

/-- Banks, the spare as number 8, grant a requester: search units 0-3, the table engine 4, the shadow scrubber 5, transit self-test 6;
their pointers move past it (R23, R225). The spare has a pointer of its own (R547). -/
def portGrant (d q : Nat) (ports : List Nat) (s : State) : State :=
  s.onDie d (fun x => { x with look.bankPtr := ports.foldl (fun m k => mput m k ((q + 1) % 7)) x.look.bankPtr })

/-- A requester reads banks, each where it is served. -/
def bankGrant (d q : Nat) (banks : List Nat) (s : State) : State := portGrant d q (banks.map (servedBy s d)) s

/-- Where a write of bank b goes (R548): to the bank and the spare in the restore phase, and in the mirror phase when its line has been
copied already. -/
def writePorts (s : State) (d : Nat) (copied : Bool) (b : Nat) : List Nat :=
  match mget? (s.die d).core.slices 0 with
  | some x => if x.target == b && (x.phase == 3 || x.phase == 1 && copied) then [b, 8] else [servedBy s d b]
  | none => [servedBy s d b]

/-- A requester writes banks. How far the copy of a mirror phase has come the model does not say: a free value (log entry 153). -/
def bankWrite (d q : Nat) (banks : List Nat) (s : State) : State :=
  let mirror := match mget? (s.die d).core.slices 0 with
    | some x => x.phase == 1 && banks.contains x.target
    | none => false
  let (f, s) := if mirror then s.fresh else (0, s)
  portGrant d q (banks.flatMap (writePorts s d (f % 2 == 1))) s

/-- The bank of a byte offset. -/
def bankOf (off : Nat) : Nat := off / 64 % 8

/-! ### Parity of what is read (R530, R531, R541) -/

/-- A code names a deep table. -/
def isDeep (code : Nat) : Bool := decide (0x2000 ≤ code) && code != stemCode

/-- The keys of stems whose bucket has a line in a bank: their contents are lost when it is fenced (R202). -/
def stemsOf (s : State) (d b : Nat) : List Nat :=
  (mget (s.die d).look.tabs stemCode).buckets.flatMap fun x =>
    if (bucketBanks s stemCode x.1).contains b then x.2.slots.map (fun e => e.2.key) else []

/-- A table SRAM bank is fenced (R531, R532): its stems are to be rebuilt, and the spare is assigned when free. -/
def fenceBank (d b : Nat) (s : State) : State :=
  if (s.die d).look.banks.getLsbD b then s
  else
    let lost := stemsOf s d b
    let s := s.onDie d (fun x =>
      { x with look.banks := x.look.banks ||| ((1 : BitVec 8) <<< b), look.rebuild := x.look.rebuild ++ lost, look.fenceOrd := x.look.fenceOrd ++ [b] })
    assignSpare d b s

/-- A line of SRAM is read: a flip that a re-read clears is Corrected, one that stays fences the bank before what it holds is used
(Table 18.6). A fenced bank is not read. -/
def lineParity (d line : Nat) (s : State) : State :=
  match s.flipAt d 6 (line % 8) line with
  | none => s
  | some f =>
    if (s.die d).look.banks.getLsbD (line % 8) then s
    else
      let s := spendFlip d f f.2.2.2 s
      if f.2.2.2 < 3 then s.report d 6 (line % 8) 2 0x1C1 line else (fenceBank d (line % 8) s).report d 6 (line % 8) 3 0x1C2 line

/-- The lines from one on, n of them, are read. -/
def spanParity (d line n : Nat) (s : State) : State :=
  s.each ((s.die d).core.flips.filter (fun f => f.1 == 6 && decide (line ≤ f.2.2.1) && decide (f.2.2.1 < line + n))) (fun f => lineParity d f.2.2.1)

/-- A bucket of a table in SRAM is read. -/
def bucketParity (d code b : Nat) (s : State) : State :=
  if isDeep code then s else spanParity d (bucketOffset s code b / 64) (bucketBytes code / 64) s

/-- Of two requesters that ask a bank in one cycle, a goes before b (R22). -/
def bankBefore (ptr a b : Nat) : Bool := decide ((a + 7 - ptr) % 7 < (b + 7 - ptr) % 7)

/-! ### Next hops, ECMP members and root entries (R189, R204 to R206) -/

/-- The reset value of a next hop (Table 6.9). -/
def nhDefault : BitVec 128 := BitVec.ofNat 128 (3 <<< 126 ||| 8 <<< 64 ||| 1 <<< 59)

/-- A next hop; a fenced one reads as dest_kind 3 with drop_reason 0x08 (R531). -/
def nextHopAt (s : State) (d i : Nat) : BitVec 128 :=
  if lineFenced s d (0x0D000000 + i * 16) 2 then nhDefault else (mget? (s.die d).look.nextHop i).getD nhDefault

/-- An ECMP member; a fenced one reads as not up (R531). -/
def ecmpAt (s : State) (d i : Nat) : BitVec 32 :=
  if lineFenced s d (0x0E000000 + i * 4) 3 then 0 else mget (s.die d).look.ecmp i

/-- The root entry of a VRF and family, its slots in use by number; a fenced one reads as empty (R531). -/
def rootSlots (s : State) (d vrf fam : Nat) : Map RootSlot :=
  let i := vrf * 2 + fam
  if lineFenced s d (0x0F800000 + i * 64) 5 then [] else mget (s.die d).look.root i

/-- The slots in use of a root entry. -/
def rootAt (s : State) (d vrf fam : Nat) : List RootSlot := (rootSlots s d vrf fam).map (·.2)

/-- What a result word resolves to (R205, R206): next hop index, offset of the member, no member up, and the entry.
Kinds 2 and 3 resolve to nothing. -/
structure Resolved where
  nh       : Nat := 0
  offset   : Nat := 0
  noMember : Bool := false
  entry    : BitVec 128 := 0
  deriving DecidableEq, Repr, Inhabited

/-- Resolve a result word with a selection value (R205, R206). -/
def resolve (s : State) (d result sel : Nat) : Option Resolved :=
  match bits result 31 30 with
  | 0 => some { nh := bits result 19 0, entry := nextHopAt s d (bits result 19 0) }
  | 1 =>
    let n := bits result 8 0 + 1
    let base := bits result 29 9 * 2
    let first := sel * n / 2 ^ 16
    match ((List.range n).map (fun i => (first + i) % n)).find? (fun i => (ecmpAt s d (base + i)).getLsbD 31) with
    | some i =>
      let nh := bits (ecmpAt s d (base + i)).toNat 19 0
      some { nh := nh, offset := i, entry := nextHopAt s d nh }
    | none => some { noMember := true, entry := nhDefault }
  | _ => none

/-- The lines read for a resolved result word, and their banks (R204, R205). -/
def resolveLines (result : Nat) (r : Resolved) : List Nat :=
  (if bits result 31 30 = 1 then [(0x0E000000 + (bits result 29 9 * 2 + r.offset) * 4) / 64] else []) ++
  (if r.noMember then [] else [(0x0D000000 + r.nh * 16) / 64])
def resolveBanks (result : Nat) (r : Resolved) : List Nat := (resolveLines result r).map (· % 8)

/-- What a result word resolves to is read (R530). -/
def resolveParity (d result sel : Nat) (s : State) : State :=
  match resolve s d result sel with
  | some r => s.each (resolveLines result r) (lineParity d)
  | none => s

/-- The part of slot word 1 that a resolved result gives (Tables 6.11 and 7.6). -/
def resolvedWord (r : Resolved) : Nat := b2n r.noMember <<< 40 ||| r.offset <<< 20 ||| r.nh

/-! ### Keys and hashes (R183, R184, R220) -/

/-- The family code of a key. -/
def famCode (fam : Nat) : Nat := if fam = 0 then 4 else 6

/-- A prefix key (R183): 8 bytes for IPv4, 20 bytes for IPv6, as a number. -/
def prefixKey (fam vrf len pfx : Nat) : Nat :=
  (famCode fam <<< 24 ||| vrf <<< 8 ||| len) <<< famW fam ||| pfx

/-- A stem key (R183), 8 bytes. -/
def stemKey (fam vrf stem : Nat) : Nat := (famCode fam <<< 24 ||| vrf <<< 8 ||| 0xFF) <<< 32 ||| stem

/-- A MAC key (R220), 9 bytes. -/
def macKey (bd mac : Nat) : Nat := (0x10 <<< 16 ||| bd) <<< 48 ||| mac

/-- An MPLS key (R220), 6 bytes. -/
def mplsKey (space label : Nat) : Nat := (0x11 <<< 16 ||| space) <<< 24 ||| label

/-- The bytes of a hashed table's key. -/
def keyBytes (code : Nat) : Nat :=
  if code = 0x10 then 9 else if code = 0x11 then 6 else if code = 0x12 ∨ code = stemCode then 8
  else if codeFam code = 0 then 8 else 20

/-- ha and hb of a byte string under two seeds (R184). -/
def hashes (a b : Nat) (key : Bytes) : Nat × Nat :=
  ((fibHash key (BitVec.ofNat 32 a) polyA).toNat, (fibHash key (BitVec.ofNat 32 b) polyB).toNat)

/-- ha and hb of a key of a table. The LFI's key is its fingerprint, ha above hb (R220). -/
def tabHash (s : State) (code key : Nat) : Nat × Nat :=
  if code = 0x12 then (key / 2 ^ 32, key % 2 ^ 32)
  else
    let e := if code < 0x100 then 0x2200 else 0x2100
    hashes (s.pg e 1) (s.pg e 2) (toBytes (keyBytes code) key)

/-- The fingerprint of a 40-byte flow key (R220). -/
def lfiKey (s : State) (flow : Nat) : Nat :=
  let h := hashes (s.pg 0x2200 1) (s.pg 0x2200 2) (0x12 :: toBytes 40 flow)
  h.1 * 2 ^ 32 + h.2

/-- The two bucket choices of a key (R184). -/
def choices (s : State) (code key : Nat) : Nat × Nat :=
  let n := tabBuckets s code
  let h := tabHash s code key
  let ba := h.1 * n / 2 ^ 32
  let bb := h.2 * n / 2 ^ 32
  (ba, if bb = ba then (ba + 1) % n else bb)

/-- Both bucket choices of a key are read (R530). -/
def keyParity (d code key : Nat) (s : State) : State :=
  if tabBuckets s code = 0 then s else bucketParity d code (choices s code key).2 (bucketParity d code (choices s code key).1 s)

/-- The home die of a stem (R185). -/
def stemHome (s : State) (fam vrf stem : Nat) : Nat := s.pg 0x1810 (bits (tabHash s stemCode (stemKey fam vrf stem)).1 31 24)

end Sys2Proof.Machine
end

