-- ==== Sys2Proof/Machine/Admit.lean ====
section
/-! DEFINITION. Lane groups and ports as nodes, release from the resequencers, admission, VOQs, replication, residue and
port flushes (Buffers, Pools and Admission; Network Ports). -/

namespace Sys2Proof.Machine

/-! ### Ports of a lane group (R370, R371) -/

/-- Slots per port of a lane group mode (Table 12.1); 0 when the group is disabled. -/
def slotsPerPort (m : Nat) : Nat := match m with
  | 1 => 16 | 2 => 8 | 3 => 4 | 4 => 2 | 5 => 1 | _ => 0

/-- Rate of a lane group mode in Gb/s. -/
def modeRate (m : Nat) : Nat := match m with
  | 1 => 1600 | 2 => 800 | 3 => 400 | 4 => 200 | 5 => 100 | _ => 0

/-- The mode of a slot's lane group. -/
def slotMode (s : State) (d slot : Nat) : Nat := s.dg d 0x4000 (slot / 16 + 1)

/-- A slot is the lowest slot of a port (R371). -/
def lowestSlot (s : State) (d slot : Nat) : Bool :=
  let n := slotsPerPort (slotMode s d slot)
  decide (n ≠ 0) && decide (slot % 16 % n = 0)

/-- A port is up: it exists and its link state is 3 (R375). -/
def portUp (s : State) (d slot : Nat) : Bool := lowestSlot s d slot && s.dg d (0x4050 + slot) 1 == 3

/-! ### Queues -/

/-- Change an egress queue. -/
def onEgq (d q : Nat) (f : EgQueue → EgQueue) (s : State) : State :=
  s.onDie d (fun x => { x with buf.egq := mmod x.buf.egq q f })

/-- A packet enters an egress queue (R366). -/
def egEnqueue (d slot tc i : Nat) (s : State) : State :=
  let q := slot * 8 + tc
  let s := onEgq d q (fun e => { e with pkts := e.pkts ++ [i] }) (s.stage i (.egress slot tc))
  let s := s.onPkt i (fun p => { p with enq := s.nsOn d })
  notePeak d (65536 + q) (pktBytes s (egq s d q).pkts) s

/-- An egress queue has room for a packet's cells (R332, R333). -/
def egRoom (s : State) (d slot tc cells : Nat) : Bool :=
  decide (queueCells s d (slot * 8 + tc) + cells ≤ s.dg d (0x4740 + slot) (0x40 + tc))

/-- Cells of a packet. -/
def cellsOf (p : Packet) : Nat := ceilDiv p.desc.length.toNat 256

/-- A unicast packet reaches its egress queue (R333, R335, R380). -/
def egUnicast (d i : Nat) (s : State) : State :=
  let p := s.pkt i
  let slot := p.desc.dest.toNat % 64
  let tc := p.desc.tc.toNat
  if p.poison && p.tail == .good then dropPkt d i 0x14 s
  else if !portUp s d slot then dropPkt d i 0x11 s
  else if (egq s d (slot * 8 + tc)).line.isEmpty then egEnqueue d slot tc i s
  else onEgq d (slot * 8 + tc) (fun e => { e with line := e.line ++ [i] }) (s.stage i (.line slot tc))

/-! ### VOQs and pages (R324 to R329) -/

/-- A VOQ. -/
def voq (s : State) (d v : Nat) : Voq := mget (s.die d).buf.voqs v

/-- The free bytes of a VOQ's tail page, 0 when no packet of the VOQ holds it any more. -/
def tailRoom (s : State) (d v : Nat) : Nat :=
  let q := voq s d v
  if q.pkts.any (fun i => (s.pkt i).pages.contains q.tailPage) then q.tailFree else 0

/-- Bytes a packet takes in a page chain: it starts on a 64-byte boundary (R324). -/
def pageBytes (p : Packet) : Nat := ceilDiv p.desc.length.toNat 64 * 64

/-- Pages of a VOQ. -/
def voqPages (s : State) (d v : Nat) : Nat := (((voq s d v).pkts.map (fun i => (s.pkt i).pages)).flatten.dedup).length

/-- Cells held by a VOQ in shallow mode (R328). -/
def voqCells (s : State) (d v : Nat) : Nat := ((voq s d v).pkts.map (fun i => (s.pkt i).cells.length)).sum

/-- The die runs in shallow mode (R328, R442): no stack's pages are in the pool. -/
def shallow (s : State) (d : Nat) : Bool := poolSize s d 1 == 0

/-- The requester whose pages a packet takes (R316): a mirror copy's is the replication engine. -/
def pageReq (p : Packet) : Nat := if p.copyOf.isSome then 4 else match p.desc.srcKind.toNat with
  | 0 => ingressReq (p.desc.srcPort.toNat % 64)
  | 1 => 2
  | 2 => 3
  | _ => 4

/-- New pages a packet needs in a VOQ. -/
def pagesNeeded (s : State) (d v : Nat) (p : Packet) : Nat := ceilDiv (pageBytes p - tailRoom s d v) 2048

/-- Join a VOQ, in cells or in pages (R324, R328); none when the packet cannot be admitted. -/
def voqPut (d v i : Nat) (s : State) : Option State × State :=
  let p := s.pkt i
  let join := fun (s : State) =>
    let s := s.onDie d (fun x => { x with buf.voqs := mmod x.buf.voqs v (fun q => { q with pkts := q.pkts ++ [i] }) })
    let s := s.onPkt i (fun p => { p with stage := .voq v, enq := s.nsOn d })
    let s := onCred d v (fun c => { c with dst := p.desc.dest.toNat, tc := p.desc.tc.toNat }) s
    let s := notePeak d v (pktBytes s (voq s d v).pkts) s
    creditCheck d v (s.dinc d 0x4700 8 1)
  if shallow s d then
    if voqCells s d v + p.cells.length ≤ s.dg d 0x4700 2 then (some (join s), s) else (none, s)
  else
    let room := tailRoom s d v
    let n := pagesNeeded s d v p
    if s.dg d 0x4720 ((mget (s.die d).buf.voqMap v).profile + 1) < voqPages s d v + n then (none, s)
    else
      let (got, s) := if n = 0 then (some [], s) else poolRequest s d 1 (pageReq p) n
      match got with
      | none => (none, s)
      | some gs =>
        let old := (voq s d v).tailPage
        let pages := (if room = 0 then [] else [old]) ++ gs
        let units := pageBytes p / 64
        let s' := s.onPkt i (fun p => { p with
          pages := pages, pageOff := if room = 0 then 0 else 2048 - room
          wrAsk := units, wrLeft := units, rdAsk := units, rdLeft := units
          desc := { p.desc with dramPage := BitVec.ofNat 25 (pages.head?.getD 0) } })
        let free := room + n * 2048 - pageBytes p
        let s' := s'.onDie d (fun x => { x with buf.voqs := mmod x.buf.voqs v (fun q =>
          { q with tailPage := pages.getLast?.getD 0, tailFree := free }) })
        (some (join s'), s')

/-! ### Admission (R323 to R327) -/

/-- A packet goes to a punt ring, on its own die or over the saddles (R266, R462); a ring no part has ends it at P7. -/
def admitPunt (d i : Nat) (s : State) : State :=
  let p := s.pkt i
  let r := p.desc.dest.toNat
  if 256 ≤ r ∨ 16 ≤ r % 32 ∨ !s.has (r / 32) then dropPkt d i 0x13 s
  else if r / 32 = d then puntTo d r 0 i s
  else
    let q := { p with
      die := r / 32, cells := [], pages := [], unit := none, resv := 0, occ := 0, hasSeq := false, holder := false
      users := 0, shares := none, stage := .punt r }
    let (j, s) := s.newPkt q
    finishPkt i (s.send d (r / 32) (.cells j))

/-- A packet may leave ahead of its tail: ingress cut-through (R71). The 240 bytes of its first cell are there (R396). -/
def cutAllowed (s : State) (i : Nat) : Bool :=
  let p := s.pkt i
  p.tail == .pending && decide (240 ≤ (outBytes p).length) && p.ctRx && p.desc.cutOk == 1 && p.desc.srcKind == 0 &&
    p.desc.destKind == 0 && p.desc.pass == 0

/-- A port whose packets are dropped rather than held (R324). -/
def noFlowControl (s : State) (d : Nat) (p : Packet) : Bool :=
  p.desc.srcKind == 0 && p.copyOf.isNone && s.dg d (0x4740 + p.slot) 1 == 0

/-- A packet joins the wait list (R324, R325). -/
def waitJoin (d i : Nat) (s : State) : State :=
  (s.onDie d (fun x => { x with buf.waitList := x.buf.waitList ++ [i] })).stage i .waitList

/-- The express lane takes a packet: its VOQ is empty and credit is present (R69). None when it does not, with what its requests leave. -/
def tryExpress (d i : Nat) (s : State) : Option State × State :=
  let p := s.pkt i
  let v := p.desc.voq.toNat
  if p.desc.destKind ≠ 0 ∨ !(voq s d v).pkts.isEmpty ∨ (s.die d).buf.waitList.any (fun j => (s.pkt j).desc.voq.toNat = v) then (none, s)
  else
    let s0 := s
    let s := onCred d v (fun c => { c with dst := p.desc.dest.toNat, tc := p.desc.tc.toNat }) s
    let s := s.onPkt i (fun p => { p with desc := { p.desc with express := 1 } })
    match departRead d i true s with
    | (some t, _) => (some t, s0)
    | (none, t) => (none, refusedHere d t s0)

/-- A VOQ's destination is a port of this package that is down (R335). -/
def voqPortDown (s : State) (d v : Nat) : Bool :=
  let p := voqPort s d v
  decide (p ≠ 0x1FF) && s.has (p / 64) && !portUp s (p / 64) (p % 64)

/-- A page request that was refused on the way to a state is counted in another state, in which it has no other effect (R337). -/
def refusedToo (d r : Nat) (before after s : State) : State :=
  if before.dg d 0x4711 (0x40 + r) = after.dg d 0x4711 (0x40 + r) then s else s.dinc d 0x4711 (0x40 + r) 1

/-- Rules 3 and 4 of R323; `head` says that the packet is the head of the wait list. None when it has to wait, with the state in
which a refused page request is counted. -/
def admitQueue (d i : Nat) (head : Bool) (s : State) : Option State × State :=
  let p := s.pkt i
  let v := p.desc.voq.toNat
  if voqPortDown s d v then (some (dropPkt d i 0x11 s), s)
  else if !head && !(s.die d).buf.waitList.isEmpty then (some (waitJoin d i s), s)
  else
    let leave := fun (s : State) => if head then s.onDie d (fun x => { x with buf.waitList := x.buf.waitList.filter (· != i) }) else s
    match tryExpress d i (leave s) with
    | (some t, _) => (some t, s)
    | (none, s1) =>
      match voqPut d v i s1 with
      | (some t, _) => (some t, s)
      | (none, s') =>
        if noFlowControl s d p then (some (dropPkt d i 0x05 s'), s)
        else if head then (none, refusedToo d (pageReq p) s s' (refusedHere d s1 s))
        else (some (waitJoin d i s'), s)

/-- Mirror copies share the cells of a packet that goes on without them (R318, R331): a record that only holds those cells stands
in its place, and they are released when the last copy has gone. -/
def leaveCells (i : Nat) (s : State) : State :=
  let p := s.pkt i
  if p.users = 0 then s
  else
    let (g, s) := s.newPkt { die := p.die, stage := .ended, tail := .good, cells := p.cells, users := p.users, frame := p.frame }
    let mine := (s.pkts.filter (fun x => x.2.shares == some i)).map (·.1)
    (s.each mine (fun j s => s.onPkt j (fun q => { q with shares := some g }))).onPkt i (fun p => { p with users := 0, cells := [] })

/-- The recirculation input takes a packet (R271, R318): the rebuilt frame goes into cells and a descriptor of requester
3, and those of the previous pass are released. None when the pools refuse. -/
def admitRecirc (d i : Nat) (s : State) : Option State × State :=
  let p := s.pkt i
  let f := outFrame p
  match poolRequest s d 0 3 (ceilDiv f.length 256) with
  | (none, s') => (none, s')
  | (some cs, s1) =>
    match poolRequest s1 d 2 3 1 with
    | (none, s2) => (none, poolFreeUnits s2 d 0 cs)
    | (some us, s2) =>
      let (bad, s2) := bodyRead d i 0 (s2.dinc d 0x4660 5 1)
      if bad.isSome then (some (dropPkt d i 0x0F (poolFreeUnits (poolFreeUnits s2 d 0 cs) d 2 us)), s2) else
      let s3 := releaseUnits i (leaveCells i s2)
      let s3 := s3.onPkt i (fun p => { p with
        pipe := 0, frame := f, tail := .good, cells := cs, unit := us.head?, req := 3, stage := .recirc, built := false, push := [], cut := 0
        desc := { p.desc with firstCell := BitVec.ofNat 18 (cs.head?.getD 0), length := BitVec.ofNat 14 f.length } })
      (some (s3.onDie d (fun x => { x with eng.recircQ := x.eng.recircQ ++ [i] })), s3)

/-- Admission of a packet released by the ingress resequencer (R323). -/
def admitPkt (d i : Nat) (s : State) : Option State × State :=
  let p := s.pkt i
  if p.desc.destKind = 2 then (some (admitPunt d i s), s)
  else if namesRecirc p.desc then admitRecirc d i s
  else admitQueue d i false s

/-! ### RESEQ_RELEASE (R105) -/

/-- The output a packet released by an ingress window waits for (R67): its VOQ, the recirculation input at 65536, or its
punt ring from 65537 on. -/
def inOutput (p : Packet) : Nat :=
  if p.desc.destKind = 2 then 65537 + p.desc.dest.toNat
  else if namesRecirc p.desc then 65536
  else p.desc.voq.toNat

/-- The output of a packet released by an egress window: its egress queue, or 512 for the replication engine. -/
def egOutput (p : Packet) : Nat :=
  if p.desc.destKind = 1 then 512 else p.desc.dest.toNat % 64 * 8 + p.desc.tc.toNat

/-- The packet may be released: its tail has come, or it may be cut through. -/
def releasable (s : State) (d : Nat) (eg : Bool) (i : Nat) : Bool :=
  let p := s.pkt i
  if eg then decide (p.desc.destKind ≠ 1) || decide ((s.die d).buf.residue.length < 8192)
  else p.tail != .pending || cutAllowed s i && (tryExpress d i s).1.isSome && (s.die d).buf.waitList.isEmpty

/-- Admission sends a packet by the express lane (R69, R323, R325). -/
def goesExpress (d i : Nat) (s : State) : Bool :=
  !voqPortDown s d (s.pkt i).desc.voq.toNat && (s.die d).buf.waitList.isEmpty && (tryExpress d i s).1.isSome

/-- The window an output grants: the first that is ready for it at or after the pointer (R105), of those that a test lets take
part. -/
def readyWindow (s : State) (d : Nat) (eg : Bool) (out ptr : Nat) (may : Nat → Bool) (ok : Nat → Bool) : Option (Nat × Window) :=
  let ks := (wins s d eg).filter (fun x => match x.2.ready.head? with
    | some i => may x.1 && (if eg then egOutput (s.pkt i) else inOutput (s.pkt i)) == out && ok i
    | none => false)
  match ks.find? (fun x => decide (ptr ≤ x.1)) with
  | some x => some x
  | none => ks.head?

/-- A packet of another window that has lost the express lane of an empty VOQ to window `won` in the same cycle becomes that
queue's first packet in DRAM (R70); without a page it is handled as R324 says. -/
def admitLoser (d out won : Nat) (s : State) : State :=
  match readyWindow s d false out (won + 1) (· != won) (fun i => (s.pkt i).tail != .pending) with
  | none => s
  | some (k, w) =>
    match w.ready with
    | [] => s
    | i :: r =>
      let s := putWin d false k { w with ready := r } s
      match voqPut d out i s with
      | (some s, _) => s
      | (none, s) => if noFlowControl s d (s.pkt i) then dropPkt d i 0x05 s else waitJoin d i s

/-- RESEQ_RELEASE (R70, R105, R271): an output grants one ready window of a direction. A packet for an empty VOQ that was
ready in the same cycle and has lost the express lane goes to DRAM (R70, log entry 89). -/
def reseqRelease (d : Nat) (eg : Bool) (out : Nat) (s : State) : State :=
  let ok := if eg then 2 ^ 32 + out else out
  let ptr := mget (s.die d).eng.outPtr ok
  match readyWindow s d eg out ptr (fun _ => true) (releasable s d eg) with
  | none => s
  | some (k, w) =>
    match w.ready with
    | [] => s
    | i :: r =>
      let s0 := s.onDie d (fun x => { x with eng.outPtr := mput x.eng.outPtr ok (k + 1) })
      let s0 := putWin d eg k { w with ready := r } s0
      if eg then
        if (s.pkt i).desc.destKind = 1 then
          (s0.onDie d (fun x => { x with buf.replQ := x.buf.replQ ++ [i] })).onPkt i (fun p => { p with stage := .replic, enq := s.nsOn d, atRepl := s.now })
        else egUnicast d i s0
      else
        match admitPkt d i s0 with
        | (some s', _) => if out < 65536 ∧ goesExpress d i s0 then admitLoser d out k s' else s'
        | (none, s') => (putWin d eg k w s').onDie d (fun x => { x with eng.outPtr := (s.die d).eng.outPtr })

/-- WAIT_LIST_HEAD_RETRY (R325): the head of the wait list is offered to admission again. -/
def waitRetry (d : Nat) (s : State) : State :=
  match (s.die d).buf.waitList with
  | [] => s
  | i :: _ =>
    match admitQueue d i true s with
    | (some s', _) => s'
    | (none, s') => s'

/-! ### VOQ_DEPART (R326, R328, R329) -/

/-- A packet's bytes lie in a lost stack (R329). -/
def pktLost (s : State) (d : Nat) (p : Packet) : Bool := p.pages.any (unitLost s d 1)

/-- The bytes of a packet are at hand: it is in cells, or has been read back from DRAM. -/
def atHand (p : Packet) : Bool := p.pages.isEmpty || p.wrLeft == 0 && p.rdLeft == 0

/-- VOQ_DEPART (R326): the head packet of a VOQ leaves when its bytes are at hand and credit is present. -/
def voqDepart (d v : Nat) (s : State) : State :=
  match (voq s d v).pkts with
  | [] => s
  | i :: _ =>
    let p := s.pkt i
    if pktLost s d p then creditCheck d v (dropPkt d i 0x0F s)
    else if !atHand p || p.tail == .pending then s
    else
      let s0 := s.onDie d (fun x => { x with buf.voqs := mmod x.buf.voqs v (fun q => { q with pkts := q.pkts.drop 1 }) })
      match departRead d i false s0 with
      | (none, s') => if voqPort s d v / 64 = d then refusedHere d s' s else stallNote d v s
      | (some s, _) => creditCheck d v s

/-- STACKS_READY (R328): every stack that is not fenced is ready, and new admissions go to DRAM. -/
def stacksReady (d : Nat) (s : State) : State :=
  let st := fun k => s.dg d (0x4310 + k) 1
  let up := fun k => [2, 3].contains (st k)
  let gone := fun k => [4, 5].contains (st k)
  if (up 0 || gone 0) && (up 1 || gone 1) && (up 0 || up 1) then s.dset d 0x4700 1 (if up 0 && up 1 then 1 else 2) else s

/-! ### Replication (R330 to R334) -/

/-- Targets of a packet at the replication engine, in ascending slot order (R330, R331). -/
def targets (s : State) (d i : Nat) : List Target :=
  let p := s.pkt i
  match p.copyOf with
  | some _ => if p.mir.kind = 3 then [.ring p.mir.dest] else [.admitPkt]
  | none =>
    let g := mget (s.die d).buf.groups p.desc.dest.toNat
    if 65535 < p.desc.dest.toNat then []
    else ((List.range 64).filter (fun k => g.getLsbD k && lowestSlot s d k)).map (fun k => .queue k p.desc.tc.toNat)

/-- The bytes that a mirror copy's next hop puts in front (R331). -/
def copyPush (s : State) (p : Packet) : Bytes :=
  if p.mir.kind = 1 then (chainPush (s.die p.die).look.rewrite 4 (bits (nextHopAt s p.die p.mir.dest).toNat 89 72)).1 else []

/-- A mirror copy's frame before its own FCS, as received or as rewritten (R265). -/
def copyBody (p : Packet) : Bytes := if p.built then outBytes p else p.frame.take (p.frame.length - 4)

/-- A mirror copy is cut by its session (R265). -/
def copyCut (p : Packet) : Bool := p.mir.cut != 0 && decide (p.mir.cut < (copyBody p).length + 4)

/-- The frame of a mirror copy that travels (R265, R331): as received or as rewritten, cut when the session truncates,
with the encapsulation of its next hop in front and its own FCS. -/
def copyFrame (p : Packet) (push : Bytes) : Bytes :=
  let body := push ++ (if copyCut p then (copyBody p).take (p.mir.cut - 4) else copyBody p)
  let body := body ++ List.replicate (60 - body.length) 0
  body ++ fcsOf body

/-- Cells a copy takes for a head of its own (R331): all that is left of it when it is cut, else the head that is rewritten. -/
def headCells (s : State) (p : Packet) : Nat :=
  let push := copyPush s p
  if p.copyOf.isNone then 0
  else if copyCut p then ceilDiv (copyFrame p push).length 256
  else if p.built then max 1 (ceilDiv (push.length + p.push.length + p.rw.length - p.cut) 256)
  else if push.isEmpty then 0
  else ceilDiv (push.length + p.win.length) 256

/-- The units a replica or copy takes under requester 4: a descriptor, and cells for a head of its own. -/
def replicaUnits (d i : Nat) (s : State) : Option (Nat × List Nat × State) × State :=
  match poolRequest s d 2 4 1 with
  | (none, s') => (none, s')
  | (some us, s1) =>
    match headCells s (s.pkt i) with
    | 0 => (some (us.head?.getD 0, [], s1), s1)
    | n => match poolRequest s1 d 0 4 n with
      | (none, s2) => (none, poolFreeUnits s2 d 2 us)
      | (some cs, s2) => (some (us.head?.getD 0, cs, s2), s2)

/-- A mirror copy as it reaches its target (R265, R331): its destination, frame and length. -/
def dressCopy (s : State) (p : Packet) : Packet :=
  let nh := (nextHopAt s p.die p.mir.dest).toNat
  let dsc := { p.desc with mirror := 0, cutOk := 0, tc := BitVec.ofNat 3 p.mir.tc }
  let f := copyFrame p (copyPush s p)
  let own := { p with frame := f, built := false, push := [], cut := 0 }
  match p.mir.kind with
  | 1 => { own with desc := { dsc with
      destKind := 0, dest := BitVec.ofNat 20 (bits nh 125 106), voq := BitVec.ofNat 16 (bits nh 105 90)
      encap := BitVec.ofNat 18 (bits nh 89 72), length := BitVec.ofNat 14 f.length } }
  | 2 => { own with desc := { dsc with
      destKind := 1, dest := BitVec.ofNat 20 p.mir.dest, voq := BitVec.ofNat 16 (s.dg p.die 0x4700 6), length := BitVec.ofNat 14 f.length } }
  | _ => { p with desc := { dsc with destKind := 2, dest := BitVec.ofNat 20 p.mir.dest } }

/-- A mirror copy that a session sends through a next hop whose rewrite chain is cut is counted (R268). -/
def dressCount (p : Packet) (s : State) : State :=
  let more := p.mir.kind == 1 && (chainPush (s.die p.die).look.rewrite 4 (bits (nextHopAt s p.die p.mir.dest).toNat 89 72)).2
  s.when more (fun s => s.dinc p.die 0x4660 9 1)

/-- A replica of a multicast packet enters an egress queue (R331). -/
def replicaPut (d i slot tc u : Nat) (s : State) : State :=
  let p := s.pkt i
  let (j, s) := s.newPkt { p with shares := some i, users := 0, cells := [], pages := [], unit := some u, resv := 0, occ := 0, enq := s.nsOn d, stage := .replic }
  let s := s.onPkt i (fun p => { p with users := p.users + 1 })
  egEnqueue d slot tc j (s.dinc d 0x4700 9 1)

/-- Another copy of the same flow bucket waits for the same output in its residue, so that a later one does not overtake it (R16, R19). -/
def owedElsewhere (s : State) (d i : Nat) (t : Target) : Bool :=
  let out := fun (j : Nat) => ((s.pkt j).desc.flowBucket, (dressCopy s (s.pkt j)).desc.voq)
  let l := (s.die d).buf.residue.filter (fun x => x.2.owed.contains t && out x.1 == out i)
  match l.find? (fun x => x.1 == i) with
  | none => !l.isEmpty
  | some m => l.any (fun x => decide (x.2.ord < m.2.ord))

/-- A target is served now if it is ready (R332): none when it is not. A queue whose port is down ends its replica at
P8 (R335). -/
def serveTarget (d i : Nat) (t : Target) (s : State) : Option State × State :=
  let p := s.pkt i
  match t with
  | .queue slot tc =>
    if !portUp s d slot then (some (s.dinc d 0x4920 0x11 1), s)
    else if !(egq s d (slot * 8 + tc)).line.isEmpty || !egRoom s d slot tc (cellsOf p) then (none, s)
    else match replicaUnits d i s with
      | (some (u, _, s1), _) => (some (replicaPut d i slot tc u s1), s1)
      | (none, s') => (none, s')
  | .admitPkt =>
    if owedElsewhere s d i t then (none, s) else
    match replicaUnits d i s with
    | (none, s') => (none, s')
    | (some (u, cs, s1), _) =>
      let s1 := dressCount p s1
      let s2 := (s1.onPkt i (fun p => { dressCopy s1 p with unit := some u, cells := cs })).dinc d 0x4700 9 1 |>.dinc d 0x4660 6 1
      if voqPortDown s2 d (s2.pkt i).desc.voq.toNat then (some (dropPkt d i 0x11 s2), s2)
      else if !(s2.die d).buf.waitList.isEmpty then (none, s)
      else match tryExpress d i s2 with
        | (some s3, _) => (some s3, s3)
        | (none, s4) => match voqPut d (s2.pkt i).desc.voq.toNat i s4 with
          | (some s3, _) => (some s3, s3)
          | (none, s3) => (none, refusedToo d 4 s4 s3 (refusedHere d s4 s))
  | .ring r =>
    if 256 ≤ r ∨ 16 ≤ r % 32 ∨ !s.has (r / 32) then (some (dropPkt d i 0x13 s), s)
    else if ringState s (r / 32) (r % 32) ≠ 1 ∨ posted s (r / 32) (r % 32) = 0 ∨ owedElsewhere s d i t then (none, s)
    else match replicaUnits d i s with
      | (none, s') => (none, s')
      | (some (u, cs, s1), _) =>
        let s2 := (s1.onPkt i (fun p => { dressCopy s1 p with unit := some u, cells := cs })).dinc d 0x4700 9 1 |>.dinc d 0x4660 6 1
        if r / 32 = d then (some (puntTo d r 1 i s2), s2) else (some (admitPunt d i s2), s2)

/-- Serve each target once; those not ready are owed (R332). -/
def serveAll (d i : Nat) : List Target → State → List Target × State
  | [], s => ([], s)
  | t :: r, s => match serveTarget d i t s with
    | (some s', _) => serveAll d i r s'
    | (none, s') =>
      let (o, s'') := serveAll d i r s'
      (t :: o, s'')

/-- A multicast packet all of whose replicas exist or have ended: it goes with the last of them (R331). -/
def replicaEnd (i : Nat) (s : State) : State := if (s.pkt i).copyOf.isSome then s else finishPkt i s

/-- The first of the targets that can be served now with its effect, or none with the refusals it took (R332, R337). -/
def serveFirst (d : Nat) : List (Nat × Target) → State → Option (Nat × State) × State
  | [], s => (none, s)
  | (i, t) :: r, s => match serveTarget d i t s with
    | (some s', _) => (some (i, s'), s)
    | (none, s') => serveFirst d r s'

/-- The oldest residue owed to admission or to a punt ring that can be served now, and the effect. -/
def residueOther (d : Nat) (s : State) : Option (Nat × State) × State :=
  serveFirst d (((s.die d).buf.residue.mergeSort (fun a b => decide (a.2.ord ≤ b.2.ord))).filterMap (fun x => (x.2.owed.find? (fun t => match t with
    | .queue _ _ => false
    | _ => true)).map (fun t => (x.1, t)))) s

/-- Write a packet's residue; an empty list ends it. -/
def putResidue (d i : Nat) (r : Residue) (s : State) : State :=
  let s := s.onDie d (fun x => { x with buf.residue := if r.owed.isEmpty then mdel x.buf.residue i else minsert x.buf.residue i r })
  s.dset d 0x4700 4 (s.die d).buf.residue.length

/-- REPLICATION (R332): a pass over the next input's targets; copies owed to admission or a punt ring are offered
first. -/
def replication (d : Nat) (s : State) : State :=
  match residueOther d s with
  | (some (i, s'), _) => putResidue d i { (mget (s.die d).buf.residue i) with owed := [] } s'
  | (none, s) =>
    match (s.die d).buf.replQ with
    | [] => s
    | i :: r =>
      if 8192 ≤ (s.die d).buf.residue.length ∨ (s.pkt i).tail = .pending then s
      else if (s.pkt i).tail ≠ .good then finishPkt i (s.onDie d (fun x => { x with buf.replQ := r }))
      else if (s.pkt i).poison then dropPkt d i 0x14 (s.onDie d (fun x => { x with buf.replQ := r }))
      else
        let s := s.onDie d (fun x => { x with buf.replQ := r })
        let ts := targets s d i
        let (owed, s) := serveAll d i ts s
        if ts.isEmpty then finishPkt i s
        else if owed.isEmpty then replicaEnd i s
        else
          let s := s.dinc d 0x4700 0xA owed.length
          let s := putResidue d i { since := (s.pkt i).atRepl, ord := (s.die d).buf.residueNo, owed := owed } s
          let s := s.onDie d (fun x => { x with buf.residueNo := x.buf.residueNo + 1 })
          s.each owed fun t s => match t with
            | .queue slot tc => onEgq d (slot * 8 + tc) (fun e => { e with line := e.line ++ [i] }) s
            | _ => s

/-- Strike a target off a packet's residue; without any left the packet is done with. -/
def residueServed (d i : Nat) (t : Target) (s : State) : State :=
  let r := mget (s.die d).buf.residue i
  let s := putResidue d i { r with owed := r.owed.filter (· ≠ t) } s
  if (r.owed.filter (· ≠ t)).isEmpty then replicaEnd i s else s

/-- RESIDUE_ENTER (R333): the head of a queue's residue line enters the queue when it has room. -/
def residueEnter (d slot tc : Nat) (s : State) : State :=
  let q := slot * 8 + tc
  match (egq s d q).line with
  | [] => s
  | i :: r =>
    if !egRoom s d slot tc (cellsOf (s.pkt i)) then s
    else if (s.pkt i).stage = .line slot tc then egEnqueue d slot tc i (onEgq d q (fun e => { e with line := r }) s)
    else match replicaUnits d i s with
      | (none, s') => s'
      | (some (u, _, s1), _) =>
        residueServed d i (.queue slot tc) (replicaPut d i slot tc u (onEgq d q (fun e => { e with line := r }) s1))

/-- RESIDUE_TIMEOUT (R334): replicas still owed when the timer has run end at P6, each counted once. -/
def residueTimeout (d i : Nat) (s : State) : State :=
  match mget? (s.die d).buf.residue i with
  | none => s
  | some r =>
    if s.now < r.since + s.dg d 0x4700 3 * 1000 then s
    else
      let s := s.each r.owed fun t s => match t with
        | .queue slot tc => onEgq d (slot * 8 + tc) (fun e => { e with line := e.line.filter (· != i) }) s
        | _ => s
      let s := putResidue d i { r with owed := [] } (s.dinc d 0x4920 0x10 r.owed.length)
      finishPkt i s

/-! ### Port down (R335, R336, R376) -/

/-- End the packets of a port's egress queues and residue lines (R335 steps 2 and 4). -/
def flushQueues (d slot : Nat) (s : State) : State :=
  s.each (List.range 8) fun tc s =>
    let e := egq s d (slot * 8 + tc)
    let s := onEgq d (slot * 8 + tc) (fun _ => {}) s
    let s := s.dinc d (0x4740 + slot) 0x52 (e.pkts.length + e.line.length)
    let s := s.each e.pkts (fun i s => dropPkt d i 0x11 s)
    s.each e.line fun i s =>
      if (s.pkt i).stage = .line slot tc then dropPkt d i 0x11 s
      else residueServed d i (.queue slot tc) (s.dinc d 0x4920 0x11 1)

/-- End the packets of every VOQ that leads to a port, each on the die that holds it (R335 step 3). -/
def flushVoqs (d slot : Nat) (s : State) : State :=
  s.each s.present fun x s =>
    let vs := ((s.die x).buf.voqs.filter (fun q => voqPort s x q.1 == d * 64 + slot)).map (·.1)
    s.each vs fun v s =>
      let ps := (voq s x v).pkts
      s.each ps (fun i s => dropPkt x i 0x11 s) |> (fun s => s.dinc d (0x4740 + slot) 0x52 ps.length)

/-- A port's MAC. -/
def mac (s : State) (d slot : Nat) : Mac := mget (s.die d).macs slot
/-- Change a port's MAC. -/
def onMac (d slot : Nat) (f : Mac → Mac) (s : State) : State := s.onDie d (fun x => { x with macs := mmod x.macs slot f })

/-- The frames of a port's transmit FIFO end at P8; the one in transmission is counted as aborted (R376), and one that was cut has ended
already (R378). -/
def abortTx (d slot : Nat) (s : State) : State :=
  let fs := (mac s d slot).tx
  let m := mac s d slot
  let n := b2n m.active
  let s := s.dinc d (0x4940 + slot) 0x16 n
  let s := onMac d slot (fun m => { m with tx := [], cutAt := 0, active := false, cutDone := false }) s
  let s := s.dinc d (0x4740 + slot) 0x52 (fs.length - n)
  s.each fs.zipIdx (fun x s => if x.2 = 0 ∧ m.cutDone then finishPkt x.1 s else dropPkt d x.1 0x11 s)

/-- A port stops scheduling and its flush starts (R335). -/
def portFlush (d slot : Nat) (s : State) : State :=
  let s := s.dinc d (0x4740 + slot) 0x51 1
  onMac d slot (fun m => { m with flushing := true }) (flushVoqs d slot (flushQueues d slot s))

/-- PORT_FLUSH_DONE (R335, R336, R512): the flush is complete and the transmitter empty; a pending enable, or a link
that came up meanwhile, applies now. -/
def flushDone (d slot : Nat) (s : State) : State :=
  let m := mac s d slot
  if !m.flushing || m.stopping || !m.tx.isEmpty then s
  else
    let s' := onMac d slot (fun m => { m with flushing := false, pendUp := false }) s
    let st := s.dg d (0x4050 + slot) 1
    if m.pendUp then ((s'.dset d (0x4050 + slot) 1 3).dinc d (0x4050 + slot) 3 1).report d 0x0D slot 1 0x501 0
    else if st = 7 then (s'.dset d (0x4050 + slot) 1 (if s.netMode d then 2 else 1)).dset d (0x4010 + slot) 1 1
    else if st = 6 then s'.dset d (0x4050 + slot) 1 0
    else s'

/-- RESEQ_RELEASE of one die, direction and output. -/
def execReseqRelease (d : DieId) (eg : Bool) (out : Nat) (s : State) : Host.Outcome State Fault Refusal :=
  onLive d (reseqRelease d eg out) s
/-- POOL_RELEASE of one pool; cells in the receive buffers of the links ask again (R316). -/
def execPoolRelease (d : DieId) (p : Fin 3) (s : State) : Host.Outcome State Fault Refusal :=
  onLive d (fun s => rxDrainAll d (poolReleaseStep d p s)) s
/-- ALLOCATOR_REFILL of one pool. -/
def execAllocatorRefill (d : DieId) (p : Fin 3) (s : State) : Host.Outcome State Fault Refusal := onLive d (refillStep d p) s
/-- WAIT_LIST_HEAD_RETRY of one die. -/
def execWaitListHeadRetry (d : DieId) (s : State) : Host.Outcome State Fault Refusal := onLive d (waitRetry d) s
/-- VOQ_DEPART of one VOQ. -/
def execVoqDepart (d : DieId) (v : Fin 65536) (s : State) : Host.Outcome State Fault Refusal := onLive d (voqDepart d v) s
/-- STACKS_READY of one die. -/
def execStacksReady (d : DieId) (s : State) : Host.Outcome State Fault Refusal := onLive d (stacksReady d) s
/-- REPLICATION of one die. -/
def execReplication (d : DieId) (s : State) : Host.Outcome State Fault Refusal := onLive d (replication d) s
/-- RESIDUE_ENTER of one egress queue. -/
def execResidueEnter (d : DieId) (slot : Slot) (tc : Fin 8) (s : State) : Host.Outcome State Fault Refusal :=
  onLive d (residueEnter d slot tc) s
/-- RESIDUE_TIMEOUT of one packet at the replication engine. -/
def execResidueTimeout (d : DieId) (i : Nat) (s : State) : Host.Outcome State Fault Refusal := onLive d (residueTimeout d i) s
/-- PORT_FLUSH_DONE of one port. -/
def execPortFlushDone (d : DieId) (slot : Slot) (s : State) : Host.Outcome State Fault Refusal := onLive d (flushDone d slot) s

end Sys2Proof.Machine
end

