-- ==== Sys2Proof/Machine/Dram.lean ====
section
/-! DEFINITION. Buffer DRAM stacks: addresses, bank queues, command slots, reads, refresh, training and retraining,
errors and fences (Buffer DRAM Stacks). -/

namespace Sys2Proof.Machine

/-- A die's stack beyond its entries. -/
def stack (s : State) (d k : Nat) : Stack := mget (s.die d).buf.drams k
/-- Change a stack. -/
def onStack (d k : Nat) (f : Stack → Stack) (s : State) : State :=
  s.onDie d (fun x => { x with buf.drams := mmod x.buf.drams k f })
/-- Change a pseudo-channel. -/
def onChan (d k pc : Nat) (f : DramChan → DramChan) (s : State) : State :=
  onStack d k (fun t => { t with chans := mmod t.chans pc f }) s
/-- State of a stack (Table 14.9). -/
def stackState (s : State) (d k : Nat) : Nat := s.dg d (0x4310 + k) 1

/-! ### From page to pseudo-channel (R423) -/

/-- Where a burst lies: pseudo-channel, bank of 48 and row. -/
structure BurstAddr where
  pc   : Nat := 0
  bank : Nat := 0
  row  : Nat := 0
  col  : Nat := 0
  deriving DecidableEq, Repr

/-- Table 14.2: burst address B under an address order. The bank number is stack ID × 16 + bg × 4 + bank. -/
def burstAddr (order b : Nat) : BurstAddr :=
  let sid := b / 2 ^ 28
  let x := b % 2 ^ 28
  let at_ := fun (pc bg bank row col : Nat) => ({ pc := pc, bank := sid * 16 + bg * 4 + bank, row := row, col := col } : BurstAddr)
  match order with
  | 0 => at_ (bits x 27 23) (bits x 22 21) (bits x 20 19) (bits x 18 5) (bits x 4 0)
  | 1 => at_ (bits x 4 0) (bits x 6 5) (bits x 8 7) (bits x 27 14) (bits x 13 9)
  | 2 => at_ (bits x 9 5) (bits x 11 10) (bits x 13 12) (bits x 27 14) (bits x 4 0)
  | _ =>
    let row := bits x 27 14
    at_ (bits x 4 0) (bits x 6 5 ^^^ bits row 1 0) (bits x 8 7 ^^^ bits row 3 2) row (bits x 13 9)

/-- Burst address of byte o of page p within its stack (R423). -/
def pageBurst (p o : Nat) : Nat := p / 2 * 64 + o / 32

/-- The n-th 64-byte unit of a packet in a VOQ: its page and byte offset in it. -/
def unitAt (p : Packet) (n : Nat) : Nat × Nat :=
  let o := p.pageOff + n * 64
  ((p.pages[o / 2048]?).getD 0, o % 2048)

/-! ### Requests (R425 to R428) -/

/-- Units of a packet in DRAM. -/
def dramUnits (p : Packet) : Nat := pageBytes p / 64

/-- The request of a unit for a packet, for writing or reading. -/
def unitReq (s : State) (d i n : Nat) (write : Bool) : DramReq :=
  let p := s.pkt i
  let (g, o) := unitAt p n
  let b := pageBurst g o
  let a := burstAddr (s.dg d 0x4300 1) b
  { id := (s.die d).buf.dramIds, write := write, page := g, burst := b, rbank := a.bank, row := a.row, age := s.now, pkt := i
    cls := if write then 0 else 1 }

/-- Put a request into its bank queue, which holds 32 (R425); a read of a row with a pending write in its bank puts
the row into in-order mode (R428). None when the queue is full. -/
def dramPut (d k pc : Nat) (r : DramReq) (s : State) : Option State :=
  let c := mget (stack s d k).chans pc
  if 32 ≤ (c.reqs.filter (fun x => x.rbank == r.rbank)).length then none
  else
    let rk := r.rbank * 16384 + r.row
    let hit := !r.write && c.reqs.any (fun x => x.write && x.rbank == r.rbank && x.row == r.row) && !c.inorder.contains rk
    let s := s.when hit (fun s => s.dinc d (0x4310 + k) 0xD 1)
    let s := onChan d k pc (fun c => { c with reqs := c.reqs ++ [r], inorder := if hit then c.inorder ++ [rk] else c.inorder }) s
    some ((s.onDie d (fun x => { x with buf.dramIds := x.buf.dramIds + 1 })) |> onStack d k (fun t => { t with reqPtr := (r.cls + 1) % 3 }))

/-- The first packet of a VOQ with a unit to write. -/
def writePkt (s : State) (d v : Nat) : Option Nat := (voq s d v).pkts.find? (fun i => (s.pkt i).wrAsk != 0)

/-- The pattern a helper drives on a stack (R432, R438): direction and pseudo-channels of the pattern command that runs, or, while a
retrain window is open, reads of the training pattern on every other pseudo-channel. -/
def helperWork (s : State) (d k : Nat) : Option (Nat × List Nat) :=
  let t := stack s d k
  if s.dg d (0x4320 + k) 2 = 1 then some (bits t.pat.toNat 123 122, (List.range 32).filter (fun pc => bit t.pat.toNat (80 + pc)))
  else if stackState s d k = 3 ∧ (mget t.chans t.window).closed then some (1, (List.range 32).filter (· != t.window))
  else none

/-- A requester offers its next request (R425, R426, R428): the VOQ writer (0) or reader (1) a 64-byte unit of a VOQ, for the bank queue
of its stack; the helpers (2) one of the pattern they drive, where the manual leaves its place open (log entry 5). None when there is no
request or its bank queue is full. -/
def dramOffer (d k who v : Nat) (s : State) : Option State :=
  match who with
    | 0 => if !([2, 3].contains (stackState s d k)) then none else match writePkt s d v with
      | none => none
      | some i =>
        let p := s.pkt i
        let r := unitReq s d i (dramUnits p - p.wrAsk) true
        if r.page % 2 ≠ k then none
        else (dramPut d k (burstAddr (s.dg d 0x4300 1) r.burst).pc r s).map (fun s => s.onPkt i (fun p => { p with wrAsk := p.wrAsk - 1 }))
    | 1 => if !([2, 3].contains (stackState s d k)) then none else match (voq s d v).pkts.head? with
      | none => none
      | some i =>
        let p := s.pkt i
        let n := dramUnits p - p.rdAsk
        let full := decide (512 ≤ 2 * ((stack s d k).reads.filter (fun x => x.2)).length)
        if p.rdAsk = 0 ∨ full ∨ dramUnits p - p.wrAsk ≤ n ∨ pktLost s d p then none
        else
          let r := unitReq s d i n false
          if r.page % 2 ≠ k then none
          else (dramPut d k (burstAddr (s.dg d 0x4300 1) r.burst).pc r s).map (fun s =>
            (onStack d k (fun t => { t with reads := t.reads ++ [(r, false)] }) s).onPkt i (fun p => { p with rdAsk := p.rdAsk - 1 }))
    | _ => if !([1, 2, 3].contains (stackState s d k)) then none else match helperWork s d k with
      | none => none
      | some (dir, pcs) =>
        let (f, s) := s.fresh
        let b := f % 805306368
        let a := burstAddr (s.dg d 0x4300 1) b
        let w := if dir = 0 then f / 805306368 % 2 == 1 else dir == 2
        match pcs[a.pc % pcs.length]? with
        | none => none
        | some pc => dramPut d k pc { id := (s.die d).buf.dramIds, write := w, page := b / 64 * 2 + k, burst := b, rbank := a.bank
                                      row := a.row, age := s.now, cls := 2, pat := dir != 0 } s

/-- DRAM_REQUEST (R425): in one cycle the controller of a stack accepts one of the requests that its requesters offer, by its pointer
(R22); the others hold theirs. -/
def dramRequest (d k : Nat) (asks : List (Nat × Nat)) (s : State) : State :=
  let ptr := (stack s d k).reqPtr
  (((List.range 3).map (fun i => (ptr + i) % 3)).findSome? (fun w =>
    (asks.find? (fun a => a.1 == w)).bind (fun a => dramOffer d k w a.2 s))).getD s

/-- The cells and descriptor of a packet are released when its write completes (R318). -/
def writeDone (i : Nat) (s : State) : State :=
  let p := s.pkt i
  if p.wrLeft ≠ 0 then s
  else
    let s := if p.users = 0 then poolFreeUnits s p.die 0 p.cells else s
    let s := match p.unit with
      | some u => poolFreeUnits s p.die 2 [u]
      | none => s
    s.onPkt i (fun p => { p with cells := if p.users = 0 then [] else p.cells, unit := none, desc := { p.desc with inDram := 1 } })

/-- A request served by the stack (R428): a write retires, a read's data enters the return buffer. -/
def dramServe (d k pc : Nat) (r : DramReq) (s : State) : State :=
  let s := onChan d k pc (fun c =>
    let q := c.reqs.filter (fun x => x.id != r.id)
    let rk := r.rbank * 16384 + r.row
    let live := q.any (fun x => x.write && x.rbank == r.rbank && x.row == r.row)
    { c with reqs := q, inorder := if r.write && !live then c.inorder.filter (· != rk) else c.inorder }) s
  if r.cls = 2 then s
  else if r.write then
    match mget? s.pkts r.pkt with
    | some p => if p.wrLeft = 0 then s else writeDone r.pkt (s.onPkt r.pkt (fun p => { p with wrLeft := p.wrLeft - 1 }))
    | none => s
  else onStack d k (fun t => { t with reads := t.reads.map (fun x => if x.1.id = r.id then (x.1, true) else x) }) s

/-- The request the native scheduler serves, and the bank and count it leaves (R427): up to 8 to the row opened last,
then the next bank in rotation. -/
def nativePick (c : DramChan) : Option (DramReq × Nat × Nat) :=
  let open_ := mget c.open_ c.last
  match (if c.left = 0 then none else c.reqs.find? (fun r => r.rbank == c.last && r.row + 1 == open_)) with
  | some r => some (r, c.last, c.left - 1)
  | none =>
    match ((List.range 48).map (fun i => (c.last + 1 + i) % 48)).find? (fun b => c.reqs.any (fun r => r.rbank == b)) with
    | none => none
    | some b => (c.reqs.find? (fun r => r.rbank == b)).map (fun r => (r, b, 7))

/-- The request the O720-compatible scheduler serves (R427): one older than 4 µs, else the oldest row hit, else the
oldest. -/
def o720Pick (now : Nat) (c : DramChan) : Option DramReq :=
  match c.reqs.find? (fun r => decide (r.age + 4000 < now)) with
  | some r => some r
  | none => match c.reqs.find? (fun r => r.row + 1 == mget c.open_ r.rbank) with
    | some r => some r
    | none => c.reqs.head?

/-- DRAM_COMMAND_SLOT (R427): a pseudo-channel serves a request. A native one that finds none for its open row closes it. A training
pattern to which the rotation comes opens no row. -/
def commandSlot (d k pc : Nat) (s : State) : State :=
  let c := mget (stack s d k).chans pc
  if !([1, 2, 3].contains (stackState s d k)) || c.closed then s
  else if c.sched = 0 then
    match nativePick c with
    | none => onChan d k pc (fun c => { c with open_ := mput c.open_ c.last 0, left := 0 }) s
    | some (r, b, n) =>
      let s := onChan d k pc (fun c =>
        if r.pat && n == 7 then { c with open_ := mput c.open_ c.last 0, last := b, left := 0 }
        else { c with open_ := mput (mput c.open_ c.last 0) b (if n = 0 then 0 else r.row + 1), last := b, left := n }) s
      dramServe d k pc r s
  else
    match o720Pick s.now c with
    | none => s
    | some r =>
      let s := if r.pat then s else onChan d k pc (fun c => { c with open_ := mput c.open_ r.rbank (r.row + 1), last := r.rbank, left := 0 }) s
      dramServe d k pc r s

/-! ### Fences and errors (R440 to R442) -/

/-- A stack that runs is fenced for a cause: its pages leave the pool and are charged to no requester (R329, R442). -/
def stackFenced (d k cause : Nat) (s : State) : State :=
  if !([1, 2, 3].contains (stackState s d k)) then s
  else
    let s := (s.dset d (0x4310 + k) 1 4).dset d (0x4310 + k) 2 cause
    let s := onStack d k (fun t => { t with chans := [], reads := [] }) s
    let s := noteFree d 1 (onPool s d 1 (fun q => { q with used := q.used.map (fun u => if u.1 % 2 = k then (u.1, 7) else u) }))
    let other := stackState s d (1 - k)
    if s.dg d 0x4700 1 = 0 then s else s.dset d 0x4700 1 (if [2, 3].contains other then 2 else 0)

/-- Fence a stack (R442): the die's lost-unit word shows it and a Degrade fault is reported, with the page it comes from or 0. -/
def stackFence (d k cause page : Nat) (s : State) : State :=
  if !([1, 2, 3].contains (stackState s d k)) then s else (stackFenced d k cause s).report d 0x0A k 3 0x342 page

/-- Quarantine a page (R441): in use, charged to no requester, and listed; more than 256 fence the stack. -/
def quarantine (d k g : Nat) (s : State) : State :=
  let t := stack s d k
  if t.quar.contains g then s
  else if 256 ≤ t.quar.length then stackFence d k 2 g s
  else
    let s := onStack d k (fun t => { t with quar := t.quar ++ [g] }) s
    let s := onPool s d 1 (fun q => { q with used := minsert q.used g 7, ready := q.ready.filter (· != g), relq := q.relq.filter (· != g) })
    let s := noteFree d 1 s
    s.dset d (0x4310 + k) 0xC (stack s d k).quar.length

/-- DRAM_READ_COMPLETE (R426, R441): the oldest read returns after `fails` failing attempts, at most 3;
an injected flip of its page makes them fail as well (R541). -/
def readComplete (d k fails : Nat) (s : State) : State :=
  match (stack s d k).reads with
  | (r, true) :: rest =>
    let s := onStack d k (fun t => { t with reads := rest }) s
    let (fails, s) := match s.flipAt d 0x0A k r.page with
      | some f => (max fails f.2.2.2, spendFlip d f f.2.2.2 s)
      | none => (fails, s)
    let live := (mget? s.pkts r.pkt).isSome
    let s := if fails = 1 ∨ fails = 2 then (s.dinc d (0x4310 + k) 0xB 1).report d 0x0A k 2 0x341 r.page else s
    if fails < 3 then
      if !live || (s.pkt r.pkt).rdLeft = 0 then s else s.onPkt r.pkt (fun p => { p with rdLeft := p.rdLeft - 1 })
    else
      let s := if live then creditCheck d (s.pkt r.pkt).desc.voq.toNat (dropPkt d r.pkt 0x0F s) else s
      quarantine d k r.page s
  | _ => s

/-! ### Refresh and re-centring (R430, R431) -/

/-- Start an incremental retrain of a stack in state 2 (R437, R438). -/
def retrainStart (d k : Nat) (s : State) : State :=
  if stackState s d k = 2 then onStack d k (fun t => { t with window := 0 }) (s.dset d (0x4310 + k) 1 3) else s

/-- A retrain trigger of a cause, 0 temperature or 1 margin (R437): one Notice, and a retrain unless it is disabled or one is in
progress. -/
def retrainTrigger (d k cause : Nat) (s : State) : State :=
  if !([2, 3].contains (stackState s d k)) then s
  else
    let s := s.report d 0x0A k 1 0x343 (Config.retrainCause cause % 2 ^ 48)
    if s.dflag d 0x4300 5 then retrainStart d k s else s

/-- The lowest margin estimate over the pseudo-channels. -/
def marginMin (t : Stack) : Nat := (t.margins.map (·.2)).foldl min 63

/-- DRAM_REFRESH (R430, R431, R427): the next bank of a pseudo-channel is refreshed and its row closes; the scheduler
setting applies. At every 1,024th refresh the read pattern is read one step to either side of the delay (`lo`, `hi`: that
side fails), and at every 4,096th such slot the margin is measured instead. In a full training refresh starts at step 4 (Table 14.5). -/
def dramRefresh (d k pc : Nat) (lo hi : Bool) (margin : Nat) (s : State) : State :=
  if !([2, 3].contains (stackState s d k) || stackState s d k == 1 && decide (4 ≤ s.dg d (0x4310 + k) 9)) then s
  else
    let c := mget (stack s d k).chans pc
    let n := c.refs + 1
    let s := onChan d k pc (fun c => { c with
      open_ := mput c.open_ c.refPtr 0, left := if c.last = c.refPtr then 0 else c.left
      refPtr := (c.refPtr + 1) % 48, refs := n, sched := s.dg d 0x4300 2 }) s
    if n % (1024 * 4096) = 0 then
      let s := onStack d k (fun t => { t with margins := minsert t.margins pc margin }) s
      let s := s.dset d (0x4310 + k) 6 (marginMin (stack s d k))
      if margin < s.dg d 0x4300 4 then retrainTrigger d k 1 s else s
    else if n % 1024 = 0 then
      match lo, hi with
      | true, false => onChan d k pc (fun c => { c with rd := (c.rd + 1) % 256 }) s
      | false, true => onChan d k pc (fun c => { c with rd := (c.rd + 255) % 256 }) s
      | _, _ => s
    else s

/-- A temperature byte as signed °C. -/
def s8 (x : Nat) : Int := if x < 128 then x else (x : Int) - 256

/-- DRAM_TEMP_READ (R430, R437): the 1 ms sensor read, with the load over the last 1 ms. -/
def tempRead (d k : Nat) (temp load : Nat) (s : State) : State :=
  let s := (s.dset d (0x4310 + k) 3 temp).dset d (0x4310 + k) 5 load
  let s := if 85 < s8 temp then s.dset d (0x4310 + k) 4 1 else if s8 temp ≤ 80 then s.dset d (0x4310 + k) 4 0 else s
  let far := (List.range 32).any (fun pc =>
    let r := s.dg d (0x4330 + k) pc
    bits r 63 62 ≠ 0 ∧ (s.dg d 0x4300 3 : Int) < (s8 temp - s8 (bits r 79 72)).natAbs)
  if far then retrainTrigger d k 0 s else s

/-! ### Training and retraining (R432 to R439) -/

/-- A training record (Table 14.6) from measured values in [127:80]. -/
def trainRec (s : State) (d k : Nat) (meas : Nat) (load kind : Nat) : Nat :=
  bits meas 127 80 <<< 80 ||| s.dg d (0x4310 + k) 3 <<< 72 ||| load <<< 64 ||| kind <<< 62 ||| s.nsOn d % 2 ^ 48

/-- The lowest margin of a record. -/
def recMargin (r : Nat) : Nat := min (min (bits r 103 98) (bits r 97 92)) (min (bits r 91 86) (bits r 85 80))

/-- RETRAIN_WINDOW_OPEN (R438): the next pseudo-channel stops serving requests, and the pattern helper may top up the others. -/
def windowOpen (d k : Nat) (s : State) : State :=
  if stackState s d k = 3 ∧ (stack s d k).window < 32 then onChan d k (stack s d k).window (fun c => { c with closed := true }) s else s

/-- RETRAIN_WINDOW_CLOSE (R438): the sweep's centres and margins, in the places of Table 14.6, apply, or the old values
are kept; the last window ends the retrain. -/
def windowClose (d k : Nat) (meas : Nat) (s : State) : State :=
  let pc := (stack s d k).window
  let c := mget (stack s d k).chans pc
  if stackState s d k ≠ 3 ∨ !c.closed then s
  else
    let rd := bits meas 127 120
    let wr := bits meas 119 112
    let far := decide (8 < ((rd : Int) - c.rd).natAbs) || decide (8 < ((wr : Int) - c.wr).natAbs) || decide (recMargin meas < s.dg d 0x4300 4)
    let s := onChan d k pc (fun c => { c with closed := false }) s
    let s := if far then (s.dset d (0x4310 + k) 8 1).reportOpen d 0x0A k 1 0x344 188 0
      else
        let m := bits meas 127 112 <<< 112 ||| c.vref <<< 104 ||| bits meas 103 80 <<< 80
        onChan d k pc (fun c => { c with rd := rd, wr := wr }) (s.dset d (0x4330 + k) pc (trainRec s d k m 90 3))
    let s := onStack d k (fun t => { t with window := pc + 1 }) s
    if pc + 1 = 32 then (s.dset d (0x4310 + k) 1 2).dinc d (0x4310 + k) 7 1 else s

/-- retrain_now (R437): each bit starts a retrain of its stack. -/
def retrainNow (d v : Nat) (s : State) : Nat × State :=
  (0, s.each [0, 1] (fun k s => if bit v k then retrainStart d k s else s))

/-- A page of a stack is in use: held, quarantined (R441), or on its way back to the pool (R313). Every page of a fenced stack is
(R329). -/
def stackInUse (s : State) (d k : Nat) : Bool :=
  stackState s d k == 4 || (pool s d 1).used.any (fun u => u.1 % 2 == k) || (pool s d 1).relq.any (fun u => u % 2 == k)

/-- No retrain window of a stack is open any more (R438, R439). -/
def windowsEnd (d k : Nat) (s : State) : State :=
  onStack d k (fun t => { t with chans := t.chans.map (fun x => (x.1, { x.2 with closed := false })) }) s

/-- full_train (R439): refused while the stack holds a page in use; the stack leaves the pool for the duration. -/
def fullTrain (d v : Nat) (s : State) : Nat × State :=
  let ks := [0, 1].filter (fun k => bit v k)
  if ks.any (stackInUse s d) then (0x11, s)
  else (0, s.each ks fun k s =>
    if [2, 3].contains (stackState s d k) then
      let s := windowsEnd d k ((s.dset d (0x4310 + k) 1 1).dset d (0x4310 + k) 9 0)
      let s := noteFree d 1 s
      if s.dg d 0x4700 1 = 0 then s
      else s.dset d 0x4700 1 (if [2, 3].contains (stackState s d (1 - k)) then 2 else 0)
    else s)

/-- Training of a stack starts when its supply is good (Table 14.5 step 1). -/
def trainStart (d k : Nat) (s : State) : State :=
  if stackState s d k = 0 then (s.dset d (0x4310 + k) 1 1).dset d (0x4310 + k) 9 1 else s

/-- A value of the loaded step lies within 16 steps of its light-load centre (R434). -/
def near16 (a b : Nat) : Bool := decide (((a : Int) - b).natAbs ≤ 16)

/-- The result of the loaded step keeps to the light-load centres of a pseudo-channel's record (R434). -/
def loadedFits (light m : Nat) : Bool :=
  near16 (bits m 127 120) (bits light 127 120) && near16 (bits m 119 112) (bits light 119 112) && near16 (bits m 111 104) (bits light 111 104)

/-- TRAINING_COMPLETE (R422, R434 to R436, R442): a full training passes its next step of Table 14.5, or fails in it and fences the stack,
with its measured values by pseudo-channel. Steps 5 and 6 leave records at light load, step 7 the centres at full load, near those; past
step 8, with every margin sufficient, the stack is ready. -/
def trainingComplete (d k step : Nat) (failed : Bool) (meas : List (BitVec 128)) (s : State) : State :=
  let m := fun (pc : Nat) => ((meas[pc]?).getD 0).toNat
  let centre := fun (pc : Nat) => onChan d k pc (fun c => { c with rd := bits (m pc) 127 120, wr := bits (m pc) 119 112, vref := bits (m pc) 111 104 })
  let all := List.range 32
  let light := fun (pc : Nat) (s : State) => centre pc (s.dset d (0x4330 + k) pc (trainRec s d k (m pc) 10 1))
  let full := fun (pc : Nat) (s : State) =>
    let c := mget (stack s d k).chans pc
    s.dset d (0x4330 + k) pc (trainRec s d k (c.rd <<< 120 ||| c.wr <<< 112 ||| c.vref <<< 104 ||| bits (m pc) 103 80 <<< 80) 90 2)
  if stackState s d k ≠ 1 ∨ step ≠ s.dg d (0x4310 + k) 9 + 1 then s
  else if failed then stackFence d k 1 0 s
  else if step = 7 ∧ all.any (fun pc => !loadedFits (s.dg d (0x4330 + k) pc) (m pc)) then stackFence d k 1 0 s
  else if step < 8 then
    (if step = 5 ∨ step = 6 then s.each all light else if step = 7 then s.each all centre else s).dset d (0x4310 + k) 9 step
  else if all.any (fun pc => decide (recMargin (m pc) < s.dg d 0x4300 4)) then stackFence d k 1 0 s
  else windowsEnd d k ((((s.each all full).dset d (0x4310 + k) 9 8).dset d (0x4310 + k) 1 2).dset d (0x4310 + k) 8 0)

/-- pattern_command (R432, R433). -/
def patternCommand (d k v : Nat) (s : State) : Nat × State :=
  if stackState s d k ≠ 1 ∧ s.dieMode d ≠ .diagnostic then (0x16, s)
  else if 6 < bits v 127 124 ∨ bits v 123 122 = 3 ∨ bits v 121 115 = 0 ∨ 100 < bits v 121 115 ∨ 127 < bits v 63 56 ∨ bits v 55 32 = 0 then (0x13, s)
  else if s.dg d (0x4320 + k) 2 = 1 then (0x11, s)
  else if bits v 123 122 = 0 ∧ stackInUse s d k then (0x11, s)
  else
    let s := s.each (List.range 32) (fun pc s => (s.dset d (0x4320 + k) (0x10 + pc) 0).dset d (0x4320 + k) (0x30 + pc) 0)
    (0, onStack d k (fun t => { t with pat := BitVec.ofNat 128 v }) (s.dset d (0x4320 + k) 2 1))

/-- PATTERN_DONE (R432, R433): failing bursts and lanes of the targeted pseudo-channels; with apply the trial values
become operating values. -/
def patternDone (d k : Nat) (res : List (Nat × Nat)) (s : State) : State :=
  if s.dg d (0x4320 + k) 2 ≠ 1 then s
  else
    let v := (stack s d k).pat.toNat
    let s := s.each ((List.range 32).filter (fun pc => bit v (80 + pc))) fun pc s =>
      let (e, l) := (res[pc]?).getD (0, 0)
      let s := (s.dset d (0x4320 + k) (0x10 + pc) (min e (2 ^ 32 - 1))).dset d (0x4320 + k) (0x30 + pc) (l % 2 ^ 32)
      if bit v 114 then onChan d k pc (fun c => { c with rd := bits v 79 72, wr := bits v 71 64, vref := bits v 63 56 }) s else s
    s.dset d (0x4320 + k) 2 2

/-- ECC_POLL (R440): n single-bit errors the stack has corrected since the last poll. -/
def eccPoll (d k n : Nat) (s : State) : State := s.dinc d (0x4310 + k) 0xA n

/-- DRAM_REQUEST of one stack: the requesters that offer a request in the cycle, each with the VOQ it is of. -/
def execDramRequest (d : DieId) (k : Fin 2) (asks : List (Fin 3 × Fin 65536)) (s : State) : Host.Outcome State Fault Refusal :=
  onLive d (dramRequest d k (asks.map (fun a => (a.1.val, a.2.val)))) s
/-- DRAM_COMMAND_SLOT of one pseudo-channel. -/
def execDramCommandSlot (d : DieId) (k : Fin 2) (pc : Fin 32) (s : State) : Host.Outcome State Fault Refusal := onLive d (commandSlot d k pc) s
/-- DRAM_READ_COMPLETE of one stack. -/
def execDramReadComplete (d : DieId) (k : Fin 2) (fails : Fin 4) (s : State) : Host.Outcome State Fault Refusal := onLive d (readComplete d k fails) s
/-- DRAM_REFRESH of one pseudo-channel. -/
def execDramRefresh (d : DieId) (k : Fin 2) (pc : Fin 32) (lo hi : Bool) (margin : Fin 64) (s : State) : Host.Outcome State Fault Refusal :=
  onLive d (dramRefresh d k pc lo hi margin) s
/-- DRAM_TEMP_READ of one stack. -/
def execDramTempRead (d : DieId) (k : Fin 2) (temp : BitVec 8) (load : Fin 101) (s : State) : Host.Outcome State Fault Refusal :=
  onLive d (tempRead d k temp.toNat load) s
/-- RETRAIN_WINDOW_OPEN of one stack. -/
def execRetrainWindowOpen (d : DieId) (k : Fin 2) (s : State) : Host.Outcome State Fault Refusal := onLive d (windowOpen d k) s
/-- RETRAIN_WINDOW_CLOSE of one stack. -/
def execRetrainWindowClose (d : DieId) (k : Fin 2) (meas : BitVec 128) (s : State) : Host.Outcome State Fault Refusal :=
  onLive d (windowClose d k meas.toNat) s
/-- PATTERN_DONE of one stack. -/
def execPatternDone (d : DieId) (k : Fin 2) (res : List (Nat × Nat)) (s : State) : Host.Outcome State Fault Refusal := onLive d (patternDone d k res) s
/-- TRAINING_COMPLETE of one stack. -/
def execTrainingComplete (d : DieId) (k : Fin 2) (step : Fin 9) (failed : Bool) (meas : List (BitVec 128)) (s : State) :
    Host.Outcome State Fault Refusal :=
  onLive d (trainingComplete d k step failed meas) s
/-- ECC_POLL of one stack. -/
def execEccPoll (d : DieId) (k : Fin 2) (n : Nat) (s : State) : Host.Outcome State Fault Refusal := onLive d (eccPoll d k n) s
/-- DRAM_PHY_LANE_LOSS of one stack (R442). -/
def execDramPhyLaneLoss (d : DieId) (k : Fin 2) (s : State) : Host.Outcome State Fault Refusal := onLive d (stackFence d k 4 0) s
/-- DRAM_CATASTROPHIC_TEMP of one stack (R442). -/
def execDramCatastrophicTemp (d : DieId) (k : Fin 2) (s : State) : Host.Outcome State Fault Refusal := onLive d (stackFence d k 3 0) s

end Sys2Proof.Machine
end

