-- ==== Sys2Proof/Machine/Sched.lean ====
section
/-! DEFINITION. Scheduling, shapers, gates, Meridian time and the samplers (Scheduling, Shaping, Policing and Gates). -/

namespace Sys2Proof.Machine

/-! ### Nodes and shapers (R338 to R348) -/

/-- The key of node n of a slot (Table 11.10): 0 the port, 1 to 4 its groups, 5 to 12 its queues. -/
def nodeKey (slot n : Nat) : Nat := if n = 0 then slot else if n ≤ 4 then 64 + 4 * slot + (n - 1) else 320 + 8 * slot + (n - 5)

/-- A scheduler node. -/
def node (s : State) (d slot n : Nat) : Node := mget (s.die d).buf.nodes (nodeKey slot n)
/-- Change a node. -/
def onNode (d slot n : Nat) (f : Node → Node) (s : State) : State :=
  s.onDie d (fun x => { x with buf.nodes := mmod x.buf.nodes (nodeKey slot n) f })

/-- Entry `base + n` of a slot's scheduler entries. -/
def nodeCfg (s : State) (d slot base n : Nat) : Nat := s.dg d (0x4880 + slot) (base + n)
/-- Rate of a node's shaper in kb/s. -/
def shaperRate (s : State) (d slot n : Nat) : Nat := nodeCfg s d slot 0x30 n
/-- Burst of a node's shaper in units of 2^-32 byte. -/
def shaperBurst (s : State) (d slot n : Nat) : Int := (nodeCfg s d slot 0x40 n * 64 * 2 ^ 32 : Nat)
/-- Credit per cycle at a rate: rate ÷ 1.5 GHz bytes, truncated to 2^-32 byte (R346). -/
def accrual (kbps : Nat) : Nat := kbps * 125 * 2 ^ 32 / 1500000000

/-- A node's credit now (R346). -/
def creditNow (s : State) (d slot n : Nat) : Int :=
  let x := node s d slot n
  let r := shaperRate s d slot n
  if r = 0 then x.credit else min (shaperBurst s d slot n) (x.credit + (accrual r * (bufCycles s - x.last) : Nat))

/-- Bring a node's credit up to date. -/
def settle (d slot n : Nat) (s : State) : State :=
  let c := creditNow s d slot n
  onNode d slot n (fun x => { x with credit := c, last := bufCycles s }) s

/-- A node's shaper is off or holds credit above 0 (R340). -/
def shaperOk (s : State) (d slot n : Nat) : Bool := shaperRate s d slot n == 0 || decide (0 < creditNow s d slot n)

/-- Charge a node's shaper with bytes, fewer when negative (R344, R346). -/
def shaperCharge (d slot n : Nat) (bytes : Int) (s : State) : State :=
  if shaperRate s d slot n = 0 then s
  else (settle d slot n s) |> onNode d slot n (fun x => { x with credit := x.credit - bytes * 2 ^ 32 })

/-- A shaper rate write (R347). -/
def shaperRateWrite (d slot n v : Nat) (s : State) : Nat × State :=
  let old := shaperRate s d slot n
  let s := (settle d slot n s).dset d (0x4880 + slot) (0x30 + n) v
  (0, if old = 0 ∧ v ≠ 0 then onNode d slot n (fun x => { x with credit := shaperBurst s d slot n }) s else s)

/-- A shaper burst write (R347). -/
def shaperBurstWrite (d slot n v : Nat) (s : State) : Nat × State :=
  let s := (settle d slot n s).dset d (0x4880 + slot) (0x40 + n) v
  (0, onNode d slot n (fun x => { x with credit := if 0 < x.credit then min x.credit (shaperBurst s d slot n) else x.credit }) s)

/-- shaper_reset (R347). -/
def shaperReset (d slot n : Nat) (s : State) : Nat × State :=
  (0, onNode d slot n (fun x => { x with credit := max 0 x.credit }) (settle d slot n s))

/-- What shaper_credit reads: whole bytes, saturating to a signed 32-bit value (Table 11.10). -/
def shaperCredit (s : State) (d slot n : Nat) : Nat :=
  let b := creditNow s d slot n / 2 ^ 32
  let b := max (-(2 ^ 31)) (min (2 ^ 31 - 1) b)
  (b % 2 ^ 32).toNat

/-- The weight of a node; a port's that nothing has set is the slots it uses (Table 11.10). -/
def nodeWeight (s : State) (d slot n : Nat) : Nat :=
  let w := nodeCfg s d slot 0x20 n
  if w = 0 then slotsPerPort (slotMode s d slot) else w

/-- The shapers of a die come up: one that has a rate now goes from off to on, with its credit at the burst (R346, R347). -/
def shapersUp (d : Nat) (s : State) : State :=
  s.each ((s.die d).regs.filter (fun e => decide (0x4880 ≤ e.1 / 256) && decide (e.1 / 256 < 0x48C0) && decide (0x30 ≤ e.1 % 256) &&
      decide (e.1 % 256 ≤ 0x3C) && e.2 != 0)) fun e s =>
    let slot := e.1 / 256 - 0x4880
    let n := e.1 % 256 - 0x30
    onNode d slot n (fun x => { x with credit := shaperBurst s d slot n, last := bufCycles s }) s

/-- The nodes of a slot wake anew after a change of band or group (R345). -/
def rewake (d slot : Nat) (s : State) : State := s.each (List.range 13) (fun n s => onNode d slot n (fun x => { x with awake := false }) s)

/-- apply_template (Table 11.10): bands, weights and groups of a template; weight 0 of the port keeps the slot's. -/
def applyTemplate (d slot t : Nat) (s : State) : Nat × State :=
  if 15 < t then (0x13, s)
  else
    let s := s.each (List.range 13) fun n s =>
      let w := s.pg (0x3010 + t) (0x20 + n)
      let s := s.dset d (0x4880 + slot) (0x10 + n) (s.pg (0x3010 + t) (0x10 + n))
      if w = 0 then s else s.dset d (0x4880 + slot) (0x20 + n) w
    let s := s.each (List.range 8) (fun tc s => s.dset d (0x4880 + slot) (0x70 + tc) (s.pg (0x3010 + t) (0x70 + tc)))
    (0, rewake d slot s)

/-! ### Gates (R355 to R361) -/

/-- A port's gate machine. -/
def gate (s : State) (d slot : Nat) : Gate := mget (s.die d).buf.gates slot
/-- Change a gate machine. -/
def onGate (d slot : Nat) (f : Gate → Gate) (s : State) : State :=
  s.onDie d (fun x => { x with buf.gates := mmod x.buf.gates slot f })

/-- Start of entry k within the cycle: the intervals before it. -/
def entryStart (c : GateCfg) (k : Nat) : Nat := ((List.range k).map (fun j => (mget c.list j).2)).sum

/-- End of entry k: the last entry that runs holds until the cycle ends, and no entry outlasts it (R356). -/
def entryEnd (c : GateCfg) (k : Nat) : Nat := if c.len ≤ k + 1 then c.cycle else min c.cycle (entryStart c (k + 1))

/-- The entry at an offset into the cycle. -/
def entryAt (c : GateCfg) (off : Nat) : Nat :=
  ((List.range c.len).find? (fun k => decide (off < entryEnd c k))).getD (c.len - 1)

/-- The entry after k. -/
def entryNext (c : GateCfg) (k : Nat) : Nat := if k + 1 < c.len ∧ entryStart c (k + 1) < c.cycle then k + 1 else 0

/-- Gate states of an entry; an empty list holds the gate states of its configuration. -/
def entryStates (c : GateCfg) (k : Nat) : Nat := if c.len = 0 then c.states else (mget c.list k).1

/-- The gates of a port now (R355, R359). -/
def gateStates (s : State) (d slot : Nat) : Nat :=
  let g := gate s d slot
  if !s.dflag d (0x4840 + slot) 2 then 0xFF
  else if g.running then entryStates g.oper g.entry
  else s.dg d (0x4840 + slot) 4

/-- Time until gate tc closes, from entry k on, with `acc` ns so far; none when it never does. -/
def closesIn (c : GateCfg) (tc : Nat) : Nat → Nat → Nat → Option Nat
  | 0, _, _ => none
  | n + 1, k, acc => if bit (entryStates c k) tc then closesIn c tc n (entryNext c k) (acc + (entryEnd c k - entryStart c k)) else some acc

/-- The entry of a list that runs last in its cycle (R356). -/
def lastEntry (c : GateCfg) : Nat := entryAt c (c.cycle - 1)

/-- The change time of a port's pending configuration. -/
def changeTime (s : State) (d slot : Nat) : Nat := t80ns (s.dg d (0x4840 + slot) 0xB)

/-- When the cycle before a change time is extended: the start of the old cycle that does not start because it lies less than the oper
extension before the change (R359). A cycle that had started when the change was accepted is not it. -/
def holdFrom (g : Gate) (change : Nat) : Option Nat :=
  let k := (change - 1 - g.start) / g.oper.cycle
  let b := g.start + k * g.oper.cycle
  if g.running && g.pending.isSome && decide (0 < k) && decide (b < change) && decide (change - b < g.oper.ext) && decide (g.accepted < b)
  then some b else none

/-- The old cycle is being extended to the change time (R359). -/
def extended (g : Gate) (change t : Nat) : Bool := match holdFrom g change with
  | some b => decide (b ≤ t)
  | none => false

/-- The place of a time in the cycle of the running list, as if time had run continuously (R361). -/
def cyclePos (g : Gate) (t : Nat) : Nat := (((t : Int) - g.start) % (g.oper.cycle : Int)).toNat

/-- The longest open window of tc (R357); none when the gate never closes. -/
def longestWindow (c : GateCfg) (tc : Nat) : Option Nat :=
  (List.range c.len).foldl (fun b k => match b, closesIn c tc (c.len + 1) k 0 with
    | some x, some y => some (max x y)
    | _, _ => none) (some 0)

/-- Time left before gate tc closes as the running list would have it: none when it never does. -/
def plainLeft (g : Gate) (tc t : Nat) : Option Nat :=
  let off := cyclePos g t
  let k := entryAt g.oper off
  if bit (entryStates g.oper k) tc then closesIn g.oper tc (g.oper.len + 1) (entryNext g.oper k) (entryEnd g.oper k - off) else some 0

/-- Time left before gate tc next closes (R357). A cycle that will be extended, or is, holds the states of its last entry to the change
time (R359; log entry 126). -/
def timeLeft (s : State) (d slot tc : Nat) : Option Nat :=
  let g := gate s d slot
  let t := s.nsOn d
  let c := changeTime s d slot
  match holdFrom g c, plainLeft g tc t with
  | none, r => r
  | some b, r =>
    if longestWindow g.oper tc = none then none
    else if b ≤ t then some (if bit (entryStates g.oper (lastEntry g.oper)) tc then c - t else 0)
    else match r with
      | some x => some (if t + x < b then x else c - t)
      | none => none

/-- A frame's wire time fits in t ns at a rate in Gb/s. -/
def wireFits (wire rate : Nat) (t : Option Nat) : Bool := match t with
  | none => true
  | some t => decide (wire * 8 ≤ t * rate)

/-- The guard of R357 on a head frame of that many wire bytes: passes, and whether it passes as an overrun. -/
def guardPass (s : State) (d slot tc wire : Nat) : Bool × Bool :=
  let g := gate s d slot
  if !s.dflag d (0x4840 + slot) 3 || !s.dflag d (0x4840 + slot) 2 || !g.running || g.oper.len == 0 then (true, false)
  else
    let rate := modeRate (slotMode s d slot)
    if wireFits wire rate (timeLeft s d slot tc) then (true, false)
    else if wireFits wire rate (longestWindow g.oper tc) then (false, false)
    else
      let ok := mget? g.since tc == some (s.nsOn d)
      (ok, ok)

/-- Gates take new states: openings are noted, and a gate that closes during its frame without guard is counted (R357). -/
def gatesChange (d slot old : Nat) (s : State) : State :=
  let new := gateStates s d slot
  let s := onGate d slot (fun g => { g with since := (List.range 8).foldl (fun m tc =>
    if bit new tc && !bit old tc then minsert m tc (s.nsOn d) else m) g.since }) s
  match (mac s d slot).tx with
  | [] => s
  | i :: _ =>
    let tc := (s.pkt i).desc.tc.toNat
    if (mac s d slot).active && bit old tc && !bit new tc && !s.dflag d (0x4840 + slot) 3 then s.dinc d (0x4840 + slot) 0x13 1 else s

/-- A write that changes a port's gates at once: GateEnabled, or AdminGateStates while no list runs (R355, R359). -/
def gateWrite (d slot sub v : Nat) (s : State) : Nat × State :=
  let old := gateStates s d slot
  (0, gatesChange d slot old (s.dset d (0x4840 + slot) sub v))

/-- CONFIG_CHANGE_TIME (R359): the pending configuration runs from entry 0. -/
def configTake (d slot : Nat) (s : State) : State :=
  let g := gate s d slot
  match g.pending with
  | none => s
  | some c =>
    let t := changeTime s d slot
    let now := s.nsOn d
    if now < t then s
    else
      let old := gateStates s d slot
      let s := s.when (extended g t (t - 1)) (fun s => s.dinc d (0x4840 + slot) 0x15 1)
      let k := entryAt c ((now - t) % c.cycle)
      let s := onGate d slot (fun g => { g with pending := none, oper := c, start := t, running := true, entry := k }) s
      let s := ((s.dset d (0x4840 + slot) 0xA 0).dset d (0x4840 + slot) 0xE (nsT80 c.base)).dset d (0x4840 + slot) 0xF c.cycle
      gatesChange d slot old (s.dset d (0x4840 + slot) 0x10 c.len)

/-- GATE_ENTRY_END (R359, R361): the gates take the entry in force at the present Meridian time; in an extended cycle that is the last that
runs. -/
def gateStep (d slot : Nat) (s : State) : State :=
  let g := gate s d slot
  if !g.running then s
  else
    let now := s.nsOn d
    let k := if extended g (changeTime s d slot) now then lastEntry g.oper else entryAt g.oper (cyclePos g now)
    let old := gateStates s d slot
    gatesChange d slot old (onGate d slot (fun g => { g with entry := k }) s)

/-- config_change (R358, R360). -/
def configChange (d slot : Nat) (s : State) : Nat × State :=
  let r := fun n => s.dg d (0x4840 + slot) n
  let cyc := r 6
  let now := s.nsOn d
  if cyc < 1000 ∨ 1000000000 < cyc ∨ cyc < r 7 then (0x13, s)
  else
    let base := t80ns (r 5)
    let n := if now + 1000 ≤ base then 0 else ceilDiv (now + 1000 - base) cyc
    let s := s.when (gate s d slot).pending.isSome (fun s => s.dinc d (0x4840 + slot) 0x14 1)
    let c : GateCfg := { states := r 4, base := base, cycle := cyc, ext := r 7, len := r 8, list := (gate s d slot).admin }
    let s := onGate d slot (fun g => { g with pending := some c, accepted := now }) s
    let s := (s.dset d (0x4840 + slot) 0xA 1).dset d (0x4840 + slot) 0xB (nsT80 (base + n * cyc))
    (0, (s.dset d (0x4840 + slot) 0xC (b2n (decide (0 < n)))).dset d (0x4840 + slot) 0xD n)

/-- A gate list insert (R356). -/
def gateListInsert (d rec : Nat) (s : State) : Nat × State :=
  let port := bits rec 511 503
  let iv := bits rec 31 0
  if bit rec 502 ∨ port / 64 ≠ d ∨ iv = 0 ∨ 1000000000 < iv then (0x13, s)
  else (0, onGate d (port % 64) (fun g => { g with admin := mput g.admin (bits rec 501 494) (bits rec 39 32, iv) }) s)

/-! ### Eligibility and selection (R339 to R343) -/

/-- Wire length of a frame (R342). -/
def wireLen (s : State) (d slot i : Nat) : Nat := (s.pkt i).desc.length.toNat + s.dg d (0x4840 + slot) 1

/-- Bytes in a port's transmit FIFO (R386): the frames handed to it, as far as they fit. -/
def fifoUsed (s : State) (d slot : Nat) : Nat :=
  min (1024 * slotsPerPort (slotMode s d slot)) (pktBytes s (mac s d slot).tx)

/-- Free bytes of the transmit FIFO. -/
def fifoFree (s : State) (d slot : Nat) : Nat := 1024 * slotsPerPort (slotMode s d slot) - fifoUsed s d slot

/-- The head frame may start: it is whole, or egress cut-through applies (R72, R381). -/
def headReady (s : State) (d slot : Nat) (q : List Nat) : Bool :=
  match q with
  | [] => false
  | i :: r =>
    let p := s.pkt i
    p.tail != .pending || (s.dflag d (0x4010 + slot) 4 && r.isEmpty && decide (modeRate (slotMode s d slot) ≤ 200) &&
      decide (s.dg d (0x4010 + slot) 5 ≤ p.frame.length))

/-- The priority of an egress class (R385). -/
def tcPriority (s : State) (d slot tc : Nat) : Nat := s.dg d (0x4010 + slot) 0xB >>> (3 * tc) % 8

/-- A queue is eligible (R340). -/
def queueOk (s : State) (d slot tc : Nat) : Bool :=
  let q := (egq s d (slot * 8 + tc)).pkts
  match q with
  | [] => false
  | i :: _ =>
    headReady s d slot q && shaperOk s d slot (5 + tc) && bit (gateStates s d slot) tc &&
      (guardPass s d slot tc (wireLen s d slot i)).1 && !bit (s.dg d (0x4050 + slot) 4) (tcPriority s d slot tc)

/-- The queues of a group. -/
def groupQueues (s : State) (d slot g : Nat) : List Nat := (List.range 8).filter (fun tc => nodeCfg s d slot 0x70 tc == g)

/-- A group is eligible (R340). -/
def groupOk (s : State) (d slot g : Nat) : Bool := shaperOk s d slot (1 + g) && (groupQueues s d slot g).any (queueOk s d slot)

/-- A port is eligible (R340, R383). -/
def portOk (s : State) (d slot : Nat) : Bool :=
  portUp s d slot && !(mac s d slot).stopping && decide (256 ≤ fifoFree s d slot) && shaperOk s d slot 0 && !bit (s.dg d (0x4050 + slot) 4) 8 &&
    (List.range 4).any (groupOk s d slot)

/-- A node is eligible. -/
def nodeOk (s : State) (d slot n : Nat) : Bool :=
  if n = 0 then portOk s d slot else if n ≤ 4 then groupOk s d slot (n - 1) else queueOk s d slot (n - 5)

/-- The parent of a node, for its virtual times: lane group g at g, port s at 4 + s, group at 68 + 4s + g (R342). -/
def parentOf (s : State) (d slot n : Nat) : Nat :=
  if n = 0 then slot / 16 else if n ≤ 4 then 4 + slot else 68 + 4 * slot + nodeCfg s d slot 0x70 (n - 5)

/-- Tag a is ahead of tag b, modulo 2^48 (R342). -/
def tagAhead (a b : BitVec 48) : Bool :=
  let x := (a - b).toNat
  decide (0 < x) && decide (x < 2 ^ 47)

/-- A node's band. -/
def nodeBand (s : State) (d slot n : Nat) : Nat := nodeCfg s d slot 0x10 n

/-- A node that becomes eligible wakes with a tag not behind its band's virtual time (R343). -/
def refresh (d slot n : Nat) (s : State) : State :=
  let ok := nodeOk s d slot n
  let v := BitVec.ofNat 48 (mget (s.die d).buf.vtime (parentOf s d slot n * 4 + nodeBand s d slot n))
  onNode d slot n (fun x =>
    if ok && !x.awake then { x with awake := true, tag := if tagAhead v x.tag then v else x.tag } else { x with awake := ok }) s

/-- The eligible child a parent picks (R342): lowest band, lowest tag, lowest index. Children are slot and node. -/
def pickChild (s : State) (d : Nat) (l : List (Nat × Nat)) : Option (Nat × Nat) :=
  (l.filter (fun c => nodeOk s d c.1 c.2)).foldl (fun b c => match b with
    | none => some c
    | some e =>
      let bc := nodeBand s d c.1 c.2
      let be := nodeBand s d e.1 e.2
      if bc < be ∨ (bc = be ∧ tagAhead (node s d e.1 e.2).tag (node s d c.1 c.2).tag) then some c else some e) none

/-- A chosen child sets its parent's virtual time and pays for the frame (R342). -/
def payTag (d slot n wire : Nat) (s : State) : State :=
  let k := parentOf s d slot n * 4 + nodeBand s d slot n
  let tag := (node s d slot n).tag
  let s := s.onDie d (fun x => { x with buf.vtime := mput x.buf.vtime k tag.toNat })
  onNode d slot n (fun x => { x with tag := x.tag + BitVec.ofNat 48 (wire * 65536 / nodeWeight s d slot n) }) s

/-- A pause keeps a frame of a class from starting at the MAC: the port's, or its priority's (R383). -/
def macPaused (s : State) (d slot tc : Nat) : Bool :=
  bit (s.dg d (0x4050 + slot) 4) 8 || bit (s.dg d (0x4050 + slot) 4) (tcPriority s d slot tc)

/-- A requested pause frame goes out before any further frame (R384). -/
def pauseFirst (s : State) (d slot : Nat) : Bool := !(mac s d slot).reqs.isEmpty && s.dg d (0x4740 + slot) 1 != 0

/-- At a frame boundary the first frame of the FIFO begins, unless a pause frame goes first or a pause holds it (R383, R384): it takes its
stamp and the port's settings of this moment (R391, R392). -/
def macStart (d slot : Nat) (s : State) : State :=
  let m := mac s d slot
  match m.tx with
  | [] => s
  | i :: _ =>
    if m.active || m.stopping || !(portUp s d slot) || pauseFirst s d slot || macPaused s d slot (s.pkt i).desc.tc.toNat then s
    else
      let s := onMac d slot (fun m => { m with
        active := true, max := s.dg d (0x4010 + slot) 2, idOff := s.dg d (0x4010 + slot) 0x10 }) s
      s.onPkt i (fun p => { p with rxStamp := stampNs s d (s.dg d (0x4010 + slot) 0xF) })

/-- The frame enters the transmit FIFO (R386), and begins when none is before it. Its group's shaper has been charged (R344). -/
def startFrame (d slot i : Nat) (s : State) : State :=
  let s := s.onPkt i (fun p => { p with
    stage := .sending slot, charged := p.desc.length.toNat, cutThrough := p.tail == .pending, txGroup := nodeCfg s d slot 0x70 p.desc.tc.toNat })
  macStart d slot (onMac d slot (fun m => { m with tx := m.tx ++ [i] }) s)

/-- SCHED_SELECT (R339 to R346, R377): a lane group picks port, group and queue and starts the head frame; a frame known to
be longer than the port's maximum ends at P8. -/
def schedSelect (d g : Nat) (s : State) : State :=
  if !s.egressRuns d then s
  else
  let ports := ((List.range 16).map (fun k => g * 16 + k)).filter (lowestSlot s d)
  let s := s.each ports (fun p s => refresh d p 0 s)
  match pickChild s d (ports.map (fun p => (p, 0))) with
  | none => s
  | some (slot, _) =>
    let s := s.each (List.range 4) (fun k s => refresh d slot (1 + k) s)
    match pickChild s d ((List.range 4).map (fun k => (slot, 1 + k))) with
    | none => s
    | some (_, gn) =>
      let qs := groupQueues s d slot (gn - 1)
      let s := s.each qs (fun tc s => refresh d slot (5 + tc) s)
      match pickChild s d (qs.map (fun tc => (slot, 5 + tc))) with
      | none => s
      | some (_, qn) =>
        let tc := qn - 5
        match (egq s d (slot * 8 + tc)).pkts with
        | [] => s
        | i :: _ =>
          let w := wireLen s d slot i
          let s := s.when (guardPass s d slot tc w).2 (fun s => s.dinc d (0x4840 + slot) 0x12 1)
          let s := payTag d slot 0 w (payTag d slot gn w (payTag d slot qn w s))
          let s := shaperCharge d slot 0 w (shaperCharge d slot gn w (shaperCharge d slot qn w s))
          let s := onEgq d (slot * 8 + tc) (fun e => { e with pkts := e.pkts.drop 1 }) s
          let (bad, s) := bodyRead d i 0 s
          let s := s.when (bad.isSome && bad != some 0) (fun s => (s.dinc d 0x4920 0x0F 1).onPkt i (fun p => { p with perr := true }))
          let p := s.pkt i
          if bad = some 0 then dropPkt d i 0x0F s
          else if p.poison && p.tail == .good then dropPkt d i 0x14 s
          else if p.tail = .good ∧ s.dg d (0x4010 + slot) 2 < p.desc.length.toNat then dropPkt d i 0x12 s
          else startFrame d slot i s

/-! ### Meridian (R362 to R364) -/

/-- The largest offset between the copies of Meridian of the dies that share the package mode (R362). -/
def clockSpread (s : State) : Nat :=
  let l := (s.joined).map (fun d => (s.die d).core.clock)
  l.foldl max 0 - l.foldl min (l.headD 0)

/-- meridian_set and meridian_step (R364). -/
def meridianSet (t : Nat) (s : State) : Nat × State :=
  if s.adjust.isSome then (0x11, s)
  else if 10 ^ 9 ≤ t % 2 ^ 32 then (0x13, s)
  else (0, { s with adjust := some (true, ((t / 2 ^ 32 * 10 ^ 9 + t % 2 ^ 32 : Nat) : Int)) })

/-- meridian_step_ns (R364). -/
def meridianStep (v : Nat) (s : State) : Nat × State :=
  if s.adjust.isSome then (0x11, s) else (0, { s with adjust := some (false, s32 v) })

/-- The first whole µs at or after a time in ns. -/
def wholeMicro (t : Nat) : Nat := ceilDiv t 1000 * 1000

/-- The time is a whole µs, to the ns or two in which a step of the model sees it pass. -/
def atMicro (t now : Nat) : Bool := decide (t ≤ now) && decide (now < t + 2)

/-- MERIDIAN_ADJUST_APPLY (R364, R361): at a whole µs of the old time, the same for every die, the step or set takes effect; gates take the
place of the new time, and an all: snapshot whose time it passes takes effect at its first whole µs (R389). Which µs it is the manual
leaves open (log entry 127). -/
def meridianApply (s : State) : State :=
  match s.adjust with
  | none => s
  | some (set, v) =>
    if !atMicro (s.ns / 1000 * 1000) s.ns then s
    else
      let m := if set then v.toNat * 10 ^ 12 else ((s.meridian : Int) + v * 10 ^ 12).toNat
      let s := ({ s with meridian := m, adjust := none }).pinc 0x1600 9 1
      s.each s.present fun d s =>
        let now := s.nsOn d
        let s := s.onDie d (fun x => { x with
          buf.snapAt := x.buf.snapAt.map (fun t => if t < now then wholeMicro now else t)
          buf.gates := x.buf.gates.map (fun g => (g.1, { g.2 with accepted := min g.2.accepted now })) })
        s.each (mkeys (s.die d).buf.gates) (fun slot s => gateStep d slot (configTake d slot s))

/-- PPS_IN_EDGE (R363). -/
def ppsIn (s : State) : State := (s.pset 0x1600 7 s.time80).pinc 0x1600 8 1

/-- PPS_OUT_SECOND (R363): PPS_OUT rises within 2 ns of a whole second. -/
def ppsOutRise (s : State) : State :=
  if s.pg 0x1600 6 = 1 ∧ s.ns % 10 ^ 9 ≤ 2 then { s with ppsOut := some s.ns } else s

/-- PPS_OUT is high: for 100 ms after it rose (R363). -/
def ppsOutHigh (s : State) : Bool := match s.ppsOut with
  | some t => decide (t ≤ s.ns) && decide (s.ns < t + 100000000)
  | none => false

/-! ### Samplers (R365 to R367) -/

/-- The egress queues that exist, in ascending order. -/
def egressQueues (s : State) (d : Nat) : List Nat :=
  ((List.range 512).filter (fun q => lowestSlot s d (q / 8)))

/-- The queue a sampler visits next. -/
def sampleNext (s : State) (d : Nat) (isVoq : Bool) : Option Nat :=
  let pos := mget (s.die d).buf.sampPos (b2n isVoq)
  if isVoq then
    let a := s.dg d 0x4801 3
    let b := s.dg d 0x4801 4
    some (if a + 1 ≤ pos ∧ pos ≤ b then pos else a)
  else
    let qs := egressQueues s d
    match qs.find? (fun q => decide (pos ≤ q)) with
    | some q => some q
    | none => qs.head?

/-- SAMPLER_VISIT (R365, R366): a sampler reads one queue and writes its record. -/
def samplerVisit (d : Nat) (isVoq : Bool) (s : State) : State :=
  if s.dg d 0x4801 (if isVoq then 2 else 1) = 0 then s
  else match sampleNext s d isVoq with
    | none => s
    | some q =>
      let l := if isVoq then (voq s d q).pkts else (egq s d q).pkts
      let pk := if isVoq then q else 65536 + q
      let peak := mget (s.die d).buf.peaks pk
      let depth := pktBytes s l
      let s := s.onDie d (fun x => { x with
        buf.sampPos := mput x.buf.sampPos (b2n isVoq) (q + 1), buf.peaks := mput x.buf.peaks pk depth })
      if s.dflag d 0x4801 5 && l.isEmpty then s
      else
        let h := (l.head?).map s.pkt
        let soj := match h with | some p => (s.nsOn d + 2 ^ 64 - p.enq) % 2 ^ 32 | none => 0
        let age := match h with | some p => if isVoq then (s.nsOn d + 2 ^ 64 - p.desc.ingressTs.toNat) % 2 ^ 20 else 0 | none => 0
        let valid := isVoq && h.isSome && decide (soj < 1048576)
        let slot := q / 8
        let tc := q % 8
        let r := (if isVoq then 2 else 1) <<< 248 ||| d <<< 245 ||| q <<< 224 ||| ceilDiv depth 64 <<< 192 ||| l.length <<< 160 |||
          soj <<< 128 ||| age <<< 108 ||| b2n valid <<< 107 |||
          (if isVoq then 0 else b2n (bit (gateStates s d slot) tc) <<< 106 |||
            b2n (bit (s.dg d (0x4050 + slot) 4) (tcPriority s d slot tc)) <<< 105 ||| b2n (shaperOk s d slot (5 + tc)) <<< 104) |||
          ceilDiv peak 64 <<< 64 ||| s.nsOn d
        recordPost d 22 (BitVec.ofNat 256 r) s

/-- SCHED_SELECT of one lane group. -/
def execSchedSelect (d : DieId) (g : Fin 4) (s : State) : Host.Outcome State Fault Refusal := onLive d (schedSelect d g) s
/-- A shaper's credit has become positive: its node may be eligible again (R346). -/
def creditPositive (d slot n : Nat) (s : State) : State :=
  if shaperRate s d slot n ≠ 0 ∧ 0 < creditNow s d slot n then refresh d slot n (settle d slot n s) else s

/-- SHAPER_CREDIT_POSITIVE (R340, R343, R346): a node is looked at again with its credit brought up to date. -/
def execShaperCreditPositive (d : DieId) (slot : Slot) (n : Fin 13) (s : State) : Host.Outcome State Fault Refusal :=
  onLive d (creditPositive d slot n) s
/-- CONFIG_CHANGE_TIME of one port. -/
def execConfigChangeTime (d : DieId) (slot : Slot) (s : State) : Host.Outcome State Fault Refusal := onLive d (configTake d slot) s
/-- GATE_ENTRY_END of one port. -/
def execGateEntryEnd (d : DieId) (slot : Slot) (s : State) : Host.Outcome State Fault Refusal := onLive d (gateStep d slot) s
/-- MERIDIAN_ADJUST_APPLY. -/
def execMeridianAdjustApply (s : State) : Host.Outcome State Fault Refusal := .next (meridianApply s)
/-- PPS_IN_EDGE. -/
def execPpsInEdge (s : State) : Host.Outcome State Fault Refusal := .next (ppsIn s)
/-- PPS_OUT_SECOND. -/
def execPpsOutSecond (s : State) : Host.Outcome State Fault Refusal := .next (ppsOutRise s)
/-- SAMPLER_VISIT of the egress or the VOQ sampler of one die. -/
def execSamplerVisit (d : DieId) (isVoq : Bool) (s : State) : Host.Outcome State Fault Refusal := onLive d (samplerVisit d isVoq) s

end Sys2Proof.Machine
end

