-- ==== Sys2Proof/Machine/Ports.lean ====
section
/-! DEFINITION. Network ports: lane group modes, enabling, link state, the ends of frames, PAUSE and PFC, snapshots
(Network Ports; R512 of Operating Modes, Bring-up and Power Domains). -/

namespace Sys2Proof.Machine

/-! ### Lane groups and link state (R370 to R376, R512) -/

/-- Link state of a port (Table 12.6). -/
def linkSt (s : State) (d slot : Nat) : Nat := s.dg d (0x4050 + slot) 1

/-- Slots of a lane group. -/
def groupSlots (g : Nat) : List Nat := (List.range 16).map (fun k => g * 16 + k)

/-- A lane group mode write (R373): refused unless every port of the group is disabled. Entries of the slots that become
lowest slots take their defaults. -/
def laneModeWrite (d g m : Nat) (s : State) : Nat × State :=
  if (groupSlots g).any (fun k => lowestSlot s d k && (s.dg d (0x4010 + k) 1 != 0 || linkSt s d k != 0)) then (0x11, s)
  else
    let was := (groupSlots g).filter (lowestSlot s d)
    let s := s.dset d 0x4000 (g + 1) m
    let now := ((groupSlots g).filter (lowestSlot s d)).filter (fun k => !was.contains k)
    let s := s.each now fun k s => s.onDie d (fun x => { x with
      regs := x.regs.filter (fun e => !([0x4740 + k, 0x4840 + k, 0x4880 + k].contains (e.1 / 256)))
      buf.gates := mdel x.buf.gates k
      buf.nodes := (List.range 13).foldl (fun m n => mdel m (nodeKey k n)) x.buf.nodes })
    (0, s.each (groupSlots g) (fun k s => s.dset d (0x4050 + k) 2 (if lowestSlot s d k then modeRate m else 0)))

/-- The link state changes to or from 3 (R375): counted, and a Notice. -/
def linkChange (d slot st : Nat) (s : State) : State :=
  let old := linkSt s d slot
  let s := s.dset d (0x4050 + slot) 1 st
  if (old = 3) = (st = 3) then s else (s.dinc d (0x4050 + slot) 3 1).report d 0x0D slot 1 0x501 0

/-- A port leaves state 3 (R335, R375, R376): the frame coming in is truncated, the frame being transmitted is aborted, those behind it
in the FIFO end at P8, and the flush starts. A port that was completing its last frame has stopped. -/
def portLeave (d slot st : Nat) (s : State) : State :=
  let s := linkChange d slot st s
  let in_ := mget (s.die d).eng.rx slot
  let s := truncateRx d slot s
  let s := if in_ = 0 then s else flushCut d (in_ - 1) s
  portFlush d slot (onMac d slot (fun m => { m with stopping := false }) (abortTx d slot s))

/-- A port that is disabled stops (R376, Table 17.6): at once, or when the frame it is transmitting has ended. The state is 6, or 7 when an
enable is pending. -/
def portStop (d slot : Nat) (s : State) : State := portLeave d slot (if linkSt s d slot = 7 then 7 else 6) s

/-- The training of a port has ended in a state; a port disabled meanwhile stops (R512). -/
def trained (d slot st : Nat) (s : State) : State :=
  if (mac s d slot).pendDown then
    let s := onMac d slot (fun m => { m with pendDown := false }) s
    if st = 3 then portStop d slot (linkChange d slot 3 s) else s.dset d (0x4050 + slot) 1 (if (mac s d slot).flushing then 6 else 0)
  else if st = 3 then linkChange d slot 3 s
  else s.dset d (0x4050 + slot) 1 st

/-- A port_enable write (R376, R512). A port enabled where the mode keeps every port down waits in state 1 (R499); a disable of a port
that trains waits for the end of the training. -/
def portEnable (d slot v : Nat) (s : State) : Nat × State :=
  let st := linkSt s d slot
  let stopping := (mac s d slot).stopping
  if v = 1 then
    if st = 2 ∧ (mac s d slot).pendDown then (0, onMac d slot (fun m => { m with pendDown := false }) (s.dset d (0x4010 + slot) 1 1))
    else if st = 6 ∨ (st = 3 ∧ stopping) then (0, linkChange d slot 7 s)
    else if st = 7 then (0, s)
    else if s.dg d (0x4010 + slot) 1 = 1 ∨ !lowestSlot s d slot then (0, s.dset d (0x4010 + slot) 1 1)
    else (0, (s.dset d (0x4010 + slot) 1 1).dset d (0x4050 + slot) 1 (if s.netMode d then 2 else 1))
  else
    let s := s.dset d (0x4010 + slot) 1 0
    if st = 0 then (0, s)
    else if st = 7 then (0, onMac d slot (fun m => { m with pendUp := false }) (s.dset d (0x4050 + slot) 1 6))
    else if st = 6 then (0, s)
    else if st = 3 then
      (0, if (mac s d slot).active then onMac d slot (fun m => { m with stopping := true }) s else portStop d slot s)
    else if st = 2 then (0, onMac d slot (fun m => { m with pendDown := true }) s)
    else if (mac s d slot).flushing then (0, s.dset d (0x4050 + slot) 1 6)
    else (0, s.dset d (0x4050 + slot) 1 0)

/-- AUTONEG_ATTEMPT (R374): an attempt without the technology leaves the port training; every attempt is counted. -/
def autonegAttempt (d slot : Nat) (s : State) : State :=
  if s.dflag d (0x4010 + slot) 0xC && linkSt s d slot == 2 && decide (slotMode s d slot ≠ 5) then s.dinc d (0x4050 + slot) 3 1 else s

/-- LINK_LOSS (R375): alignment, lock or a local fault has persisted for 1 µs. A port that waits for its flush to come up goes down again;
one that is disabled loses the frame it was completing (R376). -/
def linkLoss (d slot : Nat) (fault : Bool) (s : State) : State :=
  let st := linkSt s d slot
  let to_ := if fault then 4 else 1
  let m := mac s d slot
  if m.stopping then portStop d slot s
  else if st = 3 then portLeave d slot to_ s
  else if [1, 2, 4, 5].contains st then trained d slot to_ s
  else if st = 7 ∧ m.pendUp then (onMac d slot (fun m => { m with pendUp := false }) s).dset d (0x4050 + slot) 1 to_
  else s

/-- REMOTE_FAULT (R375). -/
def remoteFault (d slot : Nat) (s : State) : State :=
  let st := linkSt s d slot
  let m := mac s d slot
  if m.stopping then portStop d slot s
  else if st = 3 then portLeave d slot 5 s
  else if [1, 2, 4].contains st then trained d slot 5 s
  else if st = 7 ∧ m.pendUp then (onMac d slot (fun m => { m with pendUp := false }) s).dset d (0x4050 + slot) 1 5
  else s

/-- LINK_UP (R375, R336): after the hold time the port is up, once its flush is done; not where the mode keeps it down (R499). In mode 5 the symbol phase found is kept
(R372). -/
def linkUp (d slot : Nat) (odd : Bool) (s : State) : State :=
  if !([1, 2, 4, 5].contains (linkSt s d slot)) || !lowestSlot s d slot || !s.netMode d then s
  else
  let s := s.dset d (0x4050 + slot) 7 (b2n (odd && slotMode s d slot == 5))
  if (mac s d slot).pendDown then trained d slot 3 s
  else if (mac s d slot).flushing then onMac d slot (fun m => { m with pendUp := true }) (s.dset d (0x4050 + slot) 1 7)
  else trained d slot 3 s

/-! ### Ends of frames (R377 to R381, R344, R391) -/

/-- A frame's bytes ended with a stomped FCS: the complement of the CRC over the bytes sent before it (R379). -/
def stomp (b : Bytes) : Bytes := b ++ (fcsOf b).map (fun x => ~~~x)

/-- TX_OVERSIZE_CUT (R378): a frame that started before its tail has reached the maximum + 1 bytes that the port had when the frame
began (R392). -/
def txOversize (d slot : Nat) (s : State) : State :=
  let m := mac s d slot
  match m.tx with
  | [] => s
  | i :: _ =>
    if !m.active ∨ m.cutAt ≠ 0 ∨ !(s.pkt i).cutThrough ∨ (s.pkt i).frame.length ≤ m.max then s
    else
      let s := onMac d slot (fun m => { m with cutAt := m.max + 1, cutDone := true }) s
      (s.dinc d 0x4920 0x12 1).dinc d (0x4940 + slot) 0x14 1

/-- TX_UNDERRUN (R381): the next bytes of a frame whose tail has not come are missing. -/
def txUnderrun (d slot : Nat) (s : State) : State :=
  let m := mac s d slot
  match m.tx with
  | [] => s
  | i :: _ =>
    if !m.active ∨ m.cutAt ≠ 0 ∨ (s.pkt i).tail ≠ .pending then s
    else
      let s := onMac d slot (fun m => { m with cutAt := (s.pkt i).frame.length + 4 }) s
      (s.dinc d (0x4940 + slot) 0x15 1).dinc d (0x4940 + slot) 0x14 1

/-- The transmit timestamp record of Table 12.4. -/
def tsRecord (idOff d slot : Nat) (p : Packet) (out : Bytes) (stomped : Bool) : BitVec 256 :=
  let id := wb (out ++ List.replicate 128 0) idOff 4
  BitVec.ofNat 256 (1 <<< 248 ||| (d * 64 + slot) <<< 239 ||| p.desc.dispDie.toNat <<< 236 ||| b2n stomped <<< 235 |||
    p.desc.seq.toNat <<< 208 ||| p.desc.flowBucket.toNat <<< 192 ||| id <<< 80 ||| nsT80 p.rxStamp)

/-- The bytes of the frame in transmission on the wire (R378 to R381): whole; or ended with a stomped FCS, at the place of its own when it
is bad, after maximum − 3 bytes, or after the bytes that had come. -/
def wireBytes (m : Mac) (p : Packet) : Bytes :=
  if m.cutAt ≠ 0 then stomp (p.frame.take (m.cutAt - 4))
  else if p.poison || p.perr then stomp (p.frame.take (p.desc.length.toNat - 4))
  else p.frame

/-- FRAME_TX_COMPLETE (R344, R376, R380, R383, R384, R387, R391): the last byte of the frame in transmission leaves the MAC. The next frame
begins, or the port stops. -/
def txComplete (d slot : Nat) (s : State) : State :=
  let m := mac s d slot
  match m.tx with
  | [] => s
  | i :: rest =>
    let p := s.pkt i
    if !m.active ∨ (m.cutAt = 0 ∧ p.tail = .pending) then s
    else
      let (lost, s) := if p.cutThrough && !p.perr then bodyRead d i 1 s else (none, s)
      let s := s.when lost.isSome (fun s => (s.dinc d 0x4920 0x0F 1).onPkt i (fun p => { p with perr := true }))
      let p := s.pkt i
      let n := if m.cutAt ≠ 0 then m.cutAt else p.desc.length.toNat
      let bad := m.cutAt == 0 && (p.poison || p.perr)
      let tc := p.desc.tc.toNat
      let g := p.txGroup
      let out := wireBytes m p
      let s := (s.dinc d (0x4940 + slot) 0x12 1).dinc d (0x4940 + slot) 0x13 n
      let diff : Int := (n : Int) - p.charged
      let s := if diff = 0 then s
        else shaperCharge d slot 0 diff (shaperCharge d slot (1 + g) diff (shaperCharge d slot (5 + tc) diff s))
      let s := s.when (p.desc.tsReq == 1) (recordPost d 23 (tsRecord m.idOff d slot p out (m.cutAt != 0 || bad)))
      let s := onMac d slot (fun m => { m with tx := rest, cutAt := 0, cutDone := false, active := false, out := out }) s
      let s := s.when bad (fun s => s.dinc d (0x4940 + slot) 0x14 1)
      let s := if bad && !p.perr then dropPkt d i 0x14 s else finishPkt i s
      if m.stopping then portStop d slot s else macStart d slot s

/-! ### PAUSE and PFC (R382 to R385) -/

/-- A pause timer is loaded or cleared (R383): class 0 to 7, or 8 for PAUSE; time in quanta of 512 bit times. -/
def loadTimer (d slot cls q : Nat) (s : State) : State :=
  let rate := modeRate (slotMode s d slot)
  let s := onMac d slot (fun m => { m with timers := mput m.timers cls (if q = 0 then 0 else s.now * 1000 + q * 512 * 1000 / rate) }) s
  s.dset d (0x4050 + slot) 4 (setBit (s.dg d (0x4050 + slot) 4) cls (decide (q ≠ 0)))

/-- PAUSE_FRAME_RECEIVE (R382, R383): a MAC control frame of opcode 0x0001 or 0x0101 is recognised and consumed. `cw` counts the FEC
codewords under it (Table 12.8). -/
def pauseReceive (d slot : Nat) (f : Bytes) (cw : Cw) (s : State) : State :=
  let op := wb f 14 2
  if linkSt s d slot ≠ 3 ∨ wb f 12 2 ≠ 0x8808 ∨ (op ≠ 0x0001 ∧ op ≠ 0x0101) then s
  else
    let (t, stomp) := judgeTail f (s.dg d (0x4010 + slot) 2)
    let s := (s.dinc d (0x4940 + slot) 0x19 cw.corrected).dinc d (0x4940 + slot) 0x1A cw.lost
    let s := macRxCount d slot f.length t stomp s
    if t ≠ .good then s
    else
      let fc := s.dg d (0x4740 + slot) 1
      if fc = 1 ∧ op = 0x0001 then macStart d slot (loadTimer d slot 8 (wb f 16 2) (s.dinc d (0x4940 + slot) 8 1))
      else if fc = 2 ∧ op = 0x0101 then
        let en := wb f 16 2
        macStart d slot <| (s.dinc d (0x4940 + slot) 9 1).each (List.range 8) fun p s =>
          if bit en p then loadTimer d slot p (wb f (18 + 2 * p) 2) (s.dinc d (0x4940 + slot) (0x20 + p) 1) else s
      else s.dinc d (0x4940 + slot) 0xA 1

/-- PAUSE_TIMER_EXPIRE (R383). -/
def pauseExpire (d slot cls : Nat) (s : State) : State :=
  let t := mget (mac s d slot).timers cls
  if t = 0 ∨ s.now * 1000 < t then s else macStart d slot (loadTimer d slot cls 0 s)

/-- Send a pause frame (R384): the priorities above xoff, and those named as fallen, or the port. -/
def pauseSend (d slot : Nat) (s : State) : State :=
  let m := mac s d slot
  let up := s.dg d (0x4050 + slot) 5
  let q := s.dg d (0x4010 + slot) 7
  let sa := toBytes 6 (s.dg d (0x4010 + slot) 6)
  let dst : Bytes := toBytes 6 0x0180C2000001
  let s := onMac d slot (fun m => { m with reqs := [], ctlAt := s.now }) s
  if s.dg d (0x4740 + slot) 1 = 2 then
    let en := (List.range 8).filter (fun p => bit up p || m.reqs.any (fun r => r.1 == p))
    let body := dst ++ sa ++ toBytes 2 0x8808 ++ toBytes 2 0x0101 ++ toBytes 2 ((en.map (fun p => 2 ^ p)).sum) ++
      ((List.range 8).map (fun p => toBytes 2 (if bit up p then q else 0))).flatten
    let body := body ++ List.replicate (60 - body.length) 0
    let s := onMac d slot (fun m => { m with ctl := body ++ fcsOf body }) (s.dinc d (0x4940 + slot) 0x18 1)
    s.each ((List.range 8).filter (bit up)) (fun p s => s.dinc d (0x4940 + slot) (0x28 + p) 1)
  else
    let body := dst ++ sa ++ toBytes 2 0x8808 ++ toBytes 2 0x0001 ++ toBytes 2 (if bit up 8 then q else 0)
    let body := body ++ List.replicate (60 - body.length) 0
    onMac d slot (fun m => { m with ctl := body ++ fcsOf body }) (s.dinc d (0x4940 + slot) 0x17 1)

/-- PAUSE_FRAME_SEND (R384): a requested frame goes out at a frame boundary, and a data frame may begin behind it. -/
def pauseFrameSend (d slot : Nat) (s : State) : State :=
  if linkSt s d slot ≠ 3 ∨ (mac s d slot).reqs.isEmpty ∨ (mac s d slot).active then s
  else macStart d slot (if s.dg d (0x4740 + slot) 1 = 0 then onMac d slot (fun m => { m with reqs := [] }) s else pauseSend d slot s)

/-- The classes above xoff that the port's flow control tells its peer of (R322, R384): the priorities, or 8 for the port. -/
def aboveXoff (s : State) (d slot : Nat) : List Nat :=
  (match s.dg d (0x4740 + slot) 1 with | 1 => [8] | 2 => List.range 8 | _ => []).filter (bit (s.dg d (0x4050 + slot) 5))

/-- PAUSE_REFRESH (R384): pause_refresh quanta have passed and the occupancy stays above xoff; the frame goes out again at the next frame
boundary. -/
def pauseRefresh (d slot : Nat) (s : State) : State :=
  let rate := modeRate (slotMode s d slot)
  let m := mac s d slot
  let up := aboveXoff s d slot
  if linkSt s d slot ≠ 3 ∨ up = [] ∨ (s.now - m.ctlAt) * rate < s.dg d (0x4010 + slot) 8 * 512 then s
  else if m.active then onMac d slot (fun m => { m with reqs := if m.reqs.isEmpty then up.map (fun c => (c, true)) else m.reqs }) s
  else macStart d slot (pauseSend d slot s)

/-! ### Snapshots (R388, R389) -/

/-- The live MAC counters of a die, by key. -/
def macCounters (s : State) (d : Nat) : Map Nat :=
  (s.die d).regs.filter (fun e => decide (0x4940 * 256 ≤ e.1) && decide (e.1 < 0x4980 * 256))

/-- Freeze every MAC counter of a die (R388). -/
def freeze (d : Nat) (s : State) : State :=
  let f := macCounters s d
  (s.onDie d (fun x => { x with buf.frozen := f, buf.frozenAt := s.time80On d })).dset d 0x4900 4 1

/-- A snapshot write (R388). -/
def snapshotWrite (d : Nat) (s : State) : Nat × State := if s.dg d 0x4900 4 = 1 then (0x11, s) else (0, freeze d s)

/-- SNAPSHOT_COPY_DONE (R388): the frozen values stand in the snapshot bank, and the time of the freeze, the generation and
state 2 are recorded. -/
def snapshotDone (d : Nat) (s : State) : State :=
  if s.dg d 0x4900 4 ≠ 1 then s
  else
    let f := (s.die d).buf.frozen
    let t := (s.die d).buf.frozenAt
    let s := s.onDie d (fun x => { x with
      regs := f.foldl (fun m e => minsert m (e.1 + 64 * 256) e.2)
        (x.regs.filter (fun e => decide (e.1 < 0x4980 * 256) || decide (0x49C0 * 256 ≤ e.1)))
      buf.frozen := [], buf.frozenAt := 0 })
    ((s.dset d 0x4900 2 t).dset d 0x4900 4 2).dset d 0x4900 3 ((s.dg d 0x4900 3 + 1) % 2 ^ 32)

/-- A die takes part in an all: snapshot that the Summit accepted at a time (R389): it takes effect at the first whole µs at
least 5 µs later. One that comes during a copy is refused (R388). -/
def snapshotAwait (d t : Nat) (s : State) : Nat × State :=
  if s.dg d 0x4900 4 = 1 then (0x11, s)
  else (0, s.onDie d (fun x => { x with buf.snapAt := x.buf.snapAt ++ [wholeMicro (t + 5000)] }))

/-- SNAPSHOT_ALL_APPLY (R389): the time of the oldest all: snapshot awaited has come. One whose time comes while a copy runs is not
taken (log entry 108). -/
def snapshotApply (d : Nat) (s : State) : State :=
  match (s.die d).buf.snapAt with
  | [] => s
  | t :: r =>
    if !atMicro t (s.nsOn d) then s
    else
      let s := s.onDie d (fun x => { x with buf.snapAt := r })
      if s.dg d 0x4900 4 = 1 then s else freeze d s

/-- AUTONEG_ATTEMPT of one port. -/
def execAutonegAttempt (d : DieId) (slot : Slot) (s : State) : Host.Outcome State Fault Refusal := onLive d (autonegAttempt d slot) s
/-- LINK_LOSS of one port. -/
def execLinkLoss (d : DieId) (slot : Slot) (fault : Bool) (s : State) : Host.Outcome State Fault Refusal := onLive d (linkLoss d slot fault) s
/-- REMOTE_FAULT of one port. -/
def execRemoteFault (d : DieId) (slot : Slot) (s : State) : Host.Outcome State Fault Refusal := onLive d (remoteFault d slot) s
/-- LINK_UP of one port, with the symbol phase its lane locked on (R372). -/
def execLinkUp (d : DieId) (slot : Slot) (odd : Bool) (s : State) : Host.Outcome State Fault Refusal := onLive d (linkUp d slot odd) s
/-- TX_OVERSIZE_CUT of one port. -/
def execTxOversizeCut (d : DieId) (slot : Slot) (s : State) : Host.Outcome State Fault Refusal := onLive d (txOversize d slot) s
/-- TX_UNDERRUN of one port. -/
def execTxUnderrun (d : DieId) (slot : Slot) (s : State) : Host.Outcome State Fault Refusal := onLive d (txUnderrun d slot) s
/-- FRAME_TX_COMPLETE of one port. -/
def execFrameTxComplete (d : DieId) (slot : Slot) (s : State) : Host.Outcome State Fault Refusal := onLive d (txComplete d slot) s
/-- PAUSE_FRAME_RECEIVE of one port. -/
def execPauseFrameReceive (d : DieId) (slot : Slot) (f : Bytes) (cw : Cw) (s : State) : Host.Outcome State Fault Refusal :=
  onLive d (pauseReceive d slot f cw) s
/-- PAUSE_TIMER_EXPIRE of one class of one port; 8 for PAUSE. -/
def execPauseTimerExpire (d : DieId) (slot : Slot) (cls : Fin 9) (s : State) : Host.Outcome State Fault Refusal :=
  onLive d (pauseExpire d slot cls) s
/-- PAUSE_FRAME_SEND of one port. -/
def execPauseFrameSend (d : DieId) (slot : Slot) (s : State) : Host.Outcome State Fault Refusal := onLive d (pauseFrameSend d slot) s
/-- PAUSE_REFRESH of one port. -/
def execPauseRefresh (d : DieId) (slot : Slot) (s : State) : Host.Outcome State Fault Refusal := onLive d (pauseRefresh d slot) s
/-- SNAPSHOT_COPY_DONE of one die. -/
def execSnapshotCopyDone (d : DieId) (s : State) : Host.Outcome State Fault Refusal := onLive d (snapshotDone d) s
/-- SNAPSHOT_ALL_APPLY of one die. -/
def execSnapshotAllApply (d : DieId) (s : State) : Host.Outcome State Fault Refusal := onLive d (snapshotApply d) s

end Sys2Proof.Machine
end

