-- ==== Sys2Proof/Machine/Tables.lean ====
section
/-! DEFINITION. Hashed tables: buckets, cuckoo placement, shadows, learning, ageing, flushes, scrubbing and the exact
searches (Exact Tables, Learning and Ageing). A command that writes several buckets is one step (log entry 18). -/

namespace Sys2Proof.Machine

/-! ### Buckets -/

/-- A hashed table of a die. -/
def table (s : State) (d code : Nat) : HTable := mget (s.die d).look.tabs code

/-- A bucket as it is stored. -/
def rawBucket (s : State) (d code b : Nat) : Bucket := mget (table s d code).buckets b

/-- A bucket as a reader finds it: a fenced bucket of an exact table reads as empty, one of a hot table or of the stem
map as fenced, `none` (R531). -/
def bucketAt (s : State) (d code b : Nat) : Option Bucket :=
  if !isDeep code then
    if bucketFenced s d code b then (if code < 0x100 then some {} else none) else some (rawBucket s d code b)
  else some (rawBucket s d code b)

/-- A bucket as a shadow holds it: hit, aged and age_ts as 0 (R251). -/
def plainBucket (b : Bucket) : Bucket :=
  { b with slots := b.slots.map (fun x => (x.1, { x.2 with hit := false, aged := false, ageTs := 0 })) }

/-- A table is a replica on this part (Table 1.4, R219). -/
def replicated (s : State) (code : Nat) : Bool := !((code == 0x10 || code == 0x12) && s.part == .d9080)

/-- The die whose expander holds the shadow of a table of die d (R251). -/
def shadowDie (s : State) (d code : Nat) : Nat := if replicated s code then s.pg 0x2221 1 else d

/-! ### The shadow region (R251, R253, R301, R308, R448) -/

/-- The table codes of a shadow entry, with their buckets (R253). -/
def shadowCodes (s : State) (sub : Nat) : List Nat :=
  match sub with
  | 1 => (hotOrder.map (fun x => hotCode x.1 x.2)).filter (fun c => tabBuckets s c != 0)
  | 4 => [stemCode]
  | 0x10 => [0x10] | 0x11 => [0x11] | 0x12 => [0x12]
  | _ => []

/-- The bytes of a table that has a shadow entry. -/
def shadowBytes (s : State) (sub : Nat) : Nat :=
  match sub with
  | 1 => hotBytes s
  | 2 => 16777216 | 3 => 16777216 | 4 => 16777216 | 5 => 524288
  | 0x10 => 16777216 | 0x11 => 16777216 | 0x12 => 8388608
  | _ => 0

/-- The subs of `2220`. -/
def shadowSubs : List Nat := [1, 2, 3, 4, 5, 0x10, 0x11, 0x12]

/-- The offset of a shadow in its region (R253): enabled shadows in ascending sub, each on a 2 MiB boundary. -/
def shadowOffset (s : State) (sub : Nat) : Nat :=
  ((shadowSubs.filter (fun k => decide (k < sub) && s.pg 0x2220 k != 0)).map (fun k =>
    ceilDiv (shadowBytes s k) 2097152 * 2097152)).sum

/-- The bytes of one item of an index table. -/
def itemBytes (sub : Nat) : Nat := match sub with | 2 => 16 | 3 => 4 | _ => 64

/-- Where a shadow write goes in region 3: the byte offset, and the 64-byte lines it covers whole. -/
def shadowPlace (s : State) (w : ShWrite) : Nat × Nat :=
  if w.code = 0 then (shadowOffset s w.sub + w.no * itemBytes w.sub, itemBytes w.sub / 64)
  else (shadowOffset s w.sub + (if w.sub = 1 then tabOffset s w.code else 0) + w.no * bucketBytes w.code, bucketBytes w.code / 64)

/-- Write the shadow itself. -/
def shadowSet (d : Nat) (w : ShWrite) (s : State) : State :=
  s.onDie d (fun x =>
    if w.code = 0 then { x with look.shadowIdx := mmod x.look.shadowIdx w.sub (fun m => minsert m w.no w.val) }
    else { x with look.shadow := mmod x.look.shadow w.sub (fun m =>
      mmod m w.code (fun t => { t with buckets := mput t.buckets w.no w.v })) })

/-- A write of the shadow region through the map: it waits while the port is down or its page migrates (R308, R448); a fault
of the map ends it (R301); one that covers whole lines takes them off the poison list (R304). -/
def shadowWrite (d : Nat) (w : ShWrite) (s : State) : State :=
  let (o, n) := shadowPlace s w
  let p := o / 2 ^ 21
  if s.dg d 0x4401 1 = 4 ∨ (p < regionPages s d 3 ∧ (mapEntry s d (pageNo 3 p)).state = 2) then
    s.onDie d (fun x => { x with look.kept := x.look.kept ++ [w] })
  else
    let s := s.each (List.range n) (fun i s => if accessCode s d 3 p (o % 2 ^ 21) = 3 then cureLine d (dva d 3 p (o % 2 ^ 21 / 64 * 64 + 64 * i)) s else s)
    let (c, s) := access d 3 p (o % 2 ^ 21) s
    if c ≠ 0 then s
    else
      let s := s.each (List.range n) (fun i s => cureLine d (dva d 3 p (o % 2 ^ 21 / 64 * 64 + 64 * i)) s)
      shadowSet d w (s.dinc d 0x4401 0xC (max n 1))

/-- Shadow writes that waited are made again in their order, as far as they can be. -/
def keptAgain (d : Nat) (s : State) : State :=
  let l := (s.die d).look.kept
  s.onDie d (fun x => { x with look.kept := [] }) |>.each l (fun w s => shadowWrite d w s)

/-- A bucket change in the shadow of its table: the home's broadcast writes for a replica, every write otherwise
(R251). A copy that is not complete takes the change as well. -/
def shadowPut (d code b : Nat) (all : Bool) (v : Bucket) (s : State) : State :=
  let sub := shadowSub code
  if s.pg 0x2220 sub = 0 ∨ 0x2000 ≤ code ∧ code ≠ stemCode then s
  else if shadowDie s d code ≠ d ∨ (replicated s code && !all) then s
  else shadowWrite d { sub := sub, code := code, no := b, v := plainBucket v } s

/-! ### Bucket writes -/

/-- A deep bucket is written over CXL (R229): translated, counted, and its lines leave the poison list (R290, R304). -/
def deepWritten (h code b : Nat) (s : State) : State :=
  let o := bucketOffset s code b
  let n := famBytes (codeFam code) / 64
  let s := (translate h (pageNo 0 (o / 2 ^ 21)) s).dinc h 0x4401 0xC n
  s.each (List.range n) (fun i s => cureLine h (dva h 0 (o / 2 ^ 21) (o % 2 ^ 21 + 64 * i)) s)

/-- Requester q writes a bucket as one write at its bank, which grants it: what the bucket held before stays with the write's
number, for searches that overlap it (R225, R230). -/
def storeBucket (q d code b : Nat) (v : Bucket) (s : State) : State :=
  let was := rawBucket s d code b
  let banks := if isDeep code then [] else bucketBanks s code b
  let ptr := mget (s.die d).look.bankPtr (servedBy s d (banks.headD 0))
  (bankWrite d q banks s).onDie d (fun x => { x with
    look.tabs := mmod x.look.tabs code (fun t => { t with buckets := mput t.buckets b v })
    look.trail := ({ no := x.look.writes, req := q, ptr := ptr, code := code, bucket := b, was := was } :: x.look.trail).take 64
    look.writes := x.look.writes + 1 })

/-- The shadow of a bucket of a die's table, where this die keeps one. -/
def shadowBucket? (s : State) (d code b : Nat) : Option Bucket :=
  let sub := shadowSub code
  if isDeep code ∨ s.pg 0x2220 sub = 0 ∨ shadowDie s d code ≠ d then none
  else some (mget (mget (mget (s.die d).look.shadow sub) code).buckets b)

/-- A write to a bucket in a fenced bank is discarded (R531). Of the FIB's tables the shadow takes the change, so that the table
as it is rebuilt from it is right (R251, R532; log entry 123). -/
def fencedWrite (d code b : Nat) (all : Bool) (f : Bucket → Bucket) (s : State) : State :=
  match shadowBucket? s d code b with
  | some v => if code < 0x100 then s else shadowPut d code b all (f v) s
  | none => s

/-- Requester q writes a bucket, and its shadow. `all`: the write is a broadcast. -/
def onBucketBy (q d code b : Nat) (all : Bool) (f : Bucket → Bucket) (s : State) : State :=
  if !isDeep code ∧ bucketFenced s d code b then fencedWrite d code b all f s
  else
    let v := f (rawBucket s d code b)
    let s := if isDeep code then deepWritten d code b s else s
    shadowPut d code b all v (storeBucket q d code b v s)

/-- The table engine writes a bucket (requester 4 of R225). -/
def onBucket (d code b : Nat) (all : Bool) (f : Bucket → Bucket) (s : State) : State := onBucketBy 4 d code b all f s

/-- Change a slot in use of a bucket; a slot stays in use whatever it holds. -/
def setSlot (i : Nat) (f : TEntry → TEntry) (v : Bucket) : Bucket :=
  match mget? v.slots i with
  | some e => { v with slots := minsert v.slots i (f e) }
  | none => v

/-- The lowest free slot of a bucket. -/
def freeSlot (k : Nat) (b : Bucket) : Option Nat := (List.range k).find? (fun i => (mget? b.slots i).isNone)

/-- The slot of a bucket that holds a key. -/
def slotOf (b : Bucket) (key : Nat) : Option (Nat × TEntry) := b.slots.find? (fun x => x.2.key == key)

/-- Where a table holds a key: bucket, slot and entry; the first choice is looked at first. -/
def tabFind (s : State) (d code key : Nat) : Option (Nat × Nat × TEntry) :=
  if tabBuckets s code = 0 then none
  else
    let (ba, bb) := choices s code key
    [ba, bb].findSome? (fun b => ((bucketAt s d code b).bind (fun v => slotOf v key)).map (fun x => (b, x.1, x.2)))

/-- Requester q reads a bucket of a table in SRAM: its banks grant the read (R23, R225). A fenced bank is not read. -/
def readGrant (q d code b : Nat) (s : State) : State :=
  if isDeep code || bucketFenced s d code b then s else bankGrant d q (bucketBanks s code b) (bucketParity d code b s)

/-- The table engine reads both bucket choices of a key (R225, R226). -/
def engReads (d code key : Nat) (s : State) : State :=
  if tabBuckets s code = 0 then s
  else
    let (ba, bb) := choices s code key
    readGrant 4 d code bb (readGrant 4 d code ba s)

/-- A key of the FIB's tables in a fenced bucket is gone from that bucket's shadow, since the table no longer finds it there and
what happens to it happens in its other bucket or nowhere (R179, R202, R251). -/
def shadowForget (d code key : Nat) (all : Bool) (s : State) : State :=
  if isDeep code ∨ code < 0x100 ∨ tabBuckets s code = 0 then s
  else
    let (ba, bb) := choices s code key
    s.each ([ba, bb].filter (bucketFenced s d code)) (fun b s =>
      match (shadowBucket? s d code b).bind (fun v => (slotOf v key).map (fun x => (v, x.1))) with
      | some (v, i) => shadowPut d code b all { v with slots := mdel v.slots i } s
      | none => s)

/-- The code of the fault that the engine's read of a deep bucket meets, 0 when it meets none or waits for a migration (R301,
R308). -/
def deepCodeOf (s : State) (h code b : Nat) : Nat :=
  let o := bucketOffset s code b
  ((List.range (bucketBytes code / 64)).map (fun i => accessCode s h 0 (o / 2 ^ 21) (o % 2 ^ 21 + 64 * i))).foldl
    (fun a c => if a ≠ 0 then a else if c = 2 then 0 else c) 0

/-- A deep bucket whose page cannot be accessed takes no part in a placement (R229, R301). -/
def bucketShut (s : State) (h code b : Nat) : Bool := isDeep code && deepCodeOf s h code b != 0

/-- An alternate count that saturates at 15 (R186). -/
def altInc (n : Nat) : Nat := min 15 (n + 1)
def altDec (n : Nat) : Nat := if n = 15 then 15 else n - 1

/-! ### Placement (R226 to R228) -/

/-- A move of a plan: the bucket and slot a key leaves, and the bucket it goes to. -/
abbrev Move := Nat × Nat × Nat

/-- The bucket choice that the entry in a slot does not occupy. -/
def otherChoice (s : State) (d code b i : Nat) : Option Nat :=
  match (bucketAt s d code b).bind (fun v => mget? v.slots i) with
  | none => none
  | some e =>
    let (ba, bb) := choices s code e.key
    let o := if ba = b then bb else ba
    if bucketShut s d code o then none else some o

/-- A bucket has a free slot. -/
def hasRoom (s : State) (d code b : Nat) : Bool :=
  match bucketAt s d code b with
  | none => false
  | some v => (freeSlot (bucketSlots code) v).isSome

/-- The walk of R226 from one start: the moves to carry out, first one first. -/
def planWalk (s : State) (d code : Nat) : Nat → Nat → Nat → List Move → List Nat → Option (List Move)
  | 0, _, _, _, _ => none
  | fuel + 1, step, b, path, visited =>
    let k := bucketSlots code
    match (List.range k).findSome? (fun i =>
        (otherChoice s d code b i).bind (fun o => if hasRoom s d code o then some (b, i, o) else none)) with
    | some m => some (path ++ [m])
    | none =>
      if step = 7 then none
      else
        match (List.range k).findSome? (fun i =>
            if i < step % k then none
            else (otherChoice s d code b i).bind (fun o => if visited.contains o then none else some (b, i, o))) with
        | none => none
        | some m => planWalk s d code fuel (step + 1) m.2.2 (path ++ [m]) (m.2.2 :: visited)

/-- The plan for a new key: the moves, and the bucket and slot it is placed in; none is FULL (R226). -/
def plan (s : State) (d code key : Nat) : Option (List Move × Nat × Nat) :=
  if tabBuckets s code = 0 then none
  else
    let (ba, bb) := choices s code key
    let free := fun b => (bucketAt s d code b).bind (freeSlot (bucketSlots code))
    match free ba with
    | some i => some ([], ba, i)
    | none =>
      match free bb with
      | some i => some ([], bb, i)
      | none =>
        [ba, bb].findSome? (fun start =>
          (planWalk s d code 8 0 start [] [ba, bb]).bind (fun p => p.head?.map (fun m => (p, start, m.2.1))))

/-- The buckets that the walk of R226 reads from one start: of each bucket it comes to, the other choices of its entries up to the
first that has room. -/
def walkReads (s : State) (d code : Nat) : Nat → Nat → Nat → List Nat → List Nat
  | 0, _, _, _ => []
  | fuel + 1, step, b, visited =>
    let others := (List.range (bucketSlots code)).filterMap (fun i => (otherChoice s d code b i).map (fun o => (i, o)))
    let full := others.takeWhile (fun x => !hasRoom s d code x.2)
    if full.length < others.length then ((others.take (full.length + 1)).map (·.2))
    else
      (full.map (·.2)) ++ (if step = 7 then []
        else match others.find? (fun x => decide (step % bucketSlots code ≤ x.1) && !visited.contains x.2) with
          | none => []
          | some m => walkReads s d code fuel (step + 1) m.2 (m.2 :: visited))

/-- The buckets that the engine reads to place a new key, beyond its two choices (R226). -/
def planReads (s : State) (d code key : Nat) : List Nat :=
  let (ba, bb) := choices s code key
  if hasRoom s d code ba || hasRoom s d code bb then []
  else
    let l := walkReads s d code 8 0 ba [ba, bb]
    if (planWalk s d code 8 0 ba [] [ba, bb]).isSome then l else l ++ walkReads s d code 8 0 bb [ba, bb]

/-- One move of an entry between its buckets (R227). -/
def moveEntry (d code : Nat) (all : Bool) (m : Move) (s : State) : State :=
  let (x, i, y) := m
  match mget? (rawBucket s d code x).slots i with
  | none => s
  | some e =>
    let (ba, _) := choices s code e.key
    let put := fun (s : State) => onBucket d code y all (fun v => match freeSlot (bucketSlots code) v with
      | none => v
      | some j => { v with slots := minsert v.slots j e, gen := v.gen + 1 }) s
    let clear := fun (s : State) => onBucket d code x all (fun v => { v with slots := mdel v.slots i, gen := v.gen + 1 }) s
    let s :=
      if ba = x then clear (put (onBucket d code x all (fun v => { v with alt := altInc v.alt }) s))
      else onBucket d code y all (fun v => { v with alt := altDec v.alt }) (clear (put s))
    s.onDie d (fun z => { z with look.tabs := mmod z.look.tabs code (fun t => { t with relocGen := (t.relocGen + 1) % 2 ^ 32 }) })

/-- The engine looks one move ahead from both full buckets of a deep key: a read of a bucket whose page cannot be accessed faults
(R226, R229, R301). -/
def lookAhead (h code key : Nat) (s : State) : State :=
  let (ba, bb) := choices s code key
  if !isDeep code ∨ hasRoom s h code ba ∨ hasRoom s h code bb then s
  else
    let others := [ba, bb].flatMap (fun b => (rawBucket s h code b).slots.map (fun x =>
      let (p, q) := choices s code x.2.key
      if p = b then q else p))
    s.each (others.filter (bucketShut s h code)) (fun b s =>
      let o := bucketOffset s code b
      (access h 0 (o / 2 ^ 21) (o % 2 ^ 21) s).2)

/-- Place a new key (R226, R228): the number of moves made, or none when the table is full. -/
def place (d code : Nat) (all : Bool) (e : TEntry) (s : State) : Option Nat × State :=
  let s := lookAhead d code e.key s
  let s := if tabBuckets s code = 0 then s else s.each (planReads s d code e.key) (readGrant 4 d code)
  match plan s d code e.key with
  | none => (none, s)
  | some (moves, b, i) =>
    let s := shadowForget d code e.key all s
    let s := moves.reverse.foldl (fun s m => moveEntry d code all m s) s
    let (ba, _) := choices s code e.key
    let s := if b = ba then s else onBucket d code ba all (fun v => { v with alt := altInc v.alt }) s
    (some moves.length, onBucket d code b all (fun v => { v with slots := minsert v.slots i e }) s)

/-- Write the slot of a key that a table holds (R228). -/
def rewriteSlot (d code : Nat) (all : Bool) (b i : Nat) (f : TEntry → TEntry) (s : State) : State :=
  onBucket d code b all (setSlot i f) s

/-- Delete the entry in a slot (R228). -/
def deleteSlot (d code : Nat) (all : Bool) (b i : Nat) (s : State) : State :=
  match mget? (rawBucket s d code b).slots i with
  | none => s
  | some e =>
    let (ba, _) := choices s code e.key
    let s := onBucket d code b all (fun v => { v with slots := mdel v.slots i }) s
    if b = ba then s else onBucket d code ba all (fun v => { v with alt := altDec v.alt }) s

/-- Every slot in use of a table: bucket, slot, entry, in ascending order. -/
def tabSlots (s : State) (d code : Nat) : List (Nat × Nat × TEntry) :=
  (table s d code).buckets.flatMap (fun x => x.2.slots.map (fun y => (x.1, y.1, y.2)))

/-- The slots in use that a reader finds: those of fenced buckets are not among them. -/
def tabVisible (s : State) (d code : Nat) : List (Nat × Nat × TEntry) :=
  (tabSlots s d code).filter (fun x => (code ≥ 0x2000 && code != stemCode) || !bucketFenced s d code x.1)

/-! ### Results and records (Tables 7.2 to 7.4, 7.10) -/

/-- A MAC, MPLS or LFI slot as its bits (Tables 7.2 to 7.4). -/
def slotBits (code : Nat) (e : TEntry) : Nat :=
  if code = 0x10 then
    1 <<< 123 ||| b2n e.static <<< 122 ||| bits e.key 61 48 <<< 108 ||| bits e.key 47 0 <<< 60 ||| e.result <<< 28 |||
      e.ageTs <<< 12 ||| b2n e.hit <<< 11 ||| b2n e.aged <<< 10
  else if code = 0x11 then
    1 <<< 123 ||| bits e.key 35 24 <<< 110 ||| bits e.key 19 0 <<< 90 ||| e.result <<< 58 ||| e.encap <<< 40 ||| e.op <<< 37
  else
    1 <<< 123 ||| b2n e.static <<< 122 ||| e.key <<< 58 ||| e.result <<< 26 ||| e.ageTs <<< 10 ||| b2n e.hit <<< 9 |||
      b2n e.aged <<< 8

/-- A hot or deep slot, or a stem map slot, as its bits (Tables 6.3 to 6.5). -/
def fibSlotBits (code : Nat) (e : TEntry) : Nat :=
  if code = stemCode then
    1 <<< 335 ||| b2n (bits e.key 63 56 == 6) <<< 334 ||| bits e.key 51 40 <<< 322 ||| bits e.key 31 0 <<< 290 |||
      e.coverLen <<< 283 ||| e.coverRes <<< 251 ||| e.hotMask <<< 155 ||| e.deepMask <<< 59
  else if codeFam code = 0 then
    1 <<< 123 ||| bits e.key 51 40 <<< 111 ||| bits e.key 31 0 <<< 79 ||| e.result <<< 47 ||| b2n e.hot <<< 46
  else
    1 <<< 251 ||| bits e.key 147 136 <<< 239 ||| bits e.key 127 0 <<< 111 ||| e.result <<< 79 ||| b2n e.hot <<< 78

/-- The bits of a slot of a table. -/
def slotWidth (code : Nat) : Nat := if code < 0x100 then 124 else if code = stemCode then 336 else if codeFam code = 0 then 124 else 252

/-- A bucket as its bits: header and slots (Table 6.2, R186, R219). -/
def bucketImage (code : Nat) (b : Bucket) : Nat :=
  let top := bucketBytes code * 8
  let w := slotWidth code
  let img := fun e => if code < 0x100 then slotBits code e else fibSlotBits code e
  b.slots.foldl (fun a x => a ||| img x.2 <<< (top - 16 - w * (x.1 + 1))) (b.gen.toNat <<< (top - 8) ||| b.alt <<< (top - 12))

/-- A slot from its bits, when it is in use (Tables 6.3 to 6.5 and 7.2 to 7.4); `code` says of which table. -/
def slotOfBits (code x : Nat) : Option TEntry :=
  let e := fun (top : Nat) (e : TEntry) => if bit x top then some e else none
  if code = 0x10 then e 123 { key := macKey (bits x 121 108) (bits x 107 60), result := bits x 59 28, static := bit x 122
                              ageTs := bits x 27 12, hit := bit x 11, aged := bit x 10 }
  else if code = 0x11 then e 123 { key := mplsKey (bits x 121 110) (bits x 109 90), result := bits x 89 58
                                   encap := bits x 57 40, op := bits x 39 37 }
  else if code = 0x12 then e 123 { key := bits x 121 58, result := bits x 57 26, static := bit x 122
                                   ageTs := bits x 25 10, hit := bit x 9, aged := bit x 8 }
  else if code = stemCode then e 335 { key := stemKey (b2n (bit x 334)) (bits x 333 322) (bits x 321 290), coverLen := bits x 289 283
                                       coverRes := bits x 282 251, hotMask := bits x 250 155, deepMask := bits x 154 59 }
  else if codeFam code = 0 then e 123 { key := prefixKey 0 (bits x 122 111) (codeLen code) (bits x 110 79)
                                        result := bits x 78 47, hot := bit x 46 }
  else e 251 { key := prefixKey 1 (bits x 250 239) (codeLen code) (bits x 238 111), result := bits x 110 79, hot := bit x 78 }

/-- A bucket from its bits (Table 6.2, R186, R219). -/
def bucketOfBits (code x : Nat) : Bucket :=
  let top := bucketBytes code * 8
  let w := slotWidth code
  { gen := BitVec.ofNat 8 (bits x (top - 1) (top - 8)), alt := bits x (top - 9) (top - 12)
    slots := (List.range (bucketSlots code)).filterMap (fun k =>
      (slotOfBits code (bits x (top - 17 - w * k) (top - 16 - w * (k + 1)))).map (fun e => (k, e))) }

/-- The CRC-32C a scrubber computes over a bucket (R252); bytes in the order of R5 (log entry 19). -/
def bucketCrc (code : Nat) (b : Bucket) : Nat := crc32c (toBytesLE (bucketBytes code) (bucketImage code (plainBucket b)))

/-- The coarse time of a table (R238): table t of 2210 + t. -/
def coarse (s : State) (d t : Nat) : Nat := s.nsOn d / (1000 * s.pg (0x2210 + t) 2) % 65536

/-- A learn record (Table 7.10). -/
def learnRecord (d ty code key result old : Nat) (s : State) : BitVec 256 :=
  BitVec.ofNat 256 (ty <<< 248 ||| code <<< 240 ||| d <<< 237 ||| (key % 2 ^ 64) <<< 160 ||| result <<< 128 ||| old <<< 96 |||
    s.nsOn d)

/-- The key of a record: key word 0 of profile 0x20 or 0x24. -/
def recordKey (code : Nat) (e : TEntry) : Nat := if code = 0x10 then bits e.key 61 0 else e.key

/-- Post a learn record on a die's learn ring (R236). -/
def learnNote (d ty code : Nat) (e : TEntry) (result old : Nat) (s : State) : State :=
  recordPost d 21 (learnRecord d ty code (recordKey code e) result old s) s

/-- Requester q of R225 refreshes an entry on a hit (R224); the write is the die's own, not a broadcast (R251). -/
def refreshSlot (q d code b i : Nat) (e : TEntry) (s : State) : State :=
  let now := coarse s d (code - 0x10)
  if e.hit && e.ageTs == now then s
  else onBucketBy q d code b false (setSlot i (fun x => { x with hit := true, ageTs := now })) s

/-! ### Search units (R190, R197, R223) -/

/-- A search unit of a die. -/
def sunit (s : State) (d u : Nat) : SUnit := mget (s.die d).look.units u

/-- Change a search unit. -/
def onSunit (d u : Nat) (f : SUnit → SUnit) (s : State) : State :=
  s.onDie d (fun x => { x with look.units := mmod x.look.units u f })

/-- The profile of a request. -/
def SReq.profile (q : SReq) : Nat := bits q.hdr.toNat 63 56

/-- Key word i of a request. -/
def SReq.key (q : SReq) (i : Nat) : Nat := (q.keys[i]?.getD 0).toNat

/-- The result slot of a request. -/
def SReq.slotNo (q : SReq) : Nat := bits q.hdr.toNat 42 41

/-- An event of a request's search unit (R566). -/
def unitEvent (d u code n : Nat) (q : SReq) (s : State) : State :=
  perfEvent d (16 + u) code n (bits q.hdr.toNat 52 49) (bits q.hdr.toNat 48 43) q.addr s

/-- An event of a request's search unit whose latency ends with the final response (Table 19.4). -/
def unitOpens (d u code : Nat) (q : SReq) (s : State) : State :=
  perfNote d (16 + u) code 1 { c := bits q.hdr.toNat 52 49, t := bits q.hdr.toNat 48 43, addr := q.addr, tag := some (searchTag q.rid q.slotNo) } s

/-- Serve the head request of a search unit when its profile is of the family asked for. A unit whose staging list is
full takes no request (R197). -/
def serveHead (d u : Nat) (mine : Nat → Bool) (f : SReq → State → State) (s : State) : State :=
  let k := sunit s d u
  match k.reqs with
  | [] => s
  | q :: rest =>
    if 64 ≤ k.staging.length ∨ !mine q.profile then s
    else f q (onSunit d u (fun k => { k with reqs := rest }) s)

/-- Send the response of a request to the die that asked. -/
def answer (q : SReq) (r : RSlot) (s : State) : State := respond q.die { rid := q.rid, sl := q.slotNo, slot := r } s

/-- The three payload words of a resolved response, over word 1's own part. -/
def resolvedSlot (hdr : Word) (w1 : Nat) (r : Resolved) : RSlot :=
  { hdr := hdr, p1 := BitVec.ofNat 64 (w1 ||| resolvedWord r), p2 := (r.entry >>> 64).setWidth 64, p3 := r.entry.setWidth 64 }

/-! ### A search that meets a move (R225, R230, R231) -/

/-- A bucket as it stood before the die's bucket write of number w and those after it. -/
def bucketAsOf (s : State) (d code b w : Nat) : Bucket :=
  match ((s.die d).look.trail.filter (fun x => x.code == code && x.bucket == b && decide (w ≤ x.no))).getLast? with
  | some x => x.was
  | none => rawBucket s d code b

/-- When a read of a bucket that unit u asked for at bucket write t0 of the die is granted, at the latest at t: a write at the same
bank goes before it only if the bank's pointer puts its requester first, and no requester twice while the unit asks (R22, R23,
R225). -/
def grantAt (u : Nat) : List BWrite → List Nat → Nat → Nat
  | [], _, t => t
  | w :: r, seen, t => if seen.contains w.req || !bankBefore w.ptr w.req u then w.no else grantAt u r (w.req :: seen) t

/-- The writes at a bucket's banks from one write of the die to before another, oldest first. -/
def bankWrites (s : State) (d code b lo hi : Nat) : List BWrite :=
  let banks := bucketBanks s code b
  ((s.die d).look.trail.filter (fun w =>
    decide (lo ≤ w.no) && decide (w.no < hi) && !isDeep w.code && (bucketBanks s w.code w.bucket).any banks.contains)).reverse

/-- What a pair of probes with its retries finds. -/
structure Probe where
  hit       : Option TEntry := none
  /-- read pairs made again, and a third pair that missed with a changed move_gen (R231) -/
  retries   : Nat := 0
  exhausted : Bool := false
  /-- bucket choices that lie in a fenced bank -/
  fenced    : Nat := 0
  /-- bucket writes of the die before the last grant of each choice, and writes that went before its reads at their banks while they
  asked (event 0x42) -/
  at_       : Nat × Nat := (0, 0)
  waits     : Nat := 0
  deriving DecidableEq, Repr, Inhabited

/-- Unit u reads both bucket choices of a key no earlier than the bucket write of number `lo`, as the grants say within the rules
of the banks' arbiters; a miss that sees a move_gen changed since its data read is made again, at most twice (R225, R230,
R231). Both reads of a pair are asked for in one cycle. -/
def probePair (s : State) (d u code key : Nat) : Nat → Nat → List ReadAt → Probe
  | n, lo, grants =>
    let top := (s.die d).look.writes
    let g := grants.headD {}
    let (ba, bb) := choices s code key
    let ta := max lo (top - g.a)
    let tb := max lo (top - g.b)
    let t0 := min ta tb
    let ta := grantAt u (bankWrites s d code ba t0 ta) [] ta
    let tb := grantAt u (bankWrites s d code bb t0 tb) [] tb
    let w := (bankWrites s d code ba t0 ta).length + (bankWrites s d code bb t0 tb).length
    let tc := max (max ta tb) (top - g.c)
    let fa := bucketFenced s d code ba
    let fb := bucketFenced s d code bb
    let va := if fa then {} else bucketAsOf s d code ba ta
    let vb := if fb then {} else bucketAsOf s d code bb tb
    let moved := (!fa && (bucketAsOf s d code ba tc).gen != va.gen) || (!fb && (bucketAsOf s d code bb tc).gen != vb.gen)
    let fenced := b2n fa + b2n fb
    match (slotOf va key).orElse (fun _ => slotOf vb key) with
    | some x => { hit := some x.2, retries := 2 - n, fenced := fenced, at_ := (ta, tb), waits := w }
    | none =>
      if !moved then { retries := 2 - n, fenced := fenced, at_ := (ta, tb), waits := w }
      else match n with
        | 0 => { retries := 2, exhausted := true, fenced := fenced, at_ := (ta, tb), waits := w }
        | m + 1 => let p := probePair s d u code key m tc grants.tail; { p with waits := p.waits + w }

/-- The probes a request makes for a key: reads lie between the bucket write `since`, that of its arrival at the unit or of the read
that its key comes from, and the command, as far back as the bucket writes kept reach. -/
def probe (s : State) (d u code key since : Nat) (grants : List ReadAt) : Probe :=
  if tabBuckets s code = 0 then {}
  else
    let k := (s.die d).look
    probePair s d u code key 2 (max since (k.writes - k.trail.length)) grants

/-- The table of counters 4620 + t of a table: 0 MAC, 1 MPLS, 2 LFI, 3 hot FIB and stem map. -/
def counterOf (code : Nat) : Nat := if code < 0x100 then 0x4620 + (code - 0x10) else 0x4623

/-- The banks a unit's reads were granted at have their pointers past it, unless a write has been granted there since (R23). -/
def probeGrants (d u code key : Nat) (p : Probe) (s : State) : State :=
  if tabBuckets s code = 0 then s
  else
    let (ba, bb) := choices s code key
    let last := fun (b t : Nat) => bucketFenced s d code b || !(bankWrites s d code b t (s.die d).look.writes).isEmpty
    let s := if last ba p.at_.1 then s else bankGrant d u (bucketBanks s code ba) s
    if last bb p.at_.2 then s else bankGrant d u (bucketBanks s code bb) s

/-- A search's retries are counted, and one that exhausted them is reported (R231, R255). -/
def countProbe (d u code key : Nat) (q : SReq) (p : Probe) (s : State) : State :=
  let s := probeGrants d u code key p s
  let s := (unitEvent d u 0x43 p.retries q (unitEvent d u 0x42 p.waits q s)).dinc d (counterOf code) 5 p.retries
  if p.exhausted then (s.dinc d (counterOf code) 6 1).report d 5 u 1 0x181 (choices s code key).1 else s

/-- EXACT_SEARCH of a unit's head request (R222 to R224, R230, R231); `grants` says when its reads and checks were granted. -/
def exactSearch (d u : Nat) (grants : List ReadAt) (q : SReq) (s : State) : State :=
  let p := q.profile
  let code := if p < 0x22 then 0x10 else if p = 0x22 then 0x11 else 0x12
  let key := match p with
    | 0x22 => mplsKey (bits (q.key 0) 43 32) (bits (q.key 0) 19 0)
    | 0x23 => lfiKey s (q.key 0 <<< 256 ||| q.key 1 <<< 192 ||| q.key 2 <<< 128 ||| q.key 3 <<< 64 ||| q.key 4)
    | 0x24 => q.key 0
    | _ => macKey (bits (q.key 0) 61 48) (bits (q.key 0) 47 0)
  let s := keyParity d code key s
  let x := probe s d u code key q.mark grants
  let n := 2 + 2 * x.retries
  let s := unitEvent d u 0x49 x.fenced q (unitEvent d u 0x41 n q s)
  let s := countProbe d u code key q x (s.dinc d (counterOf code) 3 1)
  match x.hit with
  | none =>
    answer q { hdr := slotHdr 4 0 p n x.retries 0, p1 := if code = 0x12 then BitVec.ofNat 64 key else 0 } s
  | some e =>
    let s := s.dinc d (counterOf code) 4 1
    let hdr := slotHdr 3 0 p n x.retries e.result
    let seen := b2n e.static <<< 63 ||| e.ageTs <<< 47 ||| b2n e.hit <<< 46
    let w1 := if code = 0x10 then seen else if code = 0x11 then e.encap <<< 46 ||| e.op <<< 43 else key
    if p = 0x20 ∨ p = 0x22 then
      let s := resolveParity d e.result (bits (q.key 1) 15 0) s
      let r := (resolve s d e.result (bits (q.key 1) 15 0)).getD {}
      answer q (resolvedSlot hdr w1 r) (bankGrant d u (resolveBanks e.result r) (s.when r.noMember (fun s => s.dinc d 0x4610 0x10 1)))
    else
      let s := answer q { hdr := hdr, p1 := BitVec.ofNat 64 w1 } s
      match tabFind s d code key with
      | some (b, i, e) => refreshSlot u d code b i e s
      | none => s

/-! ### The table engine (R242) -/

/-- The table engine of a die is free for another operation: no software command waits or is unfinished. -/
def engFree (s : State) (d : Nat) : Bool := (s.die d).look.engQ.isEmpty

/-- The learn engine (1), a sweeper (2, with its table) or shadow repair (3, 1 where its read is poisoned) asks for a table engine
that is occupied, and waits (R242). -/
def engAsks (d i t : Nat) (s : State) : State :=
  if (s.die d).look.engAsk.contains (i, t) then s else s.onDie d (fun x => { x with look.engAsk := x.look.engAsk ++ [(i, t)] })

/-- Requester i of the table engine is granted: 0 software, 1 the learn engine, 2 the sweepers, 3 shadow repair (R23). -/
def engGrant (d i : Nat) (s : State) : State := s.onDie d (fun x => { x with look.engPtr := (i + 1) % 4 })

/-! ### Learning (R233 to R236) -/

/-- The die learns by itself (R235). -/
def localLearn (s : State) : Bool := s.part == .d9080

/-- The learn engine acts on its oldest event (R235). -/
def learnDo (d : Nat) (s : State) : State :=
  match (s.die d).look.learnQ with
  | [] => s
  | ev :: rest =>
    let s := (engGrant d 1 s).onDie d (fun x => { x with
      look.learnQ := rest
      look.filter := ((x.look.filter ++ [(eventKey ev, s.now)]).drop (x.look.filter.length + 1 - 64)) })
    let code := if ev.ty = 1 then 0x10 else 0x12
    let t := code - 0x10
    let key := if ev.ty = 1 then macKey (bits ev.k0.toNat 61 48) (bits ev.k0.toNat 47 0) else ev.k0.toNat
    let result := bits ev.k1.toNat 31 0
    let own := localLearn s
    let e : TEntry := { key := key, result := result, hit := true, ageTs := coarse s d t }
    let s := engReads d code key s
    match tabFind s d code key with
    | none =>
      if own then
        match place d code true e s with
        | (none, s) => s.dinc d (0x4620 + t) 7 1
        | (some _, s) =>
          let s := s.dinc d (0x4620 + t) 8 1
          s.when (s.pg 0x2200 5 == 1) (learnNote d 1 code e result 0)
      else learnNote d 1 code e result 0 s
    | some (b, i, old) =>
      if old.static then (if own then s.dinc d (0x4620 + t) 0xC 1 else s)
      else if old.result = result then (if own then refreshSlot 4 d code b i old s else s)
      else if own then
        let s := rewriteSlot d code true b i (fun x => { x with result := result, hit := true, ageTs := coarse s d t }) s
        let s := s.dinc d (0x4620 + t) 9 1
        s.when (s.pg 0x2200 5 == 1) (learnNote d 2 code e result old.result)
      else learnNote d 2 code e result old.result s

/-- LEARN_EVENT_PROCESS (R235): the learn engine acts on its oldest event, or asks for the table engine. -/
def learnStep (d : Nat) (s : State) : State :=
  if engFree s d then learnDo d s else s.when (!(s.die d).look.learnQ.isEmpty) (engAsks d 1 0)

/-! ### Ageing (R237 to R241) -/

/-- What the sweeper does with an entry. -/
inductive Aging
  | keep | write (hit aged : Bool) | delete
  deriving DecidableEq, Repr, Inhabited

/-- The rule of R238 or R239 for an entry of a table; a static entry never ages (R237). -/
def ageRule (s : State) (d t : Nat) (e : TEntry) : Aging :=
  if e.static then .keep
  else match s.pg (0x2210 + t) 1 with
    | 1 => if s.pg (0x2210 + t) 3 ≤ (coarse s d t + 65536 - e.ageTs) % 65536 then .delete else .keep
    | 2 => if e.hit then .write false false else if !e.aged then .write false true else .delete
    | _ => .keep

/-- Carry out the sweeper's ruling on one slot of one die. -/
def ageSlot (d t b i : Nat) (all : Bool) (rule : Aging) (s : State) : State :=
  match rule with
  | .keep => s
  | .delete => (deleteSlot d (0x10 + t) all b i s).dinc d (0x4620 + t) 0xA 1
  | .write h a => rewriteSlot d (0x10 + t) all b i (fun x => { x with hit := h, aged := a }) s

/-- A newer of two coarse times, by modulo comparison (R240). -/
def newerTs (a b : Nat) : Nat := if (a + 65536 - b) % 65536 < 32768 then a else b

/-- The copies of one slot combined as the Summit's sweeper combines them (R240); copies that are all static do not age (R237). -/
def combine (l : List TEntry) (e : TEntry) : TEntry :=
  { e with static := l.all (·.static), hit := l.any (·.hit), aged := l.all (·.aged), ageTs := l.foldl (fun a x => newerTs x.ageTs a) e.ageTs }

/-- The sweeper of a table works on a die: the table ages, and in software mode the die is the Summit (R237, R240). -/
def sweeps (s : State) (d t : Nat) : Bool :=
  s.pg (0x2210 + t) 1 != 0 && t != 1 && (localLearn s || s.summit == some d)

/-- The sweeper of a table visits its next bucket (R237). -/
def sweepDo (d t : Nat) (s : State) : State :=
  let code := 0x10 + t
  if !sweeps s d t then s
  else
    let s := engGrant d 2 s
    let b := mget (s.die d).look.sweep t
    let s := s.onDie d (fun x => { x with look.sweep := mput x.look.sweep t ((b + 1) % tabBuckets s code) })
    let dies := if localLearn s then [d] else (s.present).filter (fun x => !s.isolated x)
    let s := s.each dies (fun x s => readGrant 4 x code b s)
    let post := fun (e : TEntry) (s : State) =>
      s.when (!localLearn s || s.pg 0x2200 5 == 1) (learnNote d 3 code e e.result 0)
    s.each (List.range 4) fun i s =>
      let at_ := fun (x : Nat) => (bucketAt s x code b).bind (fun v => mget? v.slots i)
      if localLearn s then
        match at_ d with
        | none => s
        | some e =>
          let r := ageRule s d t e
          (ageSlot d t b i false r s).when (r == .delete) (post e)
      else
        let copies := dies.map at_
        let found := copies.filterMap id
        match found with
        | [] => s
        | e :: _ =>
          if found.length = dies.length ∧ found.all (fun x => x.key == e.key) then
            let c := combine found e
            let r := ageRule s d t c
            let s := s.each (dies.filter (fun x => !(at_ x).any (·.static))) (fun x s => ageSlot x t b i true r s)
            s.when (r == .delete) (post e)
          else
            let s := s.dinc d 0x4630 7 1
            s.each dies fun x s =>
              match (bucketAt s x code b).bind (fun v => mget? v.slots i) with
              | none => s
              | some e =>
                let r := ageRule s d t e
                (ageSlot x t b i false r s).when (r == .delete) (post e)

/-- AGEING_SWEEP_VISIT (R237): the sweeper of a table visits its next bucket, or asks for the table engine. -/
def sweepVisit (d t : Nat) (s : State) : State :=
  if engFree s d then sweepDo d t s else if sweeps s d t then engAsks d 2 t s else s

/-! ### Table commands on hashed and index tables (R242 to R246) -/

/-- What a table command answers: status, moves made, record found, and the next cursor. -/
structure TabOut where
  status : Nat := 0
  moves  : Nat := 0
  found  : Nat := 0
  cursor : Nat := 0
  deriving DecidableEq, Repr, Inhabited

/-- Insert into the MAC, MPLS or LFI table of a die (R245). A new key has hit, aged and age_ts at the defaults of Table 7.2
(log entry 84). -/
def exactInsert (d code : Nat) (all static : Bool) (rec : Nat) (s : State) : TabOut × State :=
  let t := code - 0x10
  let key := if code = 0x10 then macKey (bits rec 121 108) (bits rec 107 60)
    else if code = 0x11 then mplsKey (bits rec 121 110) (bits rec 109 90)
    else if bit rec 511 then lfiKey s (bits rec 447 128) else bits rec 121 58
  let result := if code = 0x10 then bits rec 59 28 else if code = 0x11 then bits rec 89 58 else bits rec 57 26
  if code ≠ 0x12 ∧ 2 ≤ bits result 31 30 then ({ status := 0x13 }, s)
  else
    let st := static && code != 0x11
    let e : TEntry := { key := key, result := result, static := st
                        encap := if code = 0x11 then bits rec 57 40 else 0, op := if code = 0x11 then bits rec 39 37 else 0 }
    let s := engReads d code key s
    match tabFind s d code key with
    | some (b, i, old) =>
      let n := if old.static == st then { e with hit := old.hit, ageTs := old.ageTs, aged := old.aged }
        else if st then { e with hit := old.hit, ageTs := old.ageTs, aged := old.aged }
        else { e with hit := true, ageTs := coarse s d t, aged := old.aged }
      if n = old then ({}, s) else ({}, rewriteSlot d code all b i (fun _ => n) s)
    | none =>
      match place d code all e s with
      | (none, s) => ({ status := 0x10 }, s)
      | (some m, s) => ({ moves := m }, s)

/-- The key of an exact table's record. -/
def exactKey (s : State) (code rec : Nat) : Nat :=
  if code = 0x10 then macKey (bits rec 121 108) (bits rec 107 60)
  else if code = 0x11 then mplsKey (bits rec 121 110) (bits rec 109 90)
  else if bit rec 511 then lfiKey s (bits rec 447 128) else bits rec 121 58

/-- Delete from an exact table (R245). -/
def exactDelete (d code : Nat) (all : Bool) (rec : Nat) (s : State) : TabOut × State :=
  let s := engReads d code (exactKey s code rec) s
  match tabFind s d code (exactKey s code rec) with
  | none => ({ status := 2 }, s)
  | some (b, i, _) => ({}, deleteSlot d code all b i s)

/-- Search an exact table (R245): nothing is refreshed. -/
def exactFind (d code rec : Nat) (s : State) : TabOut × State :=
  let s := engReads d code (exactKey s code rec) s
  match tabFind s d code (exactKey s code rec) with
  | none => ({ status := 2 }, s)
  | some (_, _, e) => ({ found := slotBits code e }, s)

/-- The first of a list of places at or after a cursor, with the cursor after it, or END (R246). -/
def walkFrom (l : List (Nat × Nat)) (cursor : Nat) : TabOut :=
  match l.find? (fun x => decide (cursor ≤ x.1)) with
  | none => { status := 3 }
  | some x => { found := x.2, cursor := x.1 + 1 }

/-- The table engine reads the lines of a span of SRAM, in order (R225). -/
def spanGrant (d line n : Nat) (s : State) : State :=
  bankGrant d 4 ((List.range (min n 8)).map (fun i => (line + n - min n 8 + i) % 8)) (spanParity d line n s)

/-- The next entry of an exact table: the engine reads the buckets from the cursor to the entry, or to the end. -/
def exactNext (d code cursor : Nat) (s : State) : TabOut × State :=
  let o := walkFrom ((tabVisible s d code).map (fun x => (x.1 * 4 + x.2.1, slotBits code x.2.2))) cursor
  let last := if o.status = 0 then (o.cursor - 1) / 4 else tabBuckets s code - 1
  (o, spanGrant d (bucketOffset s code (cursor / 4) / 64) (last + 1 - cursor / 4) s)

/-- The shadow of an index table's entry (R251). -/
def shadowIdxPut (d sub i v : Nat) (all : Bool) (s : State) : State :=
  if s.pg 0x2220 sub = 0 ∨ s.pg 0x2221 1 ≠ d ∨ !all then s
  else shadowWrite d { sub := sub, no := i, val := v } s

/-- Insert or delete in the next-hop table (R245). -/
def nextHopWrite (d : Nat) (all del : Bool) (rec : Nat) (s : State) : TabOut × State :=
  let i := bits rec 511 492
  let v := if del then nhDefault else BitVec.ofNat 128 (bits rec 127 0)
  if lineFenced s d (0x0D000000 + i * 16) 2 then ({}, s)
  else ({}, shadowIdxPut d 2 i v.toNat all ((bankWrite d 4 [bankOf (0x0D000000 + i * 16)] s).onDie d (fun x => { x with look.nextHop := mputD nhDefault x.look.nextHop i v })))

/-- Insert or delete in the ECMP table (R245). -/
def ecmpWrite (d : Nat) (all del : Bool) (rec : Nat) (s : State) : TabOut × State :=
  let i := bits rec 511 490
  let v := if del then 0 else BitVec.ofNat 32 (bits rec 31 0)
  if lineFenced s d (0x0E000000 + i * 4) 3 then ({}, s)
  else ({}, shadowIdxPut d 3 i v.toNat all ((bankWrite d 4 [bankOf (0x0E000000 + i * 4)] s).onDie d (fun x => { x with look.ecmp := mput x.look.ecmp i v })))

/-! ### Flushes (R247) -/

/-- A result names a next hop that leaves by a port. -/
def leavesBy (s : State) (d result port : Nat) : Bool :=
  bits result 31 30 == 0 && bits (nextHopAt s d (bits result 19 0)).toNat 58 50 == port

/-- flush_by_port on a die (R247): a second flush is BUSY, tables other than MAC and FIB refuse it. -/
def flushStart (d code port : Nat) (all statics : Bool) (filter : Option Nat) (s : State) : TabOut × State :=
  if code ≠ 0x10 ∧ code ≠ 1 then ({ status := 0x13 }, s)
  else if (s.die d).look.flush.isSome then ({ status := 0x11 }, s)
  else
    let s := s.onDie d (fun x => { x with look.flush := some { table := code, port := port, all := all, statics := statics, filter := filter } })
    ({}, s.dset d 0x4640 2 (code <<< 24 ||| 1 <<< 22))

/-- Note removed entries of a flush in `4640.02`. -/
def flushCount (d n : Nat) (s : State) : State :=
  let v := s.dg d 0x4640 2
  s.dset d 0x4640 2 (v / 2 ^ 22 * 2 ^ 22 + min (2 ^ 22 - 1) (v % 2 ^ 22 + n))

/-- A flush ends: done, or done with entries kept. -/
def flushEnd (d : Nat) (kept : Bool) (s : State) : State :=
  let v := s.dg d 0x4640 2
  let s := s.onDie d (fun x => { x with look.flush := none })
  s.dset d 0x4640 2 (v / 2 ^ 24 * 2 ^ 24 + (if kept then 3 else 2) * 2 ^ 22 + v % 2 ^ 22)

/-- One step of a MAC flush: 64 buckets. -/
def macFlushStep (d : Nat) (f : Flush) (s : State) : State :=
  let b0 := f.pos * 64
  let s := spanGrant d (bucketOffset s 0x10 b0 / 64) 64 s
  let hit := (tabVisible s d 0x10).filter (fun x =>
    decide (b0 ≤ x.1) && decide (x.1 < b0 + 64) && (!x.2.2.static || f.statics) && leavesBy s d x.2.2.result f.port &&
      (match f.filter with | none => true | some v => bits x.2.2.key 61 48 == v))
  let s := flushCount d hit.length (s.each hit (fun x s => deleteSlot d 0x10 f.all x.1 x.2.1 s))
  if b0 + 64 < 262144 then s.onDie d (fun x => { x with look.flush := some { f with pos := f.pos + 1 } }) else flushEnd d f.kept s

/-! ### Shadows and scrubbing (R251 to R253) -/

/-- The bytes all shadows would take with one more enabled. -/
def shadowNeed (s : State) (sub : Nat) : Nat :=
  ((shadowSubs.filter (fun k => k == sub || s.pg 0x2220 k != 0)).map (fun k => ceilDiv (shadowBytes s k) 2097152 * 2097152)).sum

/-- The dies that hold a shadow. -/
def shadowDies (s : State) (sub : Nat) : List Nat := if replicated s sub then [s.pg 0x2221 1] else s.present

/-- The image of line i of an index table, as a number: 64 bytes (R251). -/
def rootBits (l : Map RootSlot) : Nat :=
  (l.map (fun x => (1 <<< 63 ||| x.2.len <<< 56 ||| x.2.pfx <<< 32 ||| x.2.result) <<< (64 * (7 - x.1)))).sum

/-- What an index table holds at a number, in SRAM: next hops, ECMP members or root entries. -/
def idxValue (s : State) (d sub i : Nat) : Nat :=
  match sub with
  | 2 => (nextHopAt s d i).toNat
  | 3 => (ecmpAt s d i).toNat
  | _ => rootBits (rootSlots s d (i / 2) (i % 2))

/-- What an unlisted number of an index table holds. -/
def idxDefault (sub : Nat) : Nat := if sub = 2 then nhDefault.toNat else 0

/-- The numbers an index table lists. -/
def idxKeys (s : State) (d sub : Nat) : List Nat :=
  let k := (s.die d).look
  match sub with | 2 => mkeys k.nextHop | 3 => mkeys k.ecmp | _ => mkeys k.root

/-- Copy a table of a die into its shadow, write by write (R251). -/
def copyShadow (d sub : Nat) (s : State) : State :=
  if sub = 2 ∨ sub = 3 ∨ sub = 5 then
    s.each (idxKeys s d sub) (fun i s => shadowWrite d { sub := sub, no := i, val := idxValue s d sub i } s)
  else
    s.each (shadowCodes s sub) fun c s =>
      s.each (table s d c).buckets (fun x s => shadowWrite d { sub := sub, code := c, no := x.1, v := plainBucket x.2 } s)

/-- SHADOW_MODE_WRITE (R251): a write of `2220.sub`. Enabling a table copies it first; disabling it drops its shadow. -/
def shadowModeWrite (sub v : Nat) (s : State) : Nat × State :=
  if !shadowSubs.contains sub ∨ 2 < v then (0x13, s)
  else
    let dies := shadowDies s sub
    if v ≠ 0 ∧ dies.any (fun d => decide (s.dg d 0x4410 5 * 2097152 < shadowNeed s sub)) then (0x13, s)
    else
      let was := s.pg 0x2220 sub
      let s := s.pset 0x2220 sub v
      if v = 0 then (0, s.each dies (fun d s => s.onDie d (fun x => { x with
        look.shadow := mdel x.look.shadow sub, look.shadowIdx := mdel x.look.shadowIdx sub
        look.shadowOn := x.look.shadowOn.filter (· != sub) })))
      else if was ≠ 0 then (0, s)
      else (0, s.each dies (fun d s => copyShadow d sub s))

/-- SHADOW_COPY_DONE (R251): the copy of a table's shadow is complete and comparison begins. -/
def shadowCopyDone (sub : Nat) (s : State) : State :=
  if s.pg 0x2220 sub = 0 ∨ !shadowSubs.contains sub then s
  else s.each (shadowDies s sub) fun d s => s.onDie d (fun x => { x with
    look.shadowOn := if x.look.shadowOn.contains sub then x.look.shadowOn else (x.look.shadowOn ++ [sub]).mergeSort (· ≤ ·) })

/-- The die whose shadow a die's table is compared with, when the copy there is complete. -/
def comparedWith (s : State) (d sub : Nat) : Option Nat :=
  let h := if replicated s sub then s.pg 0x2221 1 else d
  if (s.die h).look.shadowOn.contains sub then some h else none

/-- Buckets, or 64-byte lines of an index table, that the scrubber walks. -/
def scrubCount (s : State) (sub : Nat) : Nat :=
  match sub with
  | 2 => 262144 | 3 => 262144 | 5 => 8192
  | _ => ((shadowCodes s sub).map (tabBuckets s)).sum

/-- The table and bucket of a scrubber position in a shadow. -/
def scrubAt (s : State) : List Nat → Nat → Nat × Nat
  | [], n => (0, n)
  | c :: r, n => if n < tabBuckets s c then (c, n) else scrubAt s r (n - tabBuckets s c)

/-- The numbers of an index table in one 64-byte line. -/
def lineItems (sub n : Nat) : List Nat :=
  match sub with
  | 2 => (List.range 4).map (fun i => n * 4 + i)
  | 3 => (List.range 16).map (fun i => n * 16 + i)
  | _ => [n]

/-- The two CRCs of a position: of SRAM and of the shadow on die h (R252). -/
def scrubCrcs (s : State) (d h sub n : Nat) : Nat × Nat :=
  if sub = 2 ∨ sub = 3 ∨ sub = 5 then
    let bytes := fun (f : Nat → Nat) => (lineItems sub n).flatMap (fun i => toBytesLE (itemBytes sub) (f i))
    let sh := mget (s.die h).look.shadowIdx sub
    (crc32c (bytes (idxValue s d sub)), crc32c (bytes (fun i => (mget? sh i).getD (idxDefault sub))))
  else
    let (c, b) := scrubAt s (shadowCodes s sub) n
    (bucketCrc c ((bucketAt s d c b).getD {}), bucketCrc c (mget (mget (mget (s.die h).look.shadow sub) c).buckets b))

/-- The position's line is fenced, so there is nothing to compare. -/
def scrubFenced (s : State) (d sub n : Nat) : Bool :=
  match sub with
  | 2 => lineFenced s d (0x0D000000 + n * 64) 2
  | 3 => lineFenced s d (0x0E000000 + n * 64) 3
  | 5 => lineFenced s d (0x0F800000 + n * 64) 5
  | _ => let (c, b) := scrubAt s (shadowCodes s sub) n; bucketFenced s d c b

/-- The byte offset of a position in the shadow region (R253). -/
def scrubOff (s : State) (sub n : Nat) : Nat :=
  let w : ShWrite := if sub = 2 ∨ sub = 3 ∨ sub = 5 then { sub := sub, no := (lineItems sub n).headD 0 }
    else let (c, b) := scrubAt s (shadowCodes s sub) n; { sub := sub, code := c, no := b }
  (shadowPlace s w).1

/-- The 64-byte lines of a position. -/
def scrubLines (s : State) (sub n : Nat) : Nat :=
  if sub = 2 ∨ sub = 3 ∨ sub = 5 then 1 else bucketBytes (scrubAt s (shadowCodes s sub) n).1 / 64

/-- A position's shadow is read through the map (R252, R290, R301): whether it was read, with its faults counted and reported;
`poison` marks a line that the expander returns as poison (R304). -/
def shadowRead (d h sub n : Nat) (poison : Bool) (s : State) : Bool × State :=
  let o := scrubOff s sub n
  if !(d == h || s.reach d h) || s.isolated h then (false, s)
  else
    let (c, k, s) := (List.range (scrubLines s sub n)).foldl (fun (x : Nat × Nat × State) i =>
      if x.1 ≠ 0 then x
      else
        let (c, t) := access h 3 (o / 2 ^ 21) (o % 2 ^ 21 + 64 * i) x.2.2
        (c, if c = 0 then x.2.1 + 1 else x.2.1, t)) (0, 0, s)
    let s := s.dinc h 0x4401 0xB k
    if c ≠ 0 then (false, s)
    else if poison then (false, (poisonLine h (dva h 3 (o / 2 ^ 21) (o % 2 ^ 21 / 64 * 64)) s).dinc h 0x4420 0xB 1)
    else (true, s)

/-- The time scrubbing has stood still since it was last counted goes to 4630.05 (R252, Table 7.17). -/
def scrubSettle (d : Nat) (s : State) : State :=
  match (s.die d).look.scrubAt with
  | none => s
  | some t => (s.dinc d 0x4630 5 ((s.now - t) / 1000)).onDie d (fun x => { x with look.scrubAt := some (s.now - (s.now - t) % 1000) })

/-- The 64-byte line of SRAM a position begins at (R613). -/
def scrubLine (s : State) (sub n : Nat) : Nat :=
  match sub with
  | 2 => 0x0D000000 / 64 + n
  | 3 => 0x0E000000 / 64 + n
  | 5 => 0x0F800000 / 64 + n
  | _ => let (c, b) := scrubAt s (shadowCodes s sub) n; bucketOffset s c b / 64

/-- The banks of a position's lines. -/
def scrubBanks (s : State) (sub n : Nat) : List Nat := (List.range (scrubLines s sub n)).map (fun i => (scrubLine s sub n + i) % 8)

/-- The scrubber, or another requester, reads a position's lines (R225). -/
def scrubGrant (q d sub n : Nat) (s : State) : State :=
  bankGrant d q (scrubBanks s sub n) (spanParity d (scrubLine s sub n) (scrubLines s sub n) s)

/-- SCRUB_BUCKET (R252): the scrubber compares its next bucket, and looks again at one that differs after 10 µs. While the
shadow cannot be reached it stands still; `poison`: the expander returns a line of the shadow as poison (R304). -/
def scrubBucket (d : Nat) (poison : Bool) (s : State) : State :=
  let subs := shadowSubs.filter (fun k => (comparedWith s d k).isSome && s.pg 0x2220 k != 0 && decide (0 < scrubCount s k))
  let look := (s.die d).look
  let cur := mget look.scrubPos 0
  match (subs.find? (fun k => decide (cur ≤ k))).orElse (fun _ => subs.head?) with
  | none => s
  | some sub =>
    match comparedWith s d sub with
    | none => s
    | some h =>
      let n := if sub = cur then mget look.scrubPos 1 else 0
      if s.pg 0x2221 2 = 0 then s
      else
      let (read, s) := shadowRead d h sub n poison s
      if !read then
        match look.scrubAt with
        | none => s.onDie d (fun x => { x with look.scrubAt := some s.now })
        | some _ => scrubSettle d s
      else
        let next := if n + 1 < scrubCount s sub then (sub, n + 1) else (sub + 1, 0)
        let s := scrubSettle d s
        let s := s.onDie d (fun x => { x with
          look.scrubAt := none, look.scrubPos := mput (mput x.look.scrubPos 0 next.1) 1 next.2 })
        let s := scrubGrant 5 d sub n (s.dinc d 0x4630 1 1)
        let c := scrubCrcs s d h sub n
        if c.1 = c.2 ∨ scrubFenced s d sub n then s
        else s.onDie d (fun x => { x with look.recheck := x.look.recheck ++ [(sub, n)] })

/-- The bucket number a mismatch names: within its table. -/
def scrubBucketNo (s : State) (sub n : Nat) : Nat :=
  if sub = 2 ∨ sub = 3 ∨ sub = 5 then n else (scrubAt s (shadowCodes s sub) n).2

/-- Write a position from the shadow (R252, R532), its move_gen raised by g, and the image back to the shadow as well. -/
def scrubRepair (g : BitVec 8) (d h sub n : Nat) (s : State) : State :=
  if sub = 2 ∨ sub = 3 ∨ sub = 5 then
    let sh := mget (s.die h).look.shadowIdx sub
    (bankWrite d 4 (scrubBanks s sub n) s).each (lineItems sub n) fun i s =>
      let v := (mget? sh i).getD (idxDefault sub)
      s.onDie d (fun x => match sub with
        | 2 => { x with look.nextHop := mputD nhDefault x.look.nextHop i (BitVec.ofNat 128 v) }
        | 3 => { x with look.ecmp := mput x.look.ecmp i (BitVec.ofNat 32 v) }
        | _ => { x with look.root := mput x.look.root i ((List.range 8).filterMap (fun k =>
            let w := bits v (64 * (7 - k) + 63) (64 * (7 - k))
            if bit w 63 then some (k, { len := bits w 62 56, pfx := bits w 55 32, result := bits w 31 0 }) else none)) })
  else
    let (c, b) := scrubAt s (shadowCodes s sub) n
    let v := mget (mget (mget (s.die h).look.shadow sub) c).buckets b
    let v := { v with gen := v.gen + g }
    shadowWrite h { sub := sub, code := c, no := b, v := v } (storeBucket 4 d c b v s)

/-- The second look at the bucket that differed first, with its repair (R252). -/
def recheckDo (d : Nat) (poison : Bool) (s : State) : State :=
  match (s.die d).look.recheck with
  | [] => s
  | (sub, n) :: rest =>
    let s := s.onDie d (fun x => { x with look.recheck := rest })
    match comparedWith s d sub with
    | none => s
    | some h =>
      let (read, s) := shadowRead d h sub n poison s
      if !read then s.onDie d (fun x => { x with look.recheck := x.look.recheck ++ [(sub, n)] }) else
      let s := scrubGrant 5 d sub n s
      let c := scrubCrcs s d h sub n
      if c.1 = c.2 then s.dinc d 0x4630 6 1
      else
        let b := scrubBucketNo s sub n
        if s.pg 0x2220 sub = 2 then
          let s := (scrubRepair 1 d h sub n (engGrant d 3 s)).dinc d 0x4630 3 1
          s.reportOpen d 6 (scrubLine s sub n % 8) 2 0x1C0 0x40 (scrubLine s sub n)
        else
          let s := (s.dinc d 0x4630 2 1).dset d 0x4630 4 (sub <<< 56 ||| b)
          s.reportOpen d 6 (scrubLine s sub n % 8) 1 0x1C0 0x40 (scrubLine s sub n)

/-- SCRUB_RECHECK (R252): the second look, 10 µs after the first. A repair needs the table engine, and asks for it (R242). -/
def scrubRecheck (d : Nat) (poison : Bool) (s : State) : State :=
  match (s.die d).look.recheck with
  | [] => s
  | (sub, _) :: _ => if s.pg 0x2220 sub = 2 ∧ !engFree s d then engAsks d 3 (b2n poison) s else recheckDo d poison s

/-- EXACT_SEARCH: search unit u serves an exact search at its head. -/
def execExactSearch (d : DieId) (u : Fin 4) (grants : List ReadAt) (s : State) : Host.Outcome State Fault Refusal :=
  onLive d (serveHead d u (fun p => decide (0x20 ≤ p) && decide (p ≤ 0x24)) (exactSearch d u grants)) s
/-- LEARN_EVENT_PROCESS. -/
def execLearnEventProcess (d : DieId) (s : State) : Host.Outcome State Fault Refusal := onLive d (learnStep d) s
/-- AGEING_SWEEP_VISIT of table t. -/
def execAgeingSweepVisit (d : DieId) (t : Fin 3) (s : State) : Host.Outcome State Fault Refusal := onLive d (sweepVisit d t) s
/-- SHADOW_COPY_DONE. -/
def execShadowCopyDone (sub : Fin 256) (s : State) : Host.Outcome State Fault Refusal := .next (shadowCopyDone sub s)
/-- SCRUB_BUCKET; `poison`: the expander returns a line of the shadow as poison. -/
def execScrubBucket (d : DieId) (poison : Bool) (s : State) : Host.Outcome State Fault Refusal := onLive d (scrubBucket d poison) s
/-- SCRUB_RECHECK; `poison` as for SCRUB_BUCKET. -/
def execScrubRecheck (d : DieId) (poison : Bool) (s : State) : Host.Outcome State Fault Refusal := onLive d (scrubRecheck d poison) s

end Sys2Proof.Machine
end

