-- ==== Sys2Proof/Machine/Context.lean ====
section
/-! DEFINITION. Deep-request queues, context reads, locks and page commands (Flow Contexts and the Context Map). -/

namespace Sys2Proof.Machine

/-! ### The deep-request queue (R196 to R199) -/

/-- The engine cycles of a dispatch hold since they were last counted go to 4610.0C (R197): two a nanosecond. -/
def holdSettle (d : Nat) (s : State) : State :=
  if !(s.die d).look.deepHold then s
  else (s.dinc d 0x4610 0xC (2 * (s.now - (s.die d).look.holdAt))).onDie d (fun x => { x with look.holdAt := s.now })

/-- Change the deep-request queue of a die; the dispatch hold follows its depth (R197), and its peak is noted (4610.0E). -/
def setDeepQ (d : Nat) (q : List DeepReq) (s : State) : State :=
  let s := holdSettle d s
  let s := s.dset d 0x4610 0xE (max (s.dg d 0x4610 0xE) (max (s.die d).look.deepQ.length q.length))
  s.onDie d (fun x => { x with
    look.deepQ := q
    look.deepHold := if 2048 ≤ q.length then true else if q.length ≤ 1920 then false else x.look.deepHold
    look.holdAt := s.now })

/-- The search cycles a unit's staging list has been full since they were last counted go to 4610.0F: 8 in 5 ns. -/
def stagingSettle (d u : Nat) (s : State) : State :=
  let k := sunit s d u
  if k.staging.length < 64 then s
  else onSunit d u (fun k => { k with fullAt := s.now }) (s.dinc d 0x4610 0xF (s.now * 8 / 5 - k.fullAt * 8 / 5))

/-- Change the staging list of a unit (R197). -/
def setStaging (d u : Nat) (l : List DeepReq) (s : State) : State :=
  onSunit d u (fun k => { k with staging := l, fullAt := s.now }) (stagingSettle d u s)

/-- The counters of Table 6.16 that count time, brought up to date. -/
def fibSettle (d : Nat) (s : State) : State := (holdSettle d s).each (List.range 4) (stagingSettle d)

/-- The search unit of a request's cluster (R190). -/
def SReq.unit (q : SReq) : Nat := bits q.hdr.toNat 52 49 % 4

/-- The family of a FIB request, 0 IPv4 and 1 IPv6. -/
def SReq.fam (q : SReq) : Nat := if q.profile = 0x10 then 0 else 1

/-- The address of a FIB request. -/
def fibAddr (q : SReq) : Nat := if q.profile = 0x10 then bits (q.key 1) 31 0 else q.key 1 <<< 64 ||| q.key 2

/-- An address with every bit below a length 0. -/
def maskTo (fam len addr : Nat) : Nat := addr / 2 ^ (famW fam - len) * 2 ^ (famW fam - len)

/-- The key under which a FIB request looks for a length. -/
def SReq.prefixKey (q : SReq) (len : Nat) : Nat := Machine.prefixKey q.fam (bits (q.key 0) 11 0) len (maskTo q.fam len (fibAddr q))

/-- The table and bucket a lookup in the deep tier reads next (R192, R232). -/
def deepSpot (s : State) (r : DeepReq) : Nat × Nat :=
  let l := r.lens.headD 0
  let code := deepCode r.req.fam l
  let (ba, bb) := choices s code (r.req.prefixKey l)
  (code, if r.step = 1 then bb else ba)

/-- A request joins the end of a die's CXL port (R199). -/
def atPort (h : Nat) (m : HomeReq) (s : State) : State := s.onDie h (fun x => { x with look.port := x.look.port ++ [m] })

/-- Change an entry of the deep-request queue. -/
def onDeep (d : Nat) (r : DeepReq) (s : State) : State :=
  s.onDie d (fun x => { x with look.deepQ := x.look.deepQ.map (fun y => if y.no = r.no then r else y) })

/-- A lookup's next deep read is issued: its 64-byte reads are counted, and the lookup with its first one (4610.06, 4610.07). -/
def countAsked (d n : Nat) (r : DeepReq) (s : State) : State :=
  let s := s.when (r.asked == 0) (fun s => s.dinc d 0x4610 6 1)
  onDeep d { r with asked := r.asked + n } (s.dinc d 0x4610 7 n)

/-- A context fill that has come to its home: it waits for a pin when the line is cached (R295), else joins the port. -/
def fillAt (h a no c tag : Nat) (s : State) : State :=
  if (mget (s.die h).look.ctx c).valid then s.onDie h (fun x => { x with look.fillWait := x.look.fillWait ++ [.fill a no c tag] })
  else atPort h (.fill a no c tag) s

/-- A deep request asks its home for what it reads next: a context or a bucket of another die as a search request (R199, R284). -/
def askHome (d : Nat) (r : DeepReq) (s : State) : State :=
  match r.ctx with
  | some c => if r.home = d then fillAt d d r.no c r.req.tag s else s.send d r.home (.search (.fill d r.no c r.req.tag))
  | none =>
    let (code, b) := deepSpot s r
    let n := if r.step = 2 ∨ r.req.fam = 0 then 1 else 2
    let m : HomeReq := .bucket d r.no code b n r.req.tag
    let s := countAsked d n r s
    if r.home = d then atPort d m s else s.send d r.home (.search m)

/-- A request enters the deep-request queue; its slot becomes deferred (R126, R196), and the arbiter's pointer moves on (R23,
R198). -/
def pushDeep (d : Nat) (r : DeepReq) (s : State) : State :=
  let r := { r with no := (s.die d).look.deepNo }
  let q := (s.die d).look.deepQ ++ [r]
  let s := (setDeepQ d q s).onDie d (fun x => { x with look.deepNo := r.no + 1, look.deepPtr := (r.unit + 1) % 4 })
  let s := unitOpens d r.unit 0x44 r.req s
  askHome d r (deferSlot r.req.die r.req.rid r.req.slotNo s)

/-- A unit asks for an entry of the deep-request queue in the cycle in which unit u enters a request: u itself, and those whose
staged requests wait for one. -/
def deepAsks (s : State) (d u j : Nat) : Bool := j == u || (sunit s d j).staging.head?.any (fun r => !r.lockWait)

/-- The free entries go to the units that ask in the order of the arbiter, one each (R198). -/
def deepWins (s : State) (d u : Nat) : Bool :=
  (((List.range 4).map (fun i => ((s.die d).look.deepPtr + i) % 4)).filter (deepAsks s d u)).take (2048 - (s.die d).look.deepQ.length)
    |>.contains u

/-- A unit's staging list is full (R197). -/
def stagingFull (s : State) (d u : Nat) : Bool := decide (64 ≤ (sunit s d u).staging.length)

/-- A deep request enters the queue, or waits in its unit's staging list (R197, R198). -/
def enterDeep (d : Nat) (r : DeepReq) (s : State) : State :=
  if deepWins s d r.unit ∧ (sunit s d r.unit).staging.isEmpty then pushDeep d r s
  else setStaging d r.unit ((sunit s d r.unit).staging ++ [r]) s

/-- The entry of a number in a die's deep-request queue. -/
def deepReq? (s : State) (d no : Nat) : Option DeepReq := (s.die d).look.deepQ.find? (fun r => r.no == no)

/-- An entry leaves the deep-request queue. -/
def leaveDeep (d no : Nat) (s : State) : State := setDeepQ d ((s.die d).look.deepQ.filter (fun r => r.no != no)) s

/-- Answer a request with a fault of a page (R301). -/
def faultAnswer (q : SReq) (code page : Nat) (s : State) : State :=
  respond q.die { rid := q.rid, sl := q.slotNo, fault := code, page := page } s

/-- The deep request of a response is answered: its entry, if it has one, is free (R196). -/
def deepAnswered (d : Nat) (no : Option Nat) (r : SResp) (s : State) : State :=
  match no with
  | none => respond d r s
  | some n => if (deepReq? s d n).isSome then respond d r (leaveDeep d n s) else s

/-- A home die answers a context read: at once when it asked itself, otherwise over the saddles (R284). -/
def homeReply (h : Nat) (q : SReq) (no : Option Nat) (r : SResp) (s : State) : State :=
  let r := { r with rid := q.rid, sl := q.slotNo, tag := q.tag }
  if q.die = h then deepAnswered h no r s else s.send h q.die (.answer (.reply no r))

/-! ### Context reads (R287, R292 to R295) -/

/-- The page of region 1 and the offset a context has (R287). -/
def ctxPage (c : Nat) : Nat := bits c 23 14
def ctxOff (c : Nat) : Nat := bits c 13 0 * 128

/-- The page a fault of a context names. -/
def ctxFaultPage (h c : Nat) : Nat := dva h 1 (ctxPage c) 0 / 2 ^ 21

/-- The context a request reads (Table 9.4). -/
def SReq.ctxNo (q : SReq) : Nat := bits (q.key 0) 23 0

/-- The cached line of a context at its home. -/
def ctxLine (s : State) (c : Nat) : CtxLine := mget (s.die (ctxHome s c)).look.ctx c

/-- The cache lines of a context's set (16-way, R294). -/
def ctxSet (s : State) (c : Nat) : List (Nat × CtxLine) :=
  (s.die (ctxHome s c)).look.ctx.filter (fun x => x.1 % 16384 == c % 16384 && x.2.valid)

/-- A line may be pinned: it is already, or fewer than 12 ways of its set are (R295). -/
def mayPin (s : State) (c : Nat) : Bool :=
  decide (0 < (ctxLine s c).pins) || decide (((ctxSet s c).filter (fun x => decide (0 < x.2.pins))).length < 12)

/-- The expander's line of a context, by the map. -/
def expLine (s : State) (h c : Nat) : Nat := (mapEntry s h (pageNo 1 (ctxPage c))).hpa * 16384 + c % 16384

/-- Write a dirty line back to the expander (R290, R295). -/
def writeBack (h c : Nat) (s : State) : State :=
  let l := mget (s.die h).look.ctx c
  if !l.dirty then s
  else
    let s := translate h (pageNo 1 (ctxPage c)) s
    let at_ := expLine s h c
    let s := s.onDie h (fun x => { x with
      look.exp := mput x.look.exp at_ l.words
      look.ctx := mmod x.look.ctx c (fun l => { l with dirty := false }) })
    let s := (s.dinc h 0x4420 4 1).dinc h 0x4401 0xC 2
    cureLine h (dva h 1 (ctxPage c) (ctxOff c + 64)) (cureLine h (dva h 1 (ctxPage c) (ctxOff c)) s)

/-- A line may leave the cache now: not pinned, and if dirty its writeback can be made (R305, R308). -/
def evictable (s : State) (h : Nat) (x : Nat × CtxLine) : Bool :=
  x.2.pins == 0 && (!x.2.dirty || (cxlReady s h && (mapEntry s h (pageNo 1 (ctxPage x.1))).state != 2))

/-- A request's run, if it still runs. -/
def runOf (s : State) (q : SReq) : Option Run := (findRun s q.die q.rid).map (·.2)

/-- Answer a context read from the cache: words, pin and response (R292, R293, R295). One whose run is gone only frees its
deep-request entry. -/
def ctxAnswer (h : Nat) (q : SReq) (skipped : Bool) (source : Nat) (no : Option Nat) (s : State) : State :=
  let c := q.ctxNo
  let f := bits (q.key 0) 35 32
  match runOf s q with
  | none => homeReply h q no {} s
  | some r =>
    let l := ctxLine s c
    let w := fun (i : Nat) => if 15 < f + i then (0 : Word) else mget l.words (f + i)
    let locked := r.lock == some c
    let s := s.onDie h (fun x => { x with look.ctx := mmod x.look.ctx c (fun l => { l with pins := l.pins + 1 }) })
    let s := onRun q.die q.rid (fun r => { r with pins := r.pins ++ [c] }) s
    homeReply h q no { slot := { hdr := slotHdr 3 source q.profile 0 0 (b2n locked <<< 31 ||| b2n skipped <<< 30 ||| c)
                                 p1 := w 0, p2 := w 1, p3 := w 2, ctx := some c } } s

/-- A context read needs a place in the deep-request queue of the die that asked, or in its staging list: there at once, or told to
that die (R284, R294, R299). -/
def toAsker (h : Nat) (r : DeepReq) (s : State) : State :=
  if r.req.die ≠ h then s.send h r.req.die (.answer (.miss r.req r.skipped r.pinWait r.lockWait))
  else if r.lockWait then setStaging h r.unit ((sunit s h r.unit).staging ++ [r]) s
  else enterDeep h r s

/-- A home's word that a context read waits reaches the die that asked: the read enters the deep-request queue or the staging
list; none when the list of its unit is full (R197). -/
def missEnter (a : Nat) (q : SReq) (skipped pinWait lockWait : Bool) (s : State) : Option State :=
  let r : DeepReq := { unit := q.unit, req := q, ctx := some q.ctxNo, home := ctxHome s q.ctxNo
                       skipped := skipped, pinWait := pinWait, lockWait := lockWait }
  if (runOf s q).isNone then some s
  else if stagingFull s a q.unit then none
  else if lockWait then some (setStaging a q.unit ((sunit s a q.unit).staging ++ [r]) s)
  else some (enterDeep a r s)

/-- Serve a context read that needs no lock, or whose run holds it: a hit is answered, one of a set whose pins are used up
waits as a fill does, a miss becomes a deep request of the die that asked (R294, R295, R301, R305). -/
def ctxServe (h : Nat) (q : SReq) (skipped : Bool) (s : State) : State :=
  let c := q.ctxNo
  let r : DeepReq := { unit := q.unit, req := q, ctx := some c, home := h, skipped := skipped }
  if (ctxLine s c).valid then
    let s := unitEvent q.die q.unit 0x47 1 q s
    if mayPin s c then ctxAnswer h q skipped 3 none (s.dinc h 0x4420 2 1)
    else toAsker h { r with pinWait := true } s
  else
    let s := unitEvent q.die q.unit 0x48 1 q s
    let code := accessCode s h 1 (ctxPage c) (ctxOff c)
    if code = 5 ∨ code = 6 then
      homeReply h q none { fault := code, page := ctxFaultPage h c } (mapFault h code (dva h 1 (ctxPage c) (ctxOff c)) s)
    else toAsker h r s

/-- A home die cannot be reached, or is Isolated (code 7 of Table 9.5). -/
def homeGone (s : State) (d h : Nat) : Bool := s.isolated h || (d != h && !s.reach d h) || !s.has h

/-- A read of a home die that cannot be reached ends with code 7. -/
def goneAnswer (d h c : Nat) (q : SReq) (s : State) : State := faultAnswer q 7 (ctxFaultPage h c) (s.dinc d 0x4420 0xF 1)

/-- A 0x40 read at its home. -/
def contextAt (h : Nat) (q : SReq) (s : State) : State := ctxServe h q false (s.dinc h 0x4420 1 1)

/-- A context read at a unit's head: its home serves it, or it travels there as a search request (R284); it waits while that
class has no credit (R31). -/
def contextHead (d u p : Nat) (serve : SReq → State → State) (s : State) : State :=
  match (sunit s d u).reqs with
  | [] => s
  | q :: _ =>
    let h := ctxHome s q.ctxNo
    if homeGone s d h then serveHead d u (fun x => x == p) (fun q s => goneAnswer d h q.ctxNo q s) s
    else if h = d then serveHead d u (fun x => x == p) serve s
    else if saddleFree s d h 2 then serveHead d u (fun x => x == p) (fun q s => s.send d h (.search (.context q))) s
    else s

/-- A home can answer another die now: that class has credit (R31). -/
def canAnswer (s : State) (h a : Nat) : Bool := a == h || saddleFree s h a 1

/-- The oldest context read that has come to a home die by a saddle side, when it is of a profile (R294). One whose home has
changed since goes on to the new one; it waits while no answer could be sent (R31). -/
def contextSide (h k p : Nat) (serve : SReq → State → State) (s : State) : State :=
  match takeMsg h (fun b => match b with | .search (.context _) => true | _ => false) (s.msgs.filter (fun m => m.dst == h && m.arrived && m.via == k)) with
  | none => s
  | some (m, _) =>
    match m.body with
    | .search (.context q) =>
      let t := leaveBuffer m { s with msgs := s.msgs.filter (fun x => x.id != m.id) }
      if ctxHome s q.ctxNo ≠ h then t.send h (ctxHome s q.ctxNo) (.search (.context q))
      else if q.profile = p ∧ canAnswer s h q.die then serve q t else s
    | _ => s

/-- Requester u of the context cache of a die is granted: search unit 0 to 3, or a saddle side at 4 to 7; the pointer moves on
(R23, R294). -/
def contextServe (d : Nat) (u : Fin 8) (p : Nat) (serve : SReq → State → State) (s : State) : State :=
  let granted := fun (q : SReq) (s : State) => serve q (s.onDie d (fun x => { x with look.ctxPtr := (u.val + 1) % 8 }))
  if u.val < 4 then contextHead d u p granted s else contextSide d (u.val - 4) p granted s

/-! ### Locks (R298 to R300) -/

/-- A lock is held, or requests already wait for it. -/
def lockBusy (s : State) (h c : Nat) : Bool :=
  let l := mget (s.die h).look.locks c
  l.holder.isSome || !l.queue.isEmpty

/-- Requests in the lock wait queue of a die. -/
def lockWaiting (s : State) (h : Nat) : Nat := ((s.die h).look.locks.map (fun x => x.2.queue.length)).sum

/-- The lock table or the wait queue of a home die is full (R299). -/
def lockFull (s : State) (h : Nat) : Bool :=
  decide (4096 ≤ (s.die h).look.locks.length) || decide (8192 ≤ lockWaiting s h)

/-- Give a lock to a request's run. -/
def takeLock (h c : Nat) (q : SReq) (s : State) : State :=
  let s := s.onDie h (fun x => { x with look.locks := mmod x.look.locks c (fun l => { l with holder := some q.rid }) })
  let s := s.dinc h 0x4420 5 1
  onRun q.die q.rid (fun r => { r with lock := some c }) s

/-- A request's run holds a lock already, or waits for one: then it takes no other, so that waiting forms no cycle (R298; log
entry 93). -/
def holdsLock (s : State) (q : SReq) : Bool :=
  (runOf s q).any (fun r => r.lock.isSome) ||
    (s.present).any (fun h => (s.die h).look.locks.any (fun x => x.2.queue.any (fun y => y.rid == q.rid && y.die == q.die)))

/-- A 0x41 read reaches its home (R298, R299): without a second lock it is served as a 0x40 read. -/
def lockRead (h : Nat) (q : SReq) (s : State) : State :=
  let c := q.ctxNo
  if holdsLock s q then ctxServe h q true (s.dinc h 0x4420 7 1)
  else if (runOf s q).isNone then s
  else if lockBusy s h c then
    let s := s.onDie h (fun x => { x with look.locks := mmod x.look.locks c (fun l => { l with queue := l.queue ++ [q] }) })
    let s := s.dinc h 0x4420 6 1
    if q.die = h then deferSlot h q.rid q.slotNo s else s.send h q.die (.answer (.deferred q))
  else ctxServe h q false (takeLock h c q s)

/-- A 0x41 read at its home; while the lock table or the wait queue is full it waits in the staging list of the unit that made
it (R299). -/
def contextUpdateAt (h : Nat) (q : SReq) (s : State) : State :=
  let s := if q.again then s else s.dinc h 0x4420 1 1
  if lockFull s h && !holdsLock s q then
    toAsker h { unit := q.unit, req := q, ctx := some q.ctxNo, home := h, lockWait := true } s
  else lockRead h q s

/-- LOCK_GRANT (R299): a released lock passes to the oldest waiting read whose run still runs. -/
def lockGrant (c : Nat) (s : State) : State :=
  let h := ctxHome s c
  let l := mget (s.die h).look.locks c
  if l.holder.isSome then s
  else
    match l.queue.dropWhile (fun q => (runOf s q).isNone) with
    | [] => s.onDie h (fun x => { x with look.locks := mdel x.look.locks c })
    | q :: rest =>
      if !canAnswer s h q.die || (q.die == h && stagingFull s h q.unit) then s else
      let s := s.onDie h (fun x => { x with look.locks := mput x.look.locks c { holder := none, queue := rest } })
      if holdsLock s q then ctxServe h q true (s.dinc h 0x4420 7 1)
      else ctxServe h q false (takeLock h c q s)

/-- The head of a unit's staging list may move on: one that waits for a lock when the lock table has room, or to its home when that
is another die and the class has credit (R31, R299); one that waits for an entry when one is free. -/
def stagedReady (s : State) (d u : Nat) (lock : Bool) : Bool :=
  match (sunit s d u).staging with
  | [] => false
  | r :: _ =>
    r.lockWait == lock && (homeGone s d r.home ||
      (if lock then (if r.home = d then !lockFull s d else saddleFree s d r.home 2) else decide ((s.die d).look.deepQ.length < 2048)))

/-- A staged request moves on: it tries again for its lock, or enters the queue, unless its home or its home's port has been
lost meanwhile (R201, Table 9.5). -/
def stagedGo (d : Nat) (r : DeepReq) (s : State) : State :=
  let page := match r.ctx with | some c => ctxFaultPage r.home c | none => dva r.home 0 0 0 / 2 ^ 21
  if homeGone s d r.home then faultAnswer r.req 7 page (s.dinc d 0x4420 0xF 1)
  else if r.lockWait then
    if r.home = d then lockRead d r.req s else s.send d r.home (.search (.context { r.req with again := true }))
  else if r.ctx.isNone ∧ !cxlReady s r.home then faultAnswer r.req 0xA page (s.dinc d 0x4610 0xB 1)
  else pushDeep d r s

/-- The head of a unit's staging list moves on. -/
def stagedHead (d u : Nat) (s : State) : State :=
  match (sunit s d u).staging with
  | [] => s
  | r :: rest => stagedGo d r (setStaging d u rest s)

/-- The oldest word of a home that found a unit's staging list full, and finds room in it now. -/
def missTake (d : Nat) (s : State) : State :=
  s.receive d (fun b => match b with
    | .answer (.miss q ..) => !stagingFull s d q.unit
    | _ => false) fun m s =>
    match m.body with
    | .answer (.miss q a b c) => (missEnter d q a b c s).getD s
    | _ => s

/-- DEEP_STAGING_ADMIT (R197, R198, R299): staged reads try again for their locks, one staged request is granted a queue entry,
which moves the arbiter's pointer, and a read that its home has sent back takes a place that is free. -/
def stagingAdmit (d : Nat) (s : State) : State :=
  let s := s.each (List.range 4) (fun u s => if stagedReady s d u true then stagedHead d u s else s)
  let s := match arbiter 4 (s.die d).look.deepPtr (fun u => stagedReady s d u false) with
    | none => s
    | some u => stagedHead d u s
  missTake d s

/-! ### Fills (R294, R295) -/

/-- Put a context's line into its set, evicting a free choice of its lines when all 16 ways are in use; none when 12
ways are pinned or no line can leave. -/
def fillLine (h c : Nat) (s : State) : Option State :=
  let set := ctxSet s c
  if 12 ≤ (set.filter (fun x => decide (0 < x.2.pins))).length then none
  else
    let read := fun (s : State) =>
      let w := mget (s.die h).look.exp (expLine s h c)
      (s.onDie h (fun x => { x with look.ctx := mput x.look.ctx c { valid := true, words := w } })).dinc h 0x4420 3 1
    if set.length < 16 then some (read s)
    else
      let out := set.filter (evictable s h)
      if out.isEmpty then none
      else
        let (f, s) := s.fresh
        match out[f % out.length]? with
        | none => none
        | some x =>
          let s := writeBack h x.1 s
          some (read (s.onDie h (fun y => { y with look.ctx := mdel y.look.ctx x.1 })))

/-- A fill, or a hit that waited, is tried at its home for a deep request; it waits while its set takes no more pins. -/
def tryFill (h a no c tag : Nat) (s : State) : State :=
  let wait := s.onDie h (fun x => { x with look.fillWait := x.look.fillWait ++ [.fill a no c tag] })
  match deepReq? s a no with
  | none => s
  | some r =>
    if (ctxLine s c).valid then
      if mayPin s c then ctxAnswer h r.req r.skipped (if r.pinWait then 3 else 4) (some no) (if r.pinWait then s.dinc h 0x4420 2 1 else s)
      else wait
    else match fillLine h c s with
      | none => wait
      | some s => ctxAnswer h r.req r.skipped 4 (some no) s

/-- Both lines of a context are read through the map: the fault code, 0 when neither faults. -/
def ctxAccess (h c : Nat) (s : State) : Nat × State :=
  let (code, s) := access h 1 (ctxPage c) (ctxOff c) s
  if code = 0 then access h 1 (ctxPage c) (ctxOff c + 64) s else (code, s)

/-- The reads of a context miss return at its home; `poison` marks either line (R294, R301, R304). -/
def fillRead (h a no c tag poison : Nat) (s : State) : State :=
  match deepReq? s a no with
  | none => s
  | some r =>
    let fault := fun (code : Nat) (s : State) => homeReply h r.req (some no) { fault := code, page := ctxFaultPage h c } s
    let (code, s) := ctxAccess h c s
    if code ≠ 0 then fault code s
    else
      let s := s.dinc h 0x4401 0xB 2
      if poison ≠ 0 then
        let s := if poison % 2 = 1 then poisonLine h (dva h 1 (ctxPage c) (ctxOff c)) s else s
        let s := if 2 ≤ poison then poisonLine h (dva h 1 (ctxPage c) (ctxOff c + 64)) s else s
        fault 3 (s.dinc h 0x4420 0xB 1)
      else tryFill h a no c tag s

/-- Context reads of a die that are with another die: on the way there, waiting for a lock there, or on the way back; by home,
run, slot and context. -/
def strayReads (s : State) (d : Nat) : List (Nat × Nat × Nat × Nat) :=
  s.msgs.filterMap (fun m => match m.body with
    | .search (.context q) => if q.die = d then some (m.dst, q.rid, q.slotNo, q.ctxNo) else none
    | .answer (.miss q ..) => if m.dst = d then some (m.src, q.rid, q.slotNo, q.ctxNo) else none
    | .answer (.reply none r) => if m.dst = d then some (m.src, r.rid, r.sl, r.slot.ctx.getD 0) else none
    | _ => none) ++
  (s.present).flatMap (fun h => if h = d then [] else (s.die h).look.locks.flatMap (fun x => x.2.queue.filterMap (fun q =>
    if q.die = d then some (h, q.rid, q.slotNo, q.ctxNo) else none)))

/-- A context read with another die is given up: what stands for it there or on the way is gone, and its slot gets code 7. -/
def endStray (d : Nat) (x : Nat × Nat × Nat × Nat) (s : State) : State :=
  let (h, rid, sl, c) := x
  let mine := fun (b : MsgBody) => match b with
    | .search (.context q) => q.die == d && q.rid == rid && q.slotNo == sl
    | .answer (.miss q ..) => q.die == d && q.rid == rid && q.slotNo == sl
    | .answer (.deferred q) => q.die == d && q.rid == rid && q.slotNo == sl
    | .answer (.reply none r) => r.rid == rid && r.sl == sl
    | _ => false
  let s := s.dropMsgs (fun m => mine m.body)
  let s := s.onDie h (fun y => { y with look.locks := y.look.locks.map (fun l =>
    (l.1, { l.2 with queue := l.2.queue.filter (fun q => !(q.die == d && q.rid == rid && q.slotNo == sl)) })) })
  respond d { rid := rid, sl := sl, fault := 7, page := ctxFaultPage h c } (s.dinc d 0x4420 0xF 1)

/-- A deep request is given up because its home is lost (code 7 of Table 9.5). -/
def endGone (d : Nat) (r : DeepReq) (s : State) : State :=
  let page := match r.ctx with
    | some c => ctxFaultPage r.home c
    | none => let (code, b) := deepSpot s r; dva r.home 0 (bucketOffset s code b / 2 ^ 21) 0 / 2 ^ 21
  faultAnswer r.req 7 page (leaveDeep d r.no (s.dinc d 0x4420 0xF 1))

/-- A home die is reset or lost: what other dies have asked of it ends with code 7. -/
def homeLost (h : Nat) (s : State) : State :=
  s.each ((s.present).filter (· != h)) fun d s =>
    let s := s.each ((s.die d).look.deepQ.filter (fun r => r.home == h)) (endGone d)
    s.each ((strayReads s d).filter (fun x => x.1 == h)) (endStray d)

/-- CONTEXT_FILL_COMPLETE (R294, R301, R304): the first context read of the die whose home has gone ends, or the two reads of
the context miss at the head of the die's port return; `poison` marks either line. -/
def fillComplete (d : Nat) (poison : Fin 4) (s : State) : State :=
  match (s.die d).look.deepQ.find? (fun r => r.ctx.isSome && homeGone s d r.home) with
  | some r => endGone d r s
  | none =>
    match (strayReads s d).find? (fun x => homeGone s d x.1) with
    | some x => endStray d x s
    | none =>
      match (s.die d).look.port with
      | .fill a no c tag :: rest =>
        if canAnswer s d a then fillRead d a no c tag poison (s.onDie d (fun x => { x with look.port := rest })) else s
      | _ => s

/-- FILL_PIN_WAIT (R295): a fill that waited on its set's pins is tried again; it reads its lines anew. -/
def fillPinWait (d i : Nat) (s : State) : State :=
  match (s.die d).look.fillWait[i]? with
  | some (.fill a no c tag) =>
    if !canAnswer s d a then s else
    let s := s.onDie d (fun x => { x with look.fillWait := x.look.fillWait.eraseIdx i })
    if (ctxLine s c).valid then tryFill d a no c tag s
    else
      let (code, s) := ctxAccess d c s
      if code = 0 then tryFill d a no c tag (s.dinc d 0x4401 0xB 2)
      else match deepReq? s a no with
        | none => s
        | some r => homeReply d r.req (some no) { fault := code, page := ctxFaultPage d c } s
  | _ => s

/-- PAGE_EVENT_RECEIVE (R302): every waiting context whose recorded page the event names becomes ready. -/
def pageEventReceive (d : Nat) (s : State) : State :=
  s.receive d (fun b => match b with | .pageEvent .. => true | _ => false) fun m s =>
    match m.body with
    | .pageEvent h r p =>
      let page := dva h r p 0 / 2 ^ 21
      let wake := fun (k : ParkCtx) => if k.fault.any (fun f => f.2 == page) then { k with ready := true } else k
      s.onDie d (fun x => { x with
        eng.park := x.eng.park.map (fun y => (y.1, wake y.2))
        eng.clusters := x.eng.clusters.map (fun y => (y.1, { y.2 with
          threads := y.2.threads.map (fun z => (z.1, { z.2 with pre := z.2.pre.map wake })) })) })
    | _ => s

/-- Contexts of a die that wait on page faults (4420.11). -/
def waitingContexts (s : State) (d : Nat) : Nat :=
  ((s.die d).eng.park.filter (fun x => x.2.fault.isSome && !x.2.ready)).length +
    ((s.die d).eng.clusters.map (fun y => (y.2.threads.filter (fun z =>
      z.2.pre.any (fun k => k.fault.isSome && !k.ready))).length)).sum

/-! ### Page commands (R306 to R308) -/

/-- The cached contexts of a page. -/
def pageLines (s : State) (h n : Nat) : List (Nat × CtxLine) :=
  if n / 2 ^ 21 ≠ 1 then [] else (s.die h).look.ctx.filter (fun x => x.2.valid && ctxPage x.1 == n % 2 ^ 21 && ctxHome s x.1 == h)

/-- Write zeros to a page of the expander that holds contexts. -/
def zeroPage (h hpa : Nat) (s : State) : State :=
  s.onDie h (fun x => { x with look.exp := x.look.exp.filter (fun y => y.1 / 16384 != hpa) })

/-- A bucket of 128 bytes when one of its two 64-byte lines becomes zeros: line 1 holds the header and slot 0, the lines meet
in slot 1 (Table 6.2, R5). -/
def halfBucket (code line : Nat) (v : Bucket) : Bucket :=
  if code = stemCode then
    if line = 1 then { slots := (v.slots.filter (fun x => x.1 == 2)) }
    else { v with slots := (v.slots.filter (fun x => x.1 != 2)).map (fun x =>
      if x.1 = 1 then (x.1, { x.2 with hotMask := x.2.hotMask / 2 ^ 21 * 2 ^ 21, deepMask := 0 }) else x) }
  else if line = 1 then { slots := v.slots.filter (fun x => decide (2 ≤ x.1)) }
  else { v with slots := v.slots.filter (fun x => decide (x.1 < 2)) }

/-- The buckets of a table after zeros at byte offset `at_` of its region, `size` bytes long. -/
def zeroBuckets (code : Nat) (off : Nat → Nat) (at_ size : Nat) (m : Map Bucket) : Map Bucket :=
  m.filterMap (fun b =>
    let o := off b.1
    let hit := fun (line : Nat) => decide (at_ ≤ o + 64 * line) && decide (o + 64 * line < at_ + size)
    let v := if bucketBytes code = 64 then (if hit 0 then {} else b.2)
      else if hit 0 && hit 1 then {} else if hit 0 then halfBucket code 0 b.2 else if hit 1 then halfBucket code 1 b.2 else b.2
    if v = {} then none else some (b.1, v))

/-- Zeros are written at an offset of a region other than the contexts: deep buckets, counter totals, shadows, or the Cairn
record that lies there, which is then no record any more (Table 9.3; log entry 21). -/
def zeroRegion (h r at_ size : Nat) (s : State) : State :=
  match r with
  | 0 => s.onDie h (fun x => { x with look.tabs := x.look.tabs.map (fun y =>
      if isDeep y.1 then (y.1, { y.2 with buckets := zeroBuckets y.1 (bucketOffset s y.1) at_ size y.2.buckets }) else y) })
  | 2 => s.onDie h (fun x => { x with buf.stats := x.buf.stats.filter (fun y =>
      !(decide (at_ ≤ y.1 / 2 * 16) && decide (y.1 / 2 * 16 < at_ + size))) })
  | 3 => s.onDie h (fun x => { x with
      look.shadow := x.look.shadow.map (fun t => (t.1, t.2.map (fun c =>
        (c.1, { c.2 with buckets := zeroBuckets c.1 (fun b => (shadowPlace s { sub := t.1, code := c.1, no := b }).1) at_ size c.2.buckets }))))
      look.shadowIdx := x.look.shadowIdx.map (fun t => (t.1, (t.2.map (fun y =>
        let o := (shadowPlace s { sub := t.1, no := y.1 }).1
        (y.1, if at_ ≤ o ∧ o < at_ + size then 0 else y.2))))) })
  | 4 =>
    let half := s.dg h 0x4410 6 / 2 * 2097152
    let gone := fun (base : Nat) (c : Option Cairn) => c.filter (fun c => !(decide (at_ < base + c.length) && decide (base < at_ + size)))
    s.onDie h (fun x => { x with core.slotA := gone 0 x.core.slotA, core.slotB := gone half x.core.slotB })
  | _ => s

/-! ### Where the contents of pages lie (R288)

The contexts stand in the expander's memory by HPA. The contents of the other regions stand in this state under their own
numbers; `lies` says in which HPA page, and a page that is mapped elsewhere finds there what that memory holds. -/

/-- What this state keeps of a page of regions 0, 2 and 3: byte offset in the page, bytes, and value. -/
def pageItems (s : State) (h n : Nat) : List (Nat × Nat × Nat) :=
  let k := (s.die h).look
  let mine := fun (o size v : Nat) => if o / 2 ^ 21 = n % 2 ^ 21 then some (o % 2 ^ 21, size, v) else none
  match n / 2 ^ 21 with
  | 0 => k.tabs.flatMap (fun t => if isDeep t.1 then
      t.2.buckets.filterMap (fun b => mine (bucketOffset s t.1 b.1) (bucketBytes t.1) (bucketImage t.1 b.2)) else [])
  | 2 => (s.die h).buf.stats.filterMap (fun x => mine (x.1 * 8) 8 x.2)
  | 3 =>
    k.shadow.flatMap (fun t => t.2.flatMap (fun c => c.2.buckets.filterMap (fun b =>
      mine (shadowPlace s { sub := t.1, code := c.1, no := b.1 }).1 (bucketBytes c.1) (bucketImage c.1 b.2)))) ++
    k.shadowIdx.flatMap (fun t => t.2.filterMap (fun x => mine (shadowPlace s { sub := t.1, no := x.1 }).1 (itemBytes t.1) x.2))
  | _ => []

/-- Write a value of 4 or of a multiple of 8 bytes into the expander's memory, least significant byte first (R5). -/
def expPut (hpa : Nat) (m : Map (Map Word)) (x : Nat × Nat × Nat) : Map (Map Word) :=
  let (o, size, v) := x
  if size < 8 then
    mmod m (hpa * 16384 + o / 128) (fun l => mmod l (o / 8 % 16) (fun w =>
      let keep := if o / 4 % 2 = 0 then w.toNat / 2 ^ 32 * 2 ^ 32 else w.toNat % 2 ^ 32
      BitVec.ofNat 64 (keep + v % 2 ^ 32 * 2 ^ (o / 4 % 2 * 32))))
  else (List.range (size / 8)).foldl (fun m i =>
    mmod m (hpa * 16384 + (o + 8 * i) / 128) (fun l => mput l ((o + 8 * i) / 8 % 16) (BitVec.ofNat 64 (v >>> (64 * i))))) m

/-- Read bytes of the expander's memory, at most 128, least significant byte first. -/
def expGet (m : Map (Map Word)) (hpa o size : Nat) : Nat :=
  let word := fun (i : Nat) => (mget (mget m (hpa * 16384 + (o + 8 * i) / 128)) ((o + 8 * i) / 8 % 16)).toNat
  if size < 8 then word 0 / 2 ^ (o / 4 % 2 * 32) % 2 ^ 32
  else ((List.range (size / 8)).map (fun i => word i <<< (64 * i))).sum

/-- The deep table and bucket at a byte offset of region 0. -/
def deepAt (s : State) (o : Nat) : Option (Nat × Nat) :=
  (deepOrder.map (fun x => deepCode x.1 x.2)).findSome? (fun c =>
    if tabOffset s c ≤ o ∧ o < tabOffset s c + tabBuckets s c * bucketBytes c then some (c, (o - tabOffset s c) / bucketBytes c) else none)

/-- What lies at a byte offset of region 3: the shadow, and its table and bucket, or 0 and the number of an index table. -/
def shadowAt (s : State) (o : Nat) : Option (Nat × Nat × Nat) :=
  (shadowSubs.filter (fun k => s.pg 0x2220 k != 0)).findSome? (fun sub =>
    let base := shadowOffset s sub
    if o < base ∨ base + shadowBytes s sub ≤ o then none
    else if sub = 2 ∨ sub = 3 ∨ sub = 5 then some (sub, 0, (o - base) / itemBytes sub)
    else (shadowCodes s sub).findSome? (fun c =>
      let b0 := base + (if sub = 1 then tabOffset s c else 0)
      if b0 ≤ o ∧ o < b0 + tabBuckets s c * bucketBytes c then some (sub, c, (o - b0) / bucketBytes c) else none))

/-- The pages of region 4 that a record of a length takes at a slot of a die, by number in the region, slot 0 A and 1 B (R534,
Table 9.3). -/
def slotPages (s : State) (h slot len : Nat) : List Nat := (List.range (ceilDiv len 2097152)).map (fun i => slot * (s.dg h 0x4410 6 / 2) + i)

/-- The pages of the record in a slot of a die. -/
def dumpPages (s : State) (h slot : Nat) (c : Cairn) : List Nat := (slotPages s h slot (max 1 c.length)).map (pageNo 4)

/-- The records of a die's slots that lie in a page go with its memory. -/
def dumpAway (h n : Nat) (s : State) : State :=
  let away := fun (slot : Nat) (c : Option Cairn) => match c with
    | some c => if (dumpPages s h slot c).contains n then some ((dumpPages s h slot c).map (mget (s.die h).look.lies), c) else none
    | none => none
  let a := away 0 (s.die h).core.slotA
  let b := away 1 (s.die h).core.slotB
  s.onDie h (fun x => { x with
    look.awayDumps := x.look.awayDumps ++ a.toList ++ b.toList
    core.slotA := if a.isSome then none else x.core.slotA, core.slotB := if b.isSome then none else x.core.slotB })

/-- A record stands in a slot again when all its pages are mapped there. -/
def dumpBack (h : Nat) (s : State) : State :=
  let k := (s.die h).look
  let find := fun (slot : Nat) (now : Option Cairn) => match now with
    | some c => some c
    | none => (k.awayDumps.find? (fun x => (dumpPages s h slot x.2).map (mget k.lies) == x.1)).map (·.2)
  let a := find 0 (s.die h).core.slotA
  let b := find 1 (s.die h).core.slotB
  s.onDie h (fun x => { x with
    core.slotA := a, core.slotB := b,
    look.awayDumps := x.look.awayDumps.filter (fun y => some y.2 != a && some y.2 != b) })

/-- The contents of a page are in the expander's memory only. -/
def storePage (h n : Nat) (s : State) : State :=
  match mget (s.die h).look.lies n with
  | 0 => s
  | a + 1 =>
    let items := pageItems s h n
    let s := if n / 2 ^ 21 = 4 then dumpAway h n s
      else zeroRegion h (n / 2 ^ 21) (n % 2 ^ 21 * 2097152) 2097152 (s.onDie h (fun x => { x with look.exp := items.foldl (expPut a) x.look.exp }))
    s.onDie h (fun x => { x with look.lies := mdel x.look.lies n })

/-- The pages whose contents lie in an HPA page. -/
def pagesAt (s : State) (h hpa : Nat) : List Nat := ((s.die h).look.lies.filter (fun x => x.2 == hpa + 1)).map (·.1)

/-- A page of regions 0, 2 and 3 takes in what the expander's memory holds at an HPA page. -/
def loadPage (h n hpa : Nat) (s : State) : State :=
  let m := (s.die h).look.exp.filter (fun x => x.1 / 16384 == hpa)
  let base := n % 2 ^ 21 * 2097152
  let offs := m.flatMap (fun l => (mkeys l.2).map (fun w => l.1 % 16384 * 128 + w * 8))
  let s := zeroPage h hpa s
  match n / 2 ^ 21 with
  | 0 => s.each ((offs.filterMap (fun o => deepAt s (base + o))).dedup) (fun x s =>
      let b := bucketOfBits x.1 (expGet m hpa (bucketOffset s x.1 x.2 - base) (bucketBytes x.1))
      s.onDie h (fun y => { y with look.tabs := mmod y.look.tabs x.1 (fun t => { t with buckets := mput t.buckets x.2 b }) }))
  | 2 => s.onDie h (fun y => { y with buf.stats := offs.foldl (fun a o => mput a ((base + o) / 8) (expGet m hpa o 8)) y.buf.stats })
  | 3 => s.each (((offs.flatMap (fun o => [o, o + 4])).filterMap (fun o => shadowAt s (base + o))).dedup) (fun x s =>
      let o := (shadowPlace s { sub := x.1, code := x.2.1, no := x.2.2 }).1 - base
      let b := bucketOfBits x.2.1 (expGet m hpa o (bucketBytes x.2.1))
      s.onDie h (fun y => if x.2.1 = 0 then
          { y with look.shadowIdx := mmod y.look.shadowIdx x.1 (fun t => minsert t x.2.2 (expGet m hpa o (itemBytes x.1))) }
        else
          { y with look.shadow := mmod y.look.shadow x.1 (fun t => mmod t x.2.1 (fun c => { c with buckets := mput c.buckets x.2.2 b })) }))
  | _ => s

/-- A page is mapped at an HPA page: its contents are what lies there (R288). -/
def layPage (h n hpa : Nat) (s : State) : State :=
  if mget (s.die h).look.lies n = hpa + 1 then s
  else
    let s := (storePage h n s).each (pagesAt s h hpa) (storePage h)
    if n / 2 ^ 21 = 1 then s
    else dumpBack h ((loadPage h n hpa s).onDie h (fun x => { x with look.lies := mput x.look.lies n (hpa + 1) }))

/-- A page has been copied to another HPA page (R308): its contents lie there, and a copy stays in the old one. -/
def copyPage (h n hpa : Nat) (s : State) : State :=
  match mget (s.die h).look.lies n with
  | 0 => s
  | a + 1 =>
    let s := s.each ((pagesAt s h hpa).filter (· != n)) (storePage h)
    let s := zeroPage h hpa (s.onDie h (fun x => { x with look.exp := (pageItems s h n).foldl (expPut a) x.look.exp }))
    s.onDie h (fun x => { x with look.lies := mput x.look.lies n (hpa + 1) })

/-- Zeros are written to a whole page of a die at a target HPA page (R307), over whatever lies there; its lines leave the poison
list (R304). Each of its 32,768 lines is a write (R467). -/
def zeroFill (h n hpa : Nat) (s : State) : State :=
  let s := if mget (s.die h).look.lies n = hpa + 1 then s else storePage h n s
  let s := s.each (pagesAt s h hpa) (fun m s =>
    (zeroRegion h (m / 2 ^ 21) (m % 2 ^ 21 * 2097152) 2097152 s).onDie h (fun x => { x with look.lies := mdel x.look.lies m }))
  curePage h n (zeroPage h hpa (s.dinc h 0x4401 0xC 32768))

/-- Every page's contents lie where its map entry says now (R288): those of a page that is not present any more, or is no page, stay
in the expander's memory only. -/
def relayPages (h : Nat) (s : State) : State :=
  let entry := fun (s : State) (n : Nat) => if n % 2 ^ 21 < regionPages s h (n / 2 ^ 21) then mapEntry s h n else {}
  let s := s.each (mkeys (s.die h).look.lies) (fun n s =>
    let e := entry s n
    if [1, 2].contains e.state && mget (s.die h).look.lies n == e.hpa + 1 then s else storePage h n s)
  s.each (s.die h).look.cmap (fun x s =>
    match idxPage s h x.1 with
    | some n => if [1, 2].contains x.2.state then layPage h n x.2.hpa s else s
    | none => s)

/-- A map entry from its 64 bits (Table 9.2). -/
def entryOf64 (w : Nat) : MapEntry :=
  { state := bits w 63 62, poison := bits w 61 55, gen := BitVec.ofNat 8 (bits w 54 47), hpa := bits w 30 0 }

/-- The map array stands in the expander's memory (R288): it is written there at its base, and read at another. -/
def moveMap (h base : Nat) (s : State) : State :=
  let a := s.dg h 0x4410 1 / 2097152
  let b := base / 2097152
  if a = b then s
  else
    let s := zeroPage h a ((pagesAt s h b).foldl (fun s n => storePage h n s) s)
    let s := s.onDie h (fun x => { x with
      look.exp := x.look.cmap.foldl (fun m e => expPut a m (e.1 * 8, 8, e.2.bits64)) x.look.exp })
    let lines := (s.die h).look.exp.filter (fun x => x.1 / 16384 == b)
    zeroPage h b (s.onDie h (fun x => { x with
      look.cmap := (lines.flatMap (fun l => l.2.map (fun w => (l.1 % 16384 * 16 + w.1, entryOf64 w.2.toNat)))).filter (fun e => e.2 != {}) }))

/-- A write of the map's base or of a page count (R288, R291): the pages then lie where the map says. -/
def mapWrite (h sub v : Nat) (s : State) : State :=
  relayPages h ((if sub = 1 then moveMap h v s else s).dset h 0x4410 sub v)

/-- Record the progress of a page command in `4411.02`. -/
def pageProgress (h op st lines : Nat) (s : State) : State := s.dset h 0x4411 2 (op <<< 24 ||| st <<< 22 ||| min lines (2 ^ 22 - 1))

/-- Execute a page command of a die: its status, and the map entry after it (R306, R307). The specification does not
order its refusals: the form of the command is judged first, then the port, then a command that runs, then the page
(log entry 20). -/
def pageCommand (h v : Nat) (s : State) : Nat × Nat × State :=
  let op := bits v 127 120
  let r := bits v 119 117
  let p := bits v 95 64
  let hpa := bits v 30 0
  let n := pageNo r p
  let st := (mapEntry s h n).state
  let reply := fun (c : Nat) (s : State) => (c, (mapEntry s h n).bits64, s)
  let inRange := decide ((hpa + 1) * 2097152 ≤ s.dg h 0x4401 4)
  let running := (s.die h).look.pageCmd.isSome
  let need := match op with | 1 => 0 | 5 => 3 | _ => 1
  if op = 0 ∨ 6 < op ∨ 4 < r ∨ regionPages s h r ≤ p then (0x13, 0, s)
  else if op = 6 then reply 0 s
  else if !cxlReady s h then reply 0x12 s
  else if (op = 2 ∨ op = 3 ∨ op = 5) ∧ running then reply 0x11 s
  else if st ≠ need ∨ ((op = 1 ∨ op = 3 ∨ op = 5) ∧ !inRange) then reply 0x13 s
  else
    let fill := fun (s : State) => s.when (bit v 116) (zeroFill h n hpa)
    match op with
    | 1 => reply 0 (setPage h n 1 hpa (layPage h n hpa (fill s)))
    | 2 =>
      let s := setPage h n 2 (mapEntry s h n).hpa s
      let s := s.onDie h (fun x => { x with look.pageCmd := some { op := 2, region := r, page := p } })
      reply 0 (pageProgress h 2 1 0 s)
    | 3 =>
      let s := setPage h n 2 (mapEntry s h n).hpa s
      let s := s.each (pageLines s h n) (fun x s => writeBack h x.1 s)
      let s := s.onDie h (fun x => { x with look.pageCmd := some { op := 3, region := r, page := p, hpa := hpa } })
      reply 0 (pageProgress h 3 1 0 s)
    | 4 => reply 0 (poisonPage h n s)
    | _ =>
      reply 0 (pageProgress h 5 2 0 (setPage h n 1 hpa (curePage h n (layPage h n hpa (fill s)))))

/-- UNMAP_COMPLETE (R307): no line of the page is pinned: its dirty lines are written back, its lines dropped, and the
page is not present. -/
def unmapComplete (h : Nat) (s : State) : State :=
  match (s.die h).look.pageCmd with
  | none => s
  | some k =>
    let n := pageNo k.region k.page
    let lines := pageLines s h n
    if k.op ≠ 2 ∨ !cxlReady s h ∨ lines.any (fun x => decide (0 < x.2.pins)) then s
    else
      let s := s.each lines (fun x s => writeBack h x.1 s)
      let s := s.onDie h (fun y => { y with
        look.ctx := y.look.ctx.filter (fun x => !(lines.any (fun l => l.1 == x.1)))
        look.pageCmd := none })
      pageProgress h 2 2 0 (setPage h n 0 0 s)

/-- MIGRATE_COPY_DONE (R308): the page has been copied to its new place; lines read as poison are zeros there and stand
in the poison list. `poisoned` lists 64-byte lines of the page. Shadow writes that waited for the page are made. -/
def migrateDone (h : Nat) (poisoned : List (Fin 32768)) (s : State) : State :=
  match (s.die h).look.pageCmd with
  | none => s
  | some k =>
    if k.op ≠ 3 ∨ !cxlReady s h then s
    else
      let n := pageNo k.region k.page
      let old := (mapEntry s h n).hpa
      let moved := ((s.die h).look.exp.filter (fun x => x.1 / 16384 == old)).map (fun x =>
        let keep := x.2.filter (fun w => !(poisoned.any (fun l => l.val == x.1 % 16384 * 2 + w.1 / 8)))
        (k.hpa * 16384 + x.1 % 16384, keep))
      let s := s.onDie h (fun x => { x with
        look.exp := moved.foldl (fun m y => mput m y.1 y.2) (x.look.exp.filter (fun y => y.1 / 16384 != k.hpa))
        look.pageCmd := none })
      let s := copyPage h n k.hpa ((s.dinc h 0x4401 0xB 32768).dinc h 0x4401 0xC 32768)
      let s := s.each poisoned (fun l s => poisonLine h (dva h k.region k.page (l.val * 64))
        (zeroRegion h k.region (k.page * 2097152 + l.val * 64) 64 s))
      let s := if (mapEntry s h n).state = 3 then s else setPage h n 1 k.hpa s
      keptAgain h (pageProgress h 3 2 32768 s)

/-! ### Meanings -/

/-- CONTEXT_READ: u 0-3 a search unit with a 0x40 read at its head, 4-7 the saddle side N, E, S or W by which one came. -/
def execContextRead (d : DieId) (u : Fin 8) (s : State) : Host.Outcome State Fault Refusal :=
  onLive d (contextServe d u 0x40 (contextAt d)) s
/-- CONTEXT_READ_UPDATE: as CONTEXT_READ, for 0x41. -/
def execContextReadUpdate (d : DieId) (u : Fin 8) (s : State) : Host.Outcome State Fault Refusal :=
  onLive d (contextServe d u 0x41 (contextUpdateAt d)) s
/-- LOCK_GRANT of context c. -/
def execLockGrant (c : Fin 16777216) (s : State) : Host.Outcome State Fault Refusal :=
  .next (if s.frozen (ctxHome s c) then s else lockGrant c s)
/-- CONTEXT_FILL_COMPLETE: the two reads at the head of a die's CXL port return, `poison` by line. -/
def execContextFillComplete (d : DieId) (poison : Fin 4) (s : State) : Host.Outcome State Fault Refusal :=
  onLive d (fillComplete d poison) s
/-- FILL_PIN_WAIT of entry i of the fills that wait at a home die. -/
def execFillPinWait (d : DieId) (i : Fin 16384) (s : State) : Host.Outcome State Fault Refusal := onLive d (fillPinWait d i) s
/-- PAGE_EVENT_RECEIVE. -/
def execPageEventReceive (d : DieId) (s : State) : Host.Outcome State Fault Refusal := onLive d (pageEventReceive d) s
/-- UNMAP_COMPLETE. -/
def execUnmapComplete (d : DieId) (s : State) : Host.Outcome State Fault Refusal := onLive d (unmapComplete d) s
/-- DEEP_STAGING_ADMIT. -/
def execDeepStagingAdmit (d : DieId) (s : State) : Host.Outcome State Fault Refusal := onLive d (stagingAdmit d) s

end Sys2Proof.Machine
end

