-- ==== Sys2Proof/Machine/Fib.lean ====
section
/-! DEFINITION. The forwarding information base: lookups, deep reads, inserts and deletes, the home die map (Longest-Prefix
Route Lookup). -/

namespace Sys2Proof.Machine

/-! ### Prefixes (R177 to R180) -/

/-- A FIB key with its family, VRF, length and prefix. -/
structure Pfx where
  fam : Nat
  vrf : Nat
  len : Nat
  pfx : Nat
  deriving DecidableEq, Repr, Inhabited

/-- The stem of an address. -/
def stemOf (fam addr : Nat) : Nat := addr / 2 ^ (famW fam - famS fam)

/-- The stems a prefix of the cover level covers (R180). -/
def coveredStems (p : Pfx) : List Nat := (List.range (2 ^ (famS p.fam - p.len))).map (fun i => stemOf p.fam p.pfx + i)

/-- The key of a prefix in its per-length tables. -/
def Pfx.key (p : Pfx) : Nat := prefixKey p.fam p.vrf p.len p.pfx

/-- Read a prefix back from the key of a per-length slot. -/
def pfxOfKey (fam len key : Nat) : Pfx :=
  { fam := fam, vrf := bits key (famW fam + 19) (famW fam + 8), len := len, pfx := bits key (famW fam - 1) 0 }

/-- The level of a prefix: root below F, cover to S, candidate above (Table 6.1). -/
def isRoot (p : Pfx) : Bool := decide (p.len < famF p.fam)
def isCover (p : Pfx) : Bool := decide (famF p.fam ≤ p.len) && decide (p.len ≤ famS p.fam)

/-- The home dies of a prefix (R185). -/
def pfxHomes (s : State) (p : Pfx) : List Nat :=
  if isRoot p then []
  else if isCover p then ((coveredStems p).map (stemHome s p.fam p.vrf)).dedup
  else [stemHome s p.fam p.vrf (stemOf p.fam p.pfx)]

/-! ### Lookups (R191 to R195, R202, R208) -/

/-- The root slot that matches an address best (R189). -/
def rootMatch (s : State) (d vrf fam addr : Nat) : Option (Nat × Nat) :=
  ((rootAt s d vrf fam).filter (fun r => addr / 2 ^ (famW fam - r.len) == r.pfx / 2 ^ (24 - r.len))).foldl
    (fun b r => match b with
      | none => some (r.len, r.result)
      | some x => if x.1 < r.len then some (r.len, r.result) else b) none

/-- What the grants of a lookup's reads say of one table: the stem map at 0, a hot table at its length. -/
abbrev Grants := List (Fin 129 × List ReadAt)

/-- When the reads of a table were granted. -/
def grantsOf (l : Grants) (n : Nat) : List ReadAt := ((l.find? (fun x => x.1.val == n)).map (·.2)).getD []

/-- The lengths a mask names, longest first. -/
def maskLens (fam mask : Nat) : List Nat :=
  ((List.range (famW fam - famS fam)).filter (bit mask)).reverse.map (fun i => famS fam + 1 + i)

/-- A FIB response (R208): level code of Table 6.11, length, result and counts. -/
def fibAnswer (d : Nat) (q : SReq) (best : Option (Nat × Nat × Nat)) (probes reads : Nat) (s : State) : State :=
  let sel := bits (q.key 0) 31 16
  match best with
  | none => answer q { hdr := slotHdr 4 0 q.profile probes 0 0, p1 := BitVec.ofNat 64 (0xF <<< 52) } (s.dinc d 0x4610 9 1)
  | some (len, src, result) =>
    let s := resolveParity d result sel (s.dinc d 0x4610 (match src with | 0 => 5 | 1 => 8 | 2 => 4 | _ => 3) 1)
    match resolve s d result sel with
    | none => answer q { hdr := slotHdr 4 0 q.profile probes 0 0, p1 := BitVec.ofNat 64 (0xF <<< 52) } s
    | some r =>
      let s := bankGrant d q.unit (resolveBanks result r) (s.when r.noMember (fun s => s.dinc d 0x4610 0x10 1))
      let w1 := len <<< 56 ||| src <<< 52 ||| min reads 15 <<< 48
      answer q (resolvedSlot (slotHdr 3 (if src = 1 then 1 else 0) q.profile probes 0 result) w1 r) s

/-- A probe that missed because it could not see: in a fenced bank, or with its retries used up (R194, R202). -/
def Probe.blind (p : Probe) : Bool := p.hit.isNone && (p.exhausted || decide (0 < p.fenced))

/-- The hot probes of a lookup whose stem has an entry (R191): the best match so far, the probes made, the lengths for the deep
tier, and the state. They are read no earlier than the stem (`since`), which is written after the hot copies it names (R212). -/
def fibHot (d u : Nat) (q : SReq) (since : Nat) (grants : Grants) (root : Option (Nat × Nat × Nat)) (e : TEntry) (s : State) :
    Option (Nat × Nat × Nat) × Nat × List Nat × State :=
  let fam := q.fam
  let best := if e.coverLen = 0x7F then root else some (e.coverLen, 2, e.coverRes)
  let s := s.each (maskLens fam e.hotMask) (fun l => keyParity d (hotCode fam l) (q.prefixKey l))
  let found := (maskLens fam e.hotMask).map (fun l => (l, probe s d u (hotCode fam l) (q.prefixKey l) since (grantsOf grants l)))
  let n := (found.map (fun x => 2 + 2 * x.2.retries)).sum
  let s := unitEvent d u 0x41 n q ((s.dinc d 0x4623 4 1).dinc d 0x4623 3 found.length)
  let s := s.each found (fun x s => countProbe d u (hotCode fam x.1) (q.prefixKey x.1) q x.2 s)
  let s := unitEvent d u 0x49 (found.map (fun x => x.2.fenced)).sum q s
  let hit := found.findSome? (fun x => x.2.hit.map (fun e => (x.1, 0, e.result)))
  let s := s.when hit.isSome (fun s => s.dinc d 0x4623 4 1)
  let best := hit.orElse (fun _ => best)
  let floor := match best with | some (l, 0, _) => l | _ => famS fam
  let open_ := fun (l : Nat) => decide (floor < l) && tabBuckets s (deepCode fam l) != 0
  let lost := (found.filter (fun x => x.2.blind && open_ x.1)).map (·.1)
  let deep := (maskLens fam (lost.foldl (fun m l => m ||| 2 ^ (l - famS fam - 1)) e.deepMask)).filter open_
  (best, n, deep, s.dinc d 0x4610 0xA lost.length)

/-- The search a FIB lookup makes in its unit before the deep part: the best match so far, the probes made, the lengths
the deep part is to be asked for, and the state (R191). A stem that cannot be seen is unknown: every length is asked for
(R194, R202). -/
def fibShallow (d u : Nat) (q : SReq) (grants : Grants) (root : Option (Nat × Nat × Nat)) (s : State) :
    Option (Nat × Nat × Nat) × Nat × List Nat × State :=
  let fam := q.fam
  let key := stemKey fam (bits (q.key 0) 11 0) (stemOf fam (fibAddr q))
  let s := keyParity d stemCode key s
  let x := probe s d u stemCode key q.mark (grantsOf grants 0)
  let n := 2 + 2 * x.retries
  let s := countProbe d u stemCode key q x (unitEvent d u 0x41 n q (s.dinc d 0x4623 3 1))
  match x.hit with
  | some e => let (best, m, deep, s) := fibHot d u q (max q.mark (max x.at_.1 x.at_.2)) grants root e s; (best, n + m, deep, s)
  | none =>
    if !x.blind then (root, n, [], s.dinc d 0x4610 2 1)
    else
      let lens := ((List.range (famW fam + 1 - famF fam)).map (fun i => famW fam - i)).filter (fun l =>
        tabBuckets s (deepCode fam l) != 0)
      (root, n, lens, (unitEvent d u 0x49 x.fenced q s).dinc d 0x4610 0xA 1)

/-- A root entry is read (R530). -/
def rootParity (d i : Nat) (s : State) : State := lineParity d (0x0F800000 / 64 + i) s

/-- FIB_LOOKUP (R191): root, stem and hot probes of a unit's head request; what is left goes to the deep tier. -/
def fibLookup (d u : Nat) (grants : Grants) (q : SReq) (s : State) : State :=
  let vrf := bits (q.key 0) 11 0
  let addr := fibAddr q
  let s := bankGrant d u [bankOf (0x0F800000 + (vrf * 2 + q.fam) * 64)] (rootParity d (vrf * 2 + q.fam) (s.dinc d 0x4610 1 1))
  let root := (rootMatch s d vrf q.fam addr).map (fun x => (x.1, 3, x.2))
  let home := stemHome s q.fam vrf (stemOf q.fam addr)
  let (best, probes, deep, s) := fibShallow d u q grants root s
  if deep.isEmpty then fibAnswer d q best probes 0 s
  else if homeGone s d home then
    faultAnswer q 7 (dva home 0 0 0 / 2 ^ 21) (s.dinc d 0x4420 0xF 1)
  else if !cxlReady s home then faultAnswer q 0xA (dva home 0 0 0 / 2 ^ 21) (s.dinc d 0x4610 0xB 1)
  else enterDeep d { unit := u, req := q, home := home, lens := deep, best := best, probes := probes } s

/-- FIB_RESOLVE (R207): profile 0x12 resolves a result word without probes. -/
def fibResolve (d : Nat) (q : SReq) (s : State) : State :=
  let result := bits (q.key 1) 31 0
  let s := resolveParity d result (bits (q.key 0) 31 16) s
  match resolve s d result (bits (q.key 0) 31 16) with
  | none => answer q { hdr := slotHdr 4 0 q.profile 0 0 0, p1 := BitVec.ofNat 64 (0xF <<< 52) } s
  | some r =>
    let s := bankGrant d q.unit (resolveBanks result r) (s.when r.noMember (fun s => s.dinc d 0x4610 0x10 1))
    answer q (resolvedSlot (slotHdr 3 0 q.profile 0 0 result) (0xF <<< 52) r) s

/-! ### Deep reads (R192, R199 to R201, R232) -/

/-- A bucket read comes back to the die that asked (R192, R232): the lookup matches, reads the second choice, looks at the first
one's move generation again, retries, goes on to its next length, or answers. A next read for a home whose port is down by then
is refused (R201). -/
def deepResult (d no : Nat) (v : Bucket) (code reads : Nat) (s : State) : State :=
  match deepReq? s d no with
  | none => s
  | some r =>
    let q := r.req
    let (tab, b) := deepSpot s r
    let page := dva r.home 0 (bucketOffset s tab b / 2 ^ 21) 0 / 2 ^ 21
    let r := { r with reads := r.reads + reads }
    if code ≠ 0 then faultAnswer q code page (leaveDeep d no s)
    else
      let l := r.lens.headD 0
      let done := fun (r : DeepReq) (s : State) => fibAnswer d q r.best r.probes r.reads (leaveDeep d no s)
      let ask := fun (r : DeepReq) (s : State) =>
        if !cxlReady s r.home then faultAnswer q 0xA page (leaveDeep d no (s.dinc d 0x4610 0xB 1)) else askHome d r (onDeep d r s)
      let onward := fun (s : State) =>
        if r.lens.tail.isEmpty then done r s else ask { r with lens := r.lens.tail, step := 0, retries := 0 } s
      if r.step = 2 then
        if v.gen = r.gen then onward s
        else if r.retries < 2 then
          ask { r with step := 0, retries := r.retries + 1 } (unitEvent d r.unit 0x43 1 q (s.dinc d 0x4623 5 1))
        else onward ((s.dinc d 0x4623 6 1).report d 5 r.unit 1 0x181 b)
      else match slotOf v (q.prefixKey l) with
        | some (_, e) => done { r with best := some (l, 1, e.result) } s
        | none =>
          if r.step = 1 then ask { r with step := 2 } s
          else if v.alt = 0 then onward s
          else ask { r with step := 1, gen := v.gen } s

/-- What a home die answers reaches the die that asked. -/
def homeAnswer (d : Nat) (a : HomeAns) (s : State) : State :=
  match a with
  | .bucket no v code reads _ => deepResult d no v code reads s
  | .reply no r => deepAnswered d no r s
  | .miss q skipped pinWait lockWait => (missEnter d q skipped pinWait lockWait s).getD s
  | .deferred q => deferSlot d q.rid q.slotNo s

/-- The lines of a bucket a read is for: the one that holds the header, or all of them (Table 6.2, R5). -/
def bucketLines (code lines : Nat) : List Nat :=
  if bucketBytes code = 64 then [0] else if lines = 1 then [1] else [0, 1]

/-- A bucket is read at its home through the map (R200, R290, R301, R304); `poison` marks lines the expander returned as poison.
The answer goes to the die that asked. -/
def bucketRead (h a no code b lines tag poison : Nat) (s : State) : State :=
  let o := bucketOffset s code b
  let p := o / 2 ^ 21
  let ls := bucketLines code lines
  let (c, n, s) := ls.foldl (fun (x : Nat × Nat × State) k =>
    if x.1 ≠ 0 then x
    else
      let (c, s) := access h 0 p (o % 2 ^ 21 + 64 * k) x.2.2
      (c, if c = 0 then x.2.1 + 1 else x.2.1, s)) (0, 0, s)
  let s := s.dinc h 0x4401 0xB n
  let bad := if c = 0 then ls.filter (bit poison) else []
  let s := s.each bad (fun k s => poisonLine h (dva h 0 p (o % 2 ^ 21 + 64 * k)) s)
  let s := s.when (!bad.isEmpty) (fun s => s.dinc h 0x4420 0xB 1)
  let c := if bad.isEmpty then c else 3
  let m : HomeAns := .bucket no (if c = 0 then rawBucket s h code b else {}) c n tag
  if a = h then homeAnswer h m s else s.send h a (.answer m)

/-- DEEP_READ_COMPLETE (R192, R199 to R201, R232): the first lookup of the die whose home has gone ends, or the bucket read at
the head of the die's CXL port returns. -/
def deepReadDone (d : Nat) (poison : Fin 4) (s : State) : State :=
  match (s.die d).look.deepQ.find? (fun r => r.ctx.isNone && homeGone s d r.home) with
  | some r => endGone d r s
  | none =>
    match (s.die d).look.port with
    | .bucket a no code b lines tag :: rest =>
      if canAnswer s d a then bucketRead d a no code b lines tag poison (s.onDie d (fun x => { x with look.port := rest })) else s
    | _ => s

/-! ### The tiers as sets of prefixes -/

/-- The entries of a deep table of a die. -/
def deepEntries (s : State) (h fam len : Nat) : List TEntry := (tabSlots s h (deepCode fam len)).map (·.2.2)

/-- A deep copy exists on some present die. -/
def inDeep (s : State) (p : Pfx) : Bool := (s.present).any (fun h => (tabFind s h (deepCode p.fam p.len) p.key).isSome)

/-- Deep prefixes of a family in the package, a cover-level prefix counted once (R216). -/
def deepCount (s : State) (fam : Nat) : Nat :=
  ((deepOrder.filter (fun x => x.1 == fam)).map (fun x =>
    if famS fam < x.2 then ((s.present).map (fun h => (deepEntries s h fam x.2).length)).sum
    else ((s.present).flatMap (fun h => (deepEntries s h fam x.2).map (·.key))).dedup.length)).sum

/-- Hot prefixes of a family on a die. -/
def hotCount (s : State) (d fam : Nat) : Nat :=
  ((hotOrder.filter (fun x => x.1 == fam)).map (fun x => (tabVisible s d (hotCode fam x.2)).length)).sum

/-- Root slots in use on a die, those of fenced root entries left out (R531). -/
def rootCount (s : State) (d : Nat) : Nat := ((s.die d).look.root.map (fun x => (rootSlots s d (x.1 / 2) (x.1 % 2)).length)).sum

/-- The FIB holds no prefix (R215). -/
def fibEmpty (s : State) : Bool :=
  deepCount s 0 == 0 && deepCount s 1 == 0 && (s.present).all (fun d => rootCount s d == 0 && hotCount s d 0 == 0 && hotCount s d 1 == 0)

/-- The cover-level prefixes that a stem can have, longest first (R180). -/
def coverPfxs (fam vrf stem : Nat) : List Pfx :=
  (List.range (famS fam + 1 - famF fam)).map (fun i =>
    { fam := fam, vrf := vrf, len := famS fam - i, pfx := maskTo fam (famS fam - i) (stem * 2 ^ (famW fam - famS fam)) })

/-- The cover of a stem as the deep tier of its home gives it (R180), leaving out a prefix that is being deleted. -/
def coverOf (s : State) (fam vrf stem : Nat) (but : Option Pfx) : Option (Nat × Nat) :=
  (coverPfxs fam vrf stem).findSome? (fun p =>
    if but = some p then none
    else (tabFind s (stemHome s fam vrf stem) (deepCode fam p.len) p.key).map (fun x => (p.len, x.2.2.result)))

/-- Entries of a per-length table under a stem. -/
def underStem (s : State) (d code fam vrf stem : Nat) : List TEntry :=
  ((tabVisible s d code).map (·.2.2)).filter (fun e =>
    let p := pfxOfKey fam (codeLen code) e.key
    p.vrf == vrf && stemOf fam p.pfx == stem)

/-- The mask bits of a length under a stem on a die: a hot prefix, and a prefix without a hot copy there; a hot copy and a deep
copy that are about to go are left out. -/
def lenBits (s : State) (d fam vrf len stem : Nat) (noHot noDeep : Option Nat) : Bool × Bool :=
  let hot := (underStem s d (hotCode fam len) fam vrf stem).filter (fun e => noHot != some e.key)
  let deep := (underStem s (stemHome s fam vrf stem) (deepCode fam len) fam vrf stem).filter (fun e => noDeep != some e.key)
  (!hot.isEmpty, deep.any (fun e => !hot.any (fun x => x.key == e.key)))

/-! ### Reads of the deep tier by the engines (R229, R290, R301, R304) -/

/-- The 64-byte lines of a deep bucket: page and offset in region 0. -/
def linesOf (s : State) (code b : Nat) : List (Nat × Nat) :=
  let o := bucketOffset s code b
  (List.range (bucketBytes code / 64)).map (fun i => (o / 2 ^ 21, o % 2 ^ 21 + 64 * i))

/-- The 64-byte lines of the two buckets of a deep prefix. -/
def deepLines (s : State) (p : Pfx) : List (Nat × Nat) :=
  let code := deepCode p.fam p.len
  if tabBuckets s code = 0 then []
  else
    let (ba, bb) := choices s code p.key
    [ba, bb].flatMap (linesOf s code)

/-- An engine reads lines of a die's region 0 through the map (R290, R301): the code of the first fault, or 0. Whether the expander
returns a line as poison (R304) is a free value (log entry 155). -/
def readLines (h : Nat) (ls : List (Nat × Nat)) (s : State) : Nat × State :=
  ls.foldl (fun (x : Nat × State) l =>
    if x.1 ≠ 0 then x
    else
      let (c, s) := access h 0 l.1 l.2 x.2
      if c ≠ 0 then (c, s)
      else
        let (f, s) := (s.dinc h 0x4401 0xB 1).fresh
        if f % 2 = 1 then (3, (poisonLine h (dva h 0 l.1 l.2) s).dinc h 0x4420 0xB 1) else (0, s)) (0, s)

/-- The engine reads both buckets of a deep prefix: a fault code, or 0. -/
def readDeep (h : Nat) (p : Pfx) (s : State) : Nat × State := readLines h (deepLines s p) s

/-- The lines of the deep tier that a die reads to make the entry of a stem again (R202). -/
def stemLines (s : State) (fam vrf stem : Nat) : List (Nat × Nat) :=
  let h := stemHome s fam vrf stem
  let below := ((List.range (famW fam - famS fam)).map (fun i => famS fam + 1 + i)).flatMap (fun l =>
    (underStem s h (deepCode fam l) fam vrf stem).map (fun e => pfxOfKey fam l e.key))
  ((coverPfxs fam vrf stem ++ below).flatMap (deepLines s)).dedup

/-- A die reads the deep tier for a stem at the stem's home: a fault code, or 0. -/
def readStem (d fam vrf stem : Nat) (s : State) : Nat × State :=
  let h := stemHome s fam vrf stem
  if homeGone s d h then (7, s) else readLines h (stemLines s fam vrf stem) s

/-! ### Writing one die (R212, R213) -/

/-- Set the two mask bits of a length in a stem map entry. -/
def withBits (fam len : Nat) (b : Bool × Bool) (e : TEntry) : TEntry :=
  let i := len - famS fam - 1
  { e with hotMask := setBit e.hotMask i b.1, deepMask := setBit e.deepMask i b.2 }

/-- Set the cover of a stem map entry. -/
def withCover (c : Option (Nat × Nat)) (e : TEntry) : TEntry :=
  { e with coverLen := (c.map (·.1)).getD 0x7F, coverRes := (c.map (·.2)).getD 0 }

/-- A stem map entry that R179 does not keep: no cover and empty masks. -/
def emptyStem (e : TEntry) : Bool := e.coverLen == 0x7F && e.hotMask == 0 && e.deepMask == 0

/-- The stem map entry of a stem as the deep tier and the die's hot tables give it (R202). -/
def stemFrom (s : State) (d fam vrf stem : Nat) : TEntry :=
  ((List.range (famW fam - famS fam)).map (fun i => famS fam + 1 + i)).foldl
    (fun e l => withBits fam l (lenBits s d fam vrf l stem none none) e)
    (withCover (coverOf s fam vrf stem none) { key := stemKey fam vrf stem })

/-- A stem of a die is to be made again from the deep tier (R202). -/
def toRebuild (d k : Nat) (s : State) : State :=
  s.onDie d (fun x => { x with look.rebuild := if x.look.rebuild.contains k then x.look.rebuild else x.look.rebuild ++ [k] })

/-- A stem map entry that a die does not hold is written, unless R179 asks for none. The flag is false when there is no room. -/
def newStem (d : Nat) (n : TEntry) (s : State) : Bool × State :=
  if emptyStem n then (true, s)
  else
    let (r, s) := place d stemCode true n s
    (r.isSome, s)

/-- Write the stem map entry of a stem on a die: it exists exactly while it has a cover or a mask bit (R179). One lost to a
fenced bank is first made again from the deep tier, now or, when that cannot be read, later (R202). The flag is false when the
stem map had no room. -/
def putStemNow (d fam vrf stem : Nat) (f : TEntry → TEntry) (s : State) : Bool × State :=
  let k := stemKey fam vrf stem
  let s := engReads d stemCode k s
  match tabFind s d stemCode k with
  | some (b, i, e) =>
    let n := f e
    (true, if emptyStem n then deleteSlot d stemCode true b i s else rewriteSlot d stemCode true b i (fun _ => n) s)
  | none =>
    let (ba, bb) := choices s stemCode k
    if bucketFenced s d stemCode ba || bucketFenced s d stemCode bb then
      match readStem d fam vrf stem s with
      | (0, s) => newStem d (f (stemFrom s d fam vrf stem)) s
      | (_, s) => (true, toRebuild d k s)
    else newStem d (f { key := k }) s

/-- Write the stem map entry of a stem (R179); what the shadow of a fenced bank holds of it is void (R202, R532; log entry 123). -/
def putStem (d fam vrf stem : Nat) (f : TEntry → TEntry) (s : State) : Bool × State :=
  putStemNow d fam vrf stem f (shadowForget d stemCode (stemKey fam vrf stem) true s)

/-- Rewrite the cover of every stem a prefix covers on a die (R213); `but` is a prefix being deleted. -/
def rewriteCovers (d : Nat) (p : Pfx) (but : Option Pfx) (s : State) : Bool × State :=
  (coveredStems p).foldl (fun (x : Bool × State) st =>
    let r := putStem d p.fam p.vrf st (withCover (coverOf x.2 p.fam p.vrf st but)) x.2
    (x.1 && r.1, r.2)) (true, s)

/-- Lengths a stem's hot_mask names; that of a stem lost to a fenced bank is what it is made again with (R182, R202). -/
def hotLens (s : State) (d fam vrf stem : Nat) : List Nat :=
  let k := stemKey fam vrf stem
  let (ba, bb) := choices s stemCode k
  match tabFind s d stemCode k with
  | none => if bucketFenced s d stemCode ba || bucketFenced s d stemCode bb then maskLens fam (stemFrom s d fam vrf stem).hotMask else []
  | some (_, _, e) => maskLens fam e.hotMask

/-- Write the hot copy of a candidate prefix on a die; none when it has no place there (R182, R211). -/
def hotPlace (d : Nat) (p : Pfx) (result : Nat) (s : State) : Option State :=
  let code := hotCode p.fam p.len
  let lens := hotLens s d p.fam p.vrf (stemOf p.fam p.pfx)
  let s := engReads d code p.key s
  if !(lens.contains p.len || decide (lens.length < 16)) || tabBuckets s code == 0 then none
  else match tabFind s d code p.key with
    | some (b, i, _) => some (rewriteSlot d code true b i (fun e => { e with result := result, hot := true }) s)
    | none =>
      match place d code true { key := p.key, result := result, hot := true } s with
      | (none, _) => none
      | (some _, s) => some s

/-- Take away the hot copy of a prefix on a die. -/
def hotDrop (d : Nat) (p : Pfx) (s : State) : State :=
  let s := engReads d (hotCode p.fam p.len) p.key s
  match tabFind s d (hotCode p.fam p.len) p.key with
  | none => shadowForget d (hotCode p.fam p.len) p.key true s
  | some (b, i, _) => deleteSlot d (hotCode p.fam p.len) true b i s

/-- Write or delete a root-level prefix on a die (R181): the lowest free slot of the root entry, or the one it has. -/
def putRoot (d : Nat) (p : Pfx) (del : Bool) (result : Nat) (s : State) : Nat × State :=
  let i := p.vrf * 2 + p.fam
  let off := 0x0F800000 + i * 64
  let s := rootParity d i s
  let m := rootSlots s d p.vrf p.fam
  let top := p.pfx / 2 ^ (famW p.fam - 24)
  let slot : RootSlot := { len := p.len, pfx := top, result := result }
  let s := if lineFenced s d off 5 then s else bankGrant d 4 [bankOf off] s
  let write := fun (m : Map RootSlot) (s : State) =>
    if lineFenced s d off 5 then s
    else shadowIdxPut d 5 i (rootBits m) true ((bankWrite d 4 [bankOf off] s).onDie d (fun x => { x with look.root := mput x.look.root i m }))
  match m.find? (fun r => r.2.len == p.len && r.2.pfx == top) with
  | some (k, _) => (0, write (if del then mdel m k else minsert m k slot) s)
  | none =>
    if del then (2, s)
    else match (List.range 8).find? (fun k => (mget? m k).isNone) with
      | none => (0x10, s)
      | some k => (0, write (minsert m k slot) s)

/-- The hot copy and stem map part of an insert of a candidate prefix on a die, after the deep part (R210 to R212). One that
loses its hot copy gets its deep_mask bit first, and what the bucket held before is no longer read, so that no lookup misses
both copies (R212). -/
def insertLocal (d : Nat) (p : Pfx) (want : Bool) (result : Nat) (s : State) : Nat × State :=
  let st := stemOf p.fam p.pfx
  let stem := fun (noHot : Option Nat) (s : State) =>
    putStem d p.fam p.vrf st (withBits p.fam p.len (lenBits s d p.fam p.vrf p.len st noHot none)) s
  match (if want then hotPlace d p result s else none) with
  | some s => let r := stem none s; (if r.1 then 0 else 0x10, r.2)
  | none =>
    let r := stem (some p.key) s
    let s := if (tabFind r.2 d (hotCode p.fam p.len) p.key).isSome then
        (hotDrop d p r.2).onDie d (fun x => { x with look.trail := [] })
      else r.2
    (if !r.1 then 0x10 else if want then 1 else 0, s)

/-- The part of a FIB command that every die carries out: the root entry, or hot copy and stem map after the deep part of an
insert and before that of a delete (R210, R212). -/
def fibLocal (d : Nat) (p : Pfx) (del want : Bool) (result : Nat) (s : State) : Nat × State :=
  if isRoot p then putRoot d p del result s
  else if isCover p then
    let r := rewriteCovers d p (if del then some p else none) s
    (if r.1 then 0 else 0x10, r.2)
  else if del then
    let st := stemOf p.fam p.pfx
    let r := putStem d p.fam p.vrf st (withBits p.fam p.len (lenBits s d p.fam p.vrf p.len st (some p.key) (some p.key))) s
    (0, hotDrop d p r.2)
  else insertLocal d p want result s

/-! ### The deep part (R210, R211, R216) -/

/-- An insert writes an IPv4 bucket of its key whose line stands in the poison list whole, empty, which takes the line off the list
(R304; log entry 21). -/
def renewDeep (h : Nat) (p : Pfx) (s : State) : State :=
  let code := deepCode p.fam p.len
  if p.fam ≠ 0 ∨ tabBuckets s code = 0 then s
  else
    let (ba, bb) := choices s code p.key
    s.each [ba, bb] (fun b s =>
      let o := bucketOffset s code b
      if accessCode s h 0 (o / 2 ^ 21) (o % 2 ^ 21) = 3 then
        onBucket h code b true (fun _ => {}) (access h 0 (o / 2 ^ 21) (o % 2 ^ 21) s).2
      else s)

/-- Write or delete the deep copy of a prefix on one home (R229). The engine first reads both buckets of the key; a read that
faults ends it with NO_PATH (log entry 21). -/
def putDeep (h : Nat) (p : Pfx) (del hot : Bool) (result : Nat) (s : State) : Nat × State :=
  let code := deepCode p.fam p.len
  let (c, s) := readDeep h p (if del then s else renewDeep h p s)
  if c ≠ 0 then (0x12, s) else
  match tabFind s h code p.key with
  | some (b, i, _) =>
    (0, if del then deleteSlot h code true b i s
        else rewriteSlot h code true b i (fun e => { e with result := result, hot := hot }) s)
  | none =>
    if del then (2, s)
    else match place h code true { key := p.key, result := result, hot := hot } s with
      | (none, s) => (0x10, s)
      | (some _, s) => (0, s)

/-- A line of a deep prefix cannot be accessed at a home: its page is not present or poisoned, or the line is, unless an insert
writes it whole (R301, R304). -/
def lineShut (s : State) (h : Nat) (p : Pfx) (ins : Bool) (l : Nat × Nat) : Bool :=
  let c := accessCode s h 0 l.1 l.2
  !([0, 2].contains c) && !(ins && p.fam == 0 && c == 3)

/-- A home cannot carry out a deep part, of an insert or of a delete: it cannot be reached from the die that commands it, its port
is down, or a line of the buckets cannot be accessed (R210; log entry 21). -/
def homeRefuses (s : State) (d h : Nat) (p : Pfx) (ins : Bool) : Bool :=
  homeGone s d h || !cxlReady s h || (deepLines s p).any (lineShut s h p ins)

/-- The lines that a home reads for the cover that the stems of a deleted cover-level prefix take then: the prefixes of it that are
shorter, and the same for each of those stems (R180, R213). -/
def coverLines (s : State) (p : Pfx) : List (Nat × Nat) :=
  if !isCover p then []
  else ((coverPfxs p.fam p.vrf (stemOf p.fam p.pfx)).filter (fun c => decide (c.len < p.len))).flatMap (deepLines s)

/-- Every home reads what it needs for those covers: a fault code, or 0. -/
def readCovers (p : Pfx) (s : State) : Nat × State :=
  (pfxHomes s p).foldl (fun x h => if x.1 ≠ 0 then x else readLines h (coverLines x.2 p) x.2) (0, s)

/-- The pages of region 0 that a deep part touches at a home: those of its two buckets, those of the moves that place its key
(R226, R229), and those a delete looks for a cover on. -/
def deepPages (s : State) (h : Nat) (p : Pfx) (ins : Bool) : List Nat :=
  let code := deepCode p.fam p.len
  let moves := if (tabFind s h code p.key).isSome then [] else ((plan s h code p.key).map (·.1)).getD []
  (deepLines s p ++ (if ins then [] else coverLines s p)).map (·.1) ++ moves.flatMap (fun m => [bucketOffset s code m.1 / 2 ^ 21, bucketOffset s code m.2.2 / 2 ^ 21])

/-- A deep part waits for the end of a migration of a page that it touches (R308). -/
def fibWaits (s : State) (d : Nat) (p : Pfx) (ins : Bool) : Bool :=
  (pfxHomes s p).all (fun h => !homeRefuses s d h p ins) &&
    (pfxHomes s p).any (fun h => (deepPages s h p ins).any (fun n => (mapEntry s h (pageNo 0 n)).state == 2))

/-- The faults that a refused deep part meets at its homes are counted (R301). -/
def countRefused (d : Nat) (p : Pfx) (ins : Bool) (s : State) : State :=
  s.each ((pfxHomes s p).filter (fun h => !homeGone s d h && cxlReady s h)) fun h s =>
    s.each ((deepLines s p).filter (lineShut s h p ins)) (fun l s => (access h 0 l.1 l.2 s).2)

/-- The deep part of an insert on every home at once: all homes, or none of them (R210). -/
def fibDeep (d : Nat) (p : Pfx) (want : Bool) (result : Nat) (s : State) : Nat × State :=
  let homes := pfxHomes s p
  let limit := if p.fam = 0 then 8388608 else 4194304
  if homes.any (fun h => homeRefuses s d h p true) then (0x12, countRefused d p true s)
  else if !inDeep s p && decide (limit ≤ deepCount s p.fam) then (0x10, s)
  else
    let hot := want && !isCover p && (hotPlace d p result s).isSome
    let (st, s') := homes.foldl (fun (x : Nat × State) h =>
      if x.1 ≠ 0 then x else putDeep h p false hot result x.2) (0, s)
    if st ≠ 0 then (st, s) else (0, s')

/-- What the homes answer a delete before anything is written: 0 when each can delete its copy, and can be asked for the covers
that take its place (R210, R212). -/
def fibHeld (d : Nat) (p : Pfx) (s : State) : Nat × State :=
  let homes := pfxHomes s p
  if homes.any (fun h => homeRefuses s d h p false) then (0x12, countRefused d p false s)
  else if homes.any (fun h => (tabFind s h (deepCode p.fam p.len) p.key).isNone) then (2, s)
  else
    let (c, s) := readCovers p s
    (if c = 0 then 0 else 0x12, s)

/-- The deep copies of a deleted prefix go, last of all (R212). -/
def fibErase (p : Pfx) (s : State) : State := s.each (pfxHomes s p) (fun h s => (putDeep h p true false 0 s).2)

/-- A FIB record (Table 6.12). -/
def fibRecord (rec : Nat) : Pfx × Bool × Nat :=
  let fam := bits rec 246 246
  ({ fam := fam, vrf := bits rec 243 232, len := bits rec 255 248, pfx := bits rec (famW fam - 1) 0 },
   bit rec 247, bits rec 231 200)

/-- The status with which the key or the result of a command ends it at once, or 0: R178 and R203 refuse an insert; no
entry has a key with a set bit below its length, so a delete or search of one finds nothing. -/
def fibCheck (p : Pfx) (insert : Bool) (result : Nat) : Nat :=
  if famW p.fam < p.len then 0x13
  else if maskTo p.fam p.len p.pfx ≠ p.pfx then (if insert then 0x13 else 2)
  else if insert && decide (2 ≤ bits result 31 30) then 0x13
  else 0

/-- A FIB command at the home die that leads it (R210 to R212): whether the others may write, the status for them, its own
status, and the effect. A delete leaves the deep copies, which go last. An insert that finds no room in the home's own stem map
is refused, and its deep copies with it. -/
def fibFirst (d : Nat) (p : Pfx) (del want : Bool) (result : Nat) (s : State) : Bool × Nat × Nat × State :=
  if del then
    match fibHeld d p s with
    | (0, s) => let (own, s) := fibLocal d p true want result s; (true, 0, own, s)
    | (c, s) => (false, c, c, s)
  else
    match fibDeep d p want result s with
    | (0, s1) =>
      let (own, s2) := fibLocal d p false want result s1
      if 0x10 ≤ own then (false, own, own, s) else (true, 0, own, s2)
    | (c, s1) => (false, c, c, s1)

/-- A FIB insert or delete carried out by one die alone, deep copies of a delete last (R212). -/
def fibCommand (d : Nat) (del : Bool) (rec : Nat) (s : State) : Nat × State :=
  let (p, want, result) := fibRecord rec
  let c := fibCheck p (!del) result
  if c ≠ 0 then (c, s)
  else if isRoot p then putRoot d p del result s
  else
    let (ok, _, own, s) := fibFirst d p del want result s
    (own, if ok && del then fibErase p s else s)

/-- The home die that leads a command: of a cover-level prefix with several homes the lowest (log entry 94). -/
def fibLead (s : State) (p : Pfx) : Nat := ((pfxHomes s p).mergeSort (· ≤ ·)).headD 0

/-- A prefix is deleted from every active die: stem map and hot copy, then the deep copies (R212). -/
def fibDelete (d : Nat) (p : Pfx) (s : State) : Nat × State :=
  if isRoot p then s.active.foldl (fun x e => let (c, s) := putRoot e p true 0 x.2; (max x.1 c, s)) (0, s)
  else match fibHeld d p s with
    | (0, s) => (0, fibErase p (s.each s.active (fun e s => (fibLocal e p true false 0 s).2)))
    | x => x

/-- The deep-only placements of a completed insert are counted (2101.07). -/
def countDeepOnly (st : Nat) (s : State) : State := s.when (st == 1) (fun s => s.pinc 0x2101 7 1)

/-! ### Searches and walks of the FIB (R209) -/

/-- A prefix as its record. -/
def pfxRecord (p : Pfx) (hot : Bool) (result : Nat) : Nat :=
  p.len <<< 248 ||| b2n hot <<< 247 ||| p.fam <<< 246 ||| p.vrf <<< 232 ||| result <<< 200 ||| p.pfx

/-- The engine of die d reads the deep tier of a home for a prefix: what is found there, with NO_PATH where the home is out of
reach or a read faults (log entry 21). -/
def deepFind (d h : Nat) (p : Pfx) (s : State) : TabOut × State :=
  if homeGone s d h then ({ status := 0x12 }, s)
  else match readDeep h p s with
    | (0, s) => (match tabFind s h (deepCode p.fam p.len) p.key with
      | none => { status := 2 }
      | some (_, _, e) => { found := pfxRecord p false e.result }, s)
    | (_, s) => ({ status := 0x12 }, s)

/-- The home of a cover-level prefix that is asked for it: the lowest whose port is up, else the lowest. -/
def coverHome (s : State) (d : Nat) (p : Pfx) : Nat :=
  let homes := (pfxHomes s p).mergeSort (· ≤ ·)
  ((homes.find? (fun h => !homeGone s d h && cxlReady s h)).orElse (fun _ => homes.head?)).getD d

/-- What a die reports of a prefix. -/
def fibFind (d : Nat) (rec : Nat) (s : State) : TabOut × State :=
  let (p, _, _) := fibRecord rec
  let c := fibCheck p false 0
  if c ≠ 0 then ({ status := c }, s)
  else if isRoot p then
    let s := rootParity d (p.vrf * 2 + p.fam) s
    (match (rootAt s d p.vrf p.fam).find? (fun r => r.len == p.len && r.pfx == p.pfx / 2 ^ (famW p.fam - 24)) with
      | none => { status := 2 }
      | some r => { found := pfxRecord p false r.result },
     bankGrant d 4 [bankOf (0x0F800000 + (p.vrf * 2 + p.fam) * 64)] s)
  else if isCover p then deepFind d (coverHome s d p) p s
  else
    let s := engReads d (hotCode p.fam p.len) p.key s
    match tabFind s d (hotCode p.fam p.len) p.key with
    | some (_, _, e) => ({ found := pfxRecord p true e.result }, s)
    | none => if (pfxHomes s p).contains d then deepFind d d p s else ({ status := 2 }, s)

/-- The place of a cover-level prefix in the walk of any die: by its key, for its deep copies lie on other dies as well, whose
moves the die's reloc_gen does not count (R246). -/
def coverPlace (p : Pfx) : Nat :=
  2 * 2 ^ 56 + p.fam * 2 ^ 50 + p.len * 2 ^ 44 + p.vrf * 2 ^ 32 + p.pfx / 2 ^ (famW p.fam - 32)

/-- Every prefix a die reports: its place in the walk, its record, and of one that the deep tier gives the prefix. -/
def fibWalk (s : State) (d : Nat) : List (Nat × Nat × Option Pfx) :=
  let roots := (s.die d).look.root.flatMap (fun x =>
    (rootSlots s d (x.1 / 2) (x.1 % 2)).map (fun y =>
      let fam := x.1 % 2
      (x.1 * 8 + y.1, pfxRecord { fam := fam, vrf := x.1 / 2, len := y.2.len, pfx := y.2.pfx * 2 ^ (famW fam - 24) } false y.2.result, none)))
  let of := fun (stage e code : Nat) (hot : Bool) (keep : Nat → Bool) =>
    (tabVisible s e code).filterMap (fun x =>
      if !keep x.2.2.key then none
      else some (stage * 2 ^ 56 + (code % 512) * 2 ^ 30 + x.1 * 4 + x.2.1,
        pfxRecord (pfxOfKey (codeFam code) (codeLen code) x.2.2.key) hot x.2.2.result,
        if hot then none else some (pfxOfKey (codeFam code) (codeLen code) x.2.2.key)))
  let hots := hotOrder.flatMap (fun x => of 1 d (hotCode x.1 x.2) true (fun _ => true))
  let covers := (((s.present).flatMap (fun e => (deepOrder.filter (fun x => decide (x.2 ≤ famS x.1))).flatMap (fun x =>
    (deepEntries s e x.1 x.2).map (fun y =>
      let p := pfxOfKey x.1 x.2 y.key
      (coverPlace p, pfxRecord p false y.result, some p))))).dedup).mergeSort (fun a b => decide (a.1 ≤ b.1))
  let deeps := (deepOrder.filter (fun x => decide (famS x.1 < x.2))).flatMap (fun x =>
    of 3 d (deepCode x.1 x.2) false (fun k => (tabFind s d (hotCode x.1 x.2) k).isNone))
  roots ++ hots ++ covers ++ deeps

/-- The next entry of the FIB's walk on a die. What the deep tier gives is read there; a read that faults answers NO_PATH with the
cursor after the entry (log entry 21). -/
def fibNext (d cursor : Nat) (s : State) : TabOut × State :=
  match (fibWalk s d).find? (fun x => decide (cursor ≤ x.1)) with
  | none => ({ status := 3 }, s)
  | some (place, rec, none) => ({ found := rec, cursor := place + 1 }, s)
  | some (place, _, some p) =>
    let (o, s) := deepFind d (if isCover p then coverHome s d p else d) p s
    ({ o with cursor := place + 1 }, s)

/-! ### The FIB flush (R247) -/

/-- The deep bucket of a flattened number: family, length and bucket. -/
def deepBucketAt (s : State) : List (Nat × Nat) → Nat → Option (Nat × Nat × Nat)
  | [], _ => none
  | x :: r, n =>
    let c := tabBuckets s (deepCode x.1 x.2)
    if n < c then some (x.1, x.2, n) else deepBucketAt s r (n - c)

/-- The deep buckets that the next step of a FIB flush reads: family, length and bucket. -/
def flushBuckets (s : State) (f : Flush) : List (Nat × Nat × Nat) :=
  (List.range 64).filterMap (fun i => deepBucketAt s deepOrder (f.pos * 64 + i))

/-- The prefixes the next step of a FIB flush on a die deletes: of 64 deep buckets it homes, then of its root entries; `shut` are
the buckets that it cannot read. -/
def fibFlushNext (s : State) (d : Nat) (f : Flush) (shut : List (Nat × Nat × Nat)) : List Pfx :=
  let total := (deepOrder.map (fun x => tabBuckets s (deepCode x.1 x.2))).sum
  let n0 := f.pos * 64
  let wanted := fun (p : Pfx) (result : Nat) => f.statics && leavesBy s d result f.port &&
    (match f.filter with | none => true | some v => p.vrf == v % 4096)
  let deep := ((flushBuckets s f).filter (!shut.contains ·)).flatMap (fun x =>
    ((rawBucket s d (deepCode x.1 x.2.1) x.2.2).slots.map (fun y => (pfxOfKey x.1 x.2.1 y.2.key, y.2.result))))
  let roots := (List.range 64).flatMap (fun i =>
    if n0 + i < total ∨ total + 8192 ≤ n0 + i then []
    else
      let v := n0 + i - total
      (rootAt s d (v / 2) (v % 2)).map (fun r =>
        (({ fam := v % 2, vrf := v / 2, len := r.len, pfx := r.pfx * 2 ^ (famW (v % 2) - 24) } : Pfx), r.result)))
  ((deep ++ roots).filter (fun x => wanted x.1 x.2)).map (·.1)

/-- Steps a flush of a table takes on a die. -/
def flushSteps (s : State) (f : Flush) : Nat :=
  if f.table = 0x10 then 4096 else ((deepOrder.map (fun x => tabBuckets s (deepCode x.1 x.2))).sum + 8192 + 63) / 64

/-- The deep buckets of a step of a FIB flush are read (R229, R301): those that could not be, and the state. -/
def flushReads (d : Nat) (f : Flush) (s : State) : List (Nat × Nat × Nat) × State :=
  (flushBuckets s f).foldl (fun (x : List (Nat × Nat × Nat) × State) y =>
    match readLines d (linesOf x.2 (deepCode y.1 y.2.1) y.2.2) x.2 with
    | (0, s) => (x.1, s)
    | (_, s) => (y :: x.1, s)) ([], s)

/-- One step of a FIB flush on a die: a prefix that R210 cannot delete is kept, and what stands in a bucket that cannot be read. -/
def fibFlushStep (d : Nat) (f : Flush) (s : State) : State :=
  let (shut, s) := flushReads d f s
  let (kept, s) := (fibFlushNext s d f shut).foldl (fun (x : Bool × State) p =>
    match fibDelete d p x.2 with
    | (0, s) => (x.1, flushCount d 1 s)
    | (_, s) => (true, s)) (f.kept || !shut.isEmpty, s)
  if f.pos + 1 < flushSteps s f then s.onDie d (fun x => { x with look.flush := some { f with pos := f.pos + 1, kept := kept } })
  else flushEnd d kept s

/-- A deep bucket of a die lies in a page that migrates. -/
def bucketMoves (s : State) (d : Nat) (x : Nat × Nat × Nat) : Bool :=
  (linesOf s (deepCode x.1 x.2.1) x.2.2).any (fun l => (mapEntry s d (pageNo 0 l.1)).state == 2)

/-- FLUSH_STEP (R247): the next 64 buckets of the flush of a die. The engine must be free for it (R242), and a page that a deep
copy lies on must not be migrating (R308). -/
def flushStep (d : Nat) (s : State) : State :=
  match (s.die d).look.flush with
  | none => s
  | some f =>
    if !engFree s d then s
    else if f.table = 0x10 then macFlushStep d f (engGrant d 0 s)
    else if (flushBuckets s f).any (bucketMoves s d) || (fibFlushNext s d f []).any (fibWaits s d · false) then s
    else fibFlushStep d f (engGrant d 0 s)

/-! ### Stem rebuilding (R202) -/

/-- STEM_REBUILD: the next stem lost to a fenced bank is rebuilt from the deep tier into its other bucket, if any prefix still
asks for it (R179, R202). The write is the die's own, not a broadcast (R251). -/
def stemRebuild (d : Nat) (s : State) : State :=
  match (s.die d).look.rebuild with
  | [] => s
  | k :: rest =>
    let fam := if bits k 63 56 = 6 then 1 else 0
    let vrf := bits k 51 40
    let stem := bits k 31 0
    let put := fun (l : List Nat) (s : State) => s.onDie d (fun x => { x with look.rebuild := l })
    let s := engReads d stemCode k s
    let (c, t) := readStem d fam vrf stem s
    let e := stemFrom t d fam vrf stem
    if (tabFind s d stemCode k).isSome then put rest s
    else if c ≠ 0 then put (rest ++ [k]) t
    else if emptyStem e then put rest t
    else
      let s := t
      let (ba, bb) := choices s stemCode k
      match ([ba, bb].filter (fun b => !bucketFenced s d stemCode b)).findSome? (fun b =>
          (freeSlot 3 (rawBucket s d stemCode b)).map (fun i => (b, i))) with
      | none => put (rest ++ [k]) s
      | some (b, i) =>
        let s := if b = ba || bucketFenced s d stemCode ba then s else onBucket d stemCode ba false (fun v => { v with alt := altInc v.alt }) s
        put rest (onBucket d stemCode b false (fun v => { v with slots := minsert v.slots i e }) s)

/-! ### The home die map (R214, R310) -/

/-- Every cover-level prefix of the deep tier, with its result. -/
def allCovers (s : State) : List (Pfx × TEntry) :=
  ((s.present).flatMap (fun h => (deepOrder.filter (fun x => decide (x.2 ≤ famS x.1))).flatMap (fun x =>
    (deepEntries s h x.1 x.2).map (fun e => (pfxOfKey x.1 x.2 e.key, e))))).dedup

/-- The candidate prefixes under one home index on a die. -/
def indexEntries (s : State) (h idx : Nat) : List (Pfx × TEntry) :=
  (deepOrder.filter (fun x => decide (famS x.1 < x.2))).flatMap (fun x =>
    (deepEntries s h x.1 x.2).filterMap (fun e =>
      let p := pfxOfKey x.1 x.2 e.key
      if bits (tabHash s stemCode (stemKey p.fam p.vrf (stemOf p.fam p.pfx))).1 31 24 = idx then some (p, e) else none))

/-- Move the deep entries of one home index (R214): the candidates under it from the old home to the new one, and the copies of a
cover-level prefix to the homes it gains and from those it loses; none when the new home cannot hold them. -/
def moveDeep (idx old new : Nat) (s : State) : Option State :=
  let ents := indexEntries s old idx
  let covers := (allCovers s).map (fun y => (y, pfxHomes s y.1))
  let s := s.pset 0x1810 idx new
  let step := fun (x : Option State) (h : Nat) (p : Pfx) (e : TEntry) (del : Bool) => x.bind (fun s =>
    match putDeep h p del e.hot e.result s with
    | (0, s) => some s
    | (2, s) => some s
    | _ => none)
  let moved := ents.foldl (fun x y => step (step x new y.1 y.2 false) old y.1 y.2 true) (some s)
  covers.foldl (fun x y =>
    let (y, was) := y
    let homes := pfxHomes s y.1
    let x := (homes.filter (fun h => !was.contains h)).foldl (fun x h => step x h y.1 y.2 false) x
    (was.filter (fun h => !homes.contains h)).foldl (fun x h => step x h y.1 y.2 true) x) moved

/-- The contexts of a home index that a die caches or keeps locks of, with their lines and locks. -/
def indexCtx (idx c : Nat) : Bool := bits c 23 16 == idx

/-- A page of the contexts of a home index moves to its new home (R310): dirty lines are written back, the page is copied line by
line, which takes the new page's lines off the poison list, and the old page is not present any more. A line that is listed at
the old home is written as zeros and listed at the new one, as in a migration (R304, R308). A migration of it ends with it. -/
def movePage (old new p : Nat) (s : State) : State :=
  let n := pageNo 1 p
  let s := s.each ((s.die old).look.ctx.filter (fun x => ctxPage x.1 == p)) (fun x s => writeBack old x.1 s)
  let a := (mapEntry s old n).hpa
  let b := (mapEntry s new n).hpa
  let lines := (s.die old).look.exp.filter (fun x => x.1 / 16384 == a)
  let s := zeroPage new b s
  let s := s.onDie new (fun x => { x with look.exp := lines.foldl (fun m y => mput m (b * 16384 + y.1 % 16384) y.2) x.look.exp })
  let s := s.onDie old (fun x => { x with look.pageCmd := x.look.pageCmd.filter (fun k => !(k.region == 1 && k.page == p)) })
  let bad := (s.die old).look.poison.filter (fun at_ => at_ / 2 ^ 21 % 2 ^ 24 == n)
  let s := (curePage new n s).each bad fun at_ s =>
    let o := at_ % 2 ^ 21
    let half := o / 64 % 2
    poisonLine new (dva new 1 p o) (s.onDie new (fun x => { x with
      look.exp := mmod x.look.exp (b * 16384 + o / 128) (fun l => l.filter (fun w => w.1 / 8 != half)) }))
  setPage old n 0 0 (curePage old n s)

/-- The sets of a die's cache take the pinned lines of contexts that move there: at most 12 pinned ways in a set (R295). -/
def pinsFit (s : State) (new : Nat) (lines : List (Nat × CtxLine)) : Bool :=
  lines.all (fun x =>
    let same := fun (y : Nat × CtxLine) => y.1 % 16384 == x.1 % 16384
    decide ((lines.filter same).length + ((s.die new).look.ctx.filter (fun y => same y && decide (0 < y.2.pins))).length ≤ 12))

/-- Ways of a set of a die's cache are made free for lines that come to it, by lines that may leave (R294). -/
def makeRoom (new : Nat) (lines : List (Nat × CtxLine)) (s : State) : State :=
  s.each lines fun x s =>
    let set := (s.die new).look.ctx.filter (fun y => y.1 % 16384 == x.1 % 16384 && y.2.valid)
    let n := (lines.filter (fun y => y.1 % 16384 == x.1 % 16384)).length
    s.each ((set.filter (evictable s new)).take (set.length + n - 16)) (fun y s =>
      (writeBack new y.1 s).onDie new (fun z => { z with look.ctx := mdel z.look.ctx y.1 }))

/-- The lock table and the wait queue of a die take the locks that come to it (R299). -/
def locksFit (s : State) (new : Nat) (locks : Map Lock) : Bool :=
  decide ((s.die new).look.locks.length + locks.length ≤ 4096) &&
    decide (lockWaiting s new + (locks.map (fun x => x.2.queue.length)).sum ≤ 8192)

/-- Move the present context pages of one home index (R310); none when a page is not present on the new home. A line that a run
pins stays cached, at the new home, and locks go with their contexts; none as well when the new home cannot take those lines or
locks (R294, R295, R299; log entry 95). -/
def moveContexts (idx old new : Nat) (s : State) : Option State :=
  let pages := (List.range 4).map (fun i => idx * 4 + i)
  let here := pages.filter (fun p => [1, 2].contains (mapEntry s old (pageNo 1 p)).state)
  let pinned := (s.die old).look.ctx.filter (fun x => indexCtx idx x.1 && decide (0 < x.2.pins))
  if here.any (fun p => (mapEntry s new (pageNo 1 p)).state != 1) || !pinsFit s new pinned ||
      !locksFit s new ((s.die old).look.locks.filter (fun x => indexCtx idx x.1)) then none
  else
    let s := makeRoom new pinned (s.each here (movePage old new))
    let k := (s.die old).look
    let pinned := k.ctx.filter (fun x => indexCtx idx x.1 && decide (0 < x.2.pins))
    let locks := k.locks.filter (fun x => indexCtx idx x.1)
    let s := s.onDie old (fun x => { x with
      look.ctx := x.look.ctx.filter (fun y => !indexCtx idx y.1), look.locks := x.look.locks.filter (fun y => !indexCtx idx y.1) })
    some (s.onDie new (fun x => { x with
      look.ctx := pinned.foldl (fun m y => mput m y.1 y.2) x.look.ctx, look.locks := locks.foldl (fun m y => mput m y.1 y.2) x.look.locks }))

/-- The home of a deep request by the map. -/
def deepHome (s : State) (r : DeepReq) : Nat :=
  match r.ctx with
  | some c => ctxHome s c
  | none => stemHome s r.req.fam (bits (r.req.key 0) 11 0) (stemOf r.req.fam (fibAddr r.req))

/-- A deep request whose home has changed asks the new home; what it asked the old one is void. -/
def reaim (d : Nat) (r : DeepReq) (s : State) : State :=
  let mine := fun (m : HomeReq) => match m with | .bucket e no .. => e == d && no == r.no | .fill e no .. => e == d && no == r.no | _ => false
  let s := s.onDies (fun _ x => { x with
    look.port := x.look.port.filter (fun m => !mine m), look.fillWait := x.look.fillWait.filter (fun m => !mine m) })
  let s := s.dropMsgs (fun m => match m.body with
    | .search q => mine q
    | .answer (.bucket no ..) => m.dst == d && no == r.no
    | .answer (.reply (some no) _) => m.dst == d && no == r.no
    | _ => false)
  let r := { r with home := deepHome s r, step := 0, retries := 0 }
  askHome d r (onDeep d r s)

/-- Every deep request follows the home die map. -/
def reaimAll (s : State) : State :=
  s.each s.present fun d s =>
    let s := s.onDie d (fun x => { x with look.units := x.look.units.map (fun u =>
      (u.1, { u.2 with staging := u.2.staging.map (fun r => { r with home := deepHome s r }) })) })
    s.each ((s.die d).look.deepQ.filter (fun r => r.home != deepHome s r)) (reaim d)

/-- A home index has present context pages or deep FIB entries on a die. -/
def indexHeld (s : State) (idx h : Nat) : Bool :=
  (List.range 4).any (fun i => [1, 2].contains (mapEntry s h (pageNo 1 (idx * 4 + i))).state) || !(indexEntries s h idx).isEmpty ||
    (allCovers s).any (fun y => (coveredStems y.1).any (fun st => bits (tabHash s stemCode (stemKey y.1.fam y.1.vrf st)).1 31 24 == idx))

/-- HOME_DIE_MAP_WRITE (R84, R214, R310): a write of `1810.sub`. -/
def homeMapWrite (idx new : Nat) (s : State) : Nat × State :=
  if !s.has new ∨ s.excluded new then (0x13, s)
  else if !s.modeIn [.standby, .bringup, .drain, .quiesce] then (0x16, s)
  else
    let old := s.pg 0x1810 idx
    if old = new then (0, s)
    else if indexHeld s idx old ∧ (!cxlReady s old ∨ !cxlReady s new) then (0x12, s)
    else match (moveContexts idx old new s).bind (moveDeep idx old new) with
      | none => (0x10, s)
      | some s => (0, reaimAll s)

/-! ### Meanings -/

/-- FIB_LOOKUP: unit u serves a request of profile 0x10 or 0x11 at its head; `grants` says for the stem map (0) and each hot
length when its reads were granted. -/
def execFibLookup (d : DieId) (u : Fin 4) (grants : List (Fin 129 × List ReadAt)) (s : State) : Host.Outcome State Fault Refusal :=
  onLive d (serveHead d u (fun p => p == 0x10 || p == 0x11) (fibLookup d u grants)) s
/-- FIB_RESOLVE: unit u serves a request of profile 0x12 at its head. -/
def execFibResolve (d : DieId) (u : Fin 4) (s : State) : Host.Outcome State Fault Refusal :=
  onLive d (serveHead d u (fun p => p == 0x12) (fibResolve d)) s
/-- DEEP_READ_COMPLETE: the bucket read at the head of a die's CXL port returns, `poison` by 64-byte line. -/
def execDeepReadComplete (d : DieId) (poison : Fin 4) (s : State) : Host.Outcome State Fault Refusal :=
  onLive d (deepReadDone d poison) s
/-- STEM_REBUILD. -/
def execStemRebuild (d : DieId) (s : State) : Host.Outcome State Fault Refusal := onLive d (stemRebuild d) s
/-- FLUSH_STEP. -/
def execFlushStep (d : DieId) (s : State) : Host.Outcome State Fault Refusal := onLive d (flushStep d) s

end Sys2Proof.Machine
end

