-- ==== Sys2Proof/Machine/Rules.lean ====
section
/-! DEFINITION. The ternary store, rule tables, action and rewrite tables, epochs, and the table commands of every table
(Classification, Actions and Rule-Set Epochs; Exact Tables, Learning and Ageing). -/

namespace Sys2Proof.Machine

/-! ### Ternary searches (R258, R259) -/

/-- An entry matches a key of a rule table in an epoch (R258). -/
def ternMatch (t e : Nat) (key : BitVec 224) (x : TernEntry) : Bool :=
  x.table.toNat == t && x.epochs.getLsbD e && ((key ^^^ x.value) &&& x.mask) == 0

/-- The winning entry: the highest priority, then the lowest index. -/
def ternBest (l : Map TernEntry) (t e : Nat) (key : BitVec 224) : Option (Nat × TernEntry) :=
  (l.filter (fun x => ternMatch t e key x.2)).foldl (fun b x => match b with
    | none => some x
    | some y => if y.2.prio < x.2.prio then some x else b) none

/-- The classification store is read (R530, Table 18.6): a flip that a re-read clears is Corrected, and so is one that stays, its word
reloaded from another present die's replica while the search waits; with no such die the store is fenced. -/
def classParity (d : Nat) (s : State) : State :=
  match (s.die d).core.flips.find? (fun f => f.1 == 8 && decide (0 < f.2.2.2)) with
  | none => s
  | some f =>
    let s := spendFlip d f f.2.2.2 s
    let (k, s) := s.fresh
    if f.2.2.2 < 3 ∨ (s.present).any (fun e => e != d && !s.isolated e) then s.report d 8 f.2.1 2 (0x282 + k % 62) f.2.2.1
    else (s.onDie d (fun x => { x with look.classFenced := true })).report d 8 f.2.1 3 0x281 f.2.2.1

/-- TERNARY_SEARCH of a unit's head request. -/
def ternarySearch (d u : Nat) (q : SReq) (s : State) : State :=
  let s := if (s.die d).look.classFenced then s else classParity d s
  let k := (s.die d).look
  let s := unitEvent d u 0x46 1 q (s.dinc d 0x4660 1 1)
  let key := BitVec.ofNat 224 (q.key 0 <<< 192 ||| q.key 1 <<< 128 ||| q.key 2 <<< 64 ||| q.key 3)
  let best := if k.classFenced then none else ternBest k.tern (q.profile - 0x30) (bits q.hdr.toNat 34 31) key
  match best with
  | none => answer q { hdr := slotHdr 4 2 q.profile 0 0 0 } s
  | some (i, x) =>
    let a := mget k.actions x.action.toNat
    answer q { hdr := slotHdr 3 2 q.profile 0 0 i, p1 := (a >>> 128).setWidth 64, p2 := (a >>> 64).setWidth 64
               p3 := a.setWidth 64 } (s.dinc d 0x4660 2 1)

/-! ### Rule tables (R256, R263, R272 to R274) -/

/-- The Current, Next and Retiring numbers as the Summit keeps them. -/
def epochNext (s : State) : Nat := s.pg 0x2300 3
def epochCurrent (s : State) : Nat := s.pg 0x2300 1

/-- Change the epoch bit of the entries a test names; an entry with no bit left is free (R257). -/
def setEpoch (d e : Nat) (on : Bool) (p : TernEntry → Bool) (s : State) : State :=
  let one : BitVec 16 := 1
  let f := fun (y : TernEntry) => if !p y then y
    else if on then { y with epochs := y.epochs ||| (one <<< e) } else { y with epochs := y.epochs &&& ~~~(one <<< e) }
  s.onDie d (fun x =>
    let l := (x.look.tern.map (fun y => (y.1, f y.2))).filter (fun y => y.2.epochs != 0)
    { x with look.tern := l })

/-- The lowest number a store does not list. -/
def lowestGap {α : Type} : Map α → Nat → Nat
  | [], n => n
  | (k, _) :: r, n => if k = n then lowestGap r (n + 1) else n

/-- The identity of a rule (R273). -/
def ruleOf (t rec : Nat) : TernEntry :=
  { value := BitVec.ofNat 224 (bits rec 511 288), mask := BitVec.ofNat 224 (bits rec 287 64)
    prio := BitVec.ofNat 20 (bits rec 47 28), action := BitVec.ofNat 17 (bits rec 27 11), table := BitVec.ofNat 4 t }

/-- Two entries are the same rule. -/
def sameRule (a b : TernEntry) : Bool := a.table == b.table && a.value == b.value && a.mask == b.mask && a.prio == b.prio

/-- A rule as its record (R273). -/
def ruleRecord (x : TernEntry) : Nat :=
  x.value.toNat <<< 288 ||| x.mask.toNat <<< 64 ||| x.epochs.toNat <<< 48 ||| x.prio.toNat <<< 28 ||| x.action.toNat <<< 11

/-- Insert a rule for the Next epoch (Table 8.4, R263). -/
def ruleInsert (d t rec : Nat) (s : State) : TabOut × State :=
  let r := ruleOf t rec
  let e := epochNext s
  let k := (s.die d).look
  if !k.written.contains r.action.toNat then ({ status := 0x13 }, s)
  else if k.tern.any (fun x => sameRule x.2 r && x.2.action == r.action) then
    ({}, setEpoch d e true (fun x => sameRule x r && x.action == r.action) s)
  else
    let s1 := setEpoch d e false (fun x => sameRule x r) s
    let i := lowestGap (s1.die d).look.tern 0
    if 131072 ≤ i then ({ status := 0x10 }, s)
    else ({}, s1.onDie d (fun x => { x with look.tern := mput x.look.tern i { r with epochs := 1 <<< e } }))

/-- Delete a rule from the Next epoch (Table 8.4). -/
def ruleDelete (d t rec : Nat) (s : State) : TabOut × State :=
  let r := ruleOf t rec
  let e := epochNext s
  if (s.die d).look.tern.any (fun x => sameRule x.2 r && x.2.epochs.getLsbD e) then
    ({}, setEpoch d e false (fun x => sameRule x r) s)
  else ({ status := 2 }, s)

/-- Search a rule: the entry holding the Current bit, else the Next bit (Table 8.4). -/
def ruleFind (d t rec : Nat) (s : State) : TabOut :=
  let r := ruleOf t rec
  let l := (s.die d).look.tern.filter (fun x => sameRule x.2 r)
  match (l.find? (fun x => x.2.epochs.getLsbD (epochCurrent s))).orElse (fun _ => l.find? (fun x => x.2.epochs.getLsbD (epochNext s))) with
  | none => { status := 2 }
  | some x => { found := ruleRecord x.2 }

/-- The next live entry of a rule table (Table 8.4). -/
def ruleNext (d t cursor : Nat) (s : State) : TabOut :=
  walkFrom (((s.die d).look.tern.filter (fun x => x.2.table.toNat == t)).map (fun x => (x.1, ruleRecord x.2))) cursor

/-- The reference count of an action entry (R263). -/
def actionRefs (s : State) (d i : Nat) : Nat := ((s.die d).look.tern.filter (fun x => x.2.action.toNat == i)).length

/-- An action word the table of actions refuses (Table 8.2, R263). -/
def badAction (w : Nat) : Bool :=
  match bits w 31 28 with
  | 1 => !([2, 3, 4, 8, 9, 10, 11].contains (bits w 27 24))
  | 2 => decide (1 < bits w 27 26) || (bits w 27 26 == 0 && bits w 19 0 == 0xFFFFF)
  | 4 => bits w 27 26 == 3
  | 5 => bits w 27 26 == 3
  | 0xB => decide (0 < bits w 7 0) && decide (bits w 7 0 < 0x80)
  | op => decide (0xC ≤ op)

/-- Insert or delete an action entry (R262, R263). -/
def actionWrite (d : Nat) (del : Bool) (rec : Nat) (s : State) : TabOut × State :=
  let i := bits rec 511 495
  if !del && (List.range 6).any (fun j => badAction (bits rec (32 * j + 31) (32 * j))) then ({ status := 0x13 }, s)
  else if 0 < actionRefs s d i then ({ status := 0x11 }, s)
  else if del then
    ({}, s.onDie d (fun x => { x with look.actions := mdel x.look.actions i, look.written := x.look.written.filter (· != i) }))
  else
    ({}, s.onDie d (fun x => { x with
      look.actions := mput x.look.actions i (BitVec.ofNat 192 (bits rec 191 0))
      look.written := if x.look.written.contains i then x.look.written else (x.look.written ++ [i]).mergeSort (· ≤ ·) }))

/-- An action entry as its record. -/
def actionRecord (s : State) (d i : Nat) : Nat :=
  i <<< 495 ||| actionRefs s d i <<< 192 ||| (mget (s.die d).look.actions i).toNat

/-- Insert or delete a rewrite list entry (R267). -/
def rewriteWrite (d : Nat) (del : Bool) (rec : Nat) (s : State) : TabOut × State :=
  let i := bits rec 511 494
  if i = 0 ∨ (!del && decide (24 < bits rec 255 251)) then ({ status := 0x13 }, s)
  else ({}, s.onDie d (fun x => { x with look.rewrite := mput x.look.rewrite i (if del then 0 else BitVec.ofNat 256 (bits rec 255 0)) }))

/-! ### Tables of other chapters (R327, R330, R349, R356) -/

/-- Insert or delete a VOQ map entry (Table 10.5, R327). -/
def voqMapWrite (d : Nat) (del : Bool) (rec : Nat) (s : State) : TabOut × State :=
  let v : VoqMap := if del then {} else { profile := bits rec 63 61, port := bits rec 60 52 }
  if v.port ≠ 0x1FF ∧ !s.has (v.port / 64) then ({ status := 0x15 }, s)
  else ({}, s.onDie d (fun x => { x with buf.voqMap := mput x.buf.voqMap (bits rec 511 496) v }))

/-- A VOQ map entry as its record. -/
def voqMapRecord (i : Nat) (v : VoqMap) : Nat := i <<< 496 ||| v.profile <<< 61 ||| v.port <<< 52

/-- Insert or delete a multicast group (R330). -/
def groupWrite (d : Nat) (del : Bool) (rec : Nat) (s : State) : TabOut × State :=
  ({}, s.onDie d (fun x => { x with
    buf.groups := mput x.buf.groups (bits rec 511 496) (if del then 0 else BitVec.ofNat 64 (bits rec 63 0)) }))

/-- A meter entry that an insert refuses (R349). -/
def badMeter (c : Nat) : Bool :=
  (bits c 112 93 == 0 && bits c 92 73 == 0) ||
    (bit c 127 && (decide (bits c 31 0 < bits c 63 32) || bits c 112 93 == 0 || bits c 92 73 == 0)) ||
    decide (1600000000 < bits c 63 32) || decide (1600000000 < bits c 31 0)

/-- Insert or delete a meter (R349, R354): a new meter's buckets are full, an existing one keeps its tokens clamped. -/
def meterWrite (d : Nat) (del : Bool) (rec : Nat) (s : State) : TabOut × State :=
  let i := bits rec 511 493
  let c := bits rec 127 0
  let old := mget (s.die d).buf.meters i
  let cbs := burst32 (bits c 112 93)
  let ebs := burst32 (bits c 92 73)
  let put := fun (m : Meter) (s : State) => s.onDie d (fun x => { x with buf.meters := mput x.buf.meters i m })
  if del then ({}, put {} s)
  else if badMeter c then ({ status := 0x13 }, s)
  else if old.cfg = 0 then ({}, put { cfg := BitVec.ofNat 128 c, tc := cbs, te := ebs, last := s.cycles } s)
  else
    ({}, put { old with cfg := BitVec.ofNat 128 c, tc := min cbs old.tc, te := min ebs old.te } s)

/-- A meter as its record, with the tokens that the die holds, in whole bytes, saturating: those of the last charge (R349, R351). -/
def meterRecord (s : State) (d i : Nat) : Nat :=
  let m := mget (s.die d).buf.meters i
  i <<< 493 ||| min (m.tc / 2 ^ 32) (2 ^ 32 - 1) <<< 224 ||| min (m.te / 2 ^ 32) (2 ^ 32 - 1) <<< 192 ||| m.cfg.toNat

/-- A gate list entry as its record (R356): port, list, index. -/
def gateRecord (s : State) (d rec : Nat) : Option Nat :=
  let port := bits rec 511 503
  if port / 64 ≠ d then none
  else
    let g := gate s d (port % 64)
    let l := if bit rec 502 then g.oper.list else g.admin
    let i := bits rec 501 494
    let v := mget l i
    some (port <<< 503 ||| bits rec 502 502 <<< 502 ||| i <<< 494 ||| v.1 <<< 32 ||| v.2)

/-- Delete a gate list entry: it returns to its reset value. -/
def gateDelete (d rec : Nat) (s : State) : TabOut × State :=
  let port := bits rec 511 503
  if bit rec 502 ∨ port / 64 ≠ d then ({ status := 0x13 }, s)
  else ({}, onGate d (port % 64) (fun g => { g with admin := mdel g.admin (bits rec 501 494) }) s)

/-! ### Table commands (R242 to R249) -/

/-- A table that is a replica and that a single-die write is counted for (R249, R256, Table 1.4). -/
def countedReplica (s : State) (t : Nat) : Bool :=
  match t with
  | 2 | 3 | 5 | 6 | 0x11 => true
  | 0x10 | 0x12 => s.part != .d9080
  | _ => decide (0x20 ≤ t) && decide (t ≤ 0x2F)

/-- The relocations of a table on a die since reset (R244). -/
def relocs (s : State) (d t : Nat) : Nat :=
  if 0x10 ≤ t ∧ t ≤ 0x12 then (table s d t).relocGen
  else if t = 1 then (((s.die d).look.tabs.filter (fun x => decide (0x1000 ≤ x.1))).map (fun x => x.2.relocGen)).sum % 2 ^ 32
  else 0

/-- An insert or delete on one die, tables other than the FIB. -/
def tableWrite (d t : Nat) (all del static : Bool) (rec : Nat) (s : State) : TabOut × State :=
  match t with
  | 2 => nextHopWrite d all del rec s
  | 3 => ecmpWrite d all del rec s
  | 4 => groupWrite d del rec s
  | 5 => voqMapWrite d del rec s
  | 6 => meterWrite d del rec s
  | 7 => if del then gateDelete d rec s else (fun (x : Nat × State) => ({ status := x.1 }, x.2)) (gateListInsert d rec s)
  | 0x2E => actionWrite d del rec s
  | 0x2F => rewriteWrite d del rec s
  | _ =>
    if 0x10 ≤ t ∧ t ≤ 0x12 then (if del then exactDelete d t all rec s else exactInsert d t all static rec s)
    else if 0x20 ≤ t ∧ t ≤ 0x2D then (if del then ruleDelete d (t - 0x20) rec s else ruleInsert d (t - 0x20) rec s)
    else ({ status := 0x13 }, s)

/-- A search on one die. -/
def tableFind (d t rec : Nat) (s : State) : TabOut × State :=
  let k := (s.die d).look
  let lines := fun (off : Nat) (sub : Nat) (s : State) => if lineFenced s d off sub then s else bankGrant d 4 [bankOf off] s
  match t with
  | 1 => fibFind d rec s
  | 2 =>
    let s := lineParity d ((0x0D000000 + bits rec 511 492 * 16) / 64) s
    ({ found := bits rec 511 492 <<< 492 ||| (nextHopAt s d (bits rec 511 492)).toNat }, lines (0x0D000000 + bits rec 511 492 * 16) 2 s)
  | 3 =>
    let s := lineParity d ((0x0E000000 + bits rec 511 490 * 4) / 64) s
    ({ found := bits rec 511 490 <<< 490 ||| (ecmpAt s d (bits rec 511 490)).toNat }, lines (0x0E000000 + bits rec 511 490 * 4) 3 s)
  | 4 => ({ found := bits rec 511 496 <<< 496 ||| (mget (s.die d).buf.groups (bits rec 511 496)).toNat }, s)
  | 5 => ({ found := voqMapRecord (bits rec 511 496) (mget (s.die d).buf.voqMap (bits rec 511 496)) }, s)
  | 6 => ({ found := meterRecord s d (bits rec 511 493) }, s)
  | 7 => (match gateRecord s d rec with | some r => { found := r } | none => { status := 0x13 }, s)
  | 0x2E => ({ found := actionRecord s d (bits rec 511 495) }, s)
  | 0x2F => ({ found := bits rec 511 494 <<< 494 ||| (mget k.rewrite (bits rec 511 494)).toNat }, s)
  | _ =>
    if 0x10 ≤ t ∧ t ≤ 0x12 then exactFind d t rec s
    else if 0x20 ≤ t ∧ t ≤ 0x2D then (ruleFind d (t - 0x20) rec s, s)
    else ({ status := 0x13 }, s)

/-- The next entry of a walk on one die. -/
def tableNext (d t cursor : Nat) (s : State) : TabOut × State :=
  let k := (s.die d).look
  let b := (s.die d).buf
  if t = 1 then fibNext d cursor s
  else if 0x10 ≤ t ∧ t ≤ 0x12 then exactNext d t cursor s
  else (match t with
  | 2 => walkFrom ((mkeys k.nextHop).map (fun i => (i, i <<< 492 ||| (nextHopAt s d i).toNat))) cursor
  | 3 => walkFrom ((mkeys k.ecmp).map (fun i => (i, i <<< 490 ||| (ecmpAt s d i).toNat))) cursor
  | 4 => walkFrom (b.groups.map (fun x => (x.1, x.1 <<< 496 ||| x.2.toNat))) cursor
  | 5 => walkFrom (b.voqMap.map (fun x => (x.1, voqMapRecord x.1 x.2))) cursor
  | 6 => walkFrom ((b.meters.filter (fun x => x.2.cfg != 0)).map (fun x => (x.1, meterRecord s d x.1))) cursor
  | 7 => walkFrom (b.gates.flatMap (fun x =>
      let one := fun (o : Nat) (l : Map (Nat × Nat)) => l.map (fun y =>
        (x.1 * 512 + o * 256 + y.1, (d * 64 + x.1) <<< 503 ||| o <<< 502 ||| y.1 <<< 494 ||| y.2.1 <<< 32 ||| y.2.2))
      one 0 x.2.admin ++ one 1 x.2.oper.list)) cursor
  | 0x2E => walkFrom (k.written.map (fun i => (i, actionRecord s d i))) cursor
  | 0x2F => walkFrom (k.rewrite.map (fun x => (x.1, x.1 <<< 494 ||| x.2.toNat))) cursor
  | _ => if 0x20 ≤ t ∧ t ≤ 0x2D then ruleNext d (t - 0x20) cursor s else { status := 0x13 }, s)

/-- The opcode, table and record of a table command of 80 bytes (Table 7.11, R243). -/
def cmdOp (v : Nat) : Nat := bits v 127 120
def cmdTable (v : Nat) : Nat := bits v 119 112
def cmdRec (v : Nat) : Nat := bits v 639 128

/-- A table the part has. -/
def knownTable (t : Nat) : Bool :=
  (decide (1 ≤ t) && decide (t ≤ 7)) || (decide (0x10 ≤ t) && decide (t ≤ 0x12)) || (decide (0x20 ≤ t) && decide (t ≤ 0x2F))

/-- Carry out a table command on one die. A FIB insert or delete acts as the commanding die of R210. -/
def tableCmd (d : Nat) (all : Bool) (v : Nat) (s : State) : TabOut × State :=
  let t := cmdTable v
  let rec' := cmdRec v
  let r : TabOut × State :=
    if !knownTable t then ({ status := 0x13 }, s)
    else match cmdOp v with
      | 1 | 2 =>
        if t = 1 then
          if !all then ({ status := 0x14 }, s)
          else (fun (x : Nat × State) => ({ status := x.1 }, x.2)) (fibCommand d (cmdOp v == 2) rec' s)
        else if t = 7 ∧ all then ({ status := 0x14 }, s)
        else
          let (o, s') := tableWrite d t all (cmdOp v == 2) (bit v 107) rec' s
          (o, s'.when (!all && countedReplica s t && decide (o.status < 0x10)) (fun s => s.dinc d 0x4640 8 1))
      | 3 => if all then ({ status := 0x14 }, s) else tableFind d t rec' s
      | 4 => if all then ({ status := 0x14 }, s) else tableNext d t (bits v 63 0) s
      | 5 =>
        if t = 1 ∧ !all then ({ status := 0x14 }, s)
        else flushStart d t (bits v 85 77) all (bit v 106) (if bit v 105 then some (bits v 99 86) else none) s
      | _ => ({ status := 0x13 }, s)
  let s := r.2.dinc d 0x4640 3 1
  (r.1, s.when (decide (0x10 ≤ r.1.status)) (fun s => s.dinc d 0x4640 4 1))

/-- A completion (Table 7.13) with its record area, as the 80 bytes' value. -/
def completion (s : State) (d v refused : Nat) (o : TabOut) : Nat :=
  let t := cmdTable v
  (o.found <<< 128) ||| o.status <<< 120 ||| t <<< 112 ||| cmdOp v % 16 <<< 108 ||| o.moves <<< 104 ||| refused <<< 96 |||
    relocs s d t <<< 64 ||| o.cursor

/-! ### Epochs (R274 to R281) -/

/-- EPOCH_INHERIT (R274): every Current entry gains the Next bit. -/
def epochInherit (d : Nat) (s : State) : Nat × State :=
  (0, setEpoch d (epochNext s) true (fun x => x.epochs.getLsbD (epochCurrent s)) s)

/-- EPOCH_DISCARD_NEXT (R274): no entry keeps the Next bit. -/
def epochDiscard (d : Nat) (s : State) : Nat × State := (0, setEpoch d (epochNext s) false (fun _ => true) s)

/-- EPOCH_SWAP (R275): Next becomes Current, Current Retiring; the switch goes to every present die not Isolated. -/
def epochSwap (s : State) : Nat × State :=
  if s.modeIn [.standby, .faultHold, .locked, .diagnostic, .factory] then (0x16, s)
  else if s.pg 0x2300 4 ≠ 0 then (0x11, s)
  else
    let cur := epochCurrent s
    let nxt := epochNext s
    let s := (((s.pset 0x2300 1 nxt).pset 0x2300 2 cur).pset 0x2300 3 ((nxt + 1) % 16)).pset 0x2300 4 1
    let s := (s.pinc 0x2300 0xA 1).pset 0x2300 0xB s.time80
    let dies := (s.present).filter (fun d => !s.isolated d)
    let s := { s with retireAt := none, retireLimit := s.pg 0x2300 5 * 1000, unacked := dies }
    let from_ := (s.summit).getD ((s.active).headD 0)
    (0, s.each dies (fun d s => s.send from_ d (.epochSwitch nxt cur)))

/-- EPOCH_SWITCH_APPLY (R276): a die applies the switch and acknowledges it. -/
def switchApply (d : Nat) (s : State) : State :=
  s.receive d (fun b => match b with | .epochSwitch .. => true | _ => false) fun m s =>
    match m.body with
    | .epochSwitch cur ret =>
      let s := s.onDie d (fun x => { x with look.epCur := cur, look.epRet := some ret })
      s.send d m.src (.epochAck d)
    | _ => s

/-- The holders of an epoch number dispatched by a die (R277), by disp_die. -/
def holders (s : State) (d e : Nat) : Nat :=
  (s.pkts.filter (fun x => x.2.holder && x.2.desc.epoch.toNat == e && x.2.desc.dispDie.toNat == d)).length

/-- The holders of the number being retired, on every die. -/
def holdersLeft (s : State) : Nat := (s.pkts.filter (fun x => x.2.holder && x.2.desc.epoch.toNat == s.pg 0x2300 2)).length

/-- The die a packet stands on. -/
def pktDie (p : Packet) : Nat :=
  match p.stage with
  | .record d | .hold d _ | .queued d _ | .stealing d _ | .thread d _ _ | .parked d _ => d
  | _ => p.die

/-- A pre-empted packet that waits in a thread slot. -/
def slotWait (s : State) (p : Packet) (i : Nat) : Option (Nat × Nat × Nat) :=
  match p.stage with
  | .thread d c t => if (thread s d c t).pre.any (fun k => k.pkt == i) then some (d, c, t) else none
  | _ => none

/-- End a holder where R279 says it ends at once: queues, recirculation input, parked or pre-empted, and a run that has
not committed, which stands at a word boundary between commands. -/
def endHolderNow (i : Nat) (s : State) : State :=
  let p := s.pkt i
  if !expired s p then s
  else match p.stage with
    | .hold .. | .queued .. | .stealing .. | .recirc => dropPkt (pktDie p) i 0x0B s
    | .parked d x =>
      let k := mget (s.die d).eng.park x
      dropPkt d i 0x0B (match k.run with
        | some r => wasted d k.cluster k.thread r s
        | none => s)
    | .thread d c t =>
      match slotWait s p i with
      | some (d, c, t) => onThread (dropPkt d i 0x0B s) d c t (fun h => { h with pre := none })
      | none =>
        match (thread s d c t).run with
        | some r => if r.committed then s else dropPkt d i 0x0B (wasted d c t r s)
        | none => s
    | _ => s

/-- The number becomes Expiring and its holders end (R279). -/
def expire (s : State) : State := (s.pset 0x2300 4 2).each (mkeys s.pkts) endHolderNow

/-- EPOCH_SWITCH_ACK (R278): the Summit takes the acknowledgements; with that of every die the switch was sent to, as far as
it still takes part, it starts the retire timer. A force_retire that came before has its effect then. -/
def switchAck (s : State) : State :=
  match s.summit with
  | none => s
  | some m =>
    let ack := fun (x : Msg) => x.dst == m && x.arrived && (match x.body with | .epochAck _ => true | _ => false)
    let got := (s.msgs.filter ack).filterMap (fun x => match x.body with | .epochAck d => some d | _ => none)
    let s : State := State.dropMsgs { s with unacked := s.unacked.filter (fun d => !got.contains d) } ack
    if s.pg 0x2300 4 = 1 ∧ s.retireAt.isNone ∧ s.unacked.all s.isolated then
      let s : State := { s with retireAt := some s.now }
      if s.retireLimit = 0 then expire s else s
    else s

/-- FORCE_RETIRE (R278): at once when the retire timer runs; before its start the limit becomes 0. -/
def forceRetire (s : State) : Nat × State :=
  if !s.modeIn [.drain, .quiesce] then (0x16, s)
  else if s.pg 0x2300 4 ≠ 1 then (0, s)
  else if s.retireAt.isNone then (0, { s with retireLimit := 0 })
  else (0, expire s)

/-- RETIRE_TIMEOUT (R278, R281): with no holder left at the limit the number is Clearing. -/
def retireTimeout (s : State) : State :=
  match s.retireAt with
  | none => s
  | some t =>
    if s.pg 0x2300 4 ≠ 1 ∨ s.now < t + s.retireLimit then s
    else if holdersLeft s = 0 then s.pset 0x2300 4 3
    else expire s

/-- HOLDERS_ZERO (R278). -/
def holdersZero (s : State) : State :=
  let st := s.pg 0x2300 4
  if holdersLeft s = 0 ∧ ((st = 1 ∧ s.retireAt.isSome) ∨ st = 2) then s.pset 0x2300 4 3 else s

/-- EPOCH_CLEAR_DONE (R280): the number's bit is gone from every entry of every die, and the number is Free. -/
def clearDone (s : State) : State :=
  if s.pg 0x2300 4 ≠ 3 then s
  else
    let e := s.pg 0x2300 2
    let s := s.onDies (fun _ x => { x with look.epRet := none })
    let s := s.each s.present (fun d s => setEpoch d e false (fun _ => true) s)
    let s := s.pset 0x2300 0xC ((s.now - s.retireAt.getD s.now) % 2 ^ 32)
    { (s.pset 0x2300 2 0xFF).pset 0x2300 4 0 with retireAt := none, unacked := [] }

/-! ### Meanings -/

/-- TERNARY_SEARCH: unit u serves a ternary search at its head. -/
def execTernarySearch (d : DieId) (u : Fin 4) (s : State) : Host.Outcome State Fault Refusal :=
  onLive d (serveHead d u (fun p => decide (0x30 ≤ p) && decide (p ≤ 0x3D)) (ternarySearch d u)) s
/-- EPOCH_SWITCH_APPLY. -/
def execEpochSwitchApply (d : DieId) (s : State) : Host.Outcome State Fault Refusal := onLive d (switchApply d) s
/-- EPOCH_SWITCH_ACK. -/
def execEpochSwitchAck (s : State) : Host.Outcome State Fault Refusal := .next (switchAck s)
/-- RETIRE_TIMEOUT. -/
def execRetireTimeout (s : State) : Host.Outcome State Fault Refusal := .next (retireTimeout s)
/-- HOLDERS_ZERO. -/
def execHoldersZero (s : State) : Host.Outcome State Fault Refusal := .next (holdersZero s)
/-- EPOCH_CLEAR_DONE. -/
def execEpochClearDone (s : State) : Host.Outcome State Fault Refusal := .next (clearDone s)

end Sys2Proof.Machine
end

