-- ==== Sys2Proof/Machine/Settings.lean ====
section
/-! DEFINITION. The settings store and the key store in boot flash, and what registers hold after a reset (R42, R474,
R494, Table 16.2). -/

namespace Sys2Proof.Machine

/-- An index of the per-die part of the map (Table 16.4). -/
def isPerDie (idx : Nat) : Bool := decide (0x4000 ≤ idx)

/-- The number of a saved value: (die + 1) × 2^24 + entry, 0 for the package (R474). -/
def saveKey (d : Option Nat) (idx sub : Nat) : Nat := ((d.map (· + 1)).getD 0) * 2 ^ 24 + key idx sub

/-- The flash agent (R42): the Summit when it is die 0 or 1, otherwise the lower of the two that is healthy and reachable. -/
def flashAgent (s : State) : Option Nat :=
  match s.summit with
  | none => none
  | some m =>
    if m < 2 then some m
    else [0, 1].find? (fun d => s.has d && !(s.die d).held && !s.isolated d && bit (s.pg 0x1800 5) d && s.reach m d)

/-- The settings slot in use. -/
def settings (s : State) : SettingsSlot := mget s.slots s.flash.setSlot

/-- The current value of a saved number. -/
def savedValue (s : State) (k : Nat) : Nat :=
  let e := k % 2 ^ 24
  if k < 2 ^ 24 then s.pg (e / 256) (e % 256) else s.dg (k / 2 ^ 24 - 1) (e / 256) (e % 256)

/-- An RWS entry has been written: its value is to be saved (R474). -/
def noteSave (d : Option Nat) (idx sub : Nat) (s : State) : State :=
  let k := saveKey d idx sub
  if !isRws idx sub || s.unsaved.contains k then s else { s with unsaved := s.unsaved ++ [k] }

/-- An access of the Summit to the boot flash through the agent: one on another die gets it as a control message (R42). Its
effect is that of the access itself (log entry 12). -/
def flashAccess (s : State) : State :=
  match s.summit, flashAgent s with
  | some m, some a => if m = a then s else s.send m a .flash
  | _, _ => s

/-- SETTINGS_SAVE (R42, R474, R494): the Summit writes what is applied and not yet saved through the flash agent; without
an agent it stays pending. -/
def settingsSave (s : State) : State :=
  match flashAgent s with
  | none => s
  | some _ =>
    let slot := settings s
    let vs := s.unsaved.foldl (fun m k => minsert m k (savedValue s k)) slot.values
    let ks := s.keysDirty.foldl (fun m k => mput m k (mget s.keys k)) s.flashKeys
    let s := if s.unsaved.isEmpty && s.keysDirty.isEmpty then s else flashAccess s
    { s with
      slots := mput s.slots s.flash.setSlot { slot with values := vs, valid := true }
      flashKeys := ks, unsaved := [], keysDirty := [] }

/-- The registers a reset leaves: the saved values, every other entry at its default (Table 16.2). -/
def savedRegs (s : State) (d : Option Nat) : Map Nat :=
  let lo := saveKey d 0 0
  ((settings s).values.filter (fun x => decide (x.1 / 2 ^ 24 = lo / 2 ^ 24))).foldl
    (fun m x => let e := x.1 % 2 ^ 24; mputD (entryDefault s.part (e / 256) (e % 256)) m e x.2) []

/-- The registers that come up while power stays: the saved values and those applied that are still to be saved (R474, R497). -/
def heldRegs (s : State) (d : Option Nat) : Map Nat :=
  let lo := saveKey d 0 0
  (s.unsaved.filter (fun k => decide (k / 2 ^ 24 = lo / 2 ^ 24))).foldl
    (fun m k => let e := k % 2 ^ 24; mputD (entryDefault s.part (e / 256) (e % 256)) m e (savedValue s k)) (savedRegs s d)

/-- Entries that take their saved values while the others keep what they hold (R612). -/
def reloadRws (s : State) (d : Option Nat) (m : Map Nat) : Map Nat :=
  m.filter (fun x => !isRws (x.1 / 256) (x.1 % 256)) |>.foldl (fun a x => minsert a x.1 x.2) (savedRegs s d)

end Sys2Proof.Machine
end

