-- ==== Sys2Proof/Machine/Modes.lean ====
section
/-! DEFINITION. Operating modes and their transitions, bring-up, power domains, Drain, Quiesce and Lean (Operating Modes,
Bring-up and Power Domains). -/

namespace Sys2Proof.Machine

/-! ### Ports and links stop (R335, R498, R499) -/

/-- Every network port of a die goes down under R335. -/
def portsDown (d : Nat) (s : State) : State :=
  s.each ((List.range 64).filter (lowestSlot s d)) fun k s =>
    let m := mac s d k
    match linkSt s d k with
    | 3 => if m.stopping then portStop d k s else portLeave d k 1 s
    | 7 => if m.stopping then portStop d k s
      else if m.pendUp then (onMac d k (fun m => { m with pendUp := false }) s).dset d (0x4050 + k) 1 1 else s
    | 2 => (onMac d k (fun m => { m with pendDown := false }) s).dset d (0x4050 + k) 1 (if m.pendDown then 0 else 1)
    | 4 => s.dset d (0x4050 + k) 1 1
    | 5 => s.dset d (0x4050 + k) 1 1
    | _ => s

/-- Every fabric link of a die stops. -/
def linksDown (d : Nat) (s : State) : State :=
  s.each (List.range 32) fun l s =>
    if [2, 3, 4, 5, 6].contains (linkState s d l) then (linkVoid d l s).dset d (0x4110 + l) 1 (b2n (bit (s.dg d 0x4100 2) l)) else s

/-- Ports and links stop where everything else is held unchanged for the dump (R52, R498): no queue is flushed. -/
def heldDown (d : Nat) (s : State) : State :=
  let s := s.each ((List.range 64).filter (lowestSlot s d)) fun k s =>
    if [2, 3, 4, 5].contains (linkSt s d k) then s.dset d (0x4050 + k) 1 1 else s
  s.each (List.range 32) fun l s => if [2, 3, 4, 5, 6].contains (linkState s d l) then s.dset d (0x4110 + l) 1 1 else s

/-! ### Power domains (R509 to R512) -/

/-- State of a domain (Table 17.9). -/
def domSt (s : State) (d n : Nat) : Nat := s.pg (0x1310 + d) n

/-- The unit of a domain is fenced (Table 17.1). -/
def unitFenced (s : State) (d n : Nat) : Bool :=
  if 1 ≤ n ∧ n ≤ 16 then s.dg d (0x4510 + (n - 1)) 1 == 2
  else if 21 ≤ n ∧ n ≤ 28 then (s.die d).look.banks.getLsbD (n - 21)
  else if n = 29 then (s.die d).look.classFenced
  else if 40 ≤ n ∧ n ≤ 47 then (List.range 4).all (fun i => linkState s d (4 * (n - 40) + i) == 7)
  else if 49 ≤ n ∧ n ≤ 52 then s.saddleState d (n - 49) == 5
  else if 53 ≤ n ∧ n ≤ 56 then stackState s d ((n - 53) % 2) == 4
  else n == 77 && (s.die d).core.spareFailed

/-- Domains of a die are held as they are (Table 17.1). -/
def domHeld (s : State) (d : Nat) : Bool := [Mode.isolated, .faultHold, .locked].contains (s.dieMode d)

/-- The function of a domain is in use under the mode and the enables (R510); in Degraded that of a fenced unit is not (Table 17.1). -/
def domWanted (s : State) (d n : Nat) : Bool :=
  s.pg (0x1320 + d) n == 0 && !(s.die d).held && s.dieMode d != .standby && s.pg 0x1200 5 != 1 && !(s.mode == .degraded && unitFenced s d n) &&
    (if 1 ≤ n ∧ n ≤ 16 then s.dg d (0x4510 + (n - 1)) 1 != 1 || (cluster s d (n - 1)).waking
     else if 31 ≤ n ∧ n ≤ 34 then s.dg d 0x4000 (n - 31 + 1) != 0
     else if 35 ≤ n ∧ n ≤ 38 then s.dg d 0x4000 (n - 35 + 1) != 0 && s.pg (0x1320 + d) (n - 4) == 0
     else if 40 ≤ n ∧ n ≤ 47 then bits (s.dg d 0x4100 2) (4 * (n - 40) + 3) (4 * (n - 40)) != 0
     else if 49 ≤ n ∧ n ≤ 52 then (s.nbr d (n - 49)).isSome
     else if n = 57 then s.dg d 0x4400 1 == 1
     else if n = 79 then s.mode == .factory
     else true)

/-- Domains of a die that are being switched (R511); a cluster that is still being parked is not. -/
def switching (s : State) (d : Nat) : Nat :=
  ((List.range 80).filter (fun n => domSt s d n == 1 ||
    ([3, 4].contains (domSt s d n) && !(decide (1 ≤ n) && decide (n ≤ 16) && (cluster s d (n - 1)).toPark)))).length

/-- The next domain of a die that is not wanted any more begins to switch off: at most four at a time, in ascending order (R511).
A cluster is parked first (R510), unless it is fenced or the package goes to Standby. -/
def stopNext (d : Nat) (s : State) : State :=
  if 4 ≤ switching s d then s
  else match (List.range 80).find? (fun n => domSt s d n == 2 && !domWanted s d n &&
      (n == 0 || decide (16 < n) || s.pg 0x1200 5 == 1 || unitFenced s d n)) with
    | some n => s.pset (0x1310 + d) n 3
    | none => s

/-- Domains of a die that are not wanted begin to switch off. -/
def stopUp (d : Nat) (s : State) : State := stopNext d (stopNext d (stopNext d (stopNext d s)))

/-- The next domain of a die switches on: at most four at a time, in ascending order (R511). -/
def powerNext (d : Nat) (s : State) : State :=
  if 4 ≤ switching s d then s
  else match (List.range 80).find? (fun n => domSt s d n == 0 && domWanted s d n) with
    | some n => (s.pset (0x1310 + d) n 1).pinc 0x1300 2 1
    | none => s

/-- Domains of a die that are wanted start to switch on. -/
def powerUp (d : Nat) (s : State) : State := powerNext d (powerNext d (powerNext d (powerNext d s)))

/-- Domains of a die follow their use: those no longer wanted stop, a stopping one that is wanted again restarts, those
wanted and off switch on (R510, R512). Held ones stay (Table 17.1). -/
def domReview (d : Nat) (s : State) : State :=
  if domHeld s d then s else
  let s := s.each (List.range 80) fun n s =>
    match domSt s d n, domWanted s d n with
    | 3, true => s.pset (0x1310 + d) n 4
    | 4, false => s.pset (0x1310 + d) n 3
    | _, _ => s
  powerUp d (stopUp d s)

/-- Write a cluster's control store from the master copy, unless it is fenced (R138, R143). -/
def loadStore (d c : Nat) (s : State) : State :=
  if s.dg d (0x4510 + c) 1 = 2 then s else (writeStore d c s).pset 0x1040 (d * 16 + c) (s.master.version / 16 * 16)

/-- The functions of a domain start once it is usable: clusters load their control stores in Bring-up (R143), saddles train, ports and links leave their stopped states, stacks
train when supply and controller are both on, the CXL port starts (Tables 14.5, 15.1, 17.7, R375, R408). -/
def functionStart (d n : Nat) (s : State) : State :=
  if 1 ≤ n ∧ n ≤ 16 then (if s.dieMode d = .bringup then loadStore d (n - 1) s else s)
  else if 31 ≤ n ∧ n ≤ 34 then
    s.each ((groupSlots (n - 31)).filter (lowestSlot s d)) fun k s =>
      let s := s.dset d (0x4050 + k) 2 (modeRate (slotMode s d k))
      if linkSt s d k < 2 then s.dset d (0x4050 + k) 1 (if s.dg d (0x4010 + k) 1 ≠ 1 then 0 else if s.netMode d then 2 else 1) else s
  else if 40 ≤ n ∧ n ≤ 47 then
    s.each ((List.range 4).map (fun i => 4 * (n - 40) + i)) fun l s =>
      if 2 ≤ linkState s d l then s else if bit (s.dg d 0x4100 2) l then linkStart d l s else s.dset d (0x4110 + l) 1 0
  else if 49 ≤ n ∧ n ≤ 52 then
    if (s.nbr d (n - 49)).isSome ∧ s.saddleState d (n - 49) = 0 then topology (s.dset d (0x4210 + (n - 49)) 1 1) else s
  else if 53 ≤ n ∧ n ≤ 56 then
    if domSt s d (53 + (n - 53) % 2) = 2 ∧ domSt s d (55 + (n - 53) % 2) = 2 then trainStart d ((n - 53) % 2) s else s
  else if n = 77 then
    match (s.die d).look.fenceOrd.head?, (s.die d).core.spareFailed with
    | some b, false => (s.onDie d (fun x => { x with look.spareFor := some b, look.spareOk := [] })).pset (0x1710 + d) 7 4
    | _, _ => s
  else if n = 68 then shapersUp d s
  else if n = 57 then (if s.dg d 0x4400 1 = 1 ∧ s.dg d 0x4401 1 = 0 then s.dset d 0x4401 1 1 else s)
  else s

/-- A cluster is asked to park: it takes no new packet and gives up its unstarted ones (R515). -/
def parkAsk (d c : Nat) (s : State) : State :=
  if s.dg d (0x4510 + c) 1 ≠ 0 ∨ (cluster s d c).toPark then s
  else moveUnstarted d c (onCluster s d c (fun k => { k with toPark := true }))

/-- Clusters of a die that comes up with their domains forced off are out of service from the start (R510). -/
def parkForced (d : Nat) (s : State) : State :=
  s.each ((List.range 16).filter (fun c => s.pg (0x1320 + d) (1 + c) == 1 && domSt s d (1 + c) == 0 && s.dg d (0x4510 + c) 1 == 0)) fun c s =>
    s.dset d (0x4510 + c) 1 1

/-- Domain 79 of a die has switched on or off: its TAP's instruction acts, or acts no more (R555). -/
def tapDomain (d : Nat) (on : Bool) (s : State) : State :=
  s.onDie d (fun x => { x with core.tap := tapActs x.core.tap.ir (on && s.mode == .factory) x.core.tap })

/-- DOMAIN_ON_DONE (R511): the on time has passed, and the domain is usable; the next ones follow. -/
def domainOn (d n : Nat) (s : State) : State :=
  if domSt s d n ≠ 1 ∨ domHeld s d then s
  else
    let s := functionStart d n (s.pset (0x1310 + d) n 2)
    let s := if n = 74 then s.onDie d (fun x => { x with eng.perfFrom := s.now }) else s
    let s := if n = 79 then tapDomain d true s else s
    let s := if domWanted s d n then s else s.pset (0x1310 + d) n 3
    let s := if 1 ≤ n ∧ n ≤ 16 ∧ s.pg (0x1320 + d) n = 1 then parkAsk d (n - 1) s else s
    powerUp d s

/-- A die takes the epochs that the package state shows (R272). -/
def epochTake (d : Nat) (s : State) : State :=
  s.onDie d (fun x => { x with
    look.epCur := s.pg 0x2300 1, look.epRet := if s.pg 0x2300 2 = 0xFF then none else some (s.pg 0x2300 2) })

/-- No acknowledgement is awaited from a die any more (R275). -/
def noAck (d : Nat) (s : State) : State := { s with unacked := s.unacked.filter (· != d) }

/-- The packets of a die, and the messages from and to it, are gone. -/
def dropDie (d : Nat) (s : State) : State :=
  ({ s with pkts := s.pkts.filter (fun p => p.2.die != d) } : State).dropMsgs (fun m => m.src == d || m.dst == d)

/-- A die in office leaves the Summit role. -/
def leaveOffice (d : Nat) (s : State) : State := { s with summit := if s.summit = some d then none else s.summit }

/-- A meter without token state: its buckets start full. -/
def Meter.filled (m : Meter) (now : Nat) : Meter :=
  { m with tc := burst32 (bits m.cfg.toNat 112 93), te := burst32 (bits m.cfg.toNat 92 73), last := now }

/-- What a die holds while its switched domains are off (Table 17.5): control stores and entry vectors, the fences that
only a die or package reset ends, the memory of its expander, logs and dumps, the VOQ map, gate lists and meter configurations, without
the meters' token state. -/
def dieOff (d : Nat) (s : State) : State :=
  let keep := fun (x : Nat × Nat) =>
    (decide (0x4510 ≤ x.1 / 256) && decide (x.1 / 256 < 0x4520) && x.1 % 256 == 1 && x.2 == 2) ||
    (decide (0x4210 ≤ x.1 / 256) && decide (x.1 / 256 < 0x4214) && ((x.1 % 256 == 1 && x.2 == 5) || x.1 % 256 == 5)) ||
    (decide (0x4310 ≤ x.1 / 256) && decide (x.1 / 256 < 0x4312) && ((x.1 % 256 == 1 && x.2 == 4) || x.1 % 256 == 2)) ||
    (decide (0x4110 ≤ x.1 / 256) && decide (x.1 / 256 < 0x4130) && ((x.1 % 256 == 1 && x.2 == 7) || x.1 % 256 == 0x0C))
  let saved := heldRegs s (some d)
  let links := ((s.die d).buf.links.filter (fun l => l.2.fenced)).map (fun l => (l.1, ({ fenced := true } : FLink)))
  let s := s.onDie d (fun x => { x with
    regs := (x.regs.filter keep).foldl (fun m e => minsert m e.1 e.2) saved
    core.saddles := [], core.routes := [], core.routeGen := 0, core.stranded := []
    eng := { clusters := x.eng.clusters.map (fun k => (k.1, { store := k.2.store, entry := k.2.entry, parity := k.2.parity }))
             ucodeGood := x.eng.ucodeGood }
    look := { exp := x.look.exp, banks := x.look.banks, fenceOrd := x.look.fenceOrd, classFenced := x.look.classFenced }
    buf := { links := links, voqMap := x.buf.voqMap, gates := x.buf.gates, meters := x.buf.meters.map (fun e => (e.1, e.2.filled s.cycles)) }
    macs := [] })
  epochTake d (dropDie d (noAck d s))

/-- Every switched domain of every die is off; an Isolated die holds its own for the dump (Table 17.1). -/
def allOff (s : State) : Bool := s.joined.all (fun d => (List.range 80).all (fun n => [0, 5].contains (domSt s d n)))

/-- The transition to Standby completes when the switched domains are off (Table 17.2). -/
def standbyDone (s : State) : State :=
  if s.pg 0x1200 5 = 1 ∧ s.mode ≠ .standby ∧ allOff s then
    setMode .standby (s.each s.joined (fun d s => dieOff d (s.pset 0x1203 d 0)))
  else s

/-- DOMAIN_STOP_DONE (R512): the function of a stopping domain has stopped; the domain switches off, and a pending enable is
applied. A cluster stops by parking (R510), the self-test engine with the end of its slices (R546). Performance counters lose what they hold (R557), and an assigned spare bank loses its contents, stems among them,
which are to be rebuilt (R202, R550). -/
def domainStopped (d n : Nat) (s : State) : State :=
  if domHeld s d ∨ (1 ≤ n ∧ n ≤ 16 ∧ (cluster s d (n - 1)).toPark ∧ s.pg 0x1200 5 ≠ 1) then s
  else if n = 77 ∧ !(s.die d).core.slices.isEmpty then s
  else if domSt s d n = 3 ∨ domSt s d n = 4 then
    let s := (s.pset (0x1310 + d) n 0).pinc 0x1300 2 1
    let s := if n = 74 then s.onDie d (fun x => { x with
        regs := x.regs.filter (fun e => !(decide (0x4580 ≤ e.1 / 256) && decide (e.1 / 256 < 0x4594)))
        eng.samples := [], eng.sampCnt := [], eng.sampOpen := [], eng.sampPtr := [], eng.perfFrom := s.now }) else s
    let s := match (s.die d).look.spareFor, (s.die d).look.spareOk.contains 4 with
      | some b, true => if n = 77 then (let lost := stemsOf s d b; s.onDie d (fun x => { x with look.rebuild := x.look.rebuild ++ lost })) else s
      | _, _ => s
    let s := if n = 77 then (s.onDie d (fun x => { x with look.spareFor := none, look.spareOk := [] })).pset (0x1710 + d) 7
        (if (s.die d).core.spareFailed then 5 else 0) else s
    let s := if n = 79 then tapDomain d false s else s
    standbyDone (powerUp d (stopUp d s))
  else s

/-! ### Lean clusters and forced-off clusters (R510, R514, R515) -/

/-- A parked cluster's domain switches on, and the cluster is on its way back to service (R514). -/
def wakeCluster (d c : Nat) (s : State) : State :=
  if (cluster s d c).toPark then onCluster s d c (fun k => { k with toPark := false })
  else if s.dg d (0x4510 + c) 1 = 1 ∧ s.pg (0x1320 + d) (1 + c) = 0 ∧ !(cluster s d c).waking then
    (onCluster (s.pset (0x1310 + d) (1 + c) 1) d c (fun k => { k with waking := true })).pinc 0x1300 2 1
  else s

/-- Every cluster parked for Lean wakes, in parallel (R514). -/
def wakeAll (s : State) : State := s.each s.present fun d s => s.each (List.range 16) fun c s =>
  if s.pg (0x1320 + d) (1 + c) = 0 then wakeCluster d c s else s

/-- No cluster is waking. -/
def noneWaking (s : State) : Bool := (s.present).all (fun d => (s.die d).eng.clusters.all (fun k => !k.2.waking))

/-- Every cluster that Lean parks is parked, fenced or forced off. -/
def leanParked (s : State) : Bool :=
  s.active.all (fun d => (List.range 16).all (fun c => decide (c < s.pg 0x1200 0xA) || s.dg d (0x4510 + c) 1 != 0))

/-- A transition starts (R500): 1200.04 reads 1, and 1200.05 the target. -/
def beginTransition (m : Mode) (s : State) : State :=
  (s.pset 0x1200 4 1).pset 0x1200 5 (modeCode m)

/-- Each die parks its clusters from 15 down to those that Lean keeps (R515). -/
def leanPark (s : State) : State :=
  s.each s.active fun d s => s.each ((List.range (16 - s.pg 0x1200 0xA)).map (fun i => 15 - i)) (parkAsk d)

/-- Lean entry (R513, R515). -/
def leanEnter (s : State) : State :=
  let s := leanPark (beginTransition .lean s)
  if leanParked s then setMode .lean s else s

/-- Lean exit (R514): the package reads Forwarding when the last cluster is in service. -/
def leanExit (s : State) : State :=
  let s := wakeAll (beginTransition .forwarding s)
  if noneWaking s then setMode .forwarding s else s

/-- A cluster belongs to those that Lean parks, in Lean or while it is being entered. -/
def leaning (s : State) (c : Nat) : Bool :=
  ((s.mode == .lean && s.pg 0x1200 4 != 1) || (s.pg 0x1200 4 == 1 && s.pg 0x1200 5 == 4)) && decide (s.pg 0x1200 0xA ≤ c)

/-- lean_enable has been written 0 (R514): Lean ends, and so does its entry. -/
def leanOff (s : State) : State :=
  if s.mode = .lean ∧ s.pg 0x1200 4 ≠ 1 then leanExit s
  else if s.mode = .forwarding ∧ s.pg 0x1200 4 = 1 ∧ s.pg 0x1200 5 = 4 then wakeAll (setMode .forwarding s)
  else s

/-- A write of lean_enable (R514). -/
def leanEnable (v : Nat) (s : State) : State :=
  let s := s.pset 0x1200 0xB v
  if v = 0 then leanOff s else s

/-- LEAN_WINDOW (R513, R514): a 1 µs window ends at every die, with the packets that it dispatched in it, 9,520 being 9.52 Gpps. Windows
below the entry threshold count toward the dwell in every mode. -/
def leanWindow (s : State) : State :=
  let n := fun (d : Nat) => (s.die d).eng.dispatched
  let below := s.joined.all (fun d => decide (n d * 100 < s.pg 0x1200 0xC * 9520))
  let above := s.joined.any (fun d => decide (s.pg 0x1200 0xD * 9520 < n d * 100))
  let s := { s with leanMs := if below then s.leanMs + 1 else 0 }.onDies (fun _ x => { x with eng.dispatched := 0 })
  match s.mode with
  | .lean => if above && s.pg 0x1200 4 != 1 then leanExit s else s
  | .forwarding => if s.pg 0x1200 0xB = 1 ∧ s.pg 0x1200 4 ≠ 1 ∧ below ∧ s.pg 0x1200 0xE * 1000 ≤ s.leanMs then leanEnter s else s
  | _ => s

/-- CLUSTER_PARK_DONE (R510, R515): a cluster that is being parked holds nothing any more; it reads parked, and its domain
switches off with the control store retained. Lean entry ends with the last of them. -/
def parkDone (d c : Nat) (s : State) : State :=
  if !(cluster s d c).toPark || !clusterEmpty s d c then s
  else
    let s := (onCluster s d c (fun k => { k with toPark := false })).dset d (0x4510 + c) 1 1
    let again := domSt s d (1 + c) == 4
    let s := (s.pset (0x1310 + d) (1 + c) 0).pinc 0x1300 2 1
    let s := if again then wakeCluster d c s else s
    if s.pg 0x1200 4 = 1 ∧ s.pg 0x1200 5 = 4 ∧ leanParked s then setMode .lean s else s

/-- CLUSTER_WAKE_DONE (R514): a woken cluster returns to service; one that is to be off by now parks again (R512). -/
def wakeDone (d c : Nat) (s : State) : State :=
  if !(cluster s d c).waking then s
  else
    let s := ((onCluster s d c (fun k => { k with waking := false })).dset d (0x4510 + c) 1 0).pset (0x1310 + d) (1 + c) 2
    let s := if s.pg (0x1320 + d) (1 + c) = 1 then parkAsk d c (s.pset (0x1310 + d) (1 + c) 3)
      else if leaning s c then parkAsk d c s else s
    if s.mode = .lean ∧ s.pg 0x1200 4 = 1 ∧ s.pg 0x1200 5 = 3 ∧ noneWaking s then setMode .forwarding s else s

/-- Software may force a domain off (R510, last column of Table 17.5). -/
def forceable (s : State) (d n : Nat) : Bool :=
  if 1 ≤ n ∧ n ≤ 16 then true
  else if 31 ≤ n ∧ n ≤ 34 then s.dg d 0x4000 (n - 31 + 1) == 0
  else if 35 ≤ n ∧ n ≤ 38 then s.dg d 0x4000 (n - 35 + 1) == 0
  else if 40 ≤ n ∧ n ≤ 47 then bits (s.dg d 0x4100 2) (4 * (n - 40) + 3) (4 * (n - 40)) == 0
  else if n = 57 then s.dg d 0x4400 1 == 0
  else if n = 78 then [0, 1].all (fun k => !([1, 3].contains (stackState s d k)))
  else n == 74 || n == 77

/-- A domain_request write (R510, R512): the status and the effect. -/
def domainRequest (d n v : Nat) (s : State) : Nat × State :=
  if v = 1 ∧ !forceable s d n then (0x13, s)
  else
    let s := s.pset (0x1320 + d) n v
    if 1 ≤ n ∧ n ≤ 16 then
      let c := n - 1
      if v = 1 then
        if domSt s d n = 4 then (0, s.pset (0x1310 + d) n 3)
        else if s.dg d (0x4510 + c) 1 = 0 ∧ domSt s d n = 2 then (0, parkAsk d c (s.pset (0x1310 + d) n 3))
        else (0, domReview d s)
      else if leaning s c then (0, s)
      else if domSt s d n = 3 then (0, s.pset (0x1310 + d) n 4)
      else (0, if s.dieMode d = .standby then s else wakeCluster d c s)
    else (0, domReview d (s.when (n == 77 && v == 1) (stopSlices d)))

/-! ### Held modes (R498, R521, R523) -/

/-- Every loopback and pattern is off, as on leaving Diagnostic (R556). -/
def loopsOff (s : State) : State := s.onDies (fun _ x => { x with core.loops := [], core.patterns := [] })

/-- A fault mode is entered, interrupting whatever transition runs; a request so abandoned leaves 1200.04 at 2 (R500). -/
def faultMode (m : Mode) (s : State) : State :=
  let s := if s.mode = .diagnostic then loopsOff s else s
  let cut := s.pg 0x1200 4 == 1
  let s := setMode m s
  if cut then s.pset 0x1200 4 2 else s

/-- Fault-hold (R498): ports and links stop, everything is held, FATAL_L is asserted (R599). -/
def enterFaultHold (s : State) : State :=
  if s.mode = .locked ∨ s.mode = .faultHold then s
  else s.each s.present heldDown |> faultMode .faultHold

/-- Locked (R498, R523): for kinds 0x702, 0x703 and 0x781 every switched domain goes off and the held state is lost. -/
def enterLocked (kind : Nat) (s : State) : State :=
  let s := if s.mode = .locked then s else s.each s.present heldDown |> faultMode .locked
  if [0x702, 0x703, 0x781].contains kind then
    s.each s.present fun d s =>
      let s := s.each (List.range 80) (fun n s => if domSt s d n = 0 then s else (s.pset (0x1310 + d) n 0).pinc 0x1300 2 1)
      dieOff d s
  else s

/-- FATAL_L (R599): low in Fault-hold and Locked, and under R48. -/
def fatalL (s : State) : Bool := s.mode == .faultHold || s.mode == .locked || s.fatalPin

/-- A Degrade fault reaches the mode (R504): from Forwarding or Lean the package enters Degraded at once, and clusters
parked or being parked come back; the domains of fenced units switch off (Table 17.1). A transition to Quiesce is not interrupted. -/
def degradeMode (s : State) : State :=
  if s.modeIn [.forwarding, .lean] && s.quiesceAt.isNone then
    let s := wakeAll (setMode .degraded s)
    s.each s.joined domReview
  else s

/-! ### Drain and Quiesce (R501, R502) -/

/-- Every flow-controlled port compares its occupancies again (R322, R501). -/
def repause (s : State) : State :=
  s.each s.present fun d s => s.each ((List.range 64).filter (lowestSlot s d)) (pauseCheckPort d)

/-- The ingress side of every die is empty (R501). -/
def ingressEmpty (s : State) : Bool :=
  s.active.all (fun d =>
    (List.range 64).all (fun k => s.dg d (0x4740 + k) 0x30 == 0) &&
    (s.die d).eng.clusters.all (fun c => c.2.queue.isEmpty && c.2.stolen.isEmpty) && (s.die d).eng.hold.all (fun h => h.2.isEmpty) &&
    (s.die d).eng.park.isEmpty && (s.die d).buf.voqs.all (fun v => v.2.pkts.isEmpty) && (s.die d).buf.waitList.isEmpty &&
    (s.die d).buf.residue.isEmpty)

/-- Drain begins to act: 1200.06 reads 1, and the ports ask for pause. -/
def drainStart (s : State) : State := repause (s.pset 0x1200 6 1)

/-- Quiesce is reached (R502). -/
def quiesceDone (s : State) : State := wakeAll (setMode .quiesce s)

/-- DRAIN_EMPTY (R501, R502): the ingress side is empty, and a transition to Quiesce may complete. -/
def drainEmpty (s : State) : State :=
  if s.pg 0x1200 6 = 1 ∧ ingressEmpty s then
    let s := s.pset 0x1200 6 2
    if s.quiesceAt.isSome then quiesceDone s else s
  else s

/-- A transition to Quiesce starts (R502); one from Lean wakes the parked clusters (R514). -/
def quiesceStart (s : State) : State :=
  let s := { beginTransition .quiesce s with quiesceAt := some s.now }
  let s := if s.mode = .lean then wakeAll s else s
  if s.mode = .drain then (if s.pg 0x1200 6 = 2 then quiesceDone s else s) else drainStart s

/-- Forwarding, or Degraded when a unit is lost (Table 17.2). -/
def forwardAgain (s : State) : State :=
  let s := setMode (if s.anyLost then .degraded else .forwarding) s
  s.each s.joined domReview

/-- QUIESCE_TIMEOUT (R502, R504): the transition is abandoned, the part keeps the mode it left (Lean parks its clusters again), and
a Degrade fault that came meanwhile takes effect. A class 1 activation waiting for it keeps its image staged (R582). -/
def quiesceTimeout (s : State) : State :=
  match s.quiesceAt with
  | none => s
  | some t =>
    if s.now < t + s.pg 0x1200 7 * 1000000 ∨ s.pg 0x1200 6 = 2 then s
    else
      let s := { (s.pset 0x1200 4 2).pset 0x1200 5 (modeCode s.mode) with quiesceAt := none }
      let s := if s.mode = .drain then s else repause (s.pset 0x1200 6 0)
      let s := if s.switching = some 1 then { s with switching := none, switchBack := none }.pset 0x1500 0xD 3 else s
      let s := match s.summit with | some m => s.report m 1 0 1 0x005 0 | none => s
      let s := if s.anyLost then degradeMode s else if s.mode = .lean then (if s.pg 0x1200 0xB = 0 then leanExit s else leanPark s) else s
      reviewMode s

/-! ### Requests (R500, R503, R612) -/

/-- Loopbacks, patterns and pattern helpers are off (R556, R612). -/
def testsOff (s : State) : State := (loopsOff s).each s.present fun d s => (s.dset d 0x4320 2 0).dset d 0x4321 2 0

/-- The switched functions of a die come up: domains follow the settings, and domains that are on start their functions again (R612). -/
def dieBringup (d : Nat) (s : State) : State :=
  let s := s.pset 0x1203 d 0
  let s := s.each ((List.range 80).filter (fun n => domSt s d n == 2)) (functionStart d)
  domReview d (parkForced d s)

/-- Bring-up is entered (Table 17.2, Table 17.7 step 6). -/
def enterBringup (s : State) : State :=
  let s := setMode .bringup s
  s.each (s.joined.filter (fun d => !(s.die d).held)) dieBringup

/-- From Diagnostic to Bring-up (R612), no save being pending: RWS entries take their saved values, test paths go off, and
every function is initialised again. -/
def reinit (s : State) : State :=
  let s := testsOff s
  let s := { s with regs := reloadRws s none s.regs }
  let s := s.each s.joined (fun d s => s.onDie d (fun x => { x with regs := reloadRws s (some d) x.regs }))
  enterBringup s

/-- The transition from Diagnostic to Bring-up (R612): saves pending are made first, when a flash agent exists. -/
def reinitStart (s : State) : State :=
  let s := settingsSave s
  if s.unsaved.isEmpty ∧ s.keysDirty.isEmpty then reinit s else beginTransition .bringup s

/-- Saves have been made, and a transition from Diagnostic to Bring-up that waited for them goes on (R612). -/
def saved (s : State) : State :=
  let s := settingsSave s
  if s.mode = .diagnostic ∧ s.pg 0x1200 4 = 1 ∧ s.pg 0x1200 5 = 2 ∧ s.unsaved.isEmpty ∧ s.keysDirty.isEmpty then reinit s else s

/-- A transition to Standby starts (Table 17.2): ports and links stop, and the switched domains stop (R499). -/
def standbyStart (s : State) : State :=
  let s := if s.mode = .diagnostic then testsOff s else s
  let s := beginTransition .standby s
  let s := s.each s.joined fun d s => linksDown d (portsDown d s)
  standbyDone (s.each s.joined domReview)

/-- Close a JDP session (R492). -/
def closeSession (i : Nat) (s : State) : State :=
  if s.pg (0x1130 + i) 1 = 0 then s
  else
    let s := { s with sessions := mdel s.sessions i }
    s.each [1, 2, 3, 4, 5, 7] (fun k s => s.pset (0x1130 + i) k 0)

/-- Every key slot is zeroed and disabled, and every session closes (R494, R503). -/
def zeroise (s : State) : State :=
  let s := { s with keys := [], keysDirty := (List.range 16).filter (fun k => decide (mget s.keys k ≠ default) || s.keysDirty.contains k) }
  let s := { s with flashKeys := [] }
  s.each (List.range 16) closeSession

/-- Whether a request has a row of Table 17.2 from the current mode. -/
def requestRow (s : State) (code : Nat) : Bool :=
  let drained := s.mode == .drain && s.pg 0x1200 6 == 2
  match code with
  | 0x1 => s.modeIn [.bringup, .quiesce, .diagnostic] || drained
  | 0x2 => s.modeIn [.standby, .diagnostic]
  | 0x3 => s.modeIn [.drain, .quiesce]
  | 0x6 => s.modeIn [.forwarding, .lean, .degraded]
  | 0x7 => s.modeIn [.forwarding, .lean, .degraded, .drain]
  | 0xB => s.modeIn [.standby, .bringup, .quiesce] || drained
  | 0xC => s.modeIn [.standby, .diagnostic]
  | _ => false

/-- The effect of an accepted mode request (Table 17.2). -/
def requestApply (code : Nat) (s : State) : State :=
  match code with
  | 0x1 => standbyStart s
  | 0x2 => if s.mode = .diagnostic then reinitStart s else enterBringup s
  | 0x3 => repause (forwardAgain s)
  | 0x6 => drainStart (wakeAll (setMode .drain s))
  | 0x7 => quiesceStart s
  | 0xB =>
    let s := s.each s.joined fun d s => linksDown d (portsDown d s)
    let s := setMode .diagnostic s
    s.each s.joined (fun d s => powerUp d (parkForced d s))
  | 0xC =>
    let s := if s.mode = .diagnostic then testsOff s else s
    let s := s.each s.joined fun d s => linksDown d (portsDown d s)
    let s := setMode .factory (zeroise s)
    s.each s.joined (fun d s => domReview d (parkForced d s))
  | _ => s

/-- A write to mode_request (R500): the status and the effect. -/
def modeRequest (code : Nat) (s : State) : Nat × State :=
  if !([0x1, 0x2, 0x3, 0x6, 0x7, 0xB, 0xC].contains code) then (0x13, s)
  else if !requestRow s code then (0x16, s)
  else if s.pg 0x1200 4 = 1 then (0x11, s)
  else (0, requestApply code s)

/-! ### Bring-up (R505 to R507) -/

/-- Write every control store of a die that is not fenced from the master copy (R138, Table 17.3 bit 1). -/
def loadStores (d : Nat) (s : State) : State := s.each (List.range 16) (loadStore d)

/-- The replicas of Table 1.4 that a rejoining die receives from the Summit (R272, R507): 2 the tables of the table SRAM,
3 the rule tables with their epochs, 4 the VOQ map and the meter configurations. -/
def receiveReplicas (d f : Nat) (s : State) : State :=
  match s.summit with
  | none => s
  | some m =>
    if (s.die d).own ≠ some .bringup ∨ m = d then s
    else
      let src := (s.die m)
      let mac := fun (t : Nat) => decide (t < 0x2000 ∨ 0x3000 ≤ t) && (s.part != .d9080 || !(t == 0x10 || t == 0x12))
      match f with
      | 2 => s.onDie d (fun x => { x with
          look.tabs := (src.look.tabs.filter (fun t => mac t.1)).foldl (fun a t => minsert a t.1 t.2) (x.look.tabs.filter (fun t => !mac t.1))
          look.root := src.look.root, look.nextHop := src.look.nextHop, look.ecmp := src.look.ecmp })
      | 3 => (epochTake d s).onDie d (fun x => { x with
          look.tern := src.look.tern, look.actions := src.look.actions, look.written := src.look.written
          look.rewrite := src.look.rewrite })
      | 4 => s.onDie d (fun x => { x with
          buf.voqMap := src.buf.voqMap
          buf.meters := src.buf.meters.map (fun e => (e.1, e.2.filled s.cycles)) })
      | _ => s

/-- A die receives what the Summit replicates: it is the Summit, or the saddles join them (R41, R507). -/
def fromSummit (s : State) (d : Nat) : Bool :=
  match s.summit with
  | some m => m == d || s.linked d m
  | none => false

/-- A function can report ready (Table 17.3), as far as the state shows it. -/
def functionCan (s : State) (d f : Nat) : Bool :=
  match f with
  | 5 => (List.range 4).all (fun k => (s.nbr d k).isNone || [2, 3, 4, 5].contains (s.saddleState d k)) &&
      fromSummit s d
  | 7 => [2, 3].contains (stackState s d 0)
  | 8 => [2, 3].contains (stackState s d 1)
  | 9 => cxlReady s d
  | 0 => (s.die d).own != some .bringup || fromSummit s d
  | 1 => fromSummit s d
  | 2 => fromSummit s d
  | 3 => fromSummit s d
  | 4 => fromSummit s d
  | 10 => decide (d < 2) && s.pg (0x1120 + d) 1 == 1
  | 11 => (List.range 32).any (fun l => linkState s d l == 4) || s.dg d 0x4100 2 == 0
  | _ => decide (f < 7)

/-- A die that rejoins is healthy and follows the package mode from the moment it is forwarding-ready (R54, R507). One that
was reset while the package was in Standby rejoins with the package's own Bring-up. -/
def rejoined (d : Nat) (s : State) : State :=
  if ((s.die d).own = some .bringup ∨ ((s.die d).own = none ∧ !bit (s.pg 0x1800 5) d)) ∧ s.fwdReady d then
    let s := s.onDie d (fun x => { x with own := none })
    let s := (s.pset 0x1800 5 (setBit (s.pg 0x1800 5) d true)).pset 0x1800 6 (setBit (s.pg 0x1800 6) d false)
    clearLost d 0 s
  else s

/-- FUNCTION_READY (R505, R507, R508): a function of a die reports ready. -/
def functionReady (d f : Nat) (s : State) : State :=
  if s.dieMode d = .standby ∨ domHeld s d ∨ (s.die d).held ∨ !functionCan s d f ∨ (f = 0 ∧ s.pg 0x1503 3 = 2) then s
  else
    let s := s.pset 0x1203 d (setBit (s.pg 0x1203 d) f true)
    let s := if f = 1 then loadStores d s else s
    let s := receiveReplicas d f s
    let s := match f with
      | 7 => if stackState s d 1 = 4 ∨ bit (s.pg 0x1203 d) 8 = false then s else clearLost d 3 s
      | 8 => if stackState s d 0 = 4 ∨ bit (s.pg 0x1203 d) 7 = false then s else clearLost d 3 s
      | 9 => clearLost d 4 s
      | 10 => clearLost d 13 s
      | 11 => if (List.range 32).any (fun l => (flink s d l).fenced) then s else clearLost d 6 s
      | _ => s
    let s := reviewMode (rejoined d s)
    if s.mode = .degraded then s.each s.joined domReview else s

/-- The lost-unit bit that the timeout sets for a function (Table 17.4). -/
def lostBitOf (f : Nat) : Nat := match f with
  | 7 => 3 | 8 => 3 | 9 => 4 | 10 => 13 | 11 => 6 | _ => 0

/-- BRINGUP_TIMEOUT (R506): kind 0x006 for each die that is not forwarding-ready and each function that has not reported
ready. With a die forwarding-ready the package enters Degraded, otherwise it stays and asserts ALERT_L. -/
def bringupTimeout (s : State) : State :=
  match s.bringupAt with
  | none => s
  | some t =>
    if s.mode ≠ .bringup ∨ s.pg 0x1200 4 = 1 ∨ s.now < t + s.pg 0x1200 0xF * 1000000 ∨ s.pg 0x1503 3 = 2 then s
    else
      let ds := (s.present).filter (fun d => !(s.die d).held && !s.isolated d)
      let s := s.each ds fun d s =>
        let mark := fun (b a : Nat) (s : State) =>
          (setLost d b (s.pset 0x1202 d (setBit (s.pg 0x1202 d) b true))).report d 1 0 3 0x006 a
        let s := if s.fwdReady d then s else mark 0 63 s
        s.each ((List.range 12).filter (fun f => !bit (s.pg 0x1203 d) f && (f != 10 || decide (d < 2)))) (fun f s => mark (lostBitOf f) f s)
      let s := { s with bringupAt := none }
      if ds.any s.fwdReady then (let s := setMode .degraded s; s.each s.joined domReview) else { s with alertBringup := true }

/-- MODE_REQUEST rows and the events of modes and domains. -/
def execDrainEmpty (s : State) : Host.Outcome State Fault Refusal := .next (drainEmpty s)
/-- QUIESCE_TIMEOUT. -/
def execQuiesceTimeout (s : State) : Host.Outcome State Fault Refusal := .next (quiesceTimeout s)
/-- FUNCTION_READY of one function of a die. -/
def execFunctionReady (d : DieId) (f : Fin 12) (s : State) : Host.Outcome State Fault Refusal := onPresent d (functionReady d f) s
/-- BRINGUP_TIMEOUT. -/
def execBringupTimeout (s : State) : Host.Outcome State Fault Refusal := .next (bringupTimeout s)
/-- LEAN_WINDOW. -/
def execLeanWindow (s : State) : Host.Outcome State Fault Refusal := .next (leanWindow s)
/-- CLUSTER_PARK_DONE of one cluster. -/
def execClusterParkDone (d : DieId) (c : ClusterId) (s : State) : Host.Outcome State Fault Refusal := onLive d (parkDone d c) s
/-- CLUSTER_WAKE_DONE of one cluster. -/
def execClusterWakeDone (d : DieId) (c : ClusterId) (s : State) : Host.Outcome State Fault Refusal := onLive d (wakeDone d c) s
/-- DOMAIN_ON_DONE of one domain. -/
def execDomainOnDone (d : DieId) (n : Fin 80) (s : State) : Host.Outcome State Fault Refusal := onPresent d (domainOn d n) s
/-- DOMAIN_STOP_DONE of one domain. -/
def execDomainStopDone (d : DieId) (n : Fin 80) (s : State) : Host.Outcome State Fault Refusal := onPresent d (domainStopped d n) s

end Sys2Proof.Machine
end

