-- ==== Sys2Proof/Machine/Saddles.lean ====
section
/-! DEFINITION. Saddles: flits, replay and fencing, lane step-down, training, route tables; Isolated dies and the
majority rule (One Part from Many Crests). -/

namespace Sys2Proof.Machine

/-! ### Route tables (R28) -/

/-- ROUTE_TABLE_RECEIVE (R28): a die takes a new route table into use; what waits for a route leaves (R35). -/
def routeReceive (d : Nat) (s : State) : State :=
  s.receive d (fun b => match b with | .routeTable _ _ => true | _ => false) fun m s =>
    match m.body with
    | .routeTable g t => ringsCheck (relaunch d (s.onDie d (fun x => { x with core.routes := t, core.routeGen := g })))
    | _ => s

/-! ### Isolated dies and the majority rule (R52, R53) -/

/-- No die that takes part is forwarding-ready any more: the last one is lost (Table 18.5). -/
def lastLost (d : Nat) (before s : State) : State :=
  if before.active.any before.fwdReady && !s.active.any s.fwdReady then s.report d 1 0 4 0x003 0 else s

/-- A die enters Isolated under a rule, 1 beacon or 2 majority: ports, links and dispatch stop, all else is held (R52). -/
def isolate (d rule : Nat) (s : State) : State :=
  if s.isolated d then s
  else
    let t := heldDown d (s.onDie d (fun x => { x with own := some .isolated }))
    let t := setLost d 0 (t.pset 0x1202 d (setBit (t.pg 0x1202 d) 0 true))
    let t := (t.pset 0x1800 6 (setBit (t.pg 0x1800 6) d true)).pset 0x1800 9 rule
    let t := if rule = 1 then t.pset 0x1800 5 (setBit (t.pg 0x1800 5) d false) else t
    let t := if t.summit = some d then { t with summit := none } else t
    lastLost d s (ringsCheck t)

/-- The dies named healthy in the last package state record (R53, 1800.05). -/
def healthy (s : State) : List Nat := (List.range 8).filter (fun d => bit (s.pg 0x1800 5) d)

/-- The group of a die: the healthy dies it reaches over up saddles, itself included (R53). -/
def groupOf (s : State) (d : Nat) : List Nat := (healthy s).filter (fun x => x == d || s.linked d x)

/-- A group carries on: more than half of the healthy dies, or half of them with the lowest (R53). -/
def carries (s : State) (g : List Nat) : Bool :=
  decide ((healthy s).length < 2 * g.length) ||
    (decide (2 * g.length = (healthy s).length) && (match (healthy s).head? with | some x => g.contains x | none => false))

/-- The majority rule at a die (R53): its group carries on in Degraded, with its lowest die as Summit when the Summit is
elsewhere, or the die enters Isolated. -/
def majority (d : Nat) (s : State) : State :=
  let g := groupOf s d
  if carries s g then
    let cut := (healthy s).filter (fun x => !g.contains x)
    let s := (s.pset 0x1800 9 2).pset 0x1800 5 ((g.map (fun x => 2 ^ x)).sum)
    let s := s.each cut fun x s =>
      (s.pset 0x1800 6 (setBit (s.pg 0x1800 6) x true)).pset 0x1202 x (setBit (s.pg 0x1202 x) 0 true)
    let s := match s.summit with
      | some m => if g.contains m then s else topology { ownRecord (g.head?.getD d) s with summit := g.head? }
      | none => topology { ownRecord (g.head?.getD d) s with summit := g.head? }
    degradeMode s
  else isolate d 2 s

/-! ### Fencing (R34 to R36) -/

/-- Both ends of a saddle leave a state for another. -/
def saddleSet (d k st lanes : Nat) (s : State) : State :=
  let s := (s.dset d (0x4210 + k) 1 st).dset d (0x4210 + k) 2 lanes
  match s.nbr d k with
  | some n => (s.dset n (0x4210 + opposite k) 1 st).dset n (0x4210 + opposite k) 2 lanes
  | none => s

/-- Both ends of a saddle are fenced for a cause (R35, R36): incomplete transfers are discarded, what was not acknowledged waits
for the new route, the Summit distributes new route tables, and with a faulty beacon the Summit applies the majority rule
when a healthy die is out of its reach (R53). -/
def fenceEnds (d k cause : Nat) (s : State) : State :=
  match s.nbr d k with
  | none => s
  | some n =>
    if !([1, 2, 3, 4].contains (s.saddleState d k)) then s
    else
      let s := saddleSet d k 5 0 s
      let s := (s.dset d (0x4210 + k) 5 cause).dset n (0x4210 + opposite k) 5 cause
      let s := ringsCheck (topology (saddleClear d k s))
      match s.summit with
      | some m =>
        if (s.die m).core.beacon.faulty && (healthy s).any (fun x => decide (x ≠ m) && !s.linked m x) then majority m s else s
      | none => s

/-- A saddle is fenced for a cause, and the die that found the cause reports it (R34 to R36). -/
def fenceSaddle (d k cause : Nat) (s : State) : State :=
  if (s.nbr d k).isNone || !([1, 2, 3, 4].contains (s.saddleState d k)) then s
  else fenceEnds d k cause (s.report d 2 k 3 0x082 (((saddle s d k).rxSeq + 1) % 4096))

/-! ### Flits (R32 to R35) -/

/-- Free the flits up to an acknowledged sequence number (R33). -/
def freeFlits (seq : Nat) : List Flit → List Flit → List Flit
  | all, [] => all
  | all, f :: r => if bits f.hdr.toNat 54 43 = seq then r else freeFlits seq all r

/-- A flit without first and without last that is part of no message: it only acknowledges, asks for a replay, or returns
credits. -/
def Flit.bare (f : Flit) : Bool := f.tid == 0

/-- An ack_seq returns (R33): what it covers leaves the retry buffer. -/
def saddleAck (d k seq : Nat) (s : State) : State := onSaddle d k (fun x => { x with retry := freeFlits seq x.retry x.retry }) s

/-- A nak returns (R34): the transmitter replays from the flit after the last good one. A receiver that has a nak out sends
it again, for the flit that carried it may be the one that was lost (log entry 16). -/
def saddleNak (d k seq : Nat) (s : State) : State :=
  onSaddle d k (fun x => { x with wire := x.wire ++ x.retry, nakDue := x.nakDue || x.rxNak }) (saddleAck d k seq s)

/-- What a header returns to the transmitter beside it (Table 1.2): acknowledgement, replay request, credits. -/
def headerBack (d k h : Nat) (s : State) : State :=
  let s := if bit h 30 then (if bit h 29 then saddleNak d k (bits h 42 31) s else saddleAck d k (bits h 42 31) s) else s
  let e := if bit h 61 then 4 else 0
  onSaddle d k (fun x => { x with
    used := (List.range 4).foldl (fun m c => if bit h (25 + c) then mput m (c + e) (mget m (c + e) - 1) else m) x.used }) s

/-- An arrival that fails parity (R34): it is discarded and a nak goes out; the third failure of one sequence number fences
the saddle. -/
def flitBad (d k : Nat) (bare : Bool) (s : State) : State :=
  let n := (saddle s d k).rxFails + (if bare then 0 else 1)
  if 3 ≤ n then fenceSaddle d k 1 s
  else pump d k (onSaddle d k (fun x => { x with rxNak := true, rxFails := n, nakDue := true }) s)

/-- A transfer is at a die with its last flit: at its destination the message has arrived, a deep read stands at the CXL port,
and the answer of a home die is taken (R199), a group of context updates and a release act (R296, R300); at a die on its way its flits go
on over the path they started on (R27, R28), or wait for a route when that path has gone (R35). The credits of its flits
stay in the receive buffer until they are sent on, or until the message is taken; then their credits are owed to the far end
(R29, R31). -/
def arriveAt (d k id : Nat) (fs : List Flit) (s : State) : State :=
  let room := fs.head?.map (fun f => (flitVc f, fs.length))
  let free := fun (s : State) => match room with | some (v, n) => oweRoom d k v n s | none => s
  match s.msg? id with
  | none => free s
  | some m =>
    if m.dst = d then
      let gone : State := free { s with msgs := s.msgs.filter (fun x => x.id != id) }
      let stays := if m.arrived then free s
        else { s with msgs := s.msgs.map (fun x => if x.id = id ∧ !x.arrived then { x with arrived := true, via := k, room := room } else x) }
      match m.body with
      | .flash => gone
      | .search (.bucket a no code b l tag) => atPort d (.bucket a no code b l tag) gone
      | .search (.fill a no c tag) => fillAt d a no c tag gone
      | .search (.update no es) => shipGroup d no es gone
      | .search (.release pins lock) => shipRelease d pins lock gone
      | .answer (.miss q x y z) => (missEnter d q x y z gone).getD stays
      | .answer a => homeAnswer d a gone
      | _ => stays
    else match fs.head? with
      | some f => (match f.path with
        | b :: _ => (match sideTo d b with
          | some j =>
            if s.up d j then enqueue d j (fs.map (fun f =>
              { f with path := f.path.drop 1, hdr := f.hdr &&& 0xFF80000001FFFFFF, marked := false, src := some (k, flitVc f) })) s
            else strand d [(id, some (k, flitVc f))] s
          | none => free s)
        | [] => free s)
      | none => s

/-- Take an accepted flit in: what its header returns, and the transfer it belongs to, which is whole with its last flit; a
packet transfer is then held for release (R33, R35, Table 1.2). -/
def flitTake (d k : Nat) (f : Flit) (s : State) : State :=
  let h := f.hdr.toNat
  let s := headerBack d k h s
  if f.bare then s
  else
    let got := (if bit h 24 then [] else mget (saddle s d k).rxHold f.tid) ++ [f]
    let s := onSaddle d k (fun x => { x with rxSeq := bits h 54 43, ackDue := true }) s
    if !bit h 23 then onSaddle d k (fun x => { x with rxHold := mput x.rxHold f.tid got }) s
    else
      let s := onSaddle d k (fun x => { x with rxHold := mdel x.rxHold f.tid }) s
      if bits h 63 62 = 3 then onSaddle d k (fun x => { x with rxWhole := x.rxWhole ++ [(f.tid, got)] }) s
      else arriveAt d k f.tid got s

/-- The flit at the head of the lanes towards a saddle end. -/
def flitNext (s : State) (d k : Nat) : Option Flit :=
  match s.nbr d k with
  | none => none
  | some n => (saddle s n (opposite k)).wire.head?

/-- The head of the lanes towards a saddle end is received. -/
def flitGone (d k : Nat) (s : State) : State :=
  match s.nbr d k with
  | none => s
  | some n => onSaddle n (opposite k) (fun x => { x with wire := x.wire.drop 1 }) s

/-- A parity flip injected into a block's reads takes effect on this one; the fault record that follows still finds it (R541). -/
def takeFlip (d block inst : Nat) (s : State) : Bool × State :=
  let fits := fun (f : Nat × Nat × Nat × Nat) => f.1 == block && f.2.1 == inst && decide (0 < f.2.2.2)
  match (s.die d).core.flips.find? fits with
  | none => (false, s)
  | some f => (true, s.onDie d (fun x => { x with core.flips := x.core.flips.replace f (f.1, f.2.1, f.2.2.1, f.2.2.2 - 1) }))

/-- SADDLE_FLIT_RECEIVE (R34, R40): the next flit arrives on a saddle; `ok` says that its parity holds. With a nak out, only
the flit expected next is accepted; its passing is a successful replay. -/
def flitReceive (d k : Nat) (ok : Bool) (s : State) : State :=
  match flitNext s d k with
  | none => s
  | some f =>
    if !s.up d k then s
    else
      let (flip, s) := takeFlip d 2 k (flitGone d k s)
      let ok := ok && !flip
      let x := saddle s d k
      let seq := bits f.hdr.toNat 54 43
      let next := decide (seq = (x.rxSeq + 1) % 4096)
      if !ok then (if x.rxNak && !next then s else flitBad d k f.bare s)
      else if f.bare then pump d k (onSaddle d k (fun y => { y with rxBoth := y.rxBoth && !f.marked }) (headerBack d k f.hdr.toNat s))
      else if !next then s
      else
        let s := if x.rxNak then (s.dinc d (0x4210 + k) 4 1).report d 2 k 2 0x081 seq else s
        let s := onSaddle d k (fun y => { y with rxNak := false, rxFails := 0, rxBoth := y.rxBoth && !f.marked }) s
        pump d k (flitTake d k f s)

/-- SADDLE_ACK_RECEIVE, SADDLE_NAK_RECEIVE (R33, R34): the next flit is one that carries an acknowledgement and no message,
without or with a replay request. -/
def bareReceive (nak : Bool) (d k : Nat) (s : State) : State :=
  match flitNext s d k with
  | none => s
  | some f => if f.bare && bit f.hdr.toNat 29 == nak then flitReceive d k true s else s

/-- A packet that comes whole over a saddle leaves the receive buffer at its destination (R316, R327, R462): a punted one for
its ring's writer, a turnaround for the egress side with cells and a descriptor of requester 5. None when the pools refuse. -/
def cellsTake (d k j : Nat) (s : State) : Option State × State :=
  match (s.pkt j).stage with
  | .punt r => (some (puntTo d r (2 + k) j s), s)
  | _ => egressTake d j s

/-- What a whole packet transfer does at a die: a packet for this die is taken in and its message ends; everything else
arrives or goes on. -/
def transferAt (d k id : Nat) (fs : List Flit) (s : State) : Option State × State :=
  match s.msg? id with
  | some m => (match m.body with
    | .cells j =>
      if m.dst = d then
        match cellsTake d k j s with
        | (some s', _) => (some (arriveAt d k id fs { s' with msgs := s'.msgs.filter (fun x => x.id != id) }), s)
        | (none, s') => (none, s')
      else (some (arriveAt d k id fs s), s)
    | _ => (some (arriveAt d k id fs s), s))
  | none => (some (arriveAt d k id fs s), s)

/-- SADDLE_TRANSFER_COMPLETE (R35): the receiver releases the oldest whole packet transfer. One whose packet gets no units
stays in the receive buffer, its credit not returned (R316). -/
def transferComplete (d k : Nat) (s : State) : State :=
  match (saddle s d k).rxWhole with
  | [] => s
  | (id, fs) :: r =>
    match transferAt d k id fs (onSaddle d k (fun x => { x with rxWhole := r }) s) with
    | (some s', _) => pump d k s'
    | (none, s') => onSaddle d k (fun x => { x with rxWhole := (id, fs) :: r }) s'

/-! ### Lanes (R37 to R40) -/

/-- A transmitter starts a lane change (R40 step 1): it sends LANE_REQ, its saddle is stepping, and the Summit distributes new
route tables (R28). -/
def stepBegin (d k r : Nat) (s : State) : State :=
  let s := onSaddle d k (fun x => { x with below := 0, laneReq := r, acked := false }) s
  let s := s.sendSide d k (.laneReq (opposite k))
  topology (s.dset d (0x4210 + k) 1 4)

/-- SADDLE_UTIL_WINDOW_END (R37, R38): a 1 µs window of a direction ends at a utilisation in hundredths of a percent. -/
def utilWindow (d k util : Nat) (s : State) : State :=
  if !s.up d k then s
  else
    let s := s.dset d (0x4210 + k) 3 (util / 100)
    let x := saddle s d k
    if x.laneReq ≠ 0 then s
    else if s.dg d (0x4210 + k) 2 = 32 then
      if s.dflag d 0x4200 1 && decide (util < s.dg d 0x4200 3 * 100) then
        if s.dg d 0x4200 2 ≤ x.below + 1 then stepBegin d k 1 s
        else onSaddle d k (fun x => { x with below := x.below + 1 }) s
      else onSaddle d k (fun x => { x with below := 0 }) s
    else if s.dg d 0x4200 4 * 100 < util then
      stepBegin d k 2 s
    else s

/-- LANE_REQ (R40 step 2): the receiver of a direction gets LANE_REQ, prepares the new lane set and answers. -/
def laneReq (d k : Nat) (s : State) : State :=
  s.receive d (fun b => b == .laneReq k) fun _ s =>
    (onSaddle d k (fun x => { x with rxBoth := true }) s).sendSide d k (.laneAck (opposite k))

/-- The transmitter returns to 32 lanes at the next flit boundary, once the lanes are awake and the receiver has answered. -/
def laneReturn (d k : Nat) (s : State) : State :=
  topology (onSaddle d k (fun x => { x with laneReq := 0, acked := false, mark := true, below := 0 })
    ((s.dset d (0x4210 + k) 1 2).dset d (0x4210 + k) 2 32))

/-- LANE_ACK (R40 step 3): on step-down the transmitter switches lane sets and marks the first flit; on return it waits for
its lanes to wake. -/
def laneAck (d k : Nat) (s : State) : State :=
  s.receive d (fun b => b == .laneAck k) fun _ s =>
    match (saddle s d k).laneReq with
    | 1 => topology (onSaddle d k (fun x => { x with laneReq := 0, mark := true })
        (((s.dset d (0x4210 + k) 1 3).dset d (0x4210 + k) 2 16).dinc d (0x4210 + k) 6 1))
    | 2 => onSaddle d k (fun x => { x with acked := true }) s
    | 3 => laneReturn d k s
    | _ => s

/-- SADDLE_LANE_WAKE_DONE (R40 step 4): the 16 idle lanes are awake. -/
def laneWake (d k : Nat) (s : State) : State :=
  let x := saddle s d k
  if !s.up d k ∨ x.laneReq ≠ 2 then s
  else if x.acked then laneReturn d k s
  else onSaddle d k (fun x => { x with laneReq := 3 }) s

/-! ### Training and loss (R28, R36) -/

/-- SADDLE_TRAINING_DONE (R28): a saddle finishes training at both ends, and new route tables follow; one that fails is
fenced with cause 2. -/
def trainingDone (d k : Nat) (ok : Bool) (s : State) : State :=
  match s.nbr d k with
  | none => s
  | some n =>
    if s.saddleState d k ≠ 1 then s
    else if !ok then fenceSaddle d k 2 s
    else if s.saddleState n (opposite k) ≠ 1 then s
    else topology (saddleClear d k (saddleSet d k 2 32 s))

/-- SADDLE_FLIT_RECEIVE on one side. -/
def execSaddleFlitReceive (d : DieId) (k : Side) (ok : Bool) (s : State) : Host.Outcome State Fault Refusal :=
  onPresent d (flitReceive d (sideNo k) ok) s
/-- SADDLE_NAK_RECEIVE on one side. -/
def execSaddleNakReceive (d : DieId) (k : Side) (s : State) : Host.Outcome State Fault Refusal :=
  onPresent d (bareReceive true d (sideNo k)) s
/-- SADDLE_ACK_RECEIVE on one side. -/
def execSaddleAckReceive (d : DieId) (k : Side) (s : State) : Host.Outcome State Fault Refusal :=
  onPresent d (bareReceive false d (sideNo k)) s
/-- SADDLE_TRANSFER_COMPLETE on one side. -/
def execSaddleTransferComplete (d : DieId) (k : Side) (s : State) : Host.Outcome State Fault Refusal :=
  onPresent d (transferComplete d (sideNo k)) s
/-- ROUTE_TABLE_RECEIVE at a die. -/
def execRouteTableReceive (d : DieId) (s : State) : Host.Outcome State Fault Refusal := onPresent d (routeReceive d) s
/-- SADDLE_UTIL_WINDOW_END of one direction. -/
def execSaddleUtilWindowEnd (d : DieId) (k : Side) (util : Fin 10001) (s : State) : Host.Outcome State Fault Refusal :=
  onPresent d (utilWindow d (sideNo k) util) s
/-- LANE_REQ at a receiver. -/
def execLaneReq (d : DieId) (k : Side) (s : State) : Host.Outcome State Fault Refusal := onPresent d (laneReq d (sideNo k)) s
/-- LANE_ACK at a transmitter. -/
def execLaneAck (d : DieId) (k : Side) (s : State) : Host.Outcome State Fault Refusal := onPresent d (laneAck d (sideNo k)) s
/-- SADDLE_LANE_WAKE_DONE at a transmitter. -/
def execSaddleLaneWakeDone (d : DieId) (k : Side) (s : State) : Host.Outcome State Fault Refusal := onPresent d (laneWake d (sideNo k)) s
/-- SADDLE_TRAINING_DONE of one saddle. -/
def execSaddleTrainingDone (d : DieId) (k : Side) (ok : Bool) (s : State) : Host.Outcome State Fault Refusal :=
  onPresent d (trainingDone d (sideNo k) ok) s
/-- SADDLE_LANE_LOSS of one saddle. -/
def execSaddleLaneLoss (d : DieId) (k : Side) (s : State) : Host.Outcome State Fault Refusal := onPresent d (fenceSaddle d (sideNo k) 3) s

end Sys2Proof.Machine
end

