-- ==== Sys2Proof/Machine/FaultLog.lean ====
section
/-! DEFINITION. Fault collectors, the package log, reactions, fenced table SRAM banks, and the start of dumps (Faults,
Reactions and the Cairn Dump). -/

namespace Sys2Proof.Machine

/-! ### Records (R518, R519, R524) -/

/-- The 192 bits of a fault record (Table 18.1). -/
def FaultRec.bits (r : FaultRec) : Nat :=
  r.cls <<< 189 ||| b2n r.sameCycle <<< 188 ||| b2n r.injected <<< 187 ||| b2n r.late <<< 186 ||| r.die <<< 183 ||| r.block <<< 175 |||
    r.inst <<< 167 ||| r.kind <<< 155 ||| r.rep <<< 128 ||| r.addr % 2 ^ 48 <<< 80 ||| r.time

/-- The source identifier (R519). -/
def FaultRec.source (r : FaultRec) : Nat := r.die * 65536 + r.block * 256 + r.inst

/-- The order of one collector cycle (R524): class, most severe first, then source identifier. -/
def cycleBefore (a b : FaultRec) : Bool := decide (b.cls < a.cls) || (decide (a.cls = b.cls) && decide (a.source ≤ b.source))

/-- The order key of R528: time, class, die, die log order. -/
def keyBefore (a b : Staged) : Bool :=
  if a.r.time ≠ b.r.time then decide (a.r.time < b.r.time)
  else if a.r.cls ≠ b.r.cls then decide (b.r.cls < a.r.cls)
  else if a.r.die ≠ b.r.die then decide (a.r.die < b.r.die)
  else decide (a.ord < b.ord)

/-- The first of a list by the order key. -/
def firstStaged : List Staged → Option Staged
  | [] => none
  | x :: r => match firstStaged r with
    | none => some x
    | some y => if keyBefore y x then some y else some x

/-- The lost-unit bit a Degrade kind sets (Table 17.4). -/
def lostBit (kind addr : Nat) : Option Nat :=
  match kind with
  | 0x082 => some 1 | 0x1C2 => some 2 | 0x801 => some 2 | 0x342 => some 3 | 0x401 => some 4 | 0x103 => some 5 | 0x802 => some 5
  | 0x482 => some 6 | 0x0C1 => some 7 | 0x204 => some 8 | 0x402 => some 9 | 0x786 => some 10 | 0x281 => some 11 | 0x806 => some 12
  | 0x006 => some (if addr = 63 then 0 else lostBitOf addr)
  | _ => none

/-! ### The spare bank (R532) -/

/-- A bucket has come back from its shadow: a key of it that was placed in its other bucket meanwhile stands there no longer, so
that it is in the table once (R202, R226, R532; log entry 123). -/
def oneCopy (d sub n : Nat) (s : State) : State :=
  let (code, b) := scrubAt s (shadowCodes s sub) n
  s.each (rawBucket s d code b).slots fun x s =>
    let (ba, bb) := choices s code x.2.key
    let o := if ba = b then bb else ba
    match (if bucketFenced s d code o then none else slotOf (rawBucket s d code o) x.2.key) with
    | some (i, _) => onBucket d code o false (fun v => { v with slots := mdel v.slots i }) s
    | none => s

/-- SPARE_REBUILD_DONE (R532): a table with a repair shadow is rebuilt in the spare by the table engine, and R531 stops applying
to it. -/
def spareRebuilt (d sub : Nat) (s : State) : State :=
  match (s.die d).look.spareFor, comparedWith s d sub with
  | some b, some h =>
    let ns := (List.range (scrubCount s sub)).filter (fun n => (List.range (scrubLines s sub n)).any (fun i => (scrubLine s sub n + i) % 8 == b))
    if s.pg 0x2220 sub ≠ 2 ∨ (s.die d).look.spareOk.contains sub ∨ !engFree s d then s
    else
      let (ok, s) := ns.foldl (fun (x : Bool × State) n => if x.1 then shadowRead d h sub n false x.2 else x) (true, s)
      if !ok then s
      else
        let s := (s.each ns (scrubRepair 0 d h sub)).onDie d (fun x => { x with look.spareOk := x.look.spareOk ++ [sub] })
        if sub = 2 ∨ sub = 3 ∨ sub = 5 then s else s.each ns (oneCopy d sub)
  | _, _ => s

/-! ### Dumps begin (R533, R534) -/

/-- A record can go to host memory: there is an area, and a path to its endpoint (R534). -/
def hostPath (s : State) (d : Nat) : Bool :=
  let e := s.pg 0x1402 6
  s.pg 0x1402 5 != 0 && s.pg (0x1120 + e) 1 == 1 && (d == e || s.reach d e)

/-- Where a die writes its record, if anywhere (R534): 0 slot A, 1 slot B, 2 host memory. -/
def dumpDest (s : State) (d : Nat) : Option Nat :=
  if cxlReady s d then
    let un := s.pg (0x1410 + d) 6
    if !bit un 0 then some 0
    else if !bit un 1 then some 1
    else some (if s.pg (0x1410 + d) 4 < s.pg (0x1410 + d) 5 then 1 else 0)
  else
    if hostPath s d then some 2 else none

/-- The write of a record begins, or the die holds its state for one (R534). -/
def dumpWrite (d : Nat) (c : Cairn) (s : State) : State :=
  match dumpDest s d with
  | none => (s.onDie d (fun x => { x with core.heldDump := some c })).pset (0x1410 + d) 3 3
  | some t =>
    let again := decide (t < 2) && bit (s.pg (0x1410 + d) 6) t
    let s := if again then s.pinc (0x1410 + d) 9 1 else s
    (s.onDie d (fun x => { x with core.heldDump := none, core.writing := some { c with dest := t } })).pset (0x1410 + d) 3 1

/-- A record of a die is in progress: being written, or held for a path (R533, R534). -/
def dumpBusy (s : State) (d : Nat) : Bool := (s.die d).core.writing.isSome || (s.die d).core.heldDump.isSome

/-- A trigger of R533 at a die; one that comes while its record is in progress is refused. -/
def startDump (d : Nat) (trigger : FaultRec) (pkg die : Mode) (s : State) : State :=
  if dumpBusy s d then s
  else
    let s := s.pset 0x1402 8 ((s.pg 0x1402 8 + 1) % 2 ^ 32)
    dumpWrite d { trigger := trigger, tTrigger := s.time80On d, seq := s.pg 0x1402 8, pkgMode := modeCode pkg, dieMode := modeCode die
                  summit := s.summit.getD 0xFF, lost := s.pg 0x1202 d, ready := s.pg 0x1203 d } s

/-- A record stands at its destination, in place of what was there; one without its magic is counted as lost (R534, R535; the entries
1410+d). -/
def recordStands (d : Nat) (c : Cairn) (s : State) : State :=
  let b := 0x1410 + d
  let s := s.onDie d (fun x => { x with core.writing := none })
  let s := s.onDie d (fun x => match c.dest with
    | 0 => { x with core.slotA := some c }
    | 1 => { x with core.slotB := some c }
    | _ => { x with core.host := some c })
  let s := ((s.pset b 7 c.length).pset b 8 c.dest).pset b 3 (if c.magic then 2 else 4)
  let s := if c.dest < 2 then (s.pset b (4 + c.dest) c.seq).pset b 6 (setBit (s.pg b 6) c.dest true) else s
  if c.magic then s else s.pinc b 9 1

/-- A Terminal fault stops every record at once; its magic stays 0 (R540). -/
def stopDumps (s : State) : State :=
  s.each s.present fun d s => match (s.die d).core.writing with
    | some c => recordStands d { c with magic := false } s
    | none => s

/-! ### Reactions (R521 to R523) -/

/-- The unit an injected Degrade names is fenced as a real one would be (R541); its cause is a free value (log entry 122). -/
def fenceInjected (d : Nat) (r : FaultRec) (s : State) : State :=
  match r.kind with
  | 0x082 => let (f, s) := s.fresh; if r.inst < 4 then fenceEnds d r.inst (1 + f % 3) s else s
  | 0x103 => fenceCluster d r.inst s
  | 0x802 => fenceCluster d (r.addr / 16) s
  | 0x1C2 => fenceBank d r.inst s
  | 0x801 => fenceBank d r.addr s
  | 0x281 => s.onDie d (fun x => { x with look.classFenced := true })
  | 0x342 => let (f, s) := s.fresh; if r.inst < 2 then stackFenced d r.inst (1 + f % 4) s else s
  | 0x401 =>
    let (f, s) := s.fresh
    if cxlReady s d then ((s.dset d 0x4401 1 4).dset d 0x4401 5 (1 + f % 3)).dinc d 0x4401 6 1 else s
  | 0x482 =>
    let (f, s) := s.fresh
    if r.inst < 32 ∧ [2, 3, 4, 5, 6].contains (linkState s d r.inst) then
      let s := if linkState s d r.inst = 4 then wakeSet d (r.inst / s.dg d 0x4100 3) r.inst s else s
      linkFenced d r.inst (1 + f % 4) (linkVoid d r.inst s)
    else s
  | 0x0C1 => s.onDie d (fun x => { x with core.beacon := { x.core.beacon with faulty := true, found := true, electing := false } })
  | 0x204 => let n := r.addr / 2 ^ 21 % 2 ^ 24; if (mapEntry s d n).state = 1 then setPage d n 3 (mapEntry s d n).hpa s else s
  | 0x806 => s.onDie d (fun x => { x with core.spareFailed := true })
  | _ => s

/-- What a record does when the collector writes it (Table 18.4): a Degrade sets the die's lost-unit bit, Fatal brings
Fault-hold, and each a dump on every present die that is not Isolated (R533), Terminal brings Locked. -/
def react (d : Nat) (r : FaultRec) (s : State) : State :=
  match r.cls with
  | 3 =>
    let s := match lostBit r.kind r.addr with
      | some b => setLost d b s
      | none => s
    if r.injected then fenceInjected d r s else s
  | 4 =>
    if s.mode = .locked then s
    else
      let before := s
      let s := if s.mode = .faultHold then s else enterFaultHold s
      let s := if r.kind = 0x0C2 then { s with fatalPin := true } else s
      s.each ((s.present).filter (fun x => !s.isolated x)) (fun x s => startDump x r before.mode (before.dieMode x) s)
  | 5 => enterLocked r.kind (stopDumps s)
  | _ => s

/-! ### The die collector (R520, R524 to R527) -/

/-- Put a record, or a repeat update of one, into the die's send queue of 1,024; a full one loses its oldest record (R527). -/
def queueSend (d : Nat) (update : Bool) (r : FaultRec) (s : State) : State :=
  let q := (s.die d).core.sendQ
  let full := decide (1024 ≤ q.length)
  (if full then s.pinc 0x1400 0x10 1 else s).onDie d (fun x => { x with core.sendQ := (if full then q.drop 1 else q) ++ [(update, r)] })

/-- The records of a list go to the Summit in order, as long as the control class has credit (R31); the others wait. -/
def sendRecordsN (d m : Nat) : List (Bool × FaultRec) → State → State
  | [], s => s
  | r :: q, s =>
    if saddleFree s d m 0 then sendRecordsN d m q (s.send d m (if r.1 then .repeatUpd r.2 else .faultRec r.2))
    else s.onDie d (fun x => { x with core.sendQ := r :: q })

/-- Send what waits in a die's send queue, in order, when the Summit can be reached (R527). -/
def sendRecords (d : Nat) (s : State) : State :=
  match s.summit with
  | none => s
  | some m =>
    if d ≠ m ∧ !s.reach d m then s
    else sendRecordsN d m (s.die d).core.sendQ (s.onDie d (fun x => { x with core.sendQ := [] }))

/-- Write one record to a die log (R525, R527). -/
def logWrite (d : Nat) (r : FaultRec) (s : State) : State :=
  let s := queueSend d false r (s.onDie d (fun x => { x with
    core.log := (if 1024 ≤ x.core.log.length then x.core.log.drop 1 else x.core.log) ++ [r] }))
  let s := s.pset (0x1410 + d) 2 ((s.pg (0x1410 + d) 2 + 1) % 2 ^ 32)
  let s := if s.pg (0x1410 + d) 1 = 0 ∧ s.pg 0x1400 8 ≤ r.cls then s.pset (0x1410 + d) 1 r.bits else s
  react d r s

/-- Two times lie within n µs of each other. -/
def within (a b n : Nat) : Bool :=
  let x := t80ns a
  let y := t80ns b
  decide (max x y - min x y ≤ n * 1000)

/-- A message meets the newest record of the die log (R526). -/
def merges (s : State) (d : Nat) (r : FaultRec) : Bool :=
  match (s.die d).core.log.getLast? with
  | none => false
  | some n => decide (r.cls < 4) && n.source == r.source && n.kind == r.kind && n.cls == r.cls && s.pg 0x1400 0xF != 0 &&
      within n.time r.time (s.pg 0x1400 0xF)

/-- Merge a message into the newest record: repeat rises, and a repeat update follows a record already sent (R526). -/
def mergeRecord (d : Nat) (s : State) : State :=
  match (s.die d).core.log.getLast? with
  | none => s
  | some n =>
    let v := { n with rep := min (n.rep + 1) 65535 }
    let s := s.onDie d (fun x => { x with core.log := x.core.log.dropLast ++ [v] })
    if (s.die d).core.sendQ.contains (false, n) then
      s.onDie d (fun x => { x with core.sendQ := x.core.sendQ.map (fun r => if r == (false, n) then (false, v) else r) })
    else queueSend d true v s

/-- One message of a collector cycle; the flag says that a record of this cycle has been written. -/
def acceptOne (d : Nat) (x : Bool × State) (r : FaultRec) : Bool × State :=
  let (wrote, s) := x
  if merges s d r then (wrote, mergeRecord d s)
  else
    let hit := (s.die d).core.flips.find? (fun f => f.1 == r.block && f.2.1 == r.inst && f.2.2.2 == 0)
    let s := match hit with
      | some f => s.onDie d (fun x => { x with core.flips := x.core.flips.erase f })
      | none => s
    (true, logWrite d { r with sameCycle := wrote, injected := r.injected || hit.isSome } s)

/-- FAULT_ACCEPT (R520, R524): a collector accepts up to four messages in one cycle, Fatal and Terminal ones first since
they come on lines of their own. -/
def faultAccept (d n : Nat) (s : State) : State :=
  let q := (s.die d).core.faultQ.mergeSort (fun a b => decide (4 ≤ a.cls) || decide (b.cls < 4))
  let now := (q.take n).mergeSort cycleBefore
  let s := s.onDie d (fun x => { x with core.faultQ := q.drop n })
  sendRecords d (now.foldl (acceptOne d) (false, s)).2

/-! ### The package collector (R526 to R529) -/

/-- Commit a record to the package log (R525, R528, R529). -/
def commitRecord (r : FaultRec) (s : State) : State :=
  let n := s.logSeq + 1
  let s : State := { s with logSeq := n, pkgLog := (if 8192 ≤ s.pkgLog.length then s.pkgLog.drop 1 else s.pkgLog) ++ [(n, r)] }
  let s := (s.pset 0x1400 0xC n).pset 0x1400 0xD ((s.pkgLog.head?.map (·.1)).getD 0)
  let s := if 1 ≤ r.cls ∧ r.cls ≤ 5 then s.pinc 0x1400 r.cls 1 else s
  let s : State := if s.pg 0x1400 6 = 0 ∧ s.pg 0x1400 8 ≤ r.cls then s.pset 0x1400 6 r.bits else s
  if s.pg 0x1400 9 ≤ r.cls then
    s.each [0, 1] (fun e s => if s.pg (0x1120 + e) 1 = 1 then fireMsix e (s.pg 0x1400 0xE) s else s)
  else s

/-- FAULT_RECORD_RECEIVE (R521, R528): the Summit stages a record; a Degrade shows in 1202 and in the mode at once. A record
with an earlier key than one already committed goes to the log on arrival, marked late. -/
def faultReceive (s : State) : State :=
  match s.summit with
  | none => s
  | some m =>
    s.receive m (fun b => match b with | .faultRec _ => true | _ => false) fun msg s =>
      match msg.body with
      | .faultRec r =>
        let s := if r.cls = 3 then
            match lostBit r.kind r.addr with
            | some b =>
              if b < 14 ∧ ((s.die r.die).lost).getLsbD b then
                let s := degradeMode (s.pset 0x1202 r.die (setBit (s.pg 0x1202 r.die) b true))
                if s.mode = .degraded then domReview r.die s else s
              else s
            | none => degradeMode s
          else s
        let x : Staged := { r := r, at_ := s.now, ord := (s.staging.foldl (fun n y => max n y.ord) 0) + 1 }
        match s.lastKey with
        | some k =>
          if keyBefore { x with ord := k.ord } k then commitRecord { r with late := true } s
          else { s with staging := s.staging ++ [x] }
        | none => { s with staging := s.staging ++ [x] }
      | _ => s

/-- FAULT_STAGING_COMMIT (R528): the first staged record by the order key is committed once its 10 µs have passed; the
others wait for it. -/
def stagingCommit (s : State) : State :=
  match firstStaged s.staging with
  | none => s
  | some x =>
    if s.now < x.at_ + 10000 then s
    else commitRecord x.r { s with staging := s.staging.erase x, lastKey := some x }

/-- Whether a repeat update names a record (R526). -/
def sameRecord (a b : FaultRec) : Bool := a.source == b.source && a.kind == b.kind && a.cls == b.cls && a.time == b.time

/-- REPEAT_UPDATE_RECEIVE (R526): the matching record, staged or committed, takes the new repeat. -/
def repeatReceive (s : State) : State :=
  match s.summit with
  | none => s
  | some m =>
    s.receive m (fun b => match b with | .repeatUpd _ => true | _ => false) fun msg s =>
      match msg.body with
      | .repeatUpd r => { s with
          staging := s.staging.map (fun x => if sameRecord x.r r then { x with r := { x.r with rep := r.rep } } else x)
          pkgLog := s.pkgLog.map (fun x => if sameRecord x.2 r then (x.1, { x.2 with rep := r.rep }) else x) }
      | _ => s

/-- Records at or above alert_class that are not acknowledged (1400.0A). -/
def unacknowledged (s : State) : Nat :=
  (s.pkgLog.filter (fun x => decide (s.acked < x.1) && decide (s.pg 0x1400 9 ≤ x.2.cls))).length

/-- ALERT_L (R529): the OR of its causes. -/
def alertL (s : State) : Bool := decide (0 < unacknowledged s) || s.alertR43 || s.alertBringup || s.alertHi || s.alertLo

/-- log_ack (R508, R529): every record up to a sequence is acknowledged; a CXL memory lost clears with its record. -/
def logAck (v : Nat) (s : State) : Nat × State :=
  let lost := (s.pkgLog.filter (fun x => decide (x.1 ≤ v) && x.2.kind == 0x402)).map (fun x => x.2.die)
  (0, { s with acked := max s.acked (min v s.logSeq) }.each lost (fun d s => clearLost d 9 s))

/-- first_fault_clear (R525). -/
def firstFaultClear (s : State) : Nat × State :=
  (0, (s.pset 0x1400 6 0).each (List.range 8) (fun d s => s.pset (0x1410 + d) 1 0))

/-- log_read (Table 18.13): the reply, when the record is held. -/
def logRead (s : State) (v : Nat) : Option Nat := (s.pkgLog.find? (fun x => x.1 == v)).map (fun x => v <<< 224 ||| x.2.bits)

/-- die_log_read (R527): index 0 is the newest record. -/
def dieLogRead (s : State) (v : Nat) : Option Nat :=
  let l := (s.die (bits v 31 29)).core.log
  if bits v 9 0 < l.length then (l[l.length - 1 - bits v 9 0]?).map FaultRec.bits else none

/-- dump_now (R533): accepted in Quiesce, Diagnostic and Fault-hold; a die whose record is in progress is BUSY. -/
def dumpNow (v : Nat) (s : State) : Nat × State :=
  let ds := (List.range 32).filter (bit v)
  if !s.modeIn [.quiesce, .diagnostic, .faultHold] then (0x16, s)
  else if ds.any (fun d => !s.has d) then (0x13, s)
  else if ds.any (dumpBusy s) then (0x11, s)
  else (0, s.each ds (fun d s => startDump d { time := s.time80On d } s.mode (s.dieMode d) s))

/-- dump_ack (R534): both slots of the dies named are acknowledged. -/
def dumpAck (v : Nat) (s : State) : Nat × State :=
  (0, s.each ((List.range 8).filter (bit v)) (fun d s => s.pset (0x1410 + d) 6 0))

/-- HELD_DUMP_PATH (R534): a path has appeared for a held dump, and its write starts. -/
def heldDumpPath (d : Nat) (s : State) : State :=
  match (s.die d).core.heldDump with
  | some c => if (dumpDest s d).isSome ∧ (s.die d).core.writing.isNone then dumpWrite d c s else s
  | none => s

/-- The first kind code of a block's range, and the last (Table 18.2). -/
def kindRange (block : Nat) : Option (Nat × Nat) :=
  [(0x01, 0x000, 0x07F), (0x02, 0x080, 0x0BF), (0x03, 0x0C0, 0x0FF), (0x04, 0x100, 0x17F), (0x05, 0x180, 0x1BF), (0x06, 0x1C0, 0x1FF),
   (0x07, 0x200, 0x27F), (0x08, 0x280, 0x2BF), (0x09, 0x2C0, 0x33F), (0x0A, 0x340, 0x3FF), (0x0B, 0x400, 0x47F), (0x0C, 0x480, 0x4FF),
   (0x0D, 0x500, 0x5FF), (0x0E, 0x600, 0x67F), (0x0F, 0x680, 0x6FF), (0x10, 0x700, 0x77F), (0x11, 0x780, 0x7FF), (0x12, 0x800, 0x87F),
   (0x13, 0x880, 0x8FF), (0x14, 0x900, 0x97F)].find? (fun x => x.1 == block) |>.map (·.2)

/-- fault_inject (R541, Table 18.12): a message, or a flip that waits for the next read of its target, or the next three. -/
def faultInject (v : Nat) (s : State) : Nat × State :=
  let m := bits v 127 124
  let d := bits v 120 118
  let block := bits v 117 110
  let inst := bits v 109 102
  let kind := bits v 101 90
  let cls := bits v 123 121
  if s.mode ≠ .factory then (0x16, s)
  else if 3 ≤ m ∨ !s.has d then (0x13, s)
  else match kindRange block with
    | none => (0x13, s)
    | some (lo, hi) =>
      if m = 0 then
        if kind < lo ∨ hi < kind ∨ cls = 0 ∨ 5 < cls then (0x13, s)
        else (0, s.post d
          { cls := cls, injected := true, die := d, block := block, inst := inst, kind := kind, addr := bits v 47 0, time := s.time80On d })
      else if !([0x02, 0x04, 0x06, 0x08, 0x09, 0x0A, 0x0C].contains block) then (0x13, s)
      else (0, s.onDie d (fun x => { x with core.flips := x.core.flips ++ [(block, inst, bits v 47 0, if m = 2 then 3 else 1)] }))

/-- FAULT_ACCEPT at a die's collector: up to four messages. -/
def execFaultAccept (d : DieId) (n : Fin 5) (s : State) : Host.Outcome State Fault Refusal := onPresent d (faultAccept d n) s
/-- FAULT_RECORD_RECEIVE. -/
def execFaultRecordReceive (s : State) : Host.Outcome State Fault Refusal := .next (faultReceive s)
/-- FAULT_STAGING_COMMIT. -/
def execFaultStagingCommit (s : State) : Host.Outcome State Fault Refusal := .next (stagingCommit s)
/-- REPEAT_UPDATE_RECEIVE. -/
def execRepeatUpdateReceive (s : State) : Host.Outcome State Fault Refusal := .next (repeatReceive s)
/-- HELD_DUMP_PATH of a die. -/
def execHeldDumpPath (d : DieId) (s : State) : Host.Outcome State Fault Refusal := onPresent d (heldDumpPath d) s
/-- SPARE_REBUILD_DONE of a table by its subindex of 2220. -/
def execSpareRebuildDone (d : DieId) (sub : Fin 256) (s : State) : Host.Outcome State Fault Refusal := onPresent d (spareRebuilt d sub) s
/-- The control-core watchdog of a die expires: a Fatal fault of kind 0x001 (R522). -/
def watchdog (d : Nat) (s : State) : State := s.report d 1 0 4 0x001 0

/-- WATCHDOG_EXPIRE (R522): the control-core watchdog of a die expires. -/
def execWatchdogExpire (d : DieId) (s : State) : Host.Outcome State Fault Refusal := onPresent d (watchdog d) s

end Sys2Proof.Machine
end

