-- ==== Sys2Proof/Machine/Cxl.lean ====
section
/-! DEFINITION. The CXL root port of a die and the resets of the PCIe endpoints (CXL Memory and Host Attach). -/

namespace Sys2Proof.Machine

/-- State of a CXL port (Table 15.8). -/
def cxlState (s : State) (d : Nat) : Nat := s.dg d 0x4401 1

/-- Bring-up fails with a cause (R446). -/
def cxlFail (d cause : Nat) (s : State) : State :=
  ((s.dset d 0x4401 1 5).dset d 0x4401 5 cause).report d 0x0B 0 3 0x401 0

/-- CXL_BRINGUP_TIMEOUT (Table 15.1): the device is not a supported one (cause 5), or Memory_Active did not come (cause 4). -/
def cxlTimeout (d : Nat) (unsupported : Bool) (s : State) : State :=
  if [1, 2].contains (cxlState s d) then cxlFail d (if unsupported then 5 else 4) s else s

/-- The decoded range (R445): min(capacity, 512 GiB), rounded down to 2 MiB. -/
def cxlDecoded (cap : Nat) : Nat := min cap (512 * 2 ^ 30) / 2097152 * 2097152

/-- Steps 6 to 9 of Table 15.1: the decoder is programmed, map_base_hpa checked, every map entry written state 0 and
change_gen 0, and the port is ready. -/
def cxlConfigure (d cause : Nat) (s : State) : State :=
  let cap := s.dg d 0x4401 4
  let base := s.dg d 0x4410 1
  if base % 2097152 ≠ 0 ∨ cap < base + 2097152 then cxlFail d 6 s
  else
    let s := clearMap d s
    clearLost d 4 (clearLost d 8 ((s.dset d 0x4401 1 3).dset d 0x4401 5 cause))

/-- The port's link has trained to a rate and a width with a device of a capacity: a link below 64 GT/s or x16 is a Notice (R445). -/
def cxlTrained (d rate width cap : Nat) (s : State) : State :=
  let s := ((s.dset d 0x4401 2 rate).dset d 0x4401 3 width).dset d 0x4401 4 (cxlDecoded cap)
  if rate < 6 ∨ width < 16 then s.reportOpen d 0x0B 0 1 0x403 125 0 else s

/-- CXL_MEMORY_ACTIVE (R445, R446): the device's memory is active on a link of a rate and a width. -/
def cxlActive (d rate width cap : Nat) (s : State) : State :=
  if !([1, 2].contains (cxlState s d)) then s
  else
    cxlConfigure d 0 (cxlTrained d rate width cap s)

/-- The port goes down for a cause (R447, R448), with `inFlight` writes that have no completion: they are kept, and made again when it
comes back; what they say stands in the model's memory already, and the memory answers nothing meanwhile (log entry 129). -/
def cxlDown (d cause inFlight : Nat) (s : State) : State :=
  if cxlState s d = 3 then
    ((((s.dset d 0x4401 1 4).dset d 0x4401 5 cause).dinc d 0x4401 6 1).report d 0x0B 0 3 0x401 0).onDie d
      (fun x => { x with look.inFlight := inFlight })
  else s

/-- CXL_RETRAIN (R449): the link of a downed port is back at a rate, a width and a capacity (R445), and decoder 0 was found committed or
not. Committed: the kept writes and the held spills are made and the port is ready. Not: the memory is lost; kept writes, held spills
and dirty lines are discarded, but a line that a run pins stays, clean (R295; log entry 95). -/
def cxlRetrain (d : Nat) (committed : Bool) (rate width cap : Nat) (s : State) : State :=
  if cxlState s d ≠ 4 then s
  else
    let held := (s.die d).buf.spillQ
    let kept := (s.die d).look.inFlight + (s.die d).look.kept.length
    let s := cxlTrained d rate width cap s
    let s := s.onDie d (fun x => { x with buf.spillQ := [], buf.spillLost := false, look.inFlight := 0 })
    if committed then
      let s := clearLost d 4 ((s.dset d 0x4401 1 3).dset d 0x4401 5 0)
      let s := keptAgain d (s.dinc d 0x4401 0xD kept)
      s.each held (fun x s => countAdd d x.1 x.2 s)
    else
      let dirty := ((s.die d).look.ctx.filter (fun l => l.2.dirty)).length
      let s := (s.dinc d 0x4401 7 1).dinc d 0x4401 0xE (kept + dirty)
      let s := s.onDie d (fun x => { x with
        look.ctx := (x.look.ctx.filter (fun l => !l.2.dirty || decide (0 < l.2.pins))).map (fun l => (l.1, { l.2 with dirty := false }))
        look.exp := [], look.kept := [], look.awayDumps := [], look.lies := []
        look.tabs := x.look.tabs.filter (fun t => !isDeep t.1)
        look.shadow := [], look.shadowIdx := [], look.shadowOn := [], buf.stats := [], core.slotA := none, core.slotB := none })
      cxlConfigure d 7 (s.report d 0x0B 0 3 0x402 0)

/-- CXL_EVENT_POLL (R450): n records of the device's event logs are counted, reported and cleared; `replays` flits have been
replayed since the last poll. -/
def cxlPoll (d n replays : Nat) (s : State) : State :=
  let s := s.dinc d 0x4401 8 replays
  if cxlState s d ≠ 3 then s
  else (s.dinc d 0x4401 9 n).each (List.range n) (fun _ s => s.reportOpen d 0x0B 0 1 0x403 125 0)

/-- An endpoint's link stands at a rate and a width, rate 0 meaning down (Table 15.6). -/
def endpointLink (e rate width : Nat) (s : State) : State :=
  let s := ((s.pset (0x1120 + e) 1 (if rate = 0 then 0 else 1)).pset (0x1120 + e) 2 rate).pset (0x1120 + e) 3 (if rate = 0 then 0 else width)
  if rate = 0 then s else clearLost e 13 s

/-- ENDPOINT_RESET (R453, R485): an endpoint whose link is up is reset by a hot reset, a link-down or a function-level reset; its link
then stands at a rate and a width. Its mailboxes go idle, and replies still to come are dropped. A link that is down comes up, which is
no reset. -/
def endpointRestart (e rate width : Nat) (s : State) : State :=
  if s.pg (0x1120 + e) 1 = 0 then endpointLink e rate width s
  else
  let s := endpointReset e s
  let s := endpointLink e rate width s
  { s with boxes := (List.range 8).foldl (fun m k =>
      let b := mget m (e * 8 + k)
      mput m (e * 8 + k) { drop := b.control == 1 || b.drop }) s.boxes }

/-- CXL_BRINGUP_TIMEOUT of a die's port. -/
def execCxlBringupTimeout (d : DieId) (unsupported : Bool) (s : State) : Host.Outcome State Fault Refusal :=
  onPresent d (cxlTimeout d unsupported) s
/-- CXL_MEMORY_ACTIVE: rate code of Table 15.8, width exponent (1, 2, 4, 8, 16 lanes), device capacity in bytes. -/
def execCxlMemoryActive (d : DieId) (rate : Fin 7) (width : Fin 5) (cap : BitVec 64) (s : State) : Host.Outcome State Fault Refusal :=
  onPresent d (cxlActive d rate (2 ^ width.val) cap.toNat) s
/-- CXL_LINK_LOST (R447): cause 1. -/
def execCxlLinkLost (d : DieId) (inFlight : Fin 4097) (s : State) : Host.Outcome State Fault Refusal := onPresent d (cxlDown d 1 inFlight) s
/-- CXL_COMPLETION_TIMEOUT (R447): cause 2. -/
def execCxlCompletionTimeout (d : DieId) (inFlight : Fin 4097) (s : State) : Host.Outcome State Fault Refusal :=
  onPresent d (cxlDown d 2 inFlight) s
/-- CXL_FATAL_ERROR (R447): cause 3. -/
def execCxlFatalError (d : DieId) (inFlight : Fin 4097) (s : State) : Host.Outcome State Fault Refusal := onPresent d (cxlDown d 3 inFlight) s
/-- CXL_RETRAIN of a die's port; rate, width and capacity as in CXL_MEMORY_ACTIVE. -/
def execCxlRetrain (d : DieId) (committed : Bool) (rate : Fin 7) (width : Fin 5) (cap : BitVec 64) (s : State) :
    Host.Outcome State Fault Refusal := onPresent d (cxlRetrain d committed rate (2 ^ width.val) cap.toNat) s
/-- CXL_EVENT_POLL of a die's port. -/
def execCxlEventPoll (d : DieId) (n replays : Nat) (s : State) : Host.Outcome State Fault Refusal := onPresent d (cxlPoll d n replays) s
/-- ENDPOINT_RESET: rate code of Table 15.6 (0 down), width exponent (1, 2, 4, 8 lanes). -/
def execEndpointReset (e : Fin 2) (rate : Fin 6) (width : Fin 4) (s : State) : Host.Outcome State Fault Refusal :=
  .next (endpointRestart e rate (2 ^ width.val) s)

end Sys2Proof.Machine
end

