-- ==== Sys2Proof/Machine/Summit.lean ====
section
/-! DEFINITION. The beacon: heartbeat, election, faults of the line, Summit tokens (One Part from Many Crests). -/

namespace Sys2Proof.Machine

/-- Change what a die holds of the beacon. -/
def onBeacon (d : Nat) (f : Beacon → Beacon) (s : State) : State := s.onDie d (fun x => { x with core.beacon := f x.core.beacon })

/-- A die's view of the beacon. -/
def beacon (s : State) (d : Nat) : Beacon := (s.die d).core.beacon

/-- The control cores of a die run: those of a die that is reset while the others go on run once its function 0 is ready
(R43, Table 17.3). -/
def coresRun (s : State) (d : Nat) : Bool := (s.die d).own != some .bringup || bit (s.pg 0x1203 d) 0

/-- A die is a candidate for Summit (R43); at power-up only dies 0 and 1 are. -/
def candidate (s : State) (d : Nat) : Bool :=
  (beacon s d).checked && !(s.die d).held && !(s.die d).core.por && !s.isolated d &&
    !([Mode.faultHold, .locked].contains s.mode) && coresRun s d && (decide (2 < s.bootStep) || decide (d < 2))

/-- A candidate joins an election with the start pulse (R46). -/
def joinElection (d : Nat) (s : State) : State := onBeacon d (fun b => { b with electing := true, withdrawn := false, outvoted := false, slot := 2 }) s

/-- Dies in the election that have not withdrawn. -/
def standing (s : State) : List Nat := (s.present).filter (fun d => (beacon s d).electing && !(beacon s d).withdrawn)

/-- Heartbeats show on the beacon: a Summit holds office that does not know it faulty (R44, R51). -/
def beats (s : State) : Bool := match s.summit with
  | some m => !(beacon s m).faulty
  | none => false

/-- HEARTBEAT_TICK (R44): the Summit pulses the beacon; the dies of an election see its end confirmed (Table 1.3 step 10). -/
def heartbeat (s : State) : State :=
  if !beats s then s
  else s.onDies (fun _ x => { x with core.beacon := { x.core.beacon with electing := false, withdrawn := false, outvoted := false, slot := 0 } })

/-- HEARTBEAT_TIMEOUT (R45): a candidate has seen no heartbeat for 64 µs and starts an election. -/
def heartbeatTimeout (d : Nat) (s : State) : State :=
  if beats s || !candidate s d || (beacon s d).faulty || (beacon s d).electing then s
  else
    let first := (standing s).isEmpty
    let s := joinElection d s
    if first then s.pinc 0x1800 2 1 else s

/-- START_PULSE_SEEN (R46): another candidate joins the start pulse. -/
def startPulse (d : Nat) (s : State) : State :=
  if beats s || !candidate s d || (beacon s d).faulty || (beacon s d).electing || (standing s).isEmpty then s
  else joinElection d s

/-- The winner takes the Summit role and continues from its copy of the package state record (R41, R46). -/
def takeSummit (d : Nat) (s : State) : State :=
  let s := onBeacon d (fun b => { b with electing := false }) { ownRecord d s with summit := some d }
  let s := if s.bootStep = 2 then
      { ((s.pset 0x1200 4 0).pinc 0x1200 9 1).pset 0x1200 0x10 s.time80 with bootStep := 3, alertR43 := false }
    else s
  topology s

/-- ELECTION_BIT_SAMPLE (R46, Table 1.3): at mid-slot a candidate samples the beacon for its index bit. It drives low for a
0 and withdraws when it releases the line and reads it low; the one left after bit 0 is the Summit. Candidates sample
each slot before any samples the next. A line that is stuck reads as it is stuck (R49, R50). -/
def electionSample (d : Nat) (s : State) : State :=
  let b := beacon s d
  if !b.electing || beats s || (s.present).any (fun x => (beacon s x).electing && decide (b.slot < (beacon s x).slot)) then s
  else
    let low := s.pg 0x1800 3 == 1 || (s.pg 0x1800 3 != 2 && (standing s).any (fun x => !bit x b.slot))
    let gone := b.withdrawn || (bit d b.slot && low)
    if b.slot = 0 then
      if gone then onBeacon d (fun b => { b with electing := false, withdrawn := false, outvoted := true }) s else takeSummit d s
    else onBeacon d (fun b => { b with withdrawn := gone, slot := b.slot - 1 }) s

/-- ELECTION_NO_SUMMIT (R48, Table 18.5): no heartbeat appears after an election that left nobody. With a Summit in office whose
beacon is faulty, some candidate has come out of an election without one. -/
def noSummit (s : State) : State :=
  if beats s || (s.summit.isSome && !(s.present).any (fun d => (beacon s d).outvoted)) || !(standing s).isEmpty || decide (s.bootStep ≤ 1) || s.fatalPin then s
  else
    let s := { s with fatalPin := true }
    match (s.present).head? with
    | some d => s.report d 3 0 4 0x0C2 0
    | none => s

/-! ### A faulty beacon (R49 to R51) -/

/-- A die itself has found the beacon stuck (R51): its own Degrade and bit 7 of its lost units, whether or not a notice has
told it before, and a notice over every up saddle. -/
def beaconStuck (d st : Nat) (s : State) : State :=
  if (beacon s d).found || (s.die d).held then s
  else
    let s := (onBeacon d (fun b => { b with faulty := true, found := true, electing := false }) s).pset 0x1800 3 st
    let s := setLost d 7 (s.report d 3 0 3 0x0C1 0)
    s.each ((List.range 4).filter (s.up d)) fun k s => s.sendSide d k .beaconNotice

/-- BEACON_STUCK_HIGH (R50): only a die that drives the line low can see it: the Summit, or a candidate in its start
pulse or bit slots. -/
def stuckHigh (d : Nat) (s : State) : State :=
  if s.summit = some d ∨ ((beacon s d).electing ∧ !(beacon s d).withdrawn) then beaconStuck d 2 s else s

/-- BEACON_FAULTY_NOTICE (R51): the die stops its heartbeat timer and turns to tokens and the majority rule. -/
def beaconNotice (d : Nat) (s : State) : State :=
  s.receive d (fun b => b == .beaconNotice) fun _ s => onBeacon d (fun b => { b with faulty := true, electing := false }) s

/-! ### Tokens (R52) -/

/-- SUMMIT_TOKEN_TICK (R52): the Summit sends a token on each of its up saddles. -/
def tokenTick (s : State) : State :=
  match s.summit with
  | none => s
  | some m =>
    let s := { s with tokenSeq := s.tokenSeq + 1 }
    s.each ((List.range 4).filter (s.up m)) fun k s => s.sendSide m k (.token s.tokenSeq (opposite k))

/-- SUMMIT_TOKEN_RECEIVE (R52): a token goes on, once per sequence number, over every up saddle but the one it came by. -/
def tokenReceive (d : Nat) (s : State) : State :=
  s.receive d (fun b => match b with | .token _ _ => true | _ => false) fun m s =>
    match m.body with
    | .token q via =>
      if (beacon s d).token = some q ∨ s.summit = some d then s
      else
        let s := onBeacon d (fun b => { b with token := some q }) s
        s.each ((List.range 4).filter (fun k => s.up d k && k != via)) fun k s => s.sendSide d k (.token q (opposite k))
    | _ => s

/-- TOKEN_TIMEOUT (R52, R53): a die cut off from the Summit enters Isolated while the beacon is valid and shows heartbeats,
and the group that reaches the Summit goes on in Degraded; with a faulty beacon the majority rule decides. A die that knows of
no faulty beacon and sees no heartbeat does neither: its heartbeat timer decides (R45). -/
def tokenTimeout (d : Nat) (s : State) : State :=
  if !s.active.contains d || s.summit == some d || s.modeIn [.standby, .faultHold, .locked, .diagnostic, .factory] then s
  else match s.summit with
    | none => if (beacon s d).faulty then majority d s else s
    | some m =>
      if s.linked d m then s
      else if (beacon s d).faulty then majority d s
      else if beats s then degradeMode (isolate d 1 s)
      else s

/-- HEARTBEAT_TICK. -/
def execHeartbeatTick (s : State) : Host.Outcome State Fault Refusal := .next (heartbeat s)
/-- HEARTBEAT_TIMEOUT at a die. -/
def execHeartbeatTimeout (d : DieId) (s : State) : Host.Outcome State Fault Refusal := onPresent d (heartbeatTimeout d) s
/-- START_PULSE_SEEN at a die. -/
def execStartPulseSeen (d : DieId) (s : State) : Host.Outcome State Fault Refusal := onPresent d (startPulse d) s
/-- ELECTION_BIT_SAMPLE at a die. -/
def execElectionBitSample (d : DieId) (s : State) : Host.Outcome State Fault Refusal := onPresent d (electionSample d) s
/-- ELECTION_NO_SUMMIT. -/
def execElectionNoSummit (s : State) : Host.Outcome State Fault Refusal := .next (noSummit s)
/-- BEACON_STUCK_LOW detected by a die. -/
def execBeaconStuckLow (d : DieId) (s : State) : Host.Outcome State Fault Refusal := onPresent d (beaconStuck d 1) s
/-- BEACON_STUCK_HIGH detected by a die. -/
def execBeaconStuckHigh (d : DieId) (s : State) : Host.Outcome State Fault Refusal := onPresent d (stuckHigh d) s
/-- BEACON_FAULTY_NOTICE at a die. -/
def execBeaconFaultyNotice (d : DieId) (s : State) : Host.Outcome State Fault Refusal := onPresent d (beaconNotice d) s
/-- SUMMIT_TOKEN_TICK. -/
def execSummitTokenTick (s : State) : Host.Outcome State Fault Refusal := .next (tokenTick s)
/-- SUMMIT_TOKEN_RECEIVE at a die. -/
def execSummitTokenReceive (d : DieId) (s : State) : Host.Outcome State Fault Refusal := onPresent d (tokenReceive d) s
/-- TOKEN_TIMEOUT at a die. -/
def execTokenTimeout (d : DieId) (s : State) : Host.Outcome State Fault Refusal := onPresent d (tokenTimeout d) s

end Sys2Proof.Machine
end

