-- ==== Sys2Proof/Machine/Read.lean ====
section
/-! DEFINITION. What a read of a dictionary entry returns: the register, or for an entry that shows other state the
value computed from it (The Object Dictionary and JDP; the entry maps of every chapter). -/

namespace Sys2Proof.Machine

/-! ### Images (R568, Table 20.2) -/

/-- The header of an image: 74 bytes as a number, byte 0 least significant. -/
def imageHdr (img : Bytes) : Nat := leNat (img.take 74)

/-- The active image. -/
def activeImage (s : State) : Bytes := mget s.flash.images s.flash.active

/-- The firmware version an image carries. -/
def imageVersion (img : Bytes) : Nat := bits (imageHdr img) 95 64

/-- The image in the slot that is not active, when that slot is in a state. -/
def otherImage (s : State) (st : Nat) : Nat :=
  let o := 1 - s.flash.active
  if mget s.flash.state o = st then imageVersion (mget s.flash.images o) else 0

/-! ### Identity (R482) -/

/-- ASCII text as an OCTETS value, byte 0 first, padded with zeros. -/
def asciiVal (t : String) : Nat := t.toList.foldr (fun c a => a * 256 + c.toNat) 0

/-- The name of a part. -/
def partName : Part → String
  | .d9020 => "D9020" | .d9040 => "D9040" | .d9080 => "D9080"

/-- The code of a part. -/
def partCode : Part → Nat
  | .d9020 => 0x9020 | .d9040 => 0x9040 | .d9080 => 0x9080

/-- The package serial number, never 0. -/
def serialNo : Nat := Config.packageSerial % (2 ^ 64 - 1) + 1

/-- The serials of the dies below a number, none 0 and no two alike: each the first free value from its own on. -/
def dieSerials : Nat → List Nat
  | 0 => []
  | d + 1 =>
    let l := dieSerials d
    l ++ [(((List.range (l.length + 1)).map (fun k => (Config.dieSerial d + k) % (2 ^ 56 - 1) + 1)).find? (fun v => !l.contains v)).getD 1]

/-- The identity word of a die: revision 1 to 15 and a serial that is never 0. -/
def dieIdentity (d : Nat) : Nat := (Config.dieRevision d % 15 + 1) <<< 56 ||| (dieSerials (d + 1)).getD d 1

/-! ### Package-wide entries -/

/-- The die whose stores package-wide table counts are taken from: the Summit's. -/
def storeDie (s : State) : Nat := s.summit.getD 0

/-- The mask of a list of dies. -/
def dieMask (l : List Nat) : Nat := (l.map (fun d => 2 ^ d)).sum

/-- Seconds of probation left. -/
def probationLeft (s : State) : Nat := if s.flash.probation = 1 then (s.flash.probEnd - s.now) / 10 ^ 9 else 0

/-- Switched domains on in the package, those that are stopping included (1300.01). -/
def domainsOn (s : State) : Nat :=
  ((s.present).map (fun d => ((List.range 80).filter (fun n => [2, 3, 4].contains (domSt s d n))).length)).sum

/-- The state of a die's next transit targets (1710.06). -/
def nextTargets (s : State) (d : Nat) : Nat :=
  let t := fun (k : Nat) => mget (s.die d).core.nextSlice k
  t 0 <<< 48 ||| t 1 <<< 32 ||| t 2 <<< 16 ||| t 3

/-- Entries of a rule table with the Current bit (2310). -/
def rulesCurrent (s : State) (t : Nat) : Nat :=
  ((s.die (storeDie s)).look.tern.filter (fun x => x.2.table.toNat == t && x.2.epochs.getLsbD (epochCurrent s))).length

/-- Read a package-wide entry. -/
def readPkg (s : State) (idx sub : Nat) : Nat :=
  let m := storeDie s
  match idx, sub with
  | 0x1000, 1 => asciiVal "Forgixis"
  | 0x1000, 2 => asciiVal (partName s.part)
  | 0x1000, 3 => partCode s.part
  | 0x1000, 4 => (partDies s.part).length
  | 0x1000, 5 => serialNo
  | 0x1000, 6 => imageVersion (activeImage s)
  | 0x1000, 7 => bits (imageHdr (activeImage s)) 591 512
  | 0x1000, 9 => 0xD900 + partCode s.part % 256
  | 0x1010, d => if s.has d then dieIdentity d else 0
  | 0x1041, 1 => s.master.version / 16 * 16
  | 0x1150, 5 => ((List.range 16).filter (fun i => s.pg (0x1130 + i) 1 == 1)).length
  | 0x1200, 1 => modeCode s.mode
  | 0x1201, d => if s.has d then modeCode (s.dieMode d) else 0
  | 0x1300, 1 => domainsOn s
  | 0x1300, 5 => s.strap.toNat
  | 0x1400, 0xA => unacknowledged s
  | 0x1500, 1 => s.flash.active
  | 0x1500, 2 => mget s.flash.state 0
  | 0x1500, 3 => mget s.flash.state 1
  | 0x1500, 4 => if mget s.flash.state (1 - s.flash.active) = 2 then s.flash.target else 0
  | 0x1500, 5 => otherImage s 4
  | 0x1500, 6 => s.flash.rollback
  | 0x1500, 7 => s.flash.probation
  | 0x1500, 9 => probationLeft s
  | 0x1503, 1 => s.flash.setSlot
  | 0x1503, 2 => (settings s).format
  | 0x1503, 4 => s.unsaved.length + s.keysDirty.length
  | 0x1600, 1 => s.time80
  | 0x1600, 0xA => clockSpread s
  | 0x1800, 1 => s.summit.getD 0xFF
  | 0x1800, 4 => dieMask s.present
  | 0x2100, 3 => hotBytes s
  | 0x2100, 4 => deepBytes s
  | 0x2101, 1 => hotCount s m 0
  | 0x2101, 2 => hotCount s m 1
  | 0x2101, 3 => deepCount s 0
  | 0x2101, 4 => deepCount s 1
  | 0x2101, 5 => (tabVisible s m stemCode).length
  | 0x2101, 6 => rootCount s m
  | 0x2200, 3 => b2n (s.part == .d9080)
  | 0x2222, k => shadowOffset s k
  | 0x2300, 0xD => holdersLeft s
  | 0x2310, 0xE => ((s.die m).look.tern.filter (fun x => x.2.epochs != 0)).length
  | 0x2310, t => rulesCurrent s t
  | 0x3000, 1 => ((s.die m).buf.meters.filter (fun x => x.2.cfg != 0)).length
  | _, _ =>
    if 0x1140 ≤ idx ∧ idx < 0x1150 ∧ sub = 2 then (mget s.keys (idx - 0x1140)).level
    else if 0x1140 ≤ idx ∧ idx < 0x1150 ∧ sub = 3 then b2n (mget s.keys (idx - 0x1140)).enable
    else if 0x1130 ≤ idx ∧ idx < 0x1140 ∧ sub = 5 then
      (if s.pg idx 1 = 1 then min 65535 ((s.now - (mget s.sessions (idx - 0x1130)).last) / 10 ^ 9) else 0)
    else if 0x1710 ≤ idx ∧ idx < 0x1718 ∧ sub = 5 then dieMask ((s.die (idx - 0x1710)).core.slices.map (·.1))
    else if 0x1710 ≤ idx ∧ idx < 0x1718 ∧ sub = 7 then
      (if s.pg idx 7 ≠ 5 ∧ s.mode ≠ .standby ∧ domSt s (idx - 0x1710) 77 ≠ 2 then 6 else s.pg idx 7)
    else if 0x1710 ≤ idx ∧ idx < 0x1718 ∧ sub = 6 then nextTargets s (idx - 0x1710)
    else s.pg idx sub

/-! ### Per-die entries -/

/-- Read an entry of a die's table counters 4620+t (R255). -/
def readExact (s : State) (d t sub : Nat) : Nat :=
  let slots := if t < 3 then (tabSlots s d (0x10 + t)).map (·.2.2) else
    (hotOrder.flatMap (fun x => tabSlots s d (hotCode x.1 x.2)) ++ tabSlots s d stemCode).map (·.2.2)
  match sub with
  | 1 => slots.length
  | 2 => if t < 3 then (slots.filter (·.static)).length else 0
  | _ => relocs s d (if t < 3 then 0x10 + t else 1)

/-- Requests of a die's CXL port without a completion (R444, R448): reads in progress, two for a context or an IPv6 bucket, and
kept writes. -/
def outstanding (s : State) (d : Nat) : Nat :=
  ((s.die d).look.port.map (fun m => match m with
    | .bucket _ _ code _ lines _ => if bucketBytes code = 64 ∨ lines = 1 then 1 else 2
    | _ => 2)).sum + (s.die d).look.kept.length + (s.die d).look.inFlight

/-- Read an entry of a die that shows other state; in Standby every entry reads its saved or default value (R497). -/
def readDie (s : State) (d idx sub : Nat) : Nat :=
  let x := s.die d
  if 0x4880 ≤ idx ∧ idx < 0x48C0 ∧ sub = 0x20 then (if lowestSlot s d (idx - 0x4880) then nodeWeight s d (idx - 0x4880) 0 else 0)
  else if s.dieMode d = .standby then (if isRws idx sub then s.dg d idx sub else entryDefault s.part idx sub)
  else match idx, sub with
  | 0x4130, 3 => x.buf.centries.length
  | 0x4130, 9 => x.buf.reasm.length
  | 0x4401, 0xA => min 4096 (outstanding s d)
  | 0x4410, 9 => (x.look.cmap.filter (fun e => e.2.state == 1)).length
  | 0x4413, i => match x.look.poison[i]? with
    | some a => 1 <<< 63 ||| a % 2 ^ 48
    | none => 0
  | 0x4420, 0x11 => waitingContexts s d
  | 0x4420, 0x12 => (x.look.ctx.filter (fun e => e.2.pins != 0)).length
  | 0x4520, 5 => pendingHeld s d false
  | 0x4520, 9 => pendingHeld s d true
  | 0x4610, 0xD => x.look.deepQ.length
  | 0x4610, 0xE => max (s.dg d 0x4610 0xE) x.look.deepQ.length
  | 0x4640, 9 => x.look.engQ.length
  | 0x4660, 3 => holders s d (s.pg 0x2300 1)
  | 0x4660, 4 => holders s d (s.pg 0x2300 2)
  | 0x4700, 4 => x.buf.residue.length
  | 0x4700, 5 => x.buf.waitList.length
  | 0x4720, 0x10 => (x.buf.voqs.filter (fun v => !v.2.pkts.isEmpty)).length
  | _, _ =>
    if 0x4050 ≤ idx ∧ idx < 0x4090 ∧ sub = 6 then fifoFree s d (idx - 0x4050)
    else if 0x4510 ≤ idx ∧ idx < 0x4520 ∧ 2 ≤ sub ∧ sub ≤ 4 then
      let c := idx - 0x4510
      if sub = 2 then (cluster s d c).queue.length
      else if sub = 3 then ((List.range 64).filter (fun t => !threadFree (cluster s d c) t)).length
      else parkHeld s d c
    else if 0x4580 ≤ idx ∧ idx < 0x4590 ∧ sub = 1 then setCycles s d (idx - 0x4580) % 2 ^ 64
    else if 0x4590 ≤ idx ∧ idx < 0x4594 ∧ sub = 1 then setCycles s d (idx - 0x4590 + 16) % 2 ^ 64
    else if 0x4620 ≤ idx ∧ idx < 0x4624 ∧ (sub = 1 ∨ sub = 2 ∨ sub = 0xB) then readExact s d (idx - 0x4620) sub
    else if 0x4710 ≤ idx ∧ idx < 0x4713 ∧ sub = 1 then poolSize s d (idx - 0x4710)
    else if 0x4710 ≤ idx ∧ idx < 0x4713 ∧ sub = 2 then poolFree s d (idx - 0x4710)
    else if 0x4710 ≤ idx ∧ idx < 0x4713 ∧ 0x30 ≤ sub ∧ sub ≤ 0x35 then poolInUse s d (idx - 0x4710) (sub - 0x30)
    else if 0x4840 ≤ idx ∧ idx < 0x4880 ∧ sub = 0x11 then gateStates s d (idx - 0x4840)
    else if 0x4880 ≤ idx ∧ idx < 0x48C0 ∧ 0x60 ≤ sub ∧ sub ≤ 0x6C then shaperCredit s d (idx - 0x4880) (sub - 0x60)
    else s.dg d idx sub

/-- Read an entry, package-wide or of a die. -/
def readEntry (s : State) (d : Option Nat) (idx sub : Nat) : Nat :=
  match d with
  | none => readPkg s idx sub
  | some d => readDie s d idx sub

/-- A read cleared the lowest free count of a pool or the highest temperature of a die, which start again with what holds now, or
with the next reading (Tables 10.7 and 21.15; log entry 142). -/
def startAnew (d : Option Nat) (idx sub : Nat) (s : State) : State :=
  match d with
  | none => if 0x1330 ≤ idx ∧ idx < 0x1338 ∧ sub = 0x21 then s.onDie (idx - 0x1330) (fun x => { x with core.peakRead := false }) else s
  | some d => if 0x4710 ≤ idx ∧ idx < 0x4713 ∧ sub = 3 then onPool s d (idx - 0x4710) (fun q => { q with low := some (poolFree s d (idx - 0x4710)) }) else s

/-- Read an entry as an access does: a read-clear counter returns its value and clears to 0 (R471, R472). -/
def readClear (s : State) (d : Option Nat) (idx sub : Nat) : Nat × State :=
  let v := readEntry s d idx sub
  let rc := match findEntry idx sub with | some e => decide (e.acc = .rc) | none => false
  if !rc then (v, s)
  else match d with
    | none => (v, startAnew none idx sub (s.pset idx sub 0))
    | some d => (v, startAnew (some d) idx sub (s.dset d idx sub 0))

end Sys2Proof.Machine
end

