-- ==== Sys2Proof/Machine/Cairn.lean ====
section
/-! DEFINITION. The Cairn record: header, directory and sections as bytes (Faults, Reactions and the Cairn Dump). -/

namespace Sys2Proof.Machine

/-! ### Pieces -/

/-- Bytes cut or padded with zeros to a length. -/
def padTo (n : Nat) (bs : Bytes) : Bytes := bs.take n ++ List.replicate (n - bs.length) 0

/-- A descriptor as 32 bytes (Table 2.3, R5). -/
def descBytes (x : Desc) : Bytes := toBytesLE 32 x.bits.toNat

/-- Words as bytes (R5). -/
def wordBytes (l : List Word) : Bytes := l.flatMap (fun w => toBytesLE 8 w.toNat)

/-- Journal entries of a thread record; `second` marks the second group. -/
def journalBytes (second : Bool) (l : List JEntry) : Bytes :=
  l.flatMap (fun e => toBytesLE 16 (e.op <<< 123 ||| e.offset % 256 <<< 115 ||| e.len % 16 <<< 111 ||| b2n second <<< 110 ||| e.val.toNat))

/-- A thread record (Table 18.11): state 0 idle, 1 running or waiting, 2 parked, 3 committed. -/
def threadRecord (st : Nat) (gen : BitVec 2) (r : Run) : Bytes :=
  let st := if st = 1 ∧ r.committed then 3 else st
  let w := r.pc.toNat ||| b2n r.z <<< 18 ||| b2n r.n <<< 17 ||| b2n r.c <<< 16 ||| b2n r.v <<< 15 ||| b2n r.t <<< 14 |||
    r.stack.length % 8 <<< 20 ||| st <<< 23 ||| gen.toNat <<< 25
  padTo 1024 (toBytesLE 8 w ++ padTo 8 (r.stack.reverse.flatMap (fun a => toBytesLE 2 a.toNat)) ++ descBytes r.desc ++
    padTo 128 r.win ++ wordBytes ((List.range 16).map (mget r.g)) ++
    wordBytes ((List.range 4).flatMap (fun i => let x := mget r.slots i; [x.hdr, x.p1, x.p2, x.p3])) ++
    padTo 256 (journalBytes false r.journal ++ journalBytes true r.tail))

/-- The record of a hardware thread. -/
def threadSlot (t : Thread) : Bytes :=
  match t.run, t.pre with
  | some r, _ => threadRecord 1 r.gen r
  | none, some k => threadRecord 2 k.runGen (k.run.getD {})
  | none, none => threadRecord 0 t.runGen {}

/-- The record of a park context; a free one is all 0. -/
def parkSlot (k : Option ParkCtx) : Bytes :=
  match k with
  | some k => threadRecord 2 k.runGen (k.run.getD {})
  | none => List.replicate 1024 0

/-! ### Entries (Table 18.10, sections 0x0010 and 0x0011) -/

/-- Entries of a range of indices in ascending index and sub, with their rows. -/
def entriesIn (lo hi : Nat) : List (Nat × Nat × EntryRow) :=
  (List.range (hi - lo)).flatMap fun i =>
    let idx := lo + i
    (entryTable.filter (fun e => decide (e.idx ≤ idx) && decide (idx < e.idx + e.n))).flatMap fun e =>
      (List.range (e.hi + 1 - e.lo)).map (fun k => (idx, e.lo + k, e))

/-- A value in the byte order of JDP: numeric values most significant byte first, OCTETS byte 0 first (R470). -/
def jdpBytes (e : EntryRow) (n v : Nat) : Bytes := if e.ty = .octets then toBytesLE n v else toBytes n v

/-- A reply record of Table 16.10 with its data, padded to 4 bytes. -/
def replyRecord (status sel idx sub len : Nat) (data : Bytes) : Bytes :=
  toBytes 8 (status <<< 56 ||| sel <<< 48 ||| idx <<< 32 ||| sub <<< 24 ||| len) ++ padTo (ceilDiv len 4 * 4) data

/-- The reply record of an entry as a read gives it, counters not cleared; one that cannot be read has BAD_ACCESS. -/
def entryRecord (s : State) (d : Option Nat) (x : Nat × Nat × EntryRow) : Bytes :=
  let (idx, sub, e) := x
  let sel := match d with | some d => 0x10 + d | none => 0
  if e.acc = .cmd ∨ e.acc = .wo then replyRecord 0x1B sel idx sub 0 []
  else replyRecord 0 sel idx sub e.size (jdpBytes e e.size (readEntry s d idx sub))

/-! ### Images of stores -/

/-- A pool's bitmap: bit u is set while unit u is free, the ready list counting as free (R313). -/
def bitmap (s : State) (d p n : Nat) : Bytes :=
  let q := pool s d p
  let free := fun (u : Nat) => (mget? q.used u).isNone && !q.relq.contains u && !unitLost s d p u
  (List.range (n / 8)).map (fun i => BitVec.ofNat 8 (((List.range 8).map (fun k => if free (8 * i + k) then 2 ^ k else 0)).sum))

/-- The tables in the hashed part of table SRAM. -/
def sramCodes : List Nat := hotOrder.map (fun x => hotCode x.1 x.2) ++ [stemCode, 0x10, 0x11, 0x12]

/-- Line L of the table SRAM address space (R225, R531): 64 bytes. -/
def sramLine (s : State) (d L : Nat) : Bytes :=
  let a := L * 64
  let index := fun (sub base : Nat) => (lineItems sub ((a - base) / 64)).flatMap (fun i => toBytesLE (itemBytes sub) (idxValue s d sub i))
  if 0x0D000000 ≤ a ∧ a < 0x0E000000 then index 2 0x0D000000
  else if 0x0E000000 ≤ a ∧ a < 0x0E000000 + 4 * 262144 then index 3 0x0E000000
  else if 0x0F800000 ≤ a ∧ a < 0x0F800000 + 64 * 8192 then index 5 0x0F800000
  else match sramCodes.find? (fun c => decide (tabOffset s c ≤ a) && decide (a < tabOffset s c + tabBuckets s c * bucketBytes c)) with
    | none => List.replicate 64 0
    | some c =>
      let o := a - tabOffset s c
      let img := toBytesLE (bucketBytes c) (bucketImage c (plainBucket (rawBucket s d c (o / bucketBytes c))))
      (img.drop (o % bucketBytes c)).take 64

/-- The image of a table SRAM bank. -/
def bankImage (s : State) (d b : Nat) : Bytes := (List.range 524288).flatMap (fun i => sramLine s d (8 * i + b))

/-- A ternary entry as its 80 bytes (Table 8.1). -/
def ternBytes (x : TernEntry) : Bytes :=
  toBytesLE 80 (x.value.toNat <<< 416 ||| x.mask.toNat <<< 192 ||| x.epochs.toNat <<< 176 ||| x.prio.toNat <<< 156 ||| x.action.toNat <<< 139 |||
    x.table.toNat <<< 135)

/-- The classification store: ternary, action, rewrite entries. -/
def classImage (s : State) (d : Nat) : Bytes :=
  let k := (s.die d).look
  (List.range 131072).flatMap (fun i => ternBytes (mget k.tern i)) ++
    (List.range 131072).flatMap (fun i => toBytesLE 24 (mget k.actions i).toNat) ++
    (List.range 262144).flatMap (fun i => toBytesLE 32 (mget k.rewrite i).toNat)

/-- The context cache: a tag and 128 bytes for each of its 262,144 lines (R294), those that hold a context first, by its number (log
entry 5). -/
def cacheImage (s : State) (d : Nat) : Bytes :=
  padTo (262144 * 136) <| (s.die d).look.ctx.flatMap fun x =>
    toBytesLE 8 (b2n x.2.valid <<< 63 ||| b2n x.2.dirty <<< 62 ||| b2n (x.2.pins != 0) <<< 61 ||| x.1 % 2 ^ 24) ++
      wordBytes ((List.range 16).map (mget x.2.words))

/-- The payload words of a flit. The manual gives the contents of packet data only: in a message of another class they are
free values (log entry 5). -/
def flitWords (f : Flit) : List Word :=
  if f.payload.isEmpty && f.tid != 0 then (List.range 7).map (Config.flitWord f.tid) else f.payload

/-- Retry buffers: saddles N, E, S, W, then links 0 to 31. -/
def retryImage (s : State) (d : Nat) : Bytes :=
  (List.range 4).flatMap (fun k => padTo 65536 ((saddle s d k).retry.flatMap (fun f => padTo 64 (toBytesLE 8 f.hdr.toNat ++ wordBytes (flitWords f))))) ++
    (List.range 32).flatMap (fun l => padTo 65536 ((flink s d l).retry.flatMap (fun c => toBytesLE 16 c.hdr.toNat ++ c.payload)))

/-- A counter set (R564): bytes 0x000 to 0x053 of Table 19.5, sample_mode, zeros to 128 bytes, and the records. -/
def counterPage (s : State) (d k : Nat) : Bytes :=
  let b := setBase k
  padTo 128 (toBytesLE 8 (readEntry s (some d) b 1) ++
    (List.range 8).flatMap (fun n => toBytesLE 8 (b2n (bit (s.dg d b 0x28) n) <<< 63 ||| s.dg d b (0x20 + n))) ++
    (List.range 8).flatMap (fun n => toBytesLE 1 (s.dg d b (0x10 + n))) ++ toBytesLE 4 (s.dg d b 0x33) ++
    toBytesLE 1 (s.dg d b 0x32)) ++
  padTo 65536 ((mget (s.die d).eng.samples k).flatMap (fun r => toBytesLE 16 r.toNat))

/-- The packets of a die that a list of windows holds. -/
def heldPkts (s : State) (d : Nat) : List Nat := (s.die d).eng.inWin.flatMap (fun w => w.2.held.map (·.2))

/-- A U32 count and n descriptors. -/
def descList (s : State) (n : Nat) (l : List Nat) : Bytes := toBytesLE 4 l.length ++ padTo (32 * n) (l.flatMap (fun i => descBytes (s.pkt i).desc))

/-- The descriptor of unit u of the descriptor store. -/
def unitDesc (s : State) (d u : Nat) : Desc :=
  match s.pkts.find? (fun x => x.2.die == d && x.2.unit == some u) with
  | some x => x.2.desc
  | none => {}

/-- The 256 bytes of cell u of the packet buffer. -/
def cellBytes (s : State) (d u : Nat) : Bytes :=
  match s.pkts.find? (fun x => x.2.die == d && x.2.cells.contains u) with
  | some x => padTo 256 (x.2.frame.drop (256 * x.2.cells.idxOf u))
  | none => List.replicate 256 0

/-! ### Sections and the record (R535 to R539) -/

/-- The sections of Table 18.10 in directory order; `trace` is the firmware trace. -/
def sections (s : State) (d : Nat) (trace : Bytes) : List CairnSection :=
  let x := s.die d
  let opt := fun (i : Nat) (l : List CairnSection) => if bit (s.pg 0x1402 1) i then l else []
  let sm := s.summit == some d
  [{ ty := 0x01, data := x.core.log.flatMap (fun r => toBytesLE 24 r.bits) }] ++
  (if sm then [{ ty := 0x02, data := s.pkgLog.flatMap (fun r => toBytesLE 32 (r.1 <<< 224 ||| r.2.bits)) }] else []) ++
  [{ ty := 0x03, data := (x.core.machineChecks.drop (x.core.machineChecks.length - 64)).flatMap (toBytesLE 16) },
   { ty := 0x10, data := (entriesIn 0x4000 0x4A00).flatMap (entryRecord s (some d)) }] ++
  (if sm then [{ ty := 0x11, data := (entriesIn 0x1000 0x4000).flatMap (entryRecord s none) }] else []) ++
  (List.range 16).map (fun c => { ty := 0x20, inst := c, data := (List.range 64).flatMap (fun t => threadSlot (thread s d c t)) }) ++
  [{ ty := 0x21, data := (List.range 4096).flatMap (fun k => parkSlot (mget? x.eng.park k)) },
   { ty := 0x30, data := (List.range 16).flatMap (fun c => descList s 256 (cluster s d c).queue) ++ descList s 32768 (heldPkts s d) },
   { ty := 0x40, inst := 0, data := bitmap s d 0 262144 }, { ty := 0x40, inst := 1, data := bitmap s d 1 25165824 },
   { ty := 0x40, inst := 2, data := bitmap s d 2 262144 },
   { ty := 0x41, data := (List.range 262144).flatMap (fun u => descBytes (unitDesc s d u)) }] ++
  opt 0 [{ ty := 0x42, data := (List.range 262144).flatMap (cellBytes s d) }] ++
  opt 1 ((List.range 8).map (fun b => { ty := 0x50, inst := b, data := bankImage s d b })) ++
  opt 2 [{ ty := 0x51, data := classImage s d }] ++
  opt 3 [{ ty := 0x60, data := cacheImage s d }] ++
  opt 4 [{ ty := 0x70, data := retryImage s d }] ++
  opt 5 ((List.range 16).map (fun c => { ty := 0x80, inst := c, data := counterPage s d c }) ++
    (List.range 4).map (fun u => { ty := 0x80, inst := 0x100 + u, data := counterPage s d (16 + u) })) ++
  [{ ty := 0xF0, data := trace.take 1048576 }]

/-- A section that may be left out (Table 18.10). -/
def optional (x : CairnSection) : Bool := decide (0x42 ≤ x.ty) && decide (x.ty ≤ 0x80)

/-- The next 64-byte boundary. -/
def align64 (n : Nat) : Nat := ceilDiv n 64 * 64

/-- The offset of each section, from one on. -/
def offsets : Nat → List CairnSection → List Nat
  | _, [] => []
  | o, x :: r => o :: offsets (align64 (o + x.data.length)) r

/-- The offset of the first section: after header and directory. -/
def firstOffset (l : List CairnSection) : Nat := align64 (128 + 32 * l.length)

/-- The length of a record: to the end of its last section. -/
def recordLength (l : List CairnSection) : Nat :=
  match (offsets (firstOffset l) l).getLast?, l.getLast? with
  | some o, some x => o + x.data.length
  | _, _ => 128

/-- Take out the last section that may be left out. -/
def dropLastOptional (l : List CairnSection) : Option (CairnSection × List CairnSection) :=
  match l.reverse.span (fun x => !optional x) with
  | (a, x :: b) => some (x, b.reverse ++ a.reverse)
  | (_, []) => none

/-- Leave out optional sections from the end until the record fits (R539); `gone` is the first one left out, which stays
listed with length 0 and its truncated flag. -/
def fitSections (space : Nat) : Nat → Option CairnSection → List CairnSection → List CairnSection
  | 0, gone, l => (l ++ gone.toList).mergeSort (fun a b => decide (a.ty * 65536 + a.inst ≤ b.ty * 65536 + b.inst))
  | n + 1, gone, l =>
    let whole := (l ++ gone.toList).mergeSort (fun a b => decide (a.ty * 65536 + a.inst ≤ b.ty * 65536 + b.inst))
    if recordLength whole ≤ space then whole
    else match dropLastOptional l with
      | none => whole
      | some (x, l) => fitSections space n (gone.orElse (fun _ => some { x with flags := setBit x.flags 0 true, data := [] })) l

/-- The header of a record (Table 18.8). -/
def cairnHeader (s : State) (d crc : Nat) (magic : Bool) (c : Cairn) : Bytes :=
  toBytesLE 128 (c.length <<< 960 ||| crc <<< 928 ||| c.sections.length <<< 896 ||| c.tComplete <<< 816 ||| c.tTrigger <<< 736 |||
    c.trigger.bits <<< 544 ||| readPkg s 0x1000 6 <<< 512 ||| readPkg s 0x1041 1 <<< 480 ||| c.seq <<< 448 ||| c.pkgMode <<< 440 |||
    c.dieMode <<< 432 ||| d <<< 424 ||| c.summit <<< 416 ||| partCode s.part <<< 400 ||| c.dest <<< 392 ||| c.status <<< 384 |||
    serialNo <<< 320 ||| c.lost <<< 288 ||| c.ready <<< 256 ||| 1 <<< 112 ||| 128 <<< 96 ||| (if magic then asciiVal "CAIRNDMP" else 0))

/-- A directory entry (Table 18.9). -/
def dirEntry (x : CairnSection) (off : Nat) : Bytes :=
  toBytesLE 32 (x.ty <<< 240 ||| x.inst <<< 224 ||| x.flags <<< 208 ||| crc32c x.data <<< 160 ||| x.data.length <<< 64 ||| off)

/-- A record after its header: directory and sections, each on its boundary. -/
def cairnBody (c : Cairn) : Bytes :=
  let offs := offsets (firstOffset c.sections) c.sections
  let dir := (c.sections.zip offs).flatMap (fun x => dirEntry x.1 x.2)
  (c.sections.zip offs).foldl (fun a x => a ++ List.replicate (x.2 - 128 - a.length) 0 ++ x.1.data) dir

/-- The bytes of a record; its CRC takes record_crc and magic as 0 (Table 18.8). -/
def cairnBytes (s : State) (d : Nat) (c : Cairn) : Bytes :=
  let body := cairnBody c
  cairnHeader s d (crc32c (cairnHeader s d 0 false c ++ body)) c.magic c ++ body

/-- The bytes a record may take at its destination (R534): half the dump region, or an eighth of the host area. -/
def cairnSpace (s : State) (d dest : Nat) : Nat := if dest < 2 then s.dg d 0x4410 6 / 2 * 2097152 else s.pg 0x1402 5 / 8

/-- A record with its sections read (R537): `bad` names those in which a word failed parity. -/
def cairnFill (s : State) (d : Nat) (bad : List (Nat × Nat)) (trace : Bytes) (c : Cairn) : Cairn :=
  let l := (sections s d trace).map (fun x => if bad.contains (x.ty, x.inst) then { x with flags := setBit x.flags 1 true } else x)
  let space := cairnSpace s d c.dest
  let fit := fitSections space l.length none l
  let cut := decide (fit.length < l.length) || fit.any (fun x => bit x.flags 0)
  let len := recordLength fit
  { c with sections := fit, tComplete := s.time80On d, length := len, magic := decide (len ≤ space)
           status := if cut then 1 else if fit.any (fun x => bit x.flags 1) then 2 else 0 }

/-- The poisoned lines of region 4 that a record overwrites in its slot (R304). -/
def slotPoison (s : State) (d : Nat) (c : Cairn) : List Nat :=
  let base := c.dest * (s.dg d 0x4410 6 / 2) * 2097152
  (s.die d).look.poison.filter (fun a =>
    a / 2 ^ 42 % 8 == 4 && decide (base ≤ a % 2 ^ 42) && decide (a % 2 ^ 42 < base + c.length))

/-- A record goes through the map to its slot (R301, R304): every page it takes is translated, its lines leave the poison list,
and a page that faults keeps it from being whole. -/
def dumpThrough (d : Nat) (c : Cairn) (s : State) : Cairn × State :=
  let pages := if 2 ≤ c.dest then [] else slotPages s d c.dest (min c.length (cairnSpace s d c.dest))
  let (ok, s) := pages.foldl (fun (x : Bool × State) p =>
    let (code, s) := access d 4 p 0 x.2
    (x.1 && (code == 0 || code == 3), s)) (true, s)
  if pages.isEmpty then (c, s)
  else ({ c with magic := c.magic && ok }, (s.dinc d 0x4401 0xC (ceilDiv c.length 64)).each (slotPoison s d c) (cureLine d))

/-- A record is written at its destination (R534 to R539): the entries 1410+d show it. A record too long for its space keeps
magic 0 and is counted as lost, and so is one that a fault of the map kept from being whole (log entry 21). -/
def cairnStore (d : Nat) (bad : List (Nat × Nat)) (atts : List (Nat × BitVec 64)) (c : Cairn) (s : State) : State :=
  let (f, s) := s.fresh
  let (c, s) := dumpThrough d (cairnFill s d bad (Config.firmwareTrace f) c) s
  let rva := s.pg 0x1402 4 + d * (s.pg 0x1402 5 / 8)
  let s := if c.dest = 2 then dmaWrite (s.pg 0x1402 6) atts rva ((cairnBytes s d c).take (cairnSpace s d 2)) s else s
  recordStands d c s

end Sys2Proof.Machine
end

