-- ==== Sys2Proof/Machine/Image.lean ====
section
/-! DEFINITION. Firmware images: the microcode checks of Table 4.15 and the image checks of R569 (Micro-engines; Firmware
Update over the Chain). -/

namespace Sys2Proof.Machine

/-! ### Microcode checks (R113, R116, R117, R124, R132, R145, R562) -/

/-- No reserved code stands in a field of a word (R113, R562). -/
def wordEncodings (w : Nat) : Bool :=
  let src := fun (c : Nat) => decide (c < 0x14) || (decide (0x20 ≤ c) && decide (c < 0x35))
  decide (uSeq w < 6) && (decide (uCond w < 7) || (decide (8 ≤ uCond w) && decide (uCond w < 0x10)) || decide (0x20 ≤ uCond w)) &&
    decide (uWait w < 5) && decide (uAlu w < 0x11) && (decide (uDst w < 0x10) || uDst w == 0x1F) && src (uSrcA w) && src (uSrcB w) &&
    decide (uMem w < 0xC) && decide (uReg w < 16) && decide (uSrch w < 2) && decide (uKey w < 16) &&
    !(uMem w == 5 && decide (14 ≤ uOff w)) && !(uMem w == 8 && decide (4 ≤ uLen w)) && !(uMem w == 0xB && decide (9 ≤ uOff w))

/-- A word writes a journal entry. -/
def wordJournals (w : Nat) : Bool := decide (3 ≤ uMem w) && decide (uMem w ≤ 9)

/-- What Table 4.15 asks of a word by itself, at its address. -/
def wordValid (a w : Nat) : Bool :=
  let load := uMem w == 1 || uMem w == 2 || uMem w == 0xB
  wordEncodings w && !(load && uDst w == uReg w) && !(uMem w == 9 && decide (14 < uReg w)) &&
    !(uSrch w == 1 && decide (15 < uKey w + uKeyLen w)) && !(uMem w == 0xB && uWait w != 4) &&
    !((uSeq w == 1 || uSeq w == 3) && decide (uTarget w ≤ a)) && !(uSeq w == 2 && decide (uTarget w / 16 * 16 ≤ a))

/-- A point of a path: address, return addresses, entries before commit, commit words seen, words since commit. -/
structure PathPt where
  pc      : Nat := 0
  stack   : List Nat := []
  entries : Nat := 0
  commits : Nat := 0
  tail    : Nat := 0
  deriving DecidableEq, Repr, Inhabited

/-- Where a path can go from a word; none when it falls off the store or breaks the call stack (R116, R117). -/
def wordNext (p : PathPt) (w : Nat) : Option (List PathPt) :=
  let can := uCond w != 0 || !uInv w
  let skip := uCond w != 0 || uInv w
  let on : List PathPt := [{ p with pc := p.pc + 1 }]
  let fall := decide (p.pc = 16383)
  match uSeq w with
  | 0 => if fall then none else some on
  | 1 => if fall && skip then none else some ((if can then [{ p with pc := uTarget w }] else []) ++ if skip then on else [])
  | 2 => some ((List.range 16).map (fun i => { p with pc := uTarget w / 16 * 16 + i }))
  | 3 =>
    if fall ∨ (can ∧ 4 ≤ p.stack.length) then none
    else some ((if can then [{ p with pc := uTarget w, stack := (p.pc + 1) :: p.stack }] else []) ++ if skip then on else [])
  | 4 => match p.stack with
    | a :: r => if fall && skip then none else some ((if can then [{ p with pc := a, stack := r }] else []) ++ if skip then on else [])
    | [] => if can || fall then none else some on
  | _ => some []

/-- Every path from a point passes Table 4.15; `fuel` bounds the length of a path. -/
def pathValid (u : Ucode) : Nat → PathPt → Bool
  | 0, _ => false
  | n + 1, p =>
    let w := (mget u.words p.pc).toNat
    let com := uMem w == 0xA
    let p' : PathPt := { p with
      entries := p.entries + b2n (wordJournals w && p.commits == 0)
      commits := p.commits + b2n com
      tail := p.tail + b2n (p.commits != 0) }
    wordValid p.pc w && decide (p'.entries ≤ 16) && decide (p'.commits ≤ 1) && decide (p'.tail ≤ 64) &&
      !(p.commits != 0 && wordJournals w && !([6, 8, 9].contains (uMem w))) &&
      (match wordNext p' w with
        | none => false
        | some l => l.all (pathValid u n))

/-- A microcode image is valid (R145): it fits the store, and every routine its entry vector reaches passes. -/
def ucodeValid (u : Ucode) : Bool :=
  u.words.all (fun x => decide (x.1 < 16384)) &&
    (List.range 64).all (fun e => decide (mget u.entry e < 16384) && pathValid u (2 ^ 80) { pc := mget u.entry e })

/-! ### Image checks (R568, R569) -/

/-- The microcode of an image, the words beyond a store left out; `imageFits` says whether there are any. -/
def imageUcode (img : Bytes) : Ucode :=
  { words := (List.range 16384).foldl (fun m a => mput m a (Config.imageWord img a)) []
    entry := (List.range 64).foldl (fun m e => mput m e (Config.imageEntry img e)) []
    version := bits (imageHdr img) 191 160 }

/-- The microcode of an image, patches included, fits a control store (Table 4.15). -/
def imageFits (img : Bytes) : Bool := decide (Config.imageWords img ≤ 16384)

/-- The bit of a part in part_mask. -/
def partBit : Part → Nat
  | .d9020 => 0 | .d9040 => 1 | .d9080 => 2

/-- The first check of R569 that fails, by its number; 0 when the image is valid. -/
def imageCheck (s : State) (img : Bytes) : Nat :=
  let h := imageHdr img
  let len := bits h 159 128
  let key := bits h 251 248
  let trailer := (img.drop (len - 512)).take 512
  if bits h 63 0 ≠ asciiVal "DYOLARFW" ∨ len = 0 ∨ len % 4096 ≠ 0 ∨ 67108864 < len ∨ img.length < len then 1
  else if !bit (bits h 239 232) (partBit s.part) then 2
  else if 2 < bits h 247 244 then 3
  else if 3 < key ∨ sha384 (trailer.take 97) ≠ mget s.flash.fuses key ∨ s.flash.revoked.getLsbD key then 4
  else if !signatureOk (beNat (trailer.take 97)) (beNat ((trailer.drop 97).take 96)) (sha384 (img.take (len - 512))) then 5
  else if bits h 127 96 < s.flash.rollback then 6
  else if !(imageFits img && ucodeValid (imageUcode img)) then 7
  else 0

/-- The image slot that is not active. -/
def otherSlot (s : State) : Nat := 1 - s.flash.active

/-- Set the state of an image slot (Table 20.9). -/
def slotState (k st : Nat) (s : State) : State :=
  let s := flashAccess s
  { s with flash := { s.flash with state := mput s.flash.state k st } }

/-- A Notice of firmware update (Table 20.8), from the Summit. -/
def fwNotice (kind addr : Nat) (s : State) : State :=
  match s.summit with
  | some m => s.report m 0x14 0 1 kind addr
  | none => s

/-- Empty the staging slot; without a flash agent this waits for one (R567). -/
def emptyStaging (s : State) : State :=
  if (flashAgent s).isNone then { s with emptyDue := true } else
  let s := { flashAccess s with emptyDue := false }
  { s with flash := { s.flash with images := mdel s.flash.images (otherSlot s), state := mput s.flash.state (otherSlot s) 0 } }

end Sys2Proof.Machine
end

