-- ==== Sys2Proof/Machine/Reset.lean ====
section
/-! DEFINITION. Package reset, die reset, power-up and boot (Operating Modes, Bring-up and Power Domains; Firmware Update
over the Chain; Supply, Clocks, Pins and Package). -/

namespace Sys2Proof.Machine

/-! ### What a reset leaves (R516, Table 16.2, Table 17.5) -/

/-- A die after a reset: its registers at their saved values or defaults; what stays is the expander's memory, the dumps
in it, the control stores, the TAP, and what the pins of its clocks show. -/
def freshDie (s : State) (d : Nat) : Die :=
  let x := s.die d
  { regs := savedRegs s (some d)
    core := { slotA := x.core.slotA, slotB := x.core.slotB, host := x.core.host, tap := tapActs x.core.tap.ir false x.core.tap, netLost := x.core.netLost
              fabLost := x.core.fabLost, pciLost := x.core.pciLost, por := x.core.por, hot := x.core.hot, clock := Config.clockPlace d s.now % 5 }
    eng := { clusters := x.eng.clusters.map (fun k => (k.1, { store := k.2.store, entry := k.2.entry })), perfFrom := s.now }
    look := { exp := x.look.exp } }

/-- Package-wide entries that a package reset keeps: what they count starts at power-up, or shows the dumps held, the
management ports, the clocks, the supply and the sensors (Tables 1.5, 16.12, 18.14, 18.15, 21.14, 21.15). -/
def keptAtReset (e : Nat) : Bool :=
  let idx := e / 256
  let sub := e % 256
  (idx == 0x1800 && sub == 2) || (idx == 0x1402 && sub == 8) || (decide (0x1410 ≤ idx) && decide (idx < 0x1418) && decide (4 ≤ sub) && decide (sub ≤ 8)) ||
    ((idx == 0x1101 || idx == 0x1102) && sub == 3) || (idx == 0x1600 && sub == 5) || (idx == 0x1300 && (sub == 3 || sub == 4)) ||
    (decide (0x1330 ≤ idx) && decide (idx < 0x1338) && sub != 0x21)

/-- A die is excluded at a reset: its bit of 1800.07 as saved, unless the settings-bypass strap is set (R26, R601). -/
def excludedAt (s : State) (d : Nat) : Bool := bit (mget (settings s).values (saveKey none 0x1800 7)) d && !s.strap.getLsbD 3

/-- The DRAM stacks and the CXL port of a die held in reset show that the die is excluded (Tables 14.9, 15.8). -/
def excludedState (s : State) : State :=
  s.each s.present fun d s =>
    let n := fun (code : Nat) (was : Nat) => if (s.die d).held then code else if was = code then 0 else was
    ((s.dset d 0x4310 1 (n 5 (s.dg d 0x4310 1))).dset d 0x4311 1 (n 5 (s.dg d 0x4311 1))).dset d 0x4401 1 (n 6 (s.dg d 0x4401 1))

/-- An image session that a reset ends leaves the staging slot empty; a staged image stays (R577). -/
def fwReset (s : State) : State := if [1, 2].contains (s.pg 0x1501 1) then emptyStaging s else s

/-- The package after a reset (R516): every die reset, the Summit role vacant, Standby or still Locked, the queues, packets
and messages gone, the settings, keys and images those of the boot flash. -/
def resetPackage (s : State) : State :=
  let ended := [1, 2].contains (s.pg 0x1501 1)
  let s := fwReset s
  let kept := s.regs.filter (fun x => keptAtReset x.1)
  let dies := (s.present).foldl (fun m d => mput m d { freshDie s d with held := excludedAt s d }) []
  let s : State := { s with
    dies := dies
    regs := kept.foldl (fun m x => minsert m x.1 x.2) (if ended then minsert (savedRegs s none) (key 0x1501 9) 8 else savedRegs s none)
    meridian := 0, adjust := none, ppsOut := none
    mode := if s.mode = .locked then .locked else .standby
    summit := none, msgs := [], pkts := [], tokenSeq := 0, replies := [], busy := [], waiting := [], bcasts := [], boxes := []
    sessions := [], keys := s.flashKeys, keysDirty := [], unsaved := [], fwSession := none, fwChain := none, fwRelay := none, relayed := [], inbox := [], jdpJobs := [], lastChain := none
    switching := if s.switching = some 2 then some 2 else none, switchBack := none, bootStep := 1, master := {}
    quiesceAt := none, bringupAt := none, bringupRan := 0, leanMs := 0, stale := [], fwDone := none, emptyDue := false, transitFrom := 0, alertBringup := false, alertR43 := false, fatalPin := false
    staging := [], pkgLog := [], logSeq := 0, acked := 0, lastKey := none, resetHold := none, retireAt := none, retireLimit := 0
    unacked := [], attCache := [], msixTab := [], msixPend := [] }
  excludedState (s.pset 0x1800 5 (dieMask ((s.present).filter (fun d => !(s.die d).held))))

/-- A reset that power does not take part in: what is applied and not yet saved is saved first, when the flash can be
reached (R42, R474). -/
def packageReset (s : State) : State := resetPackage (settingsSave s)

/-- Some die is writing its record. -/
def dumping (s : State) : Bool := (s.present).any (fun d => (s.die d).core.writing.isSome)

/-- A reset requested by 1200.08 or RESET_L: held while records are being written (R540). -/
def requestReset (s : State) : State :=
  if dumping s then (if s.resetHold.isSome then s else { s with resetHold := some s.now }) else packageReset s

/-- RESET_HOLD_TIMEOUT (R540): the held reset proceeds. -/
def resetHoldTimeout (s : State) : State :=
  match s.resetHold with
  | none => s
  | some t => if s.now < t + s.pg 0x1402 7 * 1000000 then s else packageReset s

/-- RESET_L_ASSERT (R516, Table 17.2): only a power cycle leaves Locked. -/
def resetLow (s : State) : State :=
  if s.resetLow then s
  else
    let s := { s with resetLow := true }
    if s.mode = .locked then s else requestReset s

/-- RESET_L_RELEASE (R601, R516): the straps are sampled, and the dies they exclude stay in reset. -/
def resetRelease (strap : BitVec 4) (s : State) : State :=
  if !s.resetLow then s
  else
    let s := { s with resetLow := false, strap := strap }
    if s.resetHold.isSome ∨ s.mode = .locked then s
    else
      let s := s.onDies (fun d x => { x with held := excludedAt s d })
      excludedState (s.pset 0x1800 5 (dieMask ((s.present).filter (fun d => !(s.die d).held))))

/-- SELF_CHECK_DONE (R43, R46, Table 17.7): dies 0 and 1 have finished their self-check, with the results given; the
power-up election starts, or ALERT_L tells that neither is a candidate. -/
def selfCheck (ok0 ok1 : Bool) (s : State) : State :=
  if s.bootStep ≠ 1 ∨ s.resetLow ∨ s.mode = .locked then s
  else
    let s := { s with pwrok := true }
    let s := s.onDies (fun d x => { x with core.beacon := { x.core.beacon with
      checked := (if d = 0 then ok0 else if d = 1 then ok1 else true) && !x.held && !x.core.por } })
    let c := ((s.present).filter (fun d => candidate s d))
    if c.isEmpty then { s with alertR43 := true }
    else
      let s := { (s.pinc 0x1800 2 1) with bootStep := 2 }
      s.each c joinElection

/-! ### Boot (R584 to R586, Table 17.7 steps 4 and 5) -/

/-- The settings are unreadable (R586): a Notice, every RWS entry at its default, and the bring-up timeout stands still (R506). -/
def settingsUnread (format : Nat) (s : State) : State :=
  let s := fwNotice 0x905 format s
  let s := { s with regs := reloadRws s none s.regs }
  let s := s.each s.present (fun d s => s.onDie d (fun x => { x with regs := reloadRws s (some d) x.regs }))
  { s with bringupRan := match s.bringupAt with | some t => s.now - t | none => 0 }.pset 0x1503 3 2

/-- The first start of an image (R585, R586): it reads the settings slot of the image before it and adopts the other one,
with the values when the format is in its range and the CRC passes, else empty, the settings being unreadable. -/
def firstStart (crcBad : Bool) (s : State) : State :=
  let s := flashAccess s
  let h := imageHdr (activeImage s)
  let old := settings s
  let o := s.flash.setSlot
  let fit := !crcBad && old.valid && decide (bits h 231 216 ≤ old.format) && decide (old.format ≤ bits h 215 200)
  let new : SettingsSlot := { format := bits h 215 200, values := if fit then old.values else [] }
  let s : State := { s with slots := mput s.slots (1 - o) new, flash := { s.flash with setSlot := 1 - o, oldSet := some o } }
  if fit then s.pset 0x1503 3 1 else settingsUnread old.format s

/-- The staging slot becomes the active slot, and probation begins (R582). -/
def rotateSlots (s : State) : State :=
  let n := otherSlot s
  let old := s.flash.active
  let s := slotState n 3 (slotState old 4 { s with flash := { s.flash with
    active := n, probation := 1, probEnd := s.now + s.pg 0x1500 8 * 10 ^ 9 } })
  let s := fwNotice 0x903 (imageVersion (activeImage s)) s
  ((s.pset 0x1500 0xD 2).pset 0x1501 1 0).pset 0x1501 2 0

/-- The image of the previous slot starts again (R584 case 1, R585): the unconfirmed slot is marked reverted, and the image
finds its own settings slot. -/
def revertSlots (s : State) : State :=
  let n := otherSlot s
  let bad := s.flash.active
  slotState n 3 (slotState bad 5 { s with flash := { s.flash with
    active := n, probation := 0, setSlot := s.flash.oldSet.getD s.flash.setSlot, oldSet := none } })

/-- The registers take the settings in use anew. -/
def adoptSettings (s : State) : State :=
  let s := { s with regs := reloadRws s none s.regs }
  s.each s.present (fun d s => s.onDie d (fun x => { x with regs := reloadRws s (some d) x.regs }))

/-- A staged image is checked again after a reset; the slot of a session that the reset ended is empty (R577). -/
def recheckStaged (s : State) : State :=
  if mget s.flash.state (otherSlot s) = 1 then emptyStaging s
  else if mget s.flash.state (otherSlot s) ≠ 2 then s
  else
    let c := imageCheck s (mget s.flash.images (otherSlot s))
    if c = 0 then s.pset 0x1501 1 3
    else fwNotice 0x902 c (slotState (otherSlot s) 6 ((s.pset 0x1501 1 4).pset 0x1501 0xA c))

/-- The choice of R584: the state with the slot chosen, and whether an image starts. -/
def chooseImage (crcBad : Bool) (s : State) : Bool × State :=
  let c := imageCheck s (activeImage s)
  let o := imageCheck s (mget s.flash.images (otherSlot s))
  let bad := fun (s : State) => s.pset 0x1501 0xA (if o = 0 then c else o)
  if s.strap.getLsbD 0 then (false, fwNotice 0x906 0xFF s)
  else if s.switching = some 2 then (true, firstStart crcBad (rotateSlots { s with switching := none }))
  else if s.flash.probation = 1 ∨ s.flash.probation = 2 then (true, adoptSettings (revertSlots s))
  else if c = 0 then (true, s)
  else if o = 0 then
    let n := otherSlot s
    (true, fwNotice 0x906 n (slotState n 3 (slotState s.flash.active 6 { bad s with flash := { (bad s).flash with active := n } })))
  else (false, fwNotice 0x906 0xFF (bad s))

/-- BOOT_IMAGE_READ_DONE (R584, Table 17.7): the image is chosen, the master microcode is its, and the part enters Bring-up
or stays in Standby. `crcBad`: the CRC of the settings slot fails. bootStep 5 says that no image runs. -/
def bootDone (crcBad : Bool) (s : State) : State :=
  if s.bootStep ≠ 3 ∨ (flashAgent s).isNone then s
  else
    let (ok, s) := chooseImage crcBad s
    if !ok then recheckStaged { s with bootStep := 5 }
    else
      let s := recheckStaged { s with bootStep := 4, master := imageUcode (activeImage s) }
      if s.mode = .standby ∧ s.pg 0x1200 3 = 1 ∧ !s.strap.getLsbD 3 then enterBringup s else s

/-! ### Die reset (R54, R507) -/

/-- A die is reset while the others go on: it runs Bring-up and rejoins. It is not healthy until it is forwarding-ready
(R54). Fenced saddles stay fenced (R36), and the beacon stays out of use (R51). -/
def dieReset (d : Nat) (s : State) : State :=
  let s := homeLost d (noAck d s)
  let fenced := (List.range 4).filter (fun k => s.saddleState d k == 5)
  let causes := (List.range 4).map (fun k => s.dg d (0x4210 + k) 5)
  let s := s.each (List.range 4) (saddleClear d)
  let lost := (s.die d).lost &&& ~~~(0x182C : BitVec 32)
  let s := [2, 3, 5, 11, 12].foldl (fun s b => clearLost d b s) s
  let s := s.onDie d (fun _ => { freshDie s d with regs := heldRegs s (some d), own := if s.mode = .standby then none else some .bringup, lost := lost, core.beacon := { checked := true, faulty := (beacon s d).faulty, found := (beacon s d).found } })
  let s := epochTake d ((s.pset 0x1800 5 (setBit (s.pg 0x1800 5) d false)).pset 0x1800 6 (setBit (s.pg 0x1800 6) d false))
  let s := dropDie d s
  let s := s.each (List.range 4) fun k s =>
    if fenced.contains k then (s.dset d (0x4210 + k) 1 5).dset d (0x4210 + k) 5 (causes.getD k 0)
    else match s.nbr d k with
      | some n => if s.saddleState n (opposite k) = 5 then (s.dset d (0x4210 + k) 1 5).dset d (0x4210 + k) 5 (s.dg n (0x4210 + opposite k) 5)
                  else saddleSet d k 1 0 s
      | none => s
  let s := s.each (List.range 80) (fun n s => s.pset (0x1310 + d) n 0)
  let s := ((s.pset (0x1410 + d) 1 0).pset (0x1410 + d) 2 0).pset 0x1203 d 0
  ringsCheck (topology (powerUp d (parkForced d (leaveOffice d s))))

/-- DIE_REJOIN (R54, R533): the dies named are reset once their dumps are collected; a die whose record is in progress is BUSY. -/
def dieRejoin (v : Nat) (s : State) : Nat × State :=
  let ds := (List.range 32).filter (bit v)
  if ds.any (fun d => !s.has d) then (0x13, s)
  else match s.summit with
    | none => (0x17, s)
    | some m =>
      if ds.any (dumpBusy s) then (0x11, s)
      else if ds.any (fun d => d != m && !s.linked m d) then (0x12, s)
      else (0, s.each ds fun d s =>
        let s := s.onDie d (fun x => { x with core.rejoin := true })
        startDump d { time := s.time80On d } s.mode (s.dieMode d) s)

/-- CAIRN_COMPLETE (R535, R540): the record of a die is whole; a die reset or a package reset that waits for it goes on. A dump
write waits while a page of its region migrates (R308), and one whose path to the host has gone is held again (R534).
`bad` names sections with read errors, `atts` the ATT entries read for host memory. -/
def cairnComplete (d : Nat) (bad : List (Nat × Nat)) (atts : List (Nat × BitVec 64)) (s : State) : State :=
  match (s.die d).core.writing with
  | none => s
  | some c =>
    let e := s.pg 0x1402 6
    if c.dest < 2 ∧ (!cxlReady s d ∨ (List.range (s.dg d 0x4410 6)).any (fun p => (mapEntry s d (pageNo 4 p)).state == 2)) then s
    else if c.dest = 2 ∧ !hostPath s d then (s.onDie d (fun x => { x with core.writing := none, core.heldDump := some c })).pset (0x1410 + d) 3 3
    else if c.dest = 2 ∧ (attFault s e atts true (s.pg 0x1402 4 + d * (s.pg 0x1402 5 / 8)) (cairnSpace s d 2)).isSome then
      let s := s.pinc (0x1120 + e) 8 1
      (s.onDie d (fun x => { x with core.writing := none, core.heldDump := some c })).pset (0x1410 + d) 3 3
    else
      let s := cairnStore d bad atts c s
      let s := if (s.die d).core.rejoin then dieReset d s else s
      if s.resetHold.isSome ∧ !dumping s then packageReset s else s

/-! ### Power (R593, R594) -/

/-- A die in power-on reset has lost all it held but what its expander holds. The saddles that are fenced stay so, and the
beacon out of use, until the next package reset (R36, R51). -/
def dieLost (d : Nat) (s : State) : State :=
  let s := homeLost d (noAck d s)
  let s := s.each (List.range 4) (saddleClear d)
  let fenced := (List.range 4).filterMap (fun k => if s.saddleState d k = 5 then some (k, s.dg d (0x4210 + k) 5) else none)
  let s := s.onDie d (fun x => { freshDie s d with
    held := x.held, core.por := true, core.tap := {}, core.beacon := { faulty := x.core.beacon.faulty, found := x.core.beacon.found } })
  let s := (epochTake d s).each fenced (fun f s => (s.dset d (0x4210 + f.1) 1 5).dset d (0x4210 + f.1) 5 f.2)
  let s := ringsCheck (topology (leaveOffice d (dropDie d s)))
  let s := s.each (List.range 80) (fun n s => s.pset (0x1310 + d) n 0)
  ((s.pset (0x1410 + d) 1 0).pset (0x1410 + d) 2 0).pset 0x1203 d 0

/-- POWER_ON_RESET (R593): VIN has fallen, on every die, or one die's VAON. No record is written, and what is not saved is
lost; the counts that run from power-up start again. -/
def powerOnReset (d : Nat) (vin : Bool) (s : State) : State :=
  if vin then
    let s := resetPackage s
    let s := s.onDies (fun _ x => { x with core.por := true, core.tap := {} })
    let s := (s.pset 0x1800 2 0).pset 0x1402 8 0
    { s with vinDown := some s.now, pwrok := false, alertHi := false, alertLo := false, saidHi := false, saidLo := false, therm := false, vinHigh := none, vinLow := none, vinNotHi := none, vinNotLo := none }
  else if (s.die d).core.por then s else dieLost d s

/-- POWER_ON_RESET_RELEASE (R593): the always-on domain of a die leaves power-on reset; a fall of VIN of at least 10 ms was a
power cycle, and only that leaves Locked. -/
def powerOnRelease (d : Nat) (s : State) : State :=
  if !(s.die d).core.por then s
  else
    let s := s.onDie d (fun x => { x with core.por := false })
    let cycle : Bool := match s.vinDown with
      | some t => decide (t + 10000000 ≤ s.now)
      | none => false
    if (s.present).any (fun x => (s.die x).core.por) then s
    else { s with vinDown := none, mode := if s.mode = .locked ∧ cycle then .standby else s.mode }

/-- PWROK_LOW (R594): every die switches its domains off and enters reset; no record is written, and no reset is held. -/
def pwrokLow (s : State) : State :=
  let s := { s with pwrok := false }
  if s.resetLow then s else resetPackage s

/-- RESET_HOLD_TIMEOUT. -/
def execResetHoldTimeout (s : State) : Host.Outcome State Fault Refusal := .next (resetHoldTimeout s)
/-- RESET_L_ASSERT. -/
def execResetLAssert (s : State) : Host.Outcome State Fault Refusal := .next (resetLow s)
/-- RESET_L_RELEASE with the straps. -/
def execResetLRelease (strap : BitVec 4) (s : State) : Host.Outcome State Fault Refusal := .next (resetRelease strap s)
/-- SELF_CHECK_DONE with the results of dies 0 and 1. -/
def execSelfCheckDone (ok0 ok1 : Bool) (s : State) : Host.Outcome State Fault Refusal := .next (selfCheck ok0 ok1 s)
/-- BOOT_IMAGE_READ_DONE. -/
def execBootImageReadDone (crcBad : Bool) (s : State) : Host.Outcome State Fault Refusal := .next (bootDone crcBad s)
/-- CAIRN_COMPLETE at a die. -/
def execCairnComplete (d : DieId) (bad : List (Nat × Nat)) (atts : List (Nat × BitVec 64)) (s : State) : Host.Outcome State Fault Refusal :=
  onPresent d (cairnComplete d bad atts) s
/-- POWER_ON_RESET of a die, or of every die by VIN. -/
def execPowerOnReset (d : DieId) (vin : Bool) (s : State) : Host.Outcome State Fault Refusal := onPresent d (powerOnReset d vin) s
/-- POWER_ON_RESET_RELEASE of a die. -/
def execPowerOnResetRelease (d : DieId) (s : State) : Host.Outcome State Fault Refusal := onPresent d (powerOnRelease d) s
/-- PWROK_LOW. -/
def execPwrokLow (s : State) : Host.Outcome State Fault Refusal := .next (pwrokLow s)

end Sys2Proof.Machine
end

