-- ==== Sys2Proof/Machine/Link.lean ====
section
/-! DEFINITION. JDP messages on the management chain: their bytes, their tags, and the frames the management relay sends
(The Object Dictionary and JDP). -/

namespace Sys2Proof.Machine

/-! ### Messages (Table 16.9, R490) -/

/-- The 256 header bits of a message. -/
def jdpHeader (m : JdpMsg) : Nat :=
  m.version % 16 <<< 252 ||| m.msgType % 16 <<< 248 ||| m.addrMode % 4 <<< 246 ||| m.hops % 64 <<< 240 ||| m.target % 2 ^ 16 <<< 224 |||
    m.source % 2 ^ 16 <<< 208 ||| m.session % 2 ^ 16 <<< 192 ||| m.sequence % 2 ^ 32 <<< 160 ||| m.payload.length % 2 ^ 16 <<< 144 |||
    m.status % 256 <<< 136 ||| m.count % 256 <<< 128 ||| m.tag % 2 ^ 128

/-- The bytes of a message. -/
def msgBytes (m : JdpMsg) : Bytes := toBytes 32 (jdpHeader m) ++ m.payload

/-- The message that bytes hold, its payload being what follows the header. -/
def jdpParse (b : Bytes) : JdpMsg :=
  let h := beNat (b.take 32)
  { version := bits h 255 252, msgType := bits h 251 248, addrMode := bits h 247 246, hops := bits h 245 240, target := bits h 239 224
    source := bits h 223 208, session := bits h 207 192, sequence := bits h 191 160, status := bits h 143 136, count := bits h 135 128
    tag := bits h 127 0, payload := b.drop 32 }

/-- payload_len of the header that bytes begin with. -/
def jdpPayloadLen (b : Bytes) : Nat := bits (beNat (b.take 32)) 159 144

/-- The tag of a message under a key (R490): tag and hops count as 0. -/
def jdpTag (key : Bytes) (m : JdpMsg) : Nat := beNat ((hmacSha256 key (msgBytes { m with tag := 0, hops := 0 })).take 16)

/-- A message with its tag. -/
def jdpSigned (key : Bytes) (m : JdpMsg) : JdpMsg := { m with tag := jdpTag key m }

/-! ### Frames (R487) -/

/-- Sum of 16-bit big-endian words, an odd last byte padded with 0. -/
def wordSum : Bytes → Nat
  | [] => 0
  | [a] => a.toNat * 256
  | a :: b :: r => a.toNat * 256 + b.toNat + wordSum r

/-- The IPv4 header checksum of header bytes whose checksum field is 0. -/
def headerSum (b : Bytes) : Nat :=
  let fold := fun (x : Nat) => x % 65536 + x / 65536
  65535 - fold (fold (wordSum b))

/-- A frame the relay originates, without its FCS. -/
def jdpFrame (s : State) (m : JdpMsg) : Bytes :=
  let p := msgBytes m
  let n := p.length
  let a := toBytes 2 (0x4500 + Config.relayTos p % 256) ++ toBytes 2 (28 + n) ++ toBytes 2 (Config.relayId p % 65536) ++
    toBytes 2 (b2n (Config.relayDf p) * 0x4000) ++ toBytes 2 0x0111
  let z := toBytes 4 (s.pg 0x1100 4) ++ toBytes 4 0xFFFFFFFF
  let udp := toBytes 2 (Config.relaySrcPort p % 65536) ++ toBytes 2 (s.pg 0x1100 2) ++ toBytes 2 (8 + n) ++ toBytes 2 0
  toBytes 6 0xFFFFFFFFFFFF ++ toBytesLE 6 (s.pg 0x1100 3) ++ toBytes 2 0x0800 ++ a ++ toBytes 2 (headerSum (a ++ toBytes 2 0 ++ z)) ++ z ++ udp ++ p

/-- The relay runs (R486, R598): VIN is present, and one of the two reference clocks of die 0. -/
def relayRuns (s : State) : Bool := s.vinDown.isNone && !((s.die 0).core.netLost && (s.die 0).core.fabLost)

/-- A management port can carry frames: enabled, its link up, the relay running. -/
def mgmtUp (s : State) (m : Nat) : Bool := s.pg (0x1101 + m) 1 == 1 && s.pg (0x1101 + m) 3 == 1 && relayRuns s

/-- Send a message on a port. -/
def jdpOut (port : Nat) (m : JdpMsg) (s : State) : State :=
  if mgmtUp s port then { s with sent := s.sent ++ [(port, jdpFrame s m)] } else s

/-- Send a response or reply on a port (R488): its source is the device address; it is counted in 1150.06. -/
def jdpReply (port : Nat) (key : Bytes) (m : JdpMsg) (s : State) : State :=
  jdpOut port (jdpSigned key { m with source := s.pg 0x1100 1 }) (s.pinc 0x1150 6 1)

/-- The session key of R491. -/
def sessionKey (slotKey : Bytes) (serial number client device : Nat) : Bytes :=
  hmacSha256 slotKey (toBytes 4 0x4A445031 ++ toBytes 8 serial ++ toBytes 2 number ++ toBytes 16 client ++ toBytes 16 device)

/-- The bytes of a key slot's key. -/
def slotKey (s : State) (k : Nat) : Bytes := toBytesLE 32 (mget s.keys k).key

/-! ### Sessions (R492) -/

/-- The session open under a number from 1 to 16. -/
def sessionOpen (s : State) (n : Nat) : Bool := decide (1 ≤ n) && decide (n ≤ 16) && s.pg (0x1130 + (n - 1)) 1 == 1

/-- What becomes of a sequence number (R492): 0 it is ahead and is executed, 1 it is one of the last four executed, 2 it
is discarded. -/
def seqClass (s : State) (i seq : Nat) : Nat :=
  let d := (seq + 2 ^ 32 - s.pg (0x1130 + i) 4 % 2 ^ 32) % 2 ^ 32
  if 0 < d ∧ d < 2 ^ 31 then 0
  else if ((mget s.sessions i).cached).any (fun c => c.1 == seq) then 1
  else 2

/-- A session accepts a message: its idle time starts anew, and the message's port is its arrival port (R492). -/
def sessionSeen (i port : Nat) (s : State) : State :=
  { s with sessions := mmod s.sessions i (fun x => { x with last := s.now }) }.pset (0x1130 + i) 7 port

/-- A message is accepted in a session: its number, its port and its time are kept. -/
def seqAccept (i seq port : Nat) (s : State) : State := sessionSeen i port (s.pset (0x1130 + i) 4 seq)

/-- The response of an executed request is kept with the last four. -/
def cacheReply (i seq : Nat) (m : JdpMsg) (s : State) : State :=
  { s with sessions := mmod s.sessions i (fun x => { x with cached := (x.cached ++ [(seq, m)]).drop (x.cached.length - 3) }) }

end Sys2Proof.Machine
end

