-- ==== Sys2Proof/Machine/Electrical.lean ====
section
/-! DEFINITION. Rails, VIN, clocks and temperatures (Supply, Clocks, Pins and Package). -/

namespace Sys2Proof.Machine

/-! ### Rails (R590, R591) -/

/-- Undervoltage, overvoltage limit in mV and current limit in mA of a rail (Table 21.1). -/
def railLimits (r : Nat) : Nat × Nat × Nat :=
  match r with
  | 0 => (690, 850, 180000) | 1 => (780, 950, 32000) | 2 => (850, 990, 100000) | 3 => (1130, 1320, 36000)
  | 4 => (1040, 1210, 18000) | 5 => (370, 450, 24000) | 6 => (1700, 1980, 4000) | _ => (740, 880, 2000)

/-- The rail's readings as 1330+d shows them. -/
def railRead (d r mv ma : Nat) (s : State) : State := (s.pset (0x1330 + d) (r + 1) mv).pset (0x1330 + d) (0x11 + r) ma

/-- RAIL_UNDERVOLTAGE (R591, R593): Fatal 0x701; VAON below its limit holds its die in power-on reset instead. -/
def railUnder (d r n mv ma : Nat) (s : State) : State :=
  if (railLimits r).1 ≤ mv ∨ (s.die d).core.por then s
  else
    let s := railRead d r mv ma s
    if r = 7 then powerOnReset d false s else s.report d 0x10 n 4 0x701 mv

/-- RAIL_OVERVOLTAGE (R591): Terminal 0x702. -/
def railOver (d r n mv ma : Nat) (s : State) : State :=
  if mv ≤ (railLimits r).2.1 ∨ (s.die d).core.por then s else (railRead d r mv ma s).report d 0x10 n 5 0x702 mv

/-- RAIL_OVERCURRENT (R591): Terminal 0x703. -/
def railCurrent (d r n mv ma : Nat) (s : State) : State :=
  if ma ≤ (railLimits r).2.2 ∨ (s.die d).core.por then s else (railRead d r mv ma s).report d 0x10 n 5 0x703 mv

/-! ### VIN (R592) -/

/-- When a condition has held from: now when it begins, none while it does not hold. -/
def sinceWhen (held : Option Nat) (c : Bool) (now : Nat) : Option Nat := if c then some (held.getD now) else none

/-- A condition has held for a time in ns. -/
def heldFor (held : Option Nat) (ns now : Nat) : Bool := match held with
  | some t => decide (t + ns ≤ now)
  | none => false

/-- VIN_MEASURE (R592, Table 21.2): the reading of the lowest die index, in mV, and the input power in W. -/
def vinMeasure (mv watts : Nat) (s : State) : State :=
  if (s.present).all (fun d => (s.die d).core.por) then s
  else
    let s := (s.pset 0x1300 3 mv).pset 0x1300 4 watts
    if mv < 9000 then powerOnReset 0 true s
    else
      let hi : Bool := decide (13200 < mv)
      let lo : Bool := decide (mv < 10800)
      let s : State := { s with
        vinHigh := sinceWhen s.vinHigh hi s.now, vinLow := sinceWhen s.vinLow lo s.now
        vinNotHi := sinceWhen s.vinNotHi (!hi) s.now, vinNotLo := sinceWhen s.vinNotLo (!lo) s.now
        saidHi := s.saidHi && hi, saidLo := s.saidLo && lo }
      let s := if heldFor s.vinNotHi 1000000 s.now then { s with alertHi := false } else s
      let s := if heldFor s.vinNotLo 1000000 s.now then { s with alertLo := false } else s
      if 14000 < mv then s.report 0 0x10 0xFF 5 0x702 mv
      else if hi && !s.saidHi && heldFor s.vinHigh 100000 s.now then
        { s with saidHi := true, alertHi := true }.report 0 0x10 0xFF 1 0x705 mv
      else if lo && !s.saidLo && heldFor s.vinLow 100000 s.now then
        { s with saidLo := true, alertLo := true }.report 0 0x10 0xFF 1 0x704 mv
      else s

/-! ### Clocks (R363, R508, R598) -/

/-- The temperature that a fault of a die's clocks carries (Table 18.2): the last reading of its hottest sensor (log entry 152). -/
def dieTemp (s : State) (d : Nat) : Nat := s.pg (0x1330 + d) 0x20

/-- TIMECLK_LOST (R363, Table 21.7): Meridian holds over when it was locked. -/
def timeclkLost (s : State) : State :=
  if s.pg 0x1600 5 = 2 then s
  else
    let s := if s.pg 0x1600 5 = 1 then s.pset 0x1600 5 2 else s
    s.report (s.summit.getD 0) 0x11 0 1 0x784 (dieTemp s (s.summit.getD 0))

/-- TIMECLK_LOCK (R363). -/
def timeclkLock (s : State) : State := s.pset 0x1600 5 1

/-- REFCLK_NET_LOST (Table 21.7): the die's ports go down; on die 0 the management relay takes REFCLK_FAB. -/
def refNetLost (d : Nat) (s : State) : State :=
  if (s.die d).core.netLost then s
  else
    let s := s.onDie d (fun x => { x with core.netLost := true })
    let s := portsDown d s
    let s := if d = 0 then { s with relayRefFab := true } else s
    s.report d 0x11 0 1 0x785 (dieTemp s d)

/-- REFCLK_NET_RETURN. -/
def refNetReturn (d : Nat) (s : State) : State :=
  let s := s.onDie d (fun x => { x with core.netLost := false })
  if d = 0 then { s with relayRefFab := false } else s

/-- REFCLK_FAB_LOST (Table 21.7): Degrade 0x786; the die's links go down for want of lock (R408) and its saddles are fenced. -/
def refFabLost (d : Nat) (s : State) : State :=
  if (s.die d).core.fabLost then s
  else
    let s := s.onDie d (fun x => { x with core.fabLost := true })
    let s := s.report d 0x11 0 3 0x786 (dieTemp s d)
    (s.each (List.range 4) (fun k s => fenceSaddle d k 3 s)).each (List.range 32) (fun l s => linkDown d l 2 s)

/-- REFCLK_FAB_RETURN (R508): lost-unit bit 10 clears. -/
def refFabReturn (d : Nat) (s : State) : State :=
  reviewMode (clearLost d 10 (s.onDie d (fun x => { x with core.fabLost := false })))

/-- REFCLK_PCI_LOST (Table 21.7): the CXL port goes down with cause 1 and `inFlight` writes that have no completion, and an endpoint's link
drops. -/
def refPciLost (d inFlight : Nat) (s : State) : State :=
  let s := cxlDown d 1 inFlight (s.onDie d (fun x => { x with core.pciLost := true }))
  if d < 2 ∧ s.pg (0x1120 + d) 1 = 1 then endpointRestart d 0 1 s else s

/-! ### Temperature (R600) -/

/-- The highest of the sensor readings, in 0.1 °C. -/
def hottest (l : List Int) : Int := l.foldl max (-(2 ^ 31 : Int))

/-- A two's complement 32-bit word of a reading. -/
def s32word (x : Int) : Nat := (x % 2 ^ 32).toNat

/-- THERMAL_SENSOR_READ (R600): the 16 sensors of a die are read, in 0.1 °C, with the die's power in W. The trip is
recorded before an assertion of THERM_L. -/
def thermalRead (d : Nat) (l : List Int) (watts : Nat) (s : State) : State :=
  if (s.die d).core.por ∨ l.isEmpty then s
  else
    let t := hottest l
    let sens := ((List.range l.length).find? (fun i => l.getD i 0 == t)).getD 0
    let peak := if (s.die d).core.peakRead then max t (s32 (s.pg (0x1330 + d) 0x21)) else t
    let s := ((s.pset (0x1330 + d) 0x20 (s32word t)).pset (0x1330 + d) 0x21 (s32word peak)).pset (0x1330 + d) 0x22 watts
    let warn : Int := 10 * s.pg 0x1300 6
    let s := if 1150 ≤ t then s.report d 0x11 sens 5 0x781 (s32word t) else s
    let s := if 1050 < t ∧ !(s.die d).core.hot then s.report d 0x11 sens 1 0x783 (s32word t) else s
    let s := s.onDie d (fun x => { x with core.hot := decide (1050 < t), core.peakRead := true })
    if !s.therm && decide (warn ≤ t) then { s with therm := true }.report d 0x11 sens 1 0x782 (s32word t)
    else if s.therm && (s.present).all (fun x => decide (s32 (s.pg (0x1330 + x) 0x20) ≤ warn - 50)) then { s with therm := false }
    else s

/-- RAIL_UNDERVOLTAGE of a rail (Table 21.1 order) in a power domain, with its readings in mV and mA. -/
def execRailUndervoltage (d : DieId) (r : Fin 8) (n : Fin 80) (mv : BitVec 16) (ma : BitVec 32) (s : State) : Host.Outcome State Fault Refusal :=
  onPresent d (railUnder d r n mv.toNat ma.toNat) s
/-- RAIL_OVERVOLTAGE. -/
def execRailOvervoltage (d : DieId) (r : Fin 8) (n : Fin 80) (mv : BitVec 16) (ma : BitVec 32) (s : State) : Host.Outcome State Fault Refusal :=
  onPresent d (railOver d r n mv.toNat ma.toNat) s
/-- RAIL_OVERCURRENT. -/
def execRailOvercurrent (d : DieId) (r : Fin 8) (n : Fin 80) (mv : BitVec 16) (ma : BitVec 32) (s : State) : Host.Outcome State Fault Refusal :=
  onPresent d (railCurrent d r n mv.toNat ma.toNat) s
/-- VIN_MEASURE. -/
def execVinMeasure (mv watts : BitVec 16) (s : State) : Host.Outcome State Fault Refusal := .next (vinMeasure mv.toNat watts.toNat s)
/-- TIMECLK_LOST. -/
def execTimeclkLost (s : State) : Host.Outcome State Fault Refusal := .next (timeclkLost s)
/-- TIMECLK_LOCK. -/
def execTimeclkLock (s : State) : Host.Outcome State Fault Refusal := .next (timeclkLock s)
/-- REFCLK_NET_LOST on a die. -/
def execRefclkNetLost (d : DieId) (s : State) : Host.Outcome State Fault Refusal := onPresent d (refNetLost d) s
/-- REFCLK_NET_RETURN on a die. -/
def execRefclkNetReturn (d : DieId) (s : State) : Host.Outcome State Fault Refusal := onPresent d (refNetReturn d) s
/-- REFCLK_FAB_LOST on a die. -/
def execRefclkFabLost (d : DieId) (s : State) : Host.Outcome State Fault Refusal := onPresent d (refFabLost d) s
/-- REFCLK_FAB_RETURN on a die. -/
def execRefclkFabReturn (d : DieId) (s : State) : Host.Outcome State Fault Refusal := onPresent d (refFabReturn d) s
/-- REFCLK_PCI_LOST on a die. -/
def execRefclkPciLost (d : DieId) (inFlight : Fin 4097) (s : State) : Host.Outcome State Fault Refusal :=
  onPresent d (refPciLost d inFlight) s
/-- THERMAL_SENSOR_READ of a die. -/
def execThermalSensorRead (d : DieId) (l : List Int) (watts : BitVec 16) (s : State) : Host.Outcome State Fault Refusal :=
  onPresent d (thermalRead d l watts.toNat) s

end Sys2Proof.Machine
end

