-- ==== Sys2Proof/Machine/Firmware.lean ====
section
/-! DEFINITION. Itesh deltas, staging sessions, relays along the chain, activation, probation and reverting (Firmware Update
over the Chain). -/

namespace Sys2Proof.Machine

/-! ### The delta (R571 to R573) -/

/-- block_count of an Itesh header (Table 20.3). -/
def itBlocks (h : Nat) : Nat := bits h 287 256

/-- delta_length. -/
def itLength (h : Nat) : Nat := bits h 255 224

/-- base_version. -/
def itBase (h : Nat) : Nat := bits h 95 64

/-- A header is accepted (R574): header_crc, magic, format_version, and its lengths. -/
def headerGood (h : Nat) : Bool :=
  bits h 31 0 == asciiVal "ITSH" && bits h 39 32 == 1 &&
    bits h 319 288 == crc32c (toBytesLE 128 (h - bits h 319 288 * 2 ^ 288)) &&
    decide (1 ≤ itLength h) && decide (itLength h ≤ 67108864) && itBlocks h == ceilDiv (itLength h) 1024

/-- The bytes of the active image. -/
def activeBytes (s : State) : Bytes := (activeImage s).take (bits (imageHdr (activeImage s)) 159 128)

/-- The delta names this part. -/
def partFits (s : State) (h : Nat) : Bool := bit (bits h 47 40) (partBit s.part)

/-- The base of the delta is the active image, or it has none; without an image only the latter counts (R573, R584). -/
def baseFits (s : State) (h : Nat) : Bool :=
  itBase h == 0 || (s.bootStep != 5 && itBase h == imageVersion (activeImage s) && bits h 159 128 == crc32c (activeBytes s))

/-- The operations of Table 20.4 over a body; none when it is malformed (R572). `n` bounds their number. -/
def deltaRun (base : Bytes) (full : Bool) : Nat → Bytes → Option Bytes
  | 0, _ => none
  | _ + 1, [] => none
  | n + 1, op :: r =>
    let a := leNat (r.take 4)
    let b := leNat ((r.drop 4).take 4)
    if op = 0 then (if r.isEmpty then some [] else none)
    else if op = 1 then
      if full ∨ r.length < 8 ∨ base.length < a + b then none
      else (deltaRun base full n (r.drop 8)).map (((base.drop a).take b) ++ ·)
    else if op = 2 then
      if r.length < 4 + a then none else (deltaRun base full n (r.drop (4 + a))).map (((r.drop 4).take a) ++ ·)
    else if op = 3 then
      if r.length < 5 then none else (deltaRun base full n (r.drop 5)).map (List.replicate a (r.getD 4 0) ++ ·)
    else none

/-- The image a delta builds, when its body is well formed and of target_length. -/
def deltaImage (s : State) (h : Nat) (body : Bytes) : Option Bytes :=
  match deltaRun (activeBytes s) (itBase h == 0) (body.length + 1) body with
  | some img => if body.length = itLength h ∧ img.length = bits h 223 192 then some img else none
  | none => none

/-! ### Messages and STATUS (R578, R579) -/

/-- The image head of Table 20.6. -/
def imageHead (transfer block crc status disp : Nat) (chain abort : Bool) (len : Nat) : Bytes :=
  toBytes 16 (transfer <<< 96 ||| block <<< 64 ||| crc <<< 32 ||| status <<< 24 ||| disp <<< 20 ||| b2n chain <<< 19 ||| b2n abort <<< 18 ||| len)

/-- A STATUS message in a session, its sequence that of the message it answers. -/
def statusMsg (s : State) (i : Nat) (chain : Bool) (transfer next status disp : Nat) : JdpMsg :=
  { msgType := 11, addrMode := if chain then 1 else 0, session := i + 1, sequence := s.pg (0x1130 + i) 4
    payload := imageHead transfer next 0 status disp false false 0 }

/-- Send a STATUS in a session and keep it as the response of the message it answers. -/
def sendStatus (i port : Nat) (chain : Bool) (transfer next status disp : Nat) (s : State) : State :=
  if s.pg (0x1130 + i) 1 ≠ 1 then s
  else
    let m := statusMsg s i chain transfer next status disp
    jdpReply port (mget s.sessions i).key m (cacheReply i m.sequence m s)

/-- STATUS of an image session that JDP delivers. -/
def fwStatus (f : FwSession) (status disp : Nat) (s : State) : State :=
  if f.owner < 16 then s else sendStatus (f.owner - 16) f.port f.chain f.transfer f.next status disp s

/-! ### The staging slot (R574 to R577) -/

/-- The staging slot is owned, holds the previous image of a probation, or is being activated (R575). -/
def stagingBusy (s : State) : Bool :=
  [1, 2].contains (s.pg 0x1501 1) || s.flash.probation == 1 || s.flash.probation == 2 || s.switching.isSome

/-- A header accepted for applying begins a session. -/
def beginSession (h : Nat) (chain : Bool) (owner port transfer src : Nat) (s : State) : State :=
  let s := slotState (otherSlot s) 1 (emptyStaging s)
  let s := (((((s.pset 0x1501 1 1).pset 0x1501 2 src).pset 0x1501 3 transfer).pset 0x1501 4 0).pset 0x1501 9 0).pset 0x1501 0xA 0
  { s with fwSession := some { hdr := h, chain := chain, apply := true, owner := owner, port := port, transfer := transfer, last := s.now } }

/-- A session in Receiving or Checking ends without an image (Table 20.5). -/
def abortSession (s : State) : State :=
  match s.fwSession with
  | none => s
  | some f =>
    let s := fwStatus f 0 8 s
    ({ emptyStaging s with fwSession := none }.pset 0x1501 1 0).pset 0x1501 9 8

/-- host_offer (R574, R575): the status and the effect. -/
def hostOffer (r h : Nat) (s : State) : Nat × State :=
  if !headerGood h || !partFits s h || !baseFits s h then (0x13, s)
  else if (flashAgent s).isNone then (0x12, s)
  else if stagingBusy s then (0x11, s.pinc 0x1502 7 1)
  else (0, beginSession h false r 0 0 1 s)

/-- What a receiver makes of a block (R579): 0 accepted, 1 acknowledged again, 2 its CRC fails, 3 discarded. `room` tells
whether the relay can take one more. -/
def blockKind (f : FwSession) (n crc : Nat) (bytes : Bytes) (room : Bool) : Nat :=
  let last := itBlocks f.hdr - 1
  let want := if n = last then itLength f.hdr - 1024 * last else 1024
  if crc ≠ crc32c bytes then 2
  else if n < f.next then 1
  else if n = f.next ∧ n ≤ last ∧ bytes.length = want ∧ room then 0
  else 3

/-- A block whose CRC failed is counted and reported. -/
def blockBad (n : Nat) (s : State) : State := fwNotice 0x901 n (s.pinc 0x1502 5 1)

/-- The session after an accepted block. -/
def blockTaken (f : FwSession) (bytes : Bytes) (now : Nat) : FwSession :=
  { f with
    next := f.next + 1, body := if f.apply then f.body ++ bytes else f.body, last := now
    cover := f.cover + 1, coverAt := if f.cover = 0 then now else f.coverAt }

/-- host_block (R579): the status and the effect. -/
def hostBlock (v : Nat) (s : State) : Nat × State :=
  match s.fwSession with
  | none => (0x16, s)
  | some f =>
    if s.pg 0x1501 1 ≠ 1 ∨ s.pg 0x1501 2 ≠ 1 then (0x16, s)
    else if (flashAgent s).isNone then (0x12, s)
    else
      let n := bits v 8255 8224
      let last := itBlocks f.hdr - 1
      let want := if n = last then itLength f.hdr - 1024 * last else 1024
      let bytes := (toBytesLE 1024 (v % 2 ^ 8192)).take want
      match blockKind f n (bits v 8223 8192) bytes true with
      | 0 =>
        let s := flashAccess s
        (0, { s with fwSession := some { blockTaken f bytes s.now with cover := 0 } }.pset 0x1501 4 (s.pg 0x1501 4 + 1))
      | 1 => (0, s)
      | 2 => (0x13, blockBad n s)
      | _ => (0x13, s)

/-- The last block has been applied and END received: the image is checked (Table 20.5). -/
def beginCheck (s : State) : State := s.pset 0x1501 1 2

/-- host_end (R577): the status and the effect. -/
def hostEnd (s : State) : Nat × State :=
  match s.fwSession with
  | none => (0x16, s)
  | some f =>
    if s.pg 0x1501 1 ≠ 1 ∨ s.pg 0x1501 2 ≠ 1 ∨ f.next ≠ itBlocks f.hdr then (0x16, s)
    else (0, beginCheck s)

/-- STAGING_CHECK_DONE (R577, Table 20.5): the image built is checked against target_crc and under R569. -/
def checkDone (s : State) : State :=
  match s.fwSession with
  | none => s
  | some f =>
    if s.pg 0x1501 1 ≠ 2 ∨ (flashAgent s).isNone then s
    else
      let img := deltaImage s f.hdr f.body
      let c := match img with
        | none => 9
        | some i => if crc32c i ≠ bits f.hdr 191 160 then 8 else imageCheck s i
      let s := flashAccess { s with fwSession := none }
      let k := otherSlot s
      if c = 0 then
        let s := slotState k 2 { s with flash := { s.flash with images := mput s.flash.images k (img.getD []), target := bits f.hdr 127 96 } }
        fwStatus f 0 6 ((s.pset 0x1501 1 3).pset 0x1501 9 6)
      else
        let s := slotState k 6 s
        fwNotice 0x902 c (fwStatus f 0 7 (((s.pset 0x1501 1 4).pset 0x1501 9 7).pset 0x1501 0xA c))

/-! ### The relay (R580) -/

/-- The relay ends with a state of 1502.03. -/
def relayStop (code : Nat) (s : State) : State := { s with fwRelay := none }.pset 0x1502 3 code

/-- Send an image message downstream in the relay's session. -/
def relaySend (ty : Nat) (payload : Bytes) (s : State) : State :=
  match s.fwRelay with
  | none => s
  | some r =>
    let m : JdpMsg := { msgType := ty, addrMode := 1, source := s.pg 0x1100 1, session := r.session, sequence := r.seq + 1, payload := payload }
    jdpOut r.port (jdpSigned r.key m) { s with fwRelay := some { r with seq := r.seq + 1 } }

/-- Open the session downstream: OPEN with the relay's key slot and a fresh nonce. -/
def relayOpen (s : State) : State :=
  match s.fwRelay with
  | none => s
  | some r =>
    let k := s.pg 0x1502 2
    let (v, s) := s.fresh
    let nonce := v % 2 ^ 128
    let m : JdpMsg := { msgType := 3, addrMode := 1, source := s.pg 0x1100 1, payload := toBytes 1 k ++ toBytes 3 0 ++ toBytes 16 nonce }
    jdpOut r.port (jdpSigned (slotKey s k) m) { s with fwRelay := some { r with nonce := nonce, opens := r.opens + 1, at_ := s.now } }

/-- A chain OFFER accepted on a port starts the relay on the opposite port. -/
def relayStart (transfer arrival h : Nat) (s : State) : State :=
  let s := s.pset 0x1502 4 transfer
  if !mgmtUp s (1 - arrival) then s.pset 0x1502 3 2
  else relayOpen ({ s with fwRelay := some { transfer := transfer, port := 1 - arrival, hdr := h } }.pset 0x1502 3 1)

/-- Send a block downstream. -/
def relayBlockOut (n : Nat) (b : Bytes) (s : State) : State :=
  match s.fwRelay with
  | none => s
  | some r => relaySend 10 (imageHead r.transfer n (crc32c b) 0 0 false false b.length ++ b) s

/-- The blocks held and not yet sent go downstream, when the session is open. -/
def relayPump (s : State) : State :=
  match s.fwRelay with
  | none => s
  | some r =>
    if r.step ≠ 2 then s
    else
      let new := (List.range r.blocks.length).filter (fun i => decide (r.sent ≤ i))
      let s := s.each new (fun i s => (relayBlockOut (r.base + i) (r.blocks.getD i []) s).pinc 0x1502 6 1)
      { s with fwRelay := s.fwRelay.map (fun x => { x with sent := r.blocks.length }) }

/-- END goes downstream once the last block is acknowledged, and the relay is done. -/
def relayFinish (s : State) : State :=
  match s.fwRelay with
  | none => s
  | some r =>
    if r.ended ∧ r.step = 2 ∧ r.blocks.isEmpty ∧ r.base = itBlocks r.hdr then
      let s := relaySend 12 (imageHead r.transfer (itBlocks r.hdr) 0 0 0 false false 0) s
      relayStop 3 { s with fwDone := s.fwRelay }
    else s

/-- A block that has passed its check is held for the device downstream. -/
def relayTake (transfer : Nat) (b : Bytes) (s : State) : State :=
  match s.fwRelay with
  | none => s
  | some r =>
    if r.transfer ≠ transfer then s
    else relayPump { s with fwRelay := some { r with blocks := r.blocks ++ [b], at_ := if r.blocks.isEmpty then s.now else r.at_ } }

/-- The relay can hold one more block (at most 32, R580). -/
def relayRoom (s : State) (transfer : Nat) : Bool :=
  match s.fwRelay with
  | none => true
  | some r => decide (r.transfer ≠ transfer) || decide (r.blocks.length < 32)

/-- The abort of a transfer whose END has gone downstream follows it there (R576). -/
def relayLate (transfer : Nat) (s : State) : State :=
  match s.fwDone with
  | none => s
  | some r =>
    if r.transfer ≠ transfer then s
    else { relaySend 12 (imageHead r.transfer (itBlocks r.hdr) 0 0 0 false true 0) { s with fwRelay := some r } with fwRelay := none, fwDone := none }

/-- The transfer is aborted downstream, and the relay ends. -/
def relayAbort (s : State) : State :=
  match s.fwRelay with
  | none => s
  | some r => relayStop 4 (if r.step = 2 then relaySend 12 (imageHead r.transfer (itBlocks r.hdr) 0 0 0 false true 0) s else s)

/-- OPEN_REPLY (R491, R580): the session downstream is open, and the OFFER goes out. `serial` is the package serial number
of the device downstream. -/
def relayOpened (port serial : Nat) (m : JdpMsg) (s : State) : State :=
  match s.fwRelay with
  | none => s
  | some r =>
    let key := sessionKey (slotKey s (s.pg 0x1502 2)) serial m.session r.nonce (beNat ((m.payload.drop 4).take 16))
    if r.step ≠ 0 ∨ r.port ≠ port ∨ (m.payload.getD 0 1).toNat ≠ 0 ∨ m.session = 0 then s
    else if jdpTag key m ≠ m.tag then s.pinc 0x1150 1 1
    else
      let s := { s with fwRelay := some { r with step := 2, key := key, session := m.session, at_ := s.now } }
      relayPump (relaySend 9 (imageHead r.transfer (itBlocks r.hdr) 0 0 0 true false 0 ++ toBytesLE 128 r.hdr) s)

/-- STATUS from downstream (R579, R580): acknowledged blocks are freed; disposition 4 or 5 ends the relay. -/
def relayStatus (next disp : Nat) (s : State) : State :=
  match s.fwRelay with
  | none => s
  | some r =>
    if disp = 4 ∨ disp = 5 then relayStop 4 s
    else
      let n := min (next - r.base) r.blocks.length
      let r := { r with blocks := r.blocks.drop n, base := r.base + n, sent := r.sent - n
                        resends := if 0 < n then 0 else r.resends, at_ := if 0 < n then s.now else r.at_ }
      relayFinish (relayPump { s with fwRelay := some r })

/-- RELAY_OPEN_RETRY (R580): an OPEN unanswered for 1 ms goes out again, at most three times. -/
def openRetry (s : State) : State :=
  match s.fwRelay with
  | none => s
  | some r =>
    if r.step ≠ 0 ∨ s.now < r.at_ + 1000000 then s
    else if r.opens < 3 then relayOpen s
    else relayStop 2 s

/-- BLOCK_RESEND_TIMEOUT (R579): no progress for 1 ms; the blocks go again from the first one not acknowledged, and after
16 such resends the transfer is aborted. -/
def resendTimeout (s : State) : State :=
  match s.fwRelay with
  | none => s
  | some r =>
    if r.step ≠ 2 ∨ r.blocks.isEmpty ∨ s.now < r.at_ + 1000000 then s
    else if 16 ≤ r.resends then relayAbort s
    else
      let s := { s with fwRelay := some { r with resends := r.resends + 1, at_ := s.now } }
      s.each (List.range r.blocks.length) (fun i s => relayBlockOut (r.base + i) (r.blocks.getD i []) s)

/-- The link of a management port changes (R580): a relay toward a port that goes down ends. -/
def mgmtLink (m : Nat) (up : Bool) (s : State) : State :=
  let s := s.pset (0x1101 + m) 3 (b2n up)
  match s.fwRelay with
  | none => s
  | some r => if !up && r.port == m then relayStop 2 s else s

/-! ### Image messages in a session (R574 to R581) -/

/-- The session that a JDP session delivers: the one that applies, or a chain session that is only relayed. -/
def imageSession (s : State) (i transfer : Nat) : Option FwSession :=
  match s.fwSession with
  | some f => if f.owner = 16 + i ∧ f.transfer = transfer ∧ s.pg 0x1501 1 = 1 then some f else
      (match s.fwChain with | some g => if g.owner = 16 + i ∧ g.transfer = transfer then some g else none | none => none)
  | none => match s.fwChain with
    | some g => if g.owner = 16 + i ∧ g.transfer = transfer then some g else none
    | none => none

/-- Put a session back in its place. -/
def putSession (f : FwSession) (s : State) : State := if f.apply then { s with fwSession := some f } else { s with fwChain := some f }

/-- The transfer of the chain session in progress. -/
def chainNow (s : State) : List Nat :=
  (match s.fwSession with | some f => if f.chain then [f.transfer] else [] | none => []) ++
  (match s.fwChain with | some f => [f.transfer] | none => []) ++ (match s.fwRelay with | some r => [r.transfer] | none => [])

/-- OFFER in session i on a port: the disposition, the status and the effect (R573 to R575, R580, R581). -/
def offer (i port transfer h : Nat) (chain : Bool) (s : State) : Nat × Nat × State :=
  let no := fun (d st : Nat) => (d, st, s.pinc 0x1502 7 1)
  if s.mode = .faultHold ∨ s.mode = .locked then no 5 0x16
  else if !chain then
    if !headerGood h || !partFits s h || !baseFits s h then no 5 0x13
    else if (flashAgent s).isNone then no 5 0x12
    else if stagingBusy s then no 5 0x11
    else (0, 0, beginSession h false (16 + i) port transfer 2 s)
  else if s.pg 0x1502 1 = 0 then no 5 0x16
  else if (chainNow s).contains transfer ∨ s.lastChain = some transfer then no 4 0
  else if s.fwRelay.isSome ∨ s.fwChain.isSome then no 5 0x11
  else if !headerGood h then no 5 0x13
  else if (flashAgent s).isNone then no 5 0x12
  else
    let only := fun (d : Nat) (s : State) =>
      { s with fwChain := some { hdr := h, chain := true, owner := 16 + i, port := port, transfer := transfer, disp := d, last := s.now } }.pset 0x1501 9 d
    if !partFits s h then (1, 0, relayStart transfer port h (only 1 s))
    else if !baseFits s h then (2, 0, relayStart transfer port h (only 2 s))
    else if stagingBusy s then (3, 0x11, relayStart transfer port h (only 3 (s.pinc 0x1502 7 1)))
    else (0, 0, relayStart transfer port h (beginSession h true (16 + i) port transfer 3 s))

/-- A message of an image transfer accepted in session i on a port (R578 to R581). -/
def imageMessage (i port : Nat) (m : JdpMsg) (s : State) : State :=
  let h := beNat (m.payload.take 16)
  let transfer := bits h 127 96
  let data := m.payload.drop 16
  match m.msgType with
  | 9 =>
    let chain := bit h 19
    let (d, st, s) := offer i port transfer (leNat (data.take 128)) chain s
    let next := match imageSession s i transfer with | some f => f.next | none => 0
    sendStatus i port chain transfer next st d s
  | 10 =>
    match imageSession s i transfer with
    | none => s
    | some f =>
      let bytes := data.take (bits h 10 0)
      let n := bits h 95 64
      match blockKind f n (bits h 63 32) bytes (relayRoom s transfer && (!f.apply || (flashAgent s).isSome)) with
      | 0 =>
        let g := blockTaken f bytes s.now
        let s := if f.apply then flashAccess (s.pset 0x1501 4 (s.pg 0x1501 4 + 1)) else s
        let s := if f.chain then relayTake transfer bytes s else s
        if 8 ≤ g.cover then fwStatus g 0 g.disp (putSession { g with cover := 0 } s) else putSession g s
      | 2 => fwStatus f 0 f.disp (putSession { f with cover := 0 } (blockBad n s))
      | _ => fwStatus f 0 f.disp (putSession { f with cover := 0 } s)
  | 12 =>
    if bit h 18 then
      let s := match s.fwSession with
        | some f => if f.chain ∧ f.transfer = transfer then abortSession s else s
        | none => s
      let s := match s.fwChain with
        | some f => if f.transfer = transfer then fwStatus f 0 8 ({ s with fwChain := none }.pset 0x1501 9 8) else s
        | none => s
      match s.fwRelay with
      | some r => if r.transfer = transfer then relayAbort s else s
      | none => relayLate transfer s
    else
      match imageSession s i transfer with
      | none => s
      | some f =>
        if f.next ≠ itBlocks f.hdr then fwStatus f 0 f.disp s
        else
          let s := if f.apply then beginCheck s else { s with fwChain := none }
          let s := fwStatus f 0 f.disp s
          if !f.chain then s
          else
            let s := { s with lastChain := some transfer }
            match s.fwRelay with
            | some r => if r.transfer = transfer then relayFinish { s with fwRelay := some { r with ended := true } } else s
            | none => s
  | _ => s

/-- STATUS_TIMER (R579): 100 µs after an accepted block that no STATUS has covered. -/
def statusTimer (s : State) : State :=
  let one := fun (f : Option FwSession) (s : State) => match f with
    | some f => if 0 < f.cover ∧ f.coverAt + 100000 ≤ s.now then fwStatus f 0 f.disp (putSession { f with cover := 0 } s) else s
    | none => s
  one s.fwChain (one s.fwSession s)

/-- SESSION_STALL_TIMEOUT (Table 20.5): no block accepted for 10 s. -/
def stallTimeout (s : State) : State :=
  let s := match s.fwSession with
    | some f => if s.pg 0x1501 1 = 1 ∧ f.last + 10 ^ 10 ≤ s.now then abortSession s else s
    | none => s
  match s.fwChain with
  | some f => if f.last + 10 ^ 10 ≤ s.now then fwStatus f 0 8 ({ s with fwChain := none }.pset 0x1501 9 8) else s
  | none => s

/-- abort of 1501.08 by a requester (R576, Table 20.5). -/
def fwAbort (r : Nat) (s : State) : State :=
  if r < 16 then
    let s := if [1, 2].contains (s.pg 0x1501 1) then abortSession s
      else if [3, 4].contains (s.pg 0x1501 1) then (emptyStaging s).pset 0x1501 1 0 else s
    let s := if s.switching = some 1 ∧ s.quiesceAt.isSome then { s with switching := none, switchBack := none }.pset 0x1500 0xD 4 else s
    let s := match s.fwChain with
      | some f => fwStatus f 0 8 ({ s with fwChain := none }.pset 0x1501 9 8)
      | none => s
    relayAbort s
  else
    let s := match s.fwSession with
      | some f => if f.owner = r then abortSession s else s
      | none => s
    match s.fwChain with
    | some f => if f.owner = r then fwStatus f 0 8 ({ s with fwChain := none }.pset 0x1501 9 8) else s
    | none => s

/-! ### Activation (R582) -/

/-- The class an activation applies. -/
def activeClass (s : State) (img : Bytes) : Nat :=
  let h := imageHdr img
  let f := (settings s).format
  if f < bits h 231 216 ∨ bits h 215 200 < f then 2
  else if bits h 247 244 = 1 ∧ !s.modeIn [.forwarding, .lean, .degraded, .drain, .quiesce] then 2
  else bits h 247 244

/-- activate (R582): the status and the effect. -/
def activate (s : State) : Nat × State :=
  if s.switching.isSome then (0x11, s)
  else if s.pg 0x1501 1 ≠ 3 ∨ !s.modeIn [.standby, .bringup, .forwarding, .lean, .degraded, .drain, .quiesce] then (0x16, s)
  else if (flashAgent s).isNone then (0x12, s)
  else
    let s := flashAccess s
    let img := mget s.flash.images (otherSlot s)
    if imageCheck s img ≠ 0 then (0x13, (s.pset 0x1500 0xD 4).pset 0x1501 0xA (imageCheck s img))
    else
      let run := s.pset 0x1500 0xD 1
      match activeClass s img with
      | 0 => (0, { run with switching := some 0 }.pset 0x1501 1 0)
      | 1 =>
        if s.mode = .quiesce then (0, { run with switching := some 1, switchBack := some .quiesce })
        else if s.pg 0x1200 4 = 1 then (0x11, s)
        else (0, quiesceStart { run with switching := some 1, switchBack := some s.mode })
      | _ => (0, packageReset { run with switching := some 2 })

/-- An in-place switch is under way: accesses wait, JDP goes unanswered (R582). -/
def inSwitch (s : State) : Bool :=
  s.switching == some 0 || (s.switching == some 1 && s.mode == .quiesce && s.quiesceAt.isNone)

/-- Back to the mode that a class 1 activation left. -/
def switchReturn (s : State) : State :=
  match s.switchBack with
  | none => s
  | some m =>
    let s := { s with switchBack := none }
    if s.mode ≠ .quiesce ∨ m = .quiesce then s
    else if m = .drain then setMode .drain s
    else
      let s := repause (forwardAgain s)
      if m = .lean ∧ s.mode = .forwarding then leanEnter s else s

/-- INPLACE_SWITCH_DONE (R582, R585): slots rotate, the new image starts, the microcode loads as R143 lays down. -/
def switchDone (crcBad : Bool) (s : State) : State :=
  if !inSwitch s ∨ (flashAgent s).isNone then s
  else
    let s := firstStart crcBad (rotateSlots { s with switching := none })
    let s := { s with master := imageUcode (activeImage s), bootStep := 4 }
    if s.mode = .standby then s
    else
      let s := startLoad (s.mode == .quiesce) s
      if loadDone s then switchReturn (s.pset 0x1041 2 2) else s

/-- CLUSTER_STORE_WRITTEN (R143, R582): with the last store of a class 1 activation the part returns to the mode it left. -/
def storeDone (d c : Nat) (bad : Option Nat) (s : State) : State :=
  let s := storeWritten d c bad s
  if loadDone s then switchReturn s else s

/-! ### Probation (R583, R584, R586) -/

/-- confirm (R583): the status and the effect. -/
def confirm (s : State) : Nat × State :=
  if s.flash.probation ≠ 1 then (0x16, s)
  else if (flashAgent s).isNone then (0x12, s)
  else
    let s := flashAccess s
    let h := imageHdr (activeImage s)
    let mask : BitVec 4 := BitVec.ofNat 4 (setBit (bits h 255 252) (bits h 251 248) false)
    let s : State := { s with flash := { s.flash with
      rollback := max s.flash.rollback (bits h 127 96), revoked := s.flash.revoked ||| mask, probation := 3, oldSet := none } }
    (0, emptyStaging s)

/-- PROBATION_EXPIRE (R583). -/
def probationExpire (s : State) : State :=
  if s.flash.probation ≠ 1 ∨ s.now < s.flash.probEnd ∨ (flashAgent s).isNone then s
  else
    let s := flashAccess s
    fwNotice 0x904 (imageVersion (activeImage s)) { s with flash := { s.flash with probation := 2 } }

/-- revert (R584): the status and the effect. -/
def revert (s : State) : Nat × State :=
  if s.flash.probation ≠ 1 ∧ s.flash.probation ≠ 2 then (0x16, s) else (0, packageReset s)

/-- settings_accept (R586): the new slot holds the defaults and the writes made, and bring-up continues. -/
def settingsAccept (s : State) : Nat × State :=
  if s.pg 0x1503 3 ≠ 2 then (0x16, s)
  else
    let s := { settingsSave s with bringupAt := s.bringupAt.map (fun _ => s.now - s.bringupRan) }
    (0, s.pset 0x1503 3 0)

/-- settings_fallback (R586). -/
def settingsFallback (s : State) : Nat × State := if s.pg 0x1503 3 ≠ 2 then (0x16, s) else revert s

/-- What waited for a flash agent is written (R42, R474, R567). -/
def flashSave (s : State) : State := saved (if s.emptyDue then emptyStaging s else s)

/-- FLASH_AGENT_APPEAR (R42): the Summit writes what waited for an agent. -/
def execFlashAgentAppear (s : State) : Host.Outcome State Fault Refusal := .next (flashSave s)
/-- SETTINGS_SAVE (R474). -/
def execSettingsSave (s : State) : Host.Outcome State Fault Refusal := .next (flashSave s)
/-- STATUS_TIMER. -/
def execStatusTimer (s : State) : Host.Outcome State Fault Refusal := .next (statusTimer s)
/-- BLOCK_RESEND_TIMEOUT. -/
def execBlockResendTimeout (s : State) : Host.Outcome State Fault Refusal := .next (resendTimeout s)
/-- RELAY_OPEN_RETRY. -/
def execRelayOpenRetry (s : State) : Host.Outcome State Fault Refusal := .next (openRetry s)
/-- SESSION_STALL_TIMEOUT. -/
def execSessionStallTimeout (s : State) : Host.Outcome State Fault Refusal := .next (stallTimeout s)
/-- STAGING_CHECK_DONE. -/
def execStagingCheckDone (s : State) : Host.Outcome State Fault Refusal := .next (checkDone s)
/-- PROBATION_EXPIRE. -/
def execProbationExpire (s : State) : Host.Outcome State Fault Refusal := .next (probationExpire s)
/-- MGMT_PORT_LINK_CHANGE of management port 0 (MGA) or 1 (MGB). -/
def execMgmtPortLinkChange (m : Fin 2) (up : Bool) (s : State) : Host.Outcome State Fault Refusal := .next (mgmtLink m up s)
/-- CLUSTER_STORE_WRITTEN of one cluster; `bad` is the first address whose read-back fails. -/
def execClusterStoreWritten (d : DieId) (c : ClusterId) (bad : Option (Fin 16384)) (s : State) : Host.Outcome State Fault Refusal :=
  onLive d (storeDone d c (bad.map (·.val))) s

end Sys2Proof.Machine
end

