-- ==== Sys2Proof/Machine/Transit.lean ====
section
/-! DEFINITION. Transit slices, diagnostic loopbacks and patterns, performance counter sets, and the TAP (Transit Self-Test
and Performance Counters; Supply, Clocks, Pins and Package). -/

namespace Sys2Proof.Machine

/-! ### Slices (R543 to R546) -/

/-- The island of a slice kind (Table 19.1). -/
def sliceIsland (k : Nat) : Nat := match k with
  | 0 => 0 | 3 => 2 | _ => 1

/-- The cause for which a slice is skipped, by its code of Table 19.8; 0 when every condition holds (R545). -/
def skipCause (k : Nat) (r : Readings) : Nat :=
  if r.vin < 11400 ∨ 12600 < r.vin then 1
  else if !r.clk.getLsbD (sliceIsland k) then 2
  else if r.tj < -50 ∨ 1050 < r.tj then 3
  else 0

/-- Targets of a kind. -/
def sliceTargets (k : Nat) : Nat := match k with
  | 0 => 8 | 1 => 256 | 2 => 16 | _ => 6272

/-- A target is passed over: fenced, parked or forced off, or its cluster is being loaded (R543, R552). -/
def passedOver (s : State) (d k t : Nat) : Bool :=
  let out := fun (c : Nat) => s.dg d (0x4510 + c) 1 != 0 || s.pg (0x1320 + d) (1 + c) == 1
  match k with
  | 0 => (s.die d).look.banks.getLsbD t
  | 1 => out (t / 16)
  | 2 => out t || (cluster s d t).loading != 0
  | _ => false

/-- A slice in progress goes on: Forwarding or Lean, domain 77 on (R546). -/
def slicesGo (s : State) (d : Nat) : Bool :=
  s.modeIn [.forwarding, .lean] && domSt s d 77 == 2 && s.active.contains d

/-- Slices fall due on a die: enabled too (R544). -/
def slicesRun (s : State) (d : Nat) : Bool := s.pg 0x1700 1 == 1 && slicesGo s d

/-- The interval of a slice kind, in ns (R544, Table 19.7). -/
def sliceEvery (s : State) (k : Nat) : Nat := s.pg 0x1700 (2 + k) * (if k = 0 then 10 ^ 9 else 10 ^ 6)

/-- A slice of a kind starts at its next target, or is skipped (R543, R545). -/
def sliceStart (d k : Nat) (r : Readings) (s : State) : State :=
  if (k = 0 ∧ !spareFree s d) ∨ (mget? (s.die d).core.slices k).isSome then s
  else if skipCause k r ≠ 0 then (s.pinc (0x1710 + d) 2 1).pset (0x1710 + d) 8 (skipCause k r)
  else
    let n := sliceTargets k
    match arbiter n (mget (s.die d).core.nextSlice k) (fun t => !passedOver s d k t) with
    | none => s
    | some t =>
      let s := s.onDie d (fun x => { x with core.nextSlice := mput x.core.nextSlice k ((t + 1) % n) })
      let s := setSlice d k (some { target := t, since := s.now }) s
      if k = 0 then s.pset (0x1710 + d) 7 1 else if k = 1 then engineOut d t true s
      else (List.range 3).foldl (fun s p => noteFree d p s) s

/-- A slice that fell due while the one before ran starts at its end (R544), on the last readings: those of the conditions read again
every 10 µs (R545, R546). -/
def startDue (d k : Nat) (s : State) : State :=
  if !(s.die d).core.sliceDue.contains k then s
  else
    let s := s.onDie d (fun x => { x with core.sliceDue := x.core.sliceDue.filter (· != k) })
    if slicesRun s d then sliceStart d k (s.die d).core.readings s else s

/-- SLICE_DUE (R544): the interval of one kind has run, and a slice of it falls due on a die; while one of its kind runs it waits
for its end. -/
def sliceDue (d k : Nat) (r : Readings) (s : State) : State :=
  if !slicesRun s d ∨ s.now < max s.transitFrom (mget (s.die d).core.sliceLast k) + sliceEvery s k then s
  else
    let s := s.onDie d (fun x => { x with core.sliceLast := mput x.core.sliceLast k s.now, core.readings := r })
    if (mget? (s.die d).core.slices k).isSome then
      s.onDie d (fun x => { x with core.sliceDue := if x.core.sliceDue.contains k then x.core.sliceDue else x.core.sliceDue ++ [k] })
    else sliceStart d k r s

/-- SLICE_CONDITION_CHECK (R546): the conditions of the running slices are read again. -/
def sliceCheck (d : Nat) (r : Readings) (s : State) : State :=
  (s.onDie d (fun x => { x with core.readings := r })).each [0, 1, 2, 3] fun k s =>
    if (mget? (s.die d).core.slices k).isSome && (!slicesGo s d || skipCause k r != 0) then
      let s := sliceAbandon d k s
      if (mget? (s.die d).core.slices k).isNone then startDue d k s else s
    else s

/-! ### Banks (R547 to R550) -/

/-- BANK_MIRROR_DONE (R548): the march begins, and the bank's accesses go to the spare. The
reads and writes of a slice are the bank's grants to requester 6 (R225). -/
def mirrorDone (d : Nat) (s : State) : State :=
  match mget? (s.die d).core.slices 0 with
  | some x => if x.phase = 1 then (setSlice d 0 (some { x with phase := 2 }) (portGrant d 6 [x.target, 8] s)).pset (0x1710 + d) 7 2 else s
  | none => s

/-- Every table of the table SRAM, by its subindex of 2220. -/
def sramSubs : List Nat := [1, 2, 3, 4, 5, 0x10, 0x11, 0x12]

/-- BANK_TEST_DONE (R549): the march has passed or failed, or the spare has failed. -/
def bankTested (d : Nat) (ok spareOk : Bool) (s : State) : State :=
  match mget? (s.die d).core.slices 0 with
  | none => s
  | some x =>
    if x.phase ≠ 2 ∨ x.off then s
    else if !spareOk then
      let s := (s.onDie d (fun y => { y with core.spareFailed := true })).report d 0x12 0 3 0x806 x.target
      let s := fenceBank d x.target (setSlice d 0 none s)
      startDue d 0 ((s.pset (0x1710 + d) 7 5).pinc (0x1710 + d) 4 1)
    else if ok then (setSlice d 0 (some { x with phase := 3 }) s).pset (0x1710 + d) 7 3
    else
      let s := setSlice d 0 none s
      let s := s.onDie d (fun y => { y with
        look.banks := y.look.banks ||| ((1 : BitVec 8) <<< x.target), look.fenceOrd := y.look.fenceOrd ++ [x.target]
        look.spareFor := some x.target, look.spareOk := sramSubs })
      startDue d 0 (((s.pset (0x1710 + d) 7 4).pinc (0x1710 + d) 4 1).report d 0x12 0 3 0x801 x.target)

/-- BANK_RESTORE_DONE (R548): accesses return to the bank, and the spare is free. -/
def bankRestored (d : Nat) (s : State) : State :=
  match mget? (s.die d).core.slices 0 with
  | none => s
  | some x =>
    if x.phase ≠ 3 ∨ restoreHeld s then s
    else
      let s := setSlice d 0 none (portGrant d 6 [x.target, 8] s)
      startDue d 0 (spareBack d (if x.off then s else s.pinc (0x1710 + d) 1 1))

/-! ### Engines, control stores, segments (R551 to R553) -/

/-- No thread of an engine runs a routine. -/
def engineIdle (s : State) (d t : Nat) : Bool :=
  (List.range 4).all (fun i => (thread s d (t / 16) (t % 16 * 4 + i)).run.isNone)

/-- ENGINE_DRAINED (R551): the last running routine of the engine has ended, and its test words run. -/
def engineDrained (d : Nat) (s : State) : State :=
  match mget? (s.die d).core.slices 1 with
  | some x => if x.phase = 1 ∧ !x.off ∧ engineIdle s d x.target then setSlice d 1 (some { x with phase := 2 }) s else s
  | none => s

/-- ENGINE_DRAIN_TIMEOUT (R551): the engine is returned and the slice abandoned. -/
def engineTimeout (d : Nat) (s : State) : State :=
  match mget? (s.die d).core.slices 1 with
  | some x => if x.phase = 1 ∧ !x.off ∧ x.since + s.pg 0x1700 6 * 1000 ≤ s.now then startDue d 1 (sliceAbandon d 1 s) else s
  | none => s

/-- ENGINE_TEST_DONE (R551): the engine returns, or its signature differs and its cluster is fenced. -/
def engineTested (d : Nat) (ok : Bool) (s : State) : State :=
  match mget? (s.die d).core.slices 1 with
  | none => s
  | some x =>
    if x.phase ≠ 2 ∨ x.off then s
    else
      let s := engineOut d x.target false (setSlice d 1 none s)
      startDue d 1 <| if ok then s.pinc (0x1710 + d) 1 1
      else fenceCluster d (x.target / 16) ((s.report d 0x12 1 3 0x802 x.target).pinc (0x1710 + d) 4 1)

/-- The entries of a cluster's entry vector that differ from the master image (R552). -/
def differingEntries (s : State) (d c : Nat) : List Nat :=
  (List.range 64).filter (fun i => mget (cluster s d c).entry i != mget s.master.entry i)

/-- A walk has compared the store of cluster c (R552): each word and each entry that differs is reported, and words are under reload from
then on, so that threads that come to them wait (R140). With none the slice has run. -/
def walkFound (d : Nat) (x : Slice) (s : State) : State :=
  let bad := differingWords s d x.target
  let all := bad ++ differingEntries s d x.target
  if all.isEmpty then startDue d 2 ((setSlice d 2 none s).pinc (0x1710 + d) 1 1)
  else
    let s := s.each all (fun _ s => s.report d 0x12 2 2 0x803 x.target)
    setSlice d 2 (some { x with phase := 2 }) (onCluster s d x.target (fun k => { k with testing := bad }))

/-- What a walk has found is written and read back; a read-back that fails fences the cluster (R552, R140). -/
def walkWrite (d : Nat) (x : Slice) (ok : Bool) (s : State) : State :=
  let c := x.target
  let bad := (cluster s d c).testing
  let s := onCluster s d c (fun k => { k with
    store := bad.foldl (fun m a => mput m a (mget s.master.words a)) k.store, entry := s.master.entry
    parity := bad.foldl mdel k.parity, testing := [] })
  let s := setSlice d 2 none s
  let s := if x.off then s else s.pinc (0x1710 + d) 1 1
  let a := bad.headD 0
  startDue d 2 <| if ok then s
  else fenceCluster d c ((machineCheck d c 0 a 3 false {} (if bad.isEmpty then s else breakParity d c a s)).report d 4 c 3 0x103 a)

/-- CSTORE_WALK_DONE (R552): the walk has compared the store; then what it reloads asks for the write port (R138) and is read back. -/
def walkDone (d : Nat) (ok : Bool) (s : State) : State :=
  match mget? (s.die d).core.slices 2 with
  | none => s
  | some x => if x.phase = 1 then walkFound d x s else writePort d x.target 2 (walkWrite d x ok) s

/-- SEGMENT_MARCH_DONE (R553): the segment returns, or its units are withdrawn until die reset (Table 18.6). -/
def segmentDone (d : Nat) (ok : Bool) (s : State) : State :=
  match mget? (s.die d).core.slices 3 with
  | none => s
  | some x =>
    if x.off then s
    else
      let (p, g) := segmentOf x.target
      let s := setSlice d 3 none s
      startDue d 3 <| if ok then s.pinc (0x1710 + d) 1 1
      else ((segmentOut d p g s).report d 0x12 3 1 0x804 x.target).pinc (0x1710 + d) 4 1

/-! ### Diagnostic controls (R556) -/

/-- The target of a Diagnostic control exists. -/
def diagTarget (s : State) (v : Nat) : Bool :=
  let d := bits v 31 29
  let i := bits v 7 0
  s.has d && (match bits v 28 27 with
    | 0 => decide (i < 4)
    | 1 => decide (i < 32)
    | 2 => decide (i < 4) && (s.nbr d i).isSome
    | _ => false)

/-- A write to diag_loopback (R556). -/
def diagLoopback (v : Nat) (s : State) : Nat × State :=
  if s.mode ≠ .diagnostic then (0x16, s)
  else if !diagTarget s v ∨ 2 < bits v 26 24 then (0x13, s)
  else (0, s.onDie (bits v 31 29) (fun x => { x with core.loops := mput x.core.loops (bits v 28 27 * 256 + bits v 7 0) (bits v 26 24) }))

/-- A write to diag_pattern (R556). -/
def diagPattern (v : Nat) (s : State) : Nat × State :=
  if s.mode ≠ .diagnostic then (0x16, s)
  else if !diagTarget s v ∨ 3 < bits v 26 24 then (0x13, s)
  else (0, s.onDie (bits v 31 29) (fun x => { x with core.patterns := mput x.core.patterns (bits v 28 27 * 256 + bits v 7 0) (bits v 26 24) }))

/-! ### Counter sets (R557, R558, R563, R566) -/

/-- An event code of a counter set (Table 19.4). -/
def eventOf (k code : Nat) : Bool :=
  code == 0 || (if k < 16 then decide (code ≤ 0x11) else decide (0x40 ≤ code) && decide (code ≤ 0x49))

/-- A write of a counter value (R557): it applies, and clears the saturated bit. -/
def counterValue (d k n v : Nat) (s : State) : Nat × State :=
  let b := setBase k
  (0, (s.dset d b (0x20 + n) v).dset d b 0x28 (setBit (s.dg d b 0x28) n false))

/-- A write of sample_event (R563): the count of records starts again. -/
def sampleEvent (d k v : Nat) (s : State) : Nat × State :=
  let s := (s.dset d (setBase k) 0x30 v).dset d (setBase k) 0x33 0
  (0, s.onDie d (fun x => { x with eng.sampCnt := mput x.eng.sampCnt k 0 }))

/-- sample_read (Table 19.9): 64 records from a position, 0 the oldest; positions without a record read 0. -/
def sampleRead (s : State) (d k first : Nat) : Nat :=
  let l := mget (s.die d).eng.samples k
  leNat ((List.range 64).flatMap (fun i => toBytesLE 16 (((l[first + i]?).map (·.toNat)).getD 0)))

/-- sample_clear. -/
def sampleClear (d k : Nat) (s : State) : Nat × State := (0, s.onDie d (fun x => { x with eng.samples := mput x.eng.samples k [] }))

/-- A read of n bytes of the BAR2 window of an endpoint at an offset (R561). -/
def windowRead (s : State) (off n : Nat) : Nat :=
  let page := off / 4096
  let d := page / 32
  let k := page % 32
  if 20 ≤ k ∨ !s.has d ∨ !s.domOn d 74 ∨ !bit (s.dg d 0x45A0 k) 0 then 0
  else
    let b := setBase k
    let pageBytes := toBytesLE 8 (readEntry s (some d) b 1) ++
      (List.range 8).flatMap (fun i => toBytesLE 8 (b2n (bit (s.dg d b 0x28) i) <<< 63 ||| s.dg d b (0x20 + i))) ++
      (List.range 8).flatMap (fun i => toBytesLE 1 (s.dg d b (0x10 + i))) ++ toBytesLE 4 (s.dg d b 0x33)
    leNat ((pageBytes.drop (off % 4096)).take n)

/-! ### The TAP (R555, R606, R607) -/

/-- Change a die's TAP. -/
def onTap (d : Nat) (f : Tap → Tap) (s : State) : State := s.onDie d (fun x => { x with core.tap := f x.core.tap })

/-- Boundary cells of a die (R607). -/
def tapCells (d : Nat) : Nat := if d = 0 then 220 else if d = 1 then 179 else 163

/-- The IDCODE of a die (R607). -/
def idcode (d : Nat) : Nat := (Config.dieRevision d % 15 + 1) <<< 28 ||| 0xC900 <<< 12 ||| 0x7D3 <<< 1 ||| 1

/-- Instructions that act only in Factory mode act on a die (R555). -/
def tapOpen (s : State) (d : Nat) : Bool := s.mode == .factory && domSt s d 79 == 2

/-- Load an instruction; the pins follow the part unless the instruction acts on them and may (R555, R606). A TAP whose always-on
domain is in power-on reset loads none (R593). -/
def tapLoad (d : Nat) (code : BitVec 8) (s : State) : State :=
  if (s.die d).core.por then s else onTap d (tapActs code (tapOpen s d)) s

/-- The register a die's TAP selects for its instruction (R555, R606): 0 bypass, 1 IDCODE, 2 boundary, 3 scan chains,
4 debug. -/
def tapSelects (s : State) (d : Nat) : Nat :=
  match (s.die d).core.tap.ir.toNat with
  | 0x01 => 1
  | 0x02 => 2
  | 0x03 => if tapOpen s d then 2 else 0
  | 0x04 => if tapOpen s d then 2 else 0
  | 0x05 => if tapOpen s d then 2 else 0
  | 0x10 => if tapOpen s d then 3 else 0
  | 0x11 => if tapOpen s d then 4 else 0
  | _ => 0

/-- SLICE_DUE of a kind on a die. -/
def execSliceDue (d : DieId) (k : Fin 4) (vin : Nat) (clk : BitVec 3) (tj : Int) (s : State) : Host.Outcome State Fault Refusal :=
  onPresent d (sliceDue d k { vin := vin, clk := clk, tj := tj }) s
/-- SLICE_CONDITION_CHECK of a die. -/
def execSliceConditionCheck (d : DieId) (vin : Nat) (clk : BitVec 3) (tj : Int) (s : State) : Host.Outcome State Fault Refusal :=
  onPresent d (sliceCheck d { vin := vin, clk := clk, tj := tj }) s
/-- BANK_MIRROR_DONE of a die. -/
def execBankMirrorDone (d : DieId) (s : State) : Host.Outcome State Fault Refusal := onLive d (mirrorDone d) s
/-- BANK_TEST_DONE of a die. -/
def execBankTestDone (d : DieId) (ok spareOk : Bool) (s : State) : Host.Outcome State Fault Refusal := onLive d (bankTested d ok spareOk) s
/-- BANK_RESTORE_DONE of a die. -/
def execBankRestoreDone (d : DieId) (s : State) : Host.Outcome State Fault Refusal := onLive d (bankRestored d) s
/-- ENGINE_DRAINED of a die. -/
def execEngineDrained (d : DieId) (s : State) : Host.Outcome State Fault Refusal := onLive d (engineDrained d) s
/-- ENGINE_DRAIN_TIMEOUT of a die. -/
def execEngineDrainTimeout (d : DieId) (s : State) : Host.Outcome State Fault Refusal := onLive d (engineTimeout d) s
/-- ENGINE_TEST_DONE of a die. -/
def execEngineTestDone (d : DieId) (ok : Bool) (s : State) : Host.Outcome State Fault Refusal := onLive d (engineTested d ok) s
/-- CSTORE_WALK_DONE of a die; `ok` is the read-back of the words reloaded. -/
def execCstoreWalkDone (d : DieId) (ok : Bool) (s : State) : Host.Outcome State Fault Refusal := onLive d (walkDone d ok) s
/-- SEGMENT_MARCH_DONE of a die. -/
def execSegmentMarchDone (d : DieId) (ok : Bool) (s : State) : Host.Outcome State Fault Refusal := onLive d (segmentDone d ok) s
/-- JTAG_IDCODE. -/
def execJtagIdcode (d : DieId) (s : State) : Host.Outcome State Fault Refusal := onPresent d (tapLoad d 0x01) s
/-- SAMPLE/PRELOAD: the boundary register takes the cells given, one for each cell of the die (R606, R607). -/
def samplePreload (d : Nat) (cells : List Bool) (s : State) : State :=
  if (s.die d).core.por then s
  else onTap d (fun t => { t with
    boundary := cells.take (tapCells d) ++ List.replicate (tapCells d - cells.length) false }) (tapLoad d 0x02 s)

/-- JTAG_SAMPLE_PRELOAD: the boundary register takes the cells given, sampled from the pins or shifted in. -/
def execJtagSamplePreload (d : DieId) (cells : List Bool) (s : State) : Host.Outcome State Fault Refusal :=
  onPresent d (samplePreload d cells) s
/-- JTAG_EXTEST. -/
def execJtagExtest (d : DieId) (s : State) : Host.Outcome State Fault Refusal := onPresent d (tapLoad d 0x03) s
/-- JTAG_EXTEST_PULSE. -/
def execJtagExtestPulse (d : DieId) (s : State) : Host.Outcome State Fault Refusal := onPresent d (tapLoad d 0x04) s
/-- JTAG_EXTEST_TRAIN. -/
def execJtagExtestTrain (d : DieId) (s : State) : Host.Outcome State Fault Refusal := onPresent d (tapLoad d 0x05) s
/-- JTAG_CLAMP. -/
def execJtagClamp (d : DieId) (s : State) : Host.Outcome State Fault Refusal := onPresent d (tapLoad d 0x06) s
/-- JTAG_HIGHZ. -/
def execJtagHighz (d : DieId) (s : State) : Host.Outcome State Fault Refusal := onPresent d (tapLoad d 0x07) s
/-- JTAG_INTERNAL_SCAN. -/
def execJtagInternalScan (d : DieId) (s : State) : Host.Outcome State Fault Refusal := onPresent d (tapLoad d 0x10) s
/-- JTAG_DEBUG_ACCESS. -/
def execJtagDebugAccess (d : DieId) (s : State) : Host.Outcome State Fault Refusal := onPresent d (tapLoad d 0x11) s
/-- JTAG_BYPASS. -/
def execJtagBypass (d : DieId) (s : State) : Host.Outcome State Fault Refusal := onPresent d (tapLoad d 0xFF) s

end Sys2Proof.Machine
end

