-- ==== Sys2Proof/Machine/Dict.lean ====
section
/-! DEFINITION. The dictionary: the checks of R477, what a write or command does, and the endpoint with its accesses to
other dies and to every die (The Object Dictionary and JDP; One Part from Many Crests). -/

namespace Sys2Proof.Machine

/-! ### Checks 1 to 7 (R477) -/

/-- The level an accessor holds (R476). -/
def levelOf (s : State) (r : Nat) : Nat := if r < 16 then (if s.mode = .factory then 3 else 2) else s.pg (0x1130 + (r - 16)) 3

/-- The die from which an access sets out: the Summit's, or without a Summit the die that the requester is attached to. -/
def origin (s : State) (r : Nat) : Nat := s.summit.getD (if r < 16 then r / 8 else 0)

/-- The requester is a mailbox of an Isolated die (R55). -/
def onIsolated (s : State) (r : Nat) : Bool := decide (r < 16) && s.isolated (r / 8)

/-- Check 1: SUMMIT_CHANGE and ISOLATED (R47, R55). -/
def check1 (s : State) (r : Nat) (a : Access) : Nat :=
  if onIsolated s r then (if a.op = .read ∧ a.idx = 0x1200 ∧ a.sub = 1 then 0 else 0x18)
  else if isPerDie a.idx then
    match a.sel with
    | .die d => if s.isolated d then 0x18 else 0
    | .all => if s.summit.isNone then 0x17 else 0
    | _ => 0
  else if s.summit.isNone then 0x17 else 0

/-- A table command (R243). -/
def tableAccess (a : Access) : Bool := a.idx == 0x4640 && a.sub == 1 && a.op == .write

/-- An epoch operation of the table engines (R274): 7 inherit, 8 discard. -/
def epochAccess (a : Access) : Bool := a.idx == 0x2300 && (a.sub == 7 || a.sub == 8) && a.op == .write

/-- A write of the home die map (R214, R310). -/
def homeAccess (a : Access) : Bool := a.idx == 0x1810 && a.op == .write

/-- The 80 bytes of a table command search or iterate: it must name one die (R58). -/
def oneDieOnly (v : Nat) : Bool := cmdOp v == 3 || cmdOp v == 4

/-- Check 3: the selector fits the entry and the operation (R11, R13, R58). -/
def badSelector (a : Access) : Bool :=
  match a.sel with
  | .none => isPerDie a.idx
  | .die _ => !isPerDie a.idx
  | .all => !isPerDie a.idx || a.op == .read || (tableAccess a && oneDieOnly a.val)
  | .bad _ => true

/-- Check 4: the die named exists (R12), and so does the die of the port whose program 2021 or 2022 holds (R171). -/
def noDie (s : State) (a : Access) : Bool :=
  (match a.sel with
    | .die d => !s.has d
    | _ => false) ||
  (a.idx == 0x2021 && !s.has (a.sub / 64)) || (a.idx == 0x2022 && !s.has ((256 + a.sub) / 64))

/-- Check 5: the accessor's level (R475, R500); a host session is one of a PCIe window (R574). -/
def noAccess (s : State) (r : Nat) (e : EntryRow) (a : Access) : Bool :=
  match a.op with
  | .read => e.lvl == 3 && decide (levelOf s r < 3)
  | _ => decide (levelOf s r < e.lvl) || (a.idx == 0x1200 && a.sub == 2 && a.val == 0xC && decide (16 ≤ r)) ||
    (a.idx == 0x1501 && decide (5 ≤ a.sub) && decide (a.sub ≤ 7) && decide (16 ≤ r))

/-- Check 6: the access type (R471). -/
def badAccess (e : EntryRow) (op : AccOp) : Bool :=
  match op with
  | .read => decide (e.acc = .wo) || decide (e.acc = .cmd)
  | _ => decide (e.acc = .ro) || decide (e.acc = .rc)

/-- The row that an access meets: the entry's; the enable of a ring 24 to 31, which is reserved, is judged as one (R457). -/
def accessRow (a : Access) : Option EntryRow :=
  if a.op = .write ∧ 0x4458 ≤ a.idx ∧ a.idx < 0x4460 ∧ a.sub = 1 ∧ a.val = 1 then findEntry 0x4440 1 else findEntry a.idx a.sub

/-- Checks 1 to 7 of R477: the status of the first that fails, 0 when all pass. A describe access meets checks 1 and 2
only (R483). -/
def precheck (s : State) (r : Nat) (a : Access) : Nat :=
  let c := check1 s r a
  if c ≠ 0 then c
  else match accessRow a with
    | none => 0x19
    | some e =>
      if a.op = .describe then 0
      else if badSelector a then 0x14
      else if noDie s a then 0x15
      else if noAccess s r e a then 0x1A
      else if badAccess e a.op then 0x1B
      else if a.op = .write ∧ a.len ≠ e.size then 0x1C
      else 0

/-! ### Checks 8 and 9 -/

/-- The modes in which what moves flows may be written (R82, R84, R173). -/
def calm (s : State) : Bool := s.modeIn [.standby, .bringup, .drain, .quiesce]

/-- Check 8, WRONG_MODE, of a write: Standby, Fault-hold and Locked (R497, R498), and what an entry limits itself. -/
def wrongMode (s : State) (d : Option Nat) (a : Access) : Bool :=
  let i := a.idx
  (match s.mode with
    | .faultHold => !(decide (0x1400 ≤ i) && decide (i < 0x1500)) && !(i == 0x1200 && a.sub == 8)
    | .locked => true
    | _ => false) ||
  (match d with
    | some d =>
      (s.dieMode d == .standby && !isRws i a.sub) ||
      (i == 0x4410 && [1, 2, 4, 5, 6].contains a.sub && !([Mode.standby, Mode.bringup].contains (s.dieMode d))) ||
      (i == 0x4300 && a.sub == 1 && (!([Mode.standby, Mode.bringup].contains (s.dieMode d)) ||
        [0, 1].any (fun k => !([0, 5].contains (stackState s d k)))))
    | none =>
      ((i == 0x2010 || i == 0x1810 || i == 0x2021 || i == 0x2022 ||
        (decide (0x2040 ≤ i) && decide (i < 0x2048) && (a.sub == 5 || a.sub == 6))) && !calm s))

/-- The value lies in the range the entry states by itself (Table 16.1 and the Meaning columns). -/
def valueFits (e : EntryRow) (i sub v : Nat) : Bool :=
  let x : Int := if e.ty = .s32 then s32 v else v
  let fits := decide (e.rlo ≤ x) && decide (x ≤ e.rhi)
  if e.ty = .time80 then fits && decide (v % 2 ^ 32 < 10 ^ 9)
  else if 0x4880 ≤ i ∧ i < 0x48C0 ∧ 0x30 ≤ sub ∧ sub ≤ 0x3C then fits || v == 0
  else if 0x3010 ≤ i ∧ i < 0x3020 ∧ sub = 0x20 then fits || v == 0
  else if 0x2340 ≤ i ∧ i < 0x2380 ∧ sub = 4 then fits && (v == 0 || decide (64 ≤ v))
  else if i = 0x4801 ∧ sub ≤ 2 then fits && (v == 0 || decide (1000 ≤ v))
  else if i = 0x4100 ∧ sub = 3 then [1, 2, 4, 8].contains v
  else if i = 0x4500 ∧ (sub = 6 ∨ sub = 7) then fits && v % 10 == 0
  else if i = 0x4410 ∧ sub = 1 then fits && v % 2097152 == 0
  else if i = 0x4410 ∧ (sub = 2 ∨ sub = 5) then fits && decide (v ≤ 131072)
  else if i = 0x1120 ∨ i = 0x1121 then fits && (sub != 4 || v % 4096 == 0)
  else if 0x4440 ≤ i ∧ i < 0x4458 then
    fits && (sub != 2 || decide (v < 2)) && (sub != 3 || v % 4096 == 0) && (sub != 5 || v % 8 == 0)
  else if i = 0x1402 then
    fits && (sub != 4 || v % 4096 == 0) && (sub != 5 || v % 134217728 == 0) && (sub != 6 || decide (v < 2))
  else if i = 0x2110 ∨ i = 0x2111 ∨ i = 0x2112 ∨ i = 0x2113 then fits && v % 256 == 0
  else if i = 0x1800 ∧ sub = 7 then fits && !(bit v 0 && bit v 1)
  else if i = 0x2212 ∧ sub = 1 ∨ i = 0x2210 ∧ sub = 1 then fits
  else if i = 0x2211 ∧ sub = 1 then v == 0
  else if 0x4580 ≤ i ∧ i < 0x4594 ∧ ((0x10 ≤ sub ∧ sub ≤ 0x17) ∨ sub = 0x30) then
    eventOf (if i < 0x4590 then i - 0x4580 else 16 + (i - 0x4590)) v
  else fits

/-- Entries of port slots (R371). -/
def portSlot (i : Nat) : Option Nat :=
  if (0x4010 ≤ i ∧ i < 0x4090) ∨ (0x4740 ≤ i ∧ i < 0x4780) ∨ (0x4840 ≤ i ∧ i < 0x48C0) ∨ (0x4940 ≤ i ∧ i < 0x49C0) then
    some (if i < 0x4050 then i - 0x4010 else if i < 0x4090 then i - 0x4050 else if i < 0x4780 then i - 0x4740
      else if i < 0x4880 then i - 0x4840 else if i < 0x48C0 then i - 0x4880 else if i < 0x4980 then i - 0x4940 else i - 0x4980)
  else none

/-- The sweep of a table in ticks stays below 32,768 less the age limit (R238). -/
def sweepFits (buckets tick limit rate : Nat) : Bool := decide (limit < 32768) && decide (buckets * 1000000 < (32768 - limit) * rate * tick)

/-- The value fits what other entries hold (R39, R95, R215, R238, R291, R317, R322, R337, R365, R371, R383, R417, R514). A
park_min is not held against park_max (log entry 104). -/
def crossFits (s : State) (d : Option Nat) (i sub v : Nat) : Bool :=
  match d with
  | none =>
    if i = 0x1200 ∧ (sub = 0xA ∨ sub = 0xC ∨ sub = 0xD) then
      let n := if sub = 0xA then v else s.pg 0x1200 0xA
      let lo := if sub = 0xC then v else s.pg 0x1200 0xC
      let hi := if sub = 0xD then v else s.pg 0x1200 0xD
      decide (hi * 16 < 100 * n) && decide (2 * lo ≤ hi)
    else if 0x2210 ≤ i ∧ i < 0x2213 ∧ 2 ≤ sub ∧ sub ≤ 4 then
      sweepFits (tabBuckets s (0x10 + (i - 0x2210))) (if sub = 2 then v else s.pg i 2) (if sub = 3 then v else s.pg i 3)
        (if sub = 4 then v else s.pg i 4)
    else if i = 0x2110 ∨ i = 0x2111 then decide (hotBytes (s.pset i sub v) ≤ 167772160)
    else if i = 0x2112 ∨ i = 0x2113 then
      (s.present).all (fun h => decide (deepBytes (s.pset i sub v) ≤ s.dg h 0x4410 2 * 2097152))
    else if i = 0x2221 ∧ sub = 1 then s.has v
    else if 0x1320 ≤ i ∧ i < 0x1328 then s.has (i - 0x1320)
    else true
  | some d =>
    (match portSlot i with
      | some k => lowestSlot s d k
      | none => true) &&
    (if i = 0x4200 ∧ (sub = 3 ∨ sub = 4) then
      decide (2 * (if sub = 3 then v else s.dg d i 3) ≤ (if sub = 4 then v else s.dg d i 4))
    else if i = 0x4100 ∧ (sub = 6 ∨ sub = 7) then
      decide (2 * (if sub = 6 then v else s.dg d i 6) ≤ (if sub = 7 then v else s.dg d i 7))
    else if i = 0x4500 ∧ sub = 9 then decide (s.dg d i 8 ≤ v)
    else if i = 0x4410 ∧ [2, 4, 5, 6].contains sub then
      decide (([2, 3, 4, 5, 6].map (fun k => if k = sub then v else s.dg d i k)).sum ≤ 262144) &&
        (sub != 2 || decide (ceilDiv (deepBytes s) 2097152 ≤ v))
    else if 0x4710 ≤ i ∧ i < 0x4713 ∧ 0x10 ≤ sub ∧ sub ≤ 0x15 then
      decide (((List.range 6).map (fun q => if 0x10 + q = sub then v else s.dg d i (0x10 + q))).sum ≤ (if i = 0x4711 then 25165824 else 262144)) &&
        decide (v ≤ s.dg d i (sub + 0x10))
    else if 0x4710 ≤ i ∧ i < 0x4713 ∧ 0x20 ≤ sub ∧ sub ≤ 0x25 then decide (s.dg d i (sub - 0x10) ≤ v)
    else if 0x4740 ≤ i ∧ i < 0x4780 then
      (if sub = 3 then decide (s.dg d i 4 < v) else if sub = 4 then decide (v < s.dg d i 3)
       else if 0x10 ≤ sub ∧ sub ≤ 0x17 then decide (s.dg d i (sub + 8) < v)
       else if 0x18 ≤ sub ∧ sub ≤ 0x1F then decide (v < s.dg d i (sub - 8)) else true)
    else if 0x4010 ≤ i ∧ i < 0x4050 then
      (if sub = 7 then decide (s.dg d i 8 < v) else if sub = 8 then decide (v < s.dg d i 7) else true)
    else if i = 0x4801 then (if sub = 3 then decide (v ≤ s.dg d i 4) else if sub = 4 then decide (s.dg d i 3 ≤ v) else true)
    else true)

/-! ### BUSY (R215, R250, R455, R460) -/

/-- The FIB holds a prefix. -/
def fibHolds (s : State) : Bool :=
  [0, 1].any (fun f => decide (0 < deepCount s f)) || (s.present).any (fun d => decide (0 < rootCount s d) || [0, 1].any (fun f => decide (0 < hotCount s d f)))

/-- A table code holds an entry on some die. -/
def codeHolds (s : State) (code : Nat) : Bool := (s.present).any (fun d => !(tabSlots s d code).isEmpty)

/-- An entry whose write finds what it concerns in use. -/
def entryBusy (s : State) (d : Option Nat) (i sub : Nat) : Bool :=
  match d with
  | none =>
    if i = 0x2100 then fibHolds s
    else if i = 0x2110 then codeHolds s (hotCode 0 sub)
    else if i = 0x2111 then codeHolds s (hotCode 1 sub)
    else if i = 0x2112 then codeHolds s (deepCode 0 sub)
    else if i = 0x2113 then codeHolds s (deepCode 1 sub)
    else if i = 0x2200 ∧ sub ≤ 2 then [0x10, 0x11, 0x12].any (codeHolds s)
    else if (i = 0x1120 ∨ i = 0x1121) ∧ 4 ≤ sub ∧ sub ≤ 6 then
      (s.present).any (fun d => (List.range 24).any (fun k => ringState s d k != 0 && ringEp s d k == i - 0x1120))
    else false
  | some d => decide (0x4440 ≤ i) && decide (i < 0x4458) && sub != 1 && ringState s d (i - 0x4440) != 0

/-- Checks 8 to 10 of a write: the status of the first that fails, 0 when all pass. -/
def lastChecks (s : State) (d : Option Nat) (e : EntryRow) (a : Access) : Nat :=
  if wrongMode s d a then 0x16
  else if !valueFits e a.idx a.sub a.val || !crossFits s d a.idx a.sub a.val then 0x13
  else if entryBusy s d a.idx a.sub then 0x11
  else 0

/-! ### Reads -/

/-- The value an entry returns. Slots that are not the lowest of a port read 0 (R371); a read of the snapshot bank during
a copy returns what the copy brings (R388). -/
def accValue (s : State) (d : Option Nat) (i sub : Nat) : Nat × State :=
  match d with
  | none => readClear s none i sub
  | some d =>
    let s := if i = 0x4610 then fibSettle d s else if i = 0x4630 then scrubSettle d s else if i = 0x4130 then stallSettle d s else s
    match portSlot i with
    | some k =>
      if !lowestSlot s d k then (0, s)
      else if 0x4980 ≤ i ∧ i < 0x49C0 ∧ s.dg d 0x4900 4 = 1 then (mget (s.die d).buf.frozen (key (i - 64) sub), s)
      else readClear s (some d) i sub
    | none => readClear s (some d) i sub

/-- The reply data of a command, in bytes. -/
def cmdReplyLen (i sub : Nat) : Nat :=
  if i = 0x1401 then 32
  else if i = 0x4640 ∧ sub = 1 then 80
  else if i = 0x4411 ∧ sub = 1 then 16
  else if 0x4580 ≤ i ∧ i < 0x4594 ∧ sub = 0x34 then 1024
  else 0

/-- The code of a data type (Table 16.1). -/
def typeCode : EType → Nat
  | .bool => 1 | .u8 => 2 | .u16 => 3 | .u32 => 4 | .u64 => 5 | .s32 => 6 | .bits32 => 7 | .enum8 => 8 | .octets => 9 | .time80 => 10 | .cmd => 11

/-- The code of an access type (Table 16.6). -/
def accCode : EAccess → Nat
  | .ro => 0 | .rw => 1 | .rws => 2 | .wo => 3 | .rc => 4 | .cmd => 5

/-- The default an entry has, if any: what its table states, by part where it says so (Table 16.5). -/
def statedDefault (p : Part) (e : EntryRow) (i sub : Nat) : Option Nat :=
  if i = 0x1000 then
    match sub with
    | 1 => some (asciiVal "Forgixis") | 2 => some (asciiVal (partName p)) | 3 => some (partCode p) | 4 => some (partDies p).length
    | 9 => some (0xD900 + partCode p % 256) | _ => e.dflt
  else if i = 0x1800 ∧ sub = 4 then some ((partDies p).map (fun d => 2 ^ d)).sum
  else if i = 0x2200 ∧ sub = 3 then some (b2n (p == .d9080))
  else if e.dflt.isSome ∨ ((e.acc = .rw ∨ e.acc = .rws) ∧ i ≠ 0x1100) ∨ i = 0x1040 ∨ (0x4710 ≤ i ∧ i < 0x4713 ∧ sub ≤ 3) then some (entryDefault p i sub)
  else none

/-- The description of an entry (Table 16.6); `jdp` gives a numeric default most significant byte first (R470). -/
def describeVal (p : Part) (jdp : Bool) (i sub : Nat) : Nat :=
  match findEntry i sub with
  | none => 0
  | some e =>
    let size := if e.acc = .cmd then cmdReplyLen i sub else e.size
    let dv := statedDefault p e i sub
    let v := dv.getD 0
    let dflt := if e.ty = .octets || !jdp then v % 2 ^ 96 else leNat ((toBytes e.size v).take 12)
    typeCode e.ty <<< 376 ||| accCode e.acc <<< 372 ||| e.lvl <<< 370 ||| b2n (isPerDie i) <<< 369 ||| b2n dv.isSome <<< 368 |||
      size <<< 352 ||| dflt <<< 256 ||| asciiVal e.name

/-! ### What a write or command does -/

/-- Set the register of an entry, and note an RWS value for saving (R474). -/
def setEntry (d : Option Nat) (i sub v : Nat) (s : State) : State :=
  noteSave d i sub (match d with
    | none => s.pset i sub v
    | some d => s.dset d i sub v)

/-- The reply of an operation that answers a status; an accepted RWS value is to be saved. -/
def reply (d : Option Nat) (i sub : Nat) (x : Nat × State) : Reply × State :=
  ({ status := x.1 }, if x.1 < 0x10 then noteSave d i sub x.2 else x.2)

/-- A write to a key slot (R492, R494): the slot is to be saved; its sessions close when the key is written or the slot
disabled. -/
def keyWrite (k sub v : Nat) (s : State) : State :=
  let put := fun (f : KeySlot → KeySlot) (s : State) =>
    { s with keys := mmod s.keys k f, keysDirty := if s.keysDirty.contains k then s.keysDirty else s.keysDirty ++ [k] }
  let close := fun (s : State) => s.each ((List.range 16).filter (fun i => s.pg (0x1130 + i) 1 == 1 && s.pg (0x1130 + i) 2 == k)) closeSession
  match sub with
  | 1 => close (put (fun x => { x with key := v }) s)
  | 2 => put (fun x => { x with level := v }) s
  | _ => if v = 0 then close (put (fun x => { x with enable := false }) s) else put (fun x => { x with enable := true }) s

/-- A write of transit_enable (R544): the intervals of the slices run from the moment it becomes 1. -/
def transitEnable (v : Nat) (s : State) : State :=
  (if v = 1 ∧ s.pg 0x1700 1 = 0 then { s with transitFrom := s.now } else s).pset 0x1700 1 v

/-- Data with a status, or NOT_FOUND. -/
def foundReply (x : Option Nat) (len : Nat) (s : State) : Reply × State :=
  match x with
  | some v => ({ status := 0, len := len, val := v }, s)
  | none => ({ status := 2 }, s)

/-- An epoch operation as a die's table engine runs it (R274). -/
def epochOn (d sub : Nat) (s : State) : State := (if sub = 7 then epochInherit d s else epochDiscard d s).2

/-- The queue of a die's table engine is full (R242). -/
def engFull (s : State) (d : Nat) : Bool := decide (256 ≤ (s.die d).look.engQ.length)

/-- The status of an access on every die from those of the dies (R56), and the mask of the dies that refused. -/
def combined (l : List (Nat × Nat)) : Nat × Nat :=
  let refused := l.filter (fun x => decide (0x10 ≤ x.2))
  if refused.isEmpty then ((l.map (·.2)).foldl max 0, 0)
  else
    let m := dieMask (refused.map (·.1))
    match l with
    | x :: _ => if l.all (fun y => y.2 == x.2) then (x.2, m) else (4, m)
    | [] => (4, m)

/-- The status of an access to a die that it does not get to: NO_PATH, unless check 8 or 9 fails first (R477). -/
def noPath (s : State) (d : Nat) (a : Access) : Nat :=
  match accessRow a with
  | some e =>
    let c := if a.op = .write then lastChecks s (some d) e a else 0
    if c = 0x16 ∨ c = 0x13 then c else 0x12
  | none => 0x12

/-- An epoch operation carried out on every die in one step (R274): a die whose table engine cannot take it refuses it (R242), and
so does one that is out of reach (log entry 124). -/
def epochAll (o sub : Nat) (s : State) : Nat × State :=
  let st := fun (d : Nat) => if !(s.active.contains d && (d == o || s.reach o d)) then 0x12 else if engFull s d then 0x11 else 0
  let l := s.joined.map (fun d => (d, st d))
  ((combined l).1, s.each ((l.filter (fun x => x.2 == 0)).map (·.1)) (fun d s => epochOn d sub (engGrant d 0 s)))

/-- A write to a package-wide entry that passed its checks. -/
def pkgWrite (r i sub v : Nat) (s : State) : Reply × State :=
  let done := reply none i sub
  let plain : Reply × State := ({}, setEntry none i sub v s)
  if (i = 0x1120 ∨ i = 0x1121) ∧ sub = 7 then done (0, attInvalidate (i - 0x1120) (bits v 127 80) (bits v 79 32) s)
  else if 0x1130 ≤ i ∧ i < 0x1140 then done (0, closeSession (i - 0x1130) s)
  else if 0x1140 ≤ i ∧ i < 0x1150 then done (0, keyWrite (i - 0x1140) sub v s)
  else if 0x1320 ≤ i ∧ i < 0x1328 then done (domainRequest (i - 0x1320) sub v s)
  else if i = 0x1810 then done (homeMapWrite sub v s)
  else if i = 0x2220 then done (shadowModeWrite sub v s)
  else match i, sub with
    | 0x1200, 2 => if v = 2 ∧ s.bootStep ≠ 4 then ({ status := 0x16 }, s) else done (modeRequest v s)
    | 0x1200, 8 => done (0, requestReset s)
    | 0x1200, 0xB => done (0, leanEnable v s)
    | 0x1400, 7 => done (firstFaultClear s)
    | 0x1400, 0xB => done (logAck v s)
    | 0x1401, 1 => foundReply (logRead s v) 32 s
    | 0x1401, 2 => foundReply (dieLogRead s v) 32 s
    | 0x1402, 2 => done (dumpNow v s)
    | 0x1402, 3 => done (dumpAck v s)
    | 0x1440, 1 => done (faultInject v s)
    | 0x1500, 0xA => done (activate s)
    | 0x1500, 0xB => done (confirm s)
    | 0x1500, 0xC => done (revert s)
    | 0x1501, 5 => done (hostOffer r v s)
    | 0x1501, 6 => done (hostBlock v s)
    | 0x1501, 7 => done (hostEnd s)
    | 0x1501, 8 => done (0, fwAbort r s)
    | 0x1503, 5 => done (settingsAccept s)
    | 0x1503, 6 => done (settingsFallback s)
    | 0x1600, 2 => done (meridianSet v s)
    | 0x1600, 3 => done (meridianStep v s)
    | 0x1700, 1 => done (0, transitEnable v s)
    | 0x1720, 1 => done (diagLoopback v s)
    | 0x1720, 2 => done (diagPattern v s)
    | 0x1800, 8 => done (dieRejoin v s)
    | 0x2300, 6 => done (epochSwap s)
    | 0x2300, 7 => done (epochAll (origin s r) 7 s)
    | 0x2300, 8 => done (epochAll (origin s r) 8 s)
    | 0x2300, 9 => done (forceRetire s)
    | _, _ => plain

/-- A write of port_enable (R512): the port starts or stops; while its lane domain is off only the register changes. -/
def portWrite (d k v : Nat) (s : State) : Nat × State :=
  if domSt s d (31 + k / 16) = 2 then portEnable d k v s else (0, s.dset d (0x4010 + k) 1 v)

/-- A write of link_enable (R408): links start or stop; a link whose lane domain is off waits for it. -/
def linkWrite (d v : Nat) (s : State) : State :=
  let s := linkEnables d v s
  let s := s.each (List.range 32) fun l s =>
    if linkState s d l = 2 ∧ domSt s d (40 + l / 4) ≠ 2 then s.dset d (0x4110 + l) 1 1 else s
  domReview d s

/-- A write of a counter set's entries (Table 19.9). -/
def setWrite (d k sub v : Nat) (s : State) : Reply × State :=
  let i := setBase k
  if 0x20 ≤ sub ∧ sub ≤ 0x27 then reply (some d) i sub (counterValue d k (sub - 0x20) v s)
  else match sub with
    | 0x30 => reply (some d) i sub (sampleEvent d k v s)
    | 0x34 => ({ status := 0, len := 1024, val := sampleRead s d k v }, s)
    | 0x35 => reply (some d) i sub (sampleClear d k s)
    | _ => ({}, s.dset d i sub v)

/-- The reply of a table command on one die: status and completion (R243, R244). -/
def tableReply (d : Nat) (all : Bool) (v : Nat) (s : State) : Reply × State :=
  if engFull s d then ({ status := 0x11 }, s) else
  let (o, s) := tableCmd d all v (engGrant d 0 s)
  ({ status := o.status, len := 80, val := completion s d v 0 o }, s)

/-- A write to an entry of a die's scheduler (Table 11.10). -/
def schedWrite (d k sub v : Nat) (s : State) : Reply × State :=
  let i := 0x4880 + k
  let done := reply (some d) i sub
  if sub = 1 then done (applyTemplate d k v s)
  else if 0x30 ≤ sub ∧ sub ≤ 0x3C then done (shaperRateWrite d k (sub - 0x30) v s)
  else if 0x40 ≤ sub ∧ sub ≤ 0x4C then done (shaperBurstWrite d k (sub - 0x40) v s)
  else if 0x50 ≤ sub ∧ sub ≤ 0x5C then done (if v = 1 then shaperReset d k (sub - 0x50) s else (0, s))
  else if (0x10 ≤ sub ∧ sub ≤ 0x1C) ∨ (0x70 ≤ sub ∧ sub ≤ 0x77) then done (0, rewake d k (s.dset d i sub v))
  else ({}, setEntry (some d) i sub v s)

/-- A write to a per-die entry that passed its checks. In Standby it is kept for when the die's function comes up (R497). -/
def dieWrite (d : Nat) (all : Bool) (i sub v : Nat) (s : State) : Reply × State :=
  let done := reply (some d) i sub
  let plain : Reply × State := ({}, setEntry (some d) i sub v s)
  if s.dieMode d = .standby then
    if i = 0x4000 then (fun (x : Nat × State) => if x.1 = 0 then ({}, setEntry (some d) i sub v x.2) else done x) (laneModeWrite d (sub - 1) v s)
    else plain
  else if 0x4840 ≤ i ∧ i < 0x4880 ∧ (sub = 2 ∨ sub = 4) then done (gateWrite d (i - 0x4840) sub v s)
  else if i = 0x4000 then done ((fun (x : Nat × State) => (x.1, if x.1 = 0 then domReview d x.2 else x.2)) (laneModeWrite d (sub - 1) v s))
  else if 0x4010 ≤ i ∧ i < 0x4050 ∧ sub = 1 then done (portWrite d (i - 0x4010) v s)
  else if i = 0x4100 ∧ sub = 1 then done (0, fabricIdSet d (s.dset d i sub v))
  else if i = 0x4100 ∧ sub = 2 then done (0, linkWrite d v s)
  else if i = 0x4300 ∧ sub = 6 then done (retrainNow d v s)
  else if i = 0x4300 ∧ sub = 7 then done (fullTrain d v s)
  else if (i = 0x4320 ∨ i = 0x4321) ∧ sub = 1 then done (patternCommand d (i - 0x4320) v s)
  else if i = 0x4400 ∧ sub = 1 then done (0, domReview d (s.dset d i sub v))
  else if i = 0x4410 ∧ [1, 2, 4, 5, 6].contains sub then done (0, mapWrite d sub v s)
  else if i = 0x4411 ∧ sub = 1 then
    let (st, e, s) := pageCommand d v s
    ({ status := st, len := 16, val := st <<< 120 ||| e }, s)
  else if 0x4440 ≤ i ∧ i < 0x4460 ∧ sub = 1 then done (ringEnable d (i - 0x4440) (v == 1) s)
  else if 0x4580 ≤ i ∧ i < 0x4590 then setWrite d (i - 0x4580) sub v s
  else if 0x4590 ≤ i ∧ i < 0x4594 then setWrite d (16 + (i - 0x4590)) sub v s
  else if i = 0x4640 ∧ sub = 1 then tableReply d all v s
  else if 0x4840 ≤ i ∧ i < 0x4880 ∧ sub = 9 then done (if v = 1 then configChange d (i - 0x4840) s else (0, s))
  else if 0x4880 ≤ i ∧ i < 0x48C0 then schedWrite d (i - 0x4880) sub v s
  else if i = 0x4900 ∧ sub = 1 then done (if v = 1 then snapshotWrite d s else (0, s))
  else if 0x4740 ≤ i ∧ i < 0x4780 ∧ (sub = 1 ∨ sub = 3 ∨ sub = 4 ∨ (0x10 ≤ sub ∧ sub ≤ 0x1F)) then
    ({}, pauseCheckPort d (i - 0x4740) (setEntry (some d) i sub v s))
  else plain

/-- A write takes an all: snapshot (R389). -/
def isSnapshotAll (all : Bool) (a : Access) : Bool := all && a.idx == 0x4900 && a.sub == 1 && a.val == 1

/-- Carry out an access that passed checks 1 to 7, at the Summit (no die) or on a die: checks 8 to 10 and the effect. -/
def perform (r : Nat) (d : Option Nat) (all : Bool) (a : Access) (s : State) : Reply × State :=
  match accessRow a with
  | none => ({ status := 0x19 }, s)
  | some e =>
    if a.op = .read then
      let (v, s) := accValue s d a.idx a.sub
      ({ status := 0, len := e.size, val := v }, s)
    else
      let c := lastChecks s d e a
      if c ≠ 0 then ({ status := c }, s)
      else match d with
        | none => pkgWrite r a.idx a.sub a.val s
        | some d =>
          if isSnapshotAll all a then reply (some d) a.idx a.sub (snapshotAwait d (((mget? s.bcasts r).map (·.at_)).getD s.ns) s)
          else dieWrite d all a.idx a.sub a.val s

/-! ### Every die (R12, R56, R57, R210, R389) -/

/-- The 80 bytes of a table command are a FIB insert or delete. -/
def fibValue (v : Nat) : Bool := cmdTable v == 1 && (cmdOp v == 1 || cmdOp v == 2)

/-- A FIB insert or delete. -/
def fibWrite (a : Access) : Bool := tableAccess a && fibValue a.val

/-- A table command on a die is counted (4640.03, 4640.04). -/
def countCmd (d st : Nat) (s : State) : State :=
  (s.dinc d 0x4640 3 1).when (decide (0x10 ≤ st)) (fun s => s.dinc d 0x4640 4 1)

/-- Relocations made on a die between two states, as a completion shows them (Table 7.13). -/
def movesMade (before s : State) (d : Nat) : Nat :=
  min 8 (((s.die d).look.tabs.map (fun t => (t.2.relocGen + 2 ^ 32 - (table before d t.1).relocGen) % 2 ^ 32)).sum)

/-- A FIB command at a die that waits for the outcome of the deep part (R210): its status and the effect. -/
def fibOther (d : Nat) (ok : Bool) (v status : Nat) (s : State) : Nat × State :=
  if !ok then (status, countCmd d status s)
  else
    let (p, want, result) := fibRecord (cmdRec v)
    let (own, s1) := fibLocal d p (cmdOp v == 2) want result s
    (own, countCmd d own (if 0x10 ≤ own then s else s1))

/-- The access on every die completes: refused_dies, and the completion of a table command, with the relocations made on the die
the access set out from. An epoch operation is no access with the selector `all`. -/
def allReply (d : Nat) (a : Access) (l : List (Nat × Nat)) (moves : Nat) (s : State) : Reply × State :=
  let (st, m) := combined l
  let s := s.when (a.sel == .all) (fun s => s.pset 0x1800 0xA m)
  let s := if fibWrite a then countDeepOnly st s else s
  if tableAccess a then ({ status := st, len := 80, val := completion s d a.val m { status := st, moves := moves } }, s)
  else ({ status := st }, s)

/-- An access of a die gets to another: neither is held in a reset, and the saddles join them. -/
def canReach (s : State) (o d : Nat) : Bool := s.active.contains d && (d == o || s.reach o d)

/-- The status with which a die refuses a table command before its engine takes it (R210, R242); 0 = it takes it. -/
def engRefuses (s : State) (d : Nat) (a : Access) : Nat :=
  let c := match accessRow a with | some e => lastChecks s (some d) e a | none => 0x19
  if c = 0 ∧ engFull s d then 0x11 else c

/-- A FIB command carried out on a list of dies in one step: the home die that leads it first, the deep copies of a delete last; a
refusal there refuses it on every die (R210, R212). -/
def fibAll (ts : List Nat) (a : Access) (s : State) : List (Nat × Nat) × State :=
  let (p, want, result) := fibRecord (cmdRec a.val)
  let del := cmdOp a.val == 2
  let c := fibCheck p (!del) result
  let all := fun (ds : List Nat) (f : Nat → State → Nat × State) (s : State) =>
    ds.foldl (fun (x : List (Nat × Nat) × State) t =>
      let w := engRefuses s t a
      let (c, s) := if w ≠ 0 then (w, x.2) else f t (engGrant t 0 x.2)
      (x.1 ++ [(t, c)], s)) ([], s)
  if c ≠ 0 then all ts (fun d s => (c, countCmd d c s)) s
  else if isRoot p then all ts (fun d s => fibOther d true a.val 0 s) s
  else
    let lead := fibLead s p
    let w := if ts.contains lead then engRefuses s lead a else 0x12
    if w ≠ 0 then all ts (fun d s => (w, countCmd d w s)) s
    else
      let (ok, st, own, s) := fibFirst lead p del want result (engGrant lead 0 s)
      let (l, s) := all (ts.filter (· != lead)) (fun d s => fibOther d ok a.val st s) (countCmd lead own s)
      ((lead, own) :: l, if ok && del then fibErase p s else s)

/-- An `all:` access carried out on every die in one step: what a batch does with each of its commands. A die that it does not get to
refuses it with NO_PATH (R12, R56). -/
def performAll (r : Nat) (a : Access) (s : State) : Reply × State :=
  let o := origin s r
  let gone := (s.joined.filter (fun d => !canReach s o d)).map (fun d => (d, noPath s d a))
  let ts := s.joined.filter (canReach s o)
  let (l, t) : List (Nat × Nat) × State :=
    if fibWrite a then fibAll ts a s
    else ts.foldl (fun (x : List (Nat × Nat) × State) t =>
      let (c, s) := perform r (some t) true a x.2
      (x.1 ++ [(t, c.status)], s)) ([], s)
  allReply o a (l ++ gone) (movesMade s t o) t

/-- An access of the Summit, or of its own die, carried out to its end in one step. -/
def accessNow (r : Nat) (a : Access) (s : State) : Reply × State :=
  if onIsolated s r ∧ check1 s r a = 0 then ({ status := 0, len := 1, val := modeCode .isolated }, s)
  else
    let c := precheck s r a
    if c ≠ 0 then ({ status := c }, s)
    else if a.op = .describe then ({ status := 0, len := 48, val := describeVal s.part (decide (16 ≤ r)) a.idx a.sub }, s)
    else match a.sel with
      | .die d => if canReach s (origin s r) d then perform r (some d.val) false a s else ({ status := noPath s d a }, s)
      | _ => perform r none false a s

/-! ### The endpoint (R479, R480, R484) -/

/-- A reply reaches its requester: a mailbox that waits for it is done, and fires vector 0 if asked (R484, R485). -/
def finish (r : Nat) (x : Reply) (s : State) : State :=
  let s : State := { s with busy := mdel s.busy r }
  let b := mget s.boxes r
  if b.drop then { s with boxes := mput s.boxes r { b with drop := false } }
  else
    let s : State := { s with replies := minsert s.replies r x }
    if r < 16 ∧ b.control = 1 then
      let s : State := { s with boxes := mput s.boxes r { b with control := 2, reply := x, irq := false } }
      if b.irq then fireMsix (r / 8) 0 s else s
    else s

/-! ### The queue of the table engine (R210, R242) -/

/-- A die's result of an `all:` access is kept, with the relocations made on the die it set out from. -/
def noteResult (r d st moves : Nat) (s : State) : State :=
  { s with bcasts := mmod s.bcasts r (fun b => { b with
      results := b.results ++ [(d, st)], moves := if d = origin s r then moves else b.moves }) }

/-- A software command of the table engine is a FIB insert or delete on every die. -/
def EngCmd.fib (c : EngCmd) : Bool := c.all && fibValue c.val

/-- A die has still to carry out the access of every die of a requester. -/
def owes (s : State) (r d : Nat) : Bool :=
  s.msgs.any (fun m => m.dst == d && (match m.body with | .bcast q _ => q == r | _ => false)) ||
    (s.die d).look.engQ.any (fun c => c.all && c.req == r && c.phase == 0)

/-- The outcome of a requester's FIB command is on its way to a die. -/
def outcomeComes (s : State) (r d : Nat) : Bool :=
  s.msgs.any (fun m => m.dst == d && (match m.body with | .fibHome q .. => q == r | _ => false))

/-- The engine's command at the head of the queue completes. -/
def engDone (d : Nat) (c : EngCmd) (o : TabOut) (s : State) : State :=
  let s := s.onDie d (fun x => { x with look.engQ := x.look.engQ.drop 1 })
  if c.all then noteResult c.req d o.status o.moves s
  else finish c.req { status := o.status, len := 80, val := completion s d c.val 0 o } s

/-- The table engine of a die carries on the head command that it has taken up, as far as it can; none when it waits: for the outcome of the home die
(R210), for the end of a migration (R308), or, before the deep copies of a delete go, for the other dies (R212). -/
def engStep (d : Nat) (s : State) : Option State :=
  match (s.die d).look.engQ with
  | [] => none
  | c :: _ =>
    let g := s
    if c.epoch ≠ 0 then some (engDone d c {} (epochOn d c.epoch g))
    else if !c.fib then
      let (o, t) := tableCmd d c.all c.val g
      some (engDone d c o t)
    else
      let (p, want, result) := fibRecord (cmdRec c.val)
      let del := cmdOp c.val == 2
      let done := fun (st : Nat) (t : State) => some (engDone d c { status := st, moves := movesMade s t d } (countCmd d st t))
      let chk := fibCheck p (!del) result
      let lead := fibLead s p
      if c.phase = 1 then
        if (mget? s.bcasts c.req).isSome || fibWaits s d p false then none
        else some ((fibErase p g).onDie d (fun x => { x with look.engQ := x.look.engQ.drop 1 }))
      else if chk ≠ 0 then done chk g
      else if isRoot p then
        let (own, t) := fibLocal d p del want result g
        done own (if 0x10 ≤ own then g else t)
      else if lead = d then
        if fibWaits s d p (!del) then none
        else
          let (ok, st, own, t) := fibFirst d p del want result g
          let others := (mget s.bcasts c.req).targets.filter (· != d)
          let t := t.each others (fun e t => t.send d e (.fibHome c.req ok (cmdRec c.val) del st))
          if ok && del then
            some (noteResult c.req d own (movesMade s t d) ((countCmd d own t).onDie d (fun x => { x with
              look.engQ := { c with phase := 1 } :: x.look.engQ.drop 1 })))
          else done own t
      else if !homeGone s d lead && (owes s c.req lead || outcomeComes s c.req d) then none
      else done 0x12 g

/-- A requester of a die's table engine that waits is granted it (R242): a software command is taken up, the others act. -/
def engServe (d i : Nat) (s : State) : State :=
  match i with
  | 0 => (engGrant d 0 s).onDie d (fun x => { x with look.engQ := x.look.engQ.modify 0 (fun c => { c with on := true }) })
  | _ => match (s.die d).look.engAsk.find? (fun x => x.1 == i) with
    | none => s
    | some (_, t) =>
      let s := s.onDie d (fun x => { x with look.engAsk := x.look.engAsk.erase (i, t) })
      match i with
      | 1 => learnDo d s
      | 2 => sweepDo d t s
      | _ => recheckDo d (t == 1) s

/-- One operation of a die's table engine: the command it has taken up, else the next requester's by its pointer (R22, R242); none
when it has nothing to do or waits. -/
def engNext (d : Nat) (s : State) : Option State :=
  let k := (s.die d).look
  if k.engQ.head?.any (·.on) then engStep d s
  else (arbiter 4 k.engPtr (fun i => if i = 0 then !k.engQ.isEmpty else k.engAsk.any (fun x => x.1 == i))).map (fun i => engServe d i s)

/-- The engine works as far as it can. -/
def engRunN : Nat → Nat → State → State
  | 0, _, s => s
  | n + 1, d, s => match engNext d s with
    | some t => engRunN n d t
    | none => s

/-- The table engine of a die works on what waits for it. -/
def engRun (d : Nat) (s : State) : State :=
  engRunN (2 * (s.die d).look.engQ.length + (s.die d).look.engAsk.length + 1) d s

/-- A die refuses an access of every die: the home die that leads a FIB command sends the others its outcome (R210). -/
def refuseAll (r d st : Nat) (a : Access) (s : State) : State :=
  let (p, _, result) := fibRecord (cmdRec a.val)
  let del := cmdOp a.val == 2
  if !fibWrite a || isRoot p || fibCheck p (!del) result != 0 || fibLead s p != d then s
  else s.each ((mget s.bcasts r).targets.filter (· != d)) (fun e s => s.send d e (.fibHome r false (cmdRec a.val) del st))

/-- A table command or an epoch operation reaches a die: refused, or accepted into the queue of 256 (R242, R274). -/
def engAccept (r d : Nat) (all : Bool) (a : Access) (s : State) : State :=
  let c := if epochAccess a then (if engFull s d then 0x11 else 0) else engRefuses s d a
  if c ≠ 0 then (if all then refuseAll r d c a (noteResult r d c 0 s) else finish r { status := c } s)
  else engRun d (s.onDie d (fun x => { x with look.engQ := x.look.engQ ++ [
    { req := r, all := all, epoch := if epochAccess a then a.sub else 0, val := a.val }] }))

/-- A page of regions 0 and 1 migrates: a write of the home die map waits (R308, R310). -/
def pagesMove (s : State) : Bool := (s.present).any (fun d => (s.die d).look.pageCmd.any (fun k => k.op == 3 && decide (k.region ≤ 1)))

/-- A table engine of the package is occupied, or a page of the FIB or of contexts migrates: a batch waits (R242, R308). -/
def enginesBusy (s : State) : Bool := (s.present).any (fun d => !engFree s d) || pagesMove s

/-! ### Accesses travel (R47, R56, R57, R480) -/

/-- The endpoint of the Summit moves its pointer past the requester it has served (R22, R479). -/
def endptMove (r : Nat) (s : State) : State :=
  match s.summit with
  | some m => s.onDie m (fun x => { x with core.endptPtr := (r + 1) % 32 })
  | none => s

/-- An access that the endpoint has accepted: one of the Summit or its own die completes at once, one of another die
travels to it, one of every die is sent to each (R47, R56, R480), and so is an epoch operation (R274). A table command of its own die
goes to the table engine. A write of the home die map waits for the end of a migration. -/
def dispatch (r : Nat) (a : Access) (s : State) : State :=
  let s := endptMove r s
  let now := fun (s : State) => let (x, s) := accessNow r a s; finish r x s
  let every := fun (s : State) =>
    let o := origin s r
    let gone := (s.joined.filter (fun d => !canReach s o d)).map (fun d => (d, noPath s d a))
    let ts := s.joined.filter (canReach s o)
    let s : State := { s with
      busy := minsert s.busy r a, bcasts := mput s.bcasts r { acc := a, targets := ts, results := gone, at_ := s.ns } }
    s.each ts (fun d s => s.send o d (.bcast r a))
  if onIsolated s r ∨ precheck s r a ≠ 0 ∨ a.op = .describe then now s
  else if homeAccess a && pagesMove s then { s with busy := minsert s.busy r a, waiting := s.waiting ++ [(r, a)] }
  else if epochAccess a then
    match (findEntry a.idx a.sub).map (fun e => lastChecks s none e a) with
    | some 0 => every s
    | _ => now s
  else match a.sel with
    | .die d =>
      if !canReach s (origin s r) d then now s
      else if d.val = origin s r then
        if tableAccess a then engAccept r d false a { s with busy := minsert s.busy r a } else now s
      else { s with busy := minsert s.busy r a }.send (origin s r) d (.access r a)
    | .all => every s
    | _ => now s

/-- A requester presents an access; it has at most one outstanding (R479, R480). During an in-place switch accesses wait
(R582). -/
def endpoint (r : Nat) (a : Access) (s : State) : State :=
  if (mget? s.busy r).isSome then s
  else if inSwitch s then { s with busy := minsert s.busy r a, waiting := s.waiting ++ [(r, a)] }
  else
    let s := if 16 ≤ r then s.pinc (0x1130 + (r - 16)) 6 1 else s
    dispatch r a s

/-- DIE_ACCESS_MESSAGE (R480): an access for a die arrives there and is executed. -/
def dieAccess (d : Nat) (s : State) : State :=
  s.receive d (fun b => match b with | .access .. => true | _ => false) fun m s =>
    match m.body with
    | .access r a =>
      if tableAccess a then engAccept r d false a s
      else let (x, s) := perform r (some d) false a s; finish r x s
    | _ => s

/-- BROADCAST_APPLY (R57, R210, R242): a die applies the first broadcast write that waits for it; a table command goes to its
table engine. -/
def bcastApply (d : Nat) (s : State) : State :=
  s.receiveInOrder d (fun b => match b with | .bcast .. => true | _ => false) fun m s =>
    match m.body with
    | .bcast r a =>
      if tableAccess a || epochAccess a then engAccept r d true a s
      else
        let (x, s) := perform r (some d) true a s
        noteResult r d x.status 0 s
    | _ => s

/-- FIB_HOME_OUTCOME (R210): a die whose table engine is at a FIB command receives the outcome of its deep part; without one the
engine looks again whether it still has to wait. -/
def fibOutcome (d : Nat) (s : State) : State :=
  match (s.die d).look.engQ with
  | [] => s
  | c :: _ =>
    match takeMsg d (fun b => match b with | .fibHome q .. => c.fib && c.phase == 0 && q == c.req | _ => false) s.msgs with
    | none => engRun d s
    | some (m, rest) =>
      match m.body with
      | .fibHome _ ok _ _ st =>
        let g := leaveBuffer m { s with msgs := rest }
        let (own, t) := fibOther d ok c.val st g
        engRun d (engDone d c { status := own, moves := movesMade g t d } t)
      | _ => s

/-- BROADCAST_COMPLETE (R56): every target that the access gets to has reported; the others refuse it with NO_PATH. The deep
copies of a deleted prefix then go (R212). -/
def bcastDone (r : Nat) (s : State) : State :=
  match mget? s.bcasts r with
  | none => s
  | some b =>
    let left := b.targets.filter (fun d => !(b.results.any (fun x => x.1 == d)) && !s.isolated d)
    if left.any (fun d => canReach s (origin s r) d && owes s r d) then s
    else
      let s : State := { s with bcasts := mdel s.bcasts r }.dropMsgs (fun m => match m.body with | .fibHome q .. => q == r | _ => false)
      let s := s.each s.present (fun d s => engRun d s)
      let (x, s) := allReply (origin s r) b.acc (b.results ++ left.map (fun d => (d, noPath s d b.acc))) b.moves s
      finish r x s

/-- Accesses that waited are carried out. -/
def goOn (s : State) : State :=
  s.waiting.foldl (fun s x => dispatch x.1 x.2 { s with busy := mdel s.busy x.1 }) { s with waiting := [] }

/-- MIGRATE_COPY_DONE (R308), after which table engines and writes of the home die map that waited for the page go on. -/
def migrated (d : Nat) (poisoned : List (Fin 32768)) (s : State) : State :=
  let s := migrateDone d poisoned s
  let s := s.each s.present (fun e s => engRun e s)
  if inSwitch s then s else goOn s

/-- A write of an entry by a requester. -/
def writeBy (r : Nat) (sel : Sel) (i sub len v : Nat) (s : State) : State :=
  endpoint r { op := .write, sel := sel, idx := i, sub := sub, len := len, val := v } s

/-- The requester index of a mailbox (R479). -/
def boxReq (x : Fin 2 × Fin 8 × Bool × Access) : Nat := x.1.val * 8 + x.2.1.val

/-- A mailbox that can start: one that is busy takes no request (R484). -/
def boxFree (s : State) (r : Nat) : Bool := (mget s.boxes r).control != 1 && (mget? s.busy r).isNone

/-- The order in which the endpoint serves the accesses of one cycle: from the pointer of the Summit's endpoint (R479). -/
def endptOrder (s : State) : List Nat :=
  let p := match s.summit with | some m => (s.die m).core.endptPtr | none => 0
  (List.range 32).map (fun i => (p + i) % 32)

/-- MAILBOX_GO (R484, R479): mailboxes of the endpoints are started with requests in one cycle, each with at most one; all are
accepted, and execute one after another in rotating order. -/
def mailboxGo (l : List (Fin 2 × Fin 8 × Bool × Access)) (s : State) : State :=
  let go := (l.filter (fun x => boxFree s (boxReq x))).foldl (fun a x => if a.any (fun y => boxReq y == boxReq x) then a else a ++ [x]) []
  let order := (endptOrder s).filterMap (fun r => go.find? (fun x => boxReq x == r))
  let s := s.each go (fun x s =>
    { s with boxes := mput s.boxes (boxReq x) { mget s.boxes (boxReq x) with control := 1, irq := x.2.2.1, acc := x.2.2.2 } })
  s.each order (fun x => endpoint (boxReq x) x.2.2.2)

/-- INPLACE_SWITCH_DONE (R582): the switch completes, and the accesses that waited are carried out. -/
def switchEnd (crcBad : Bool) (s : State) : State :=
  if !inSwitch s then s
  else goOn (switchDone crcBad s)

/-- The window header of an endpoint (Table 16.7): offset 0, 4 or 8. -/
def windowHeader (s : State) (e off : Nat) : Nat :=
  match off with
  | 0 => 1
  | 4 => s.summit.getD 0xFF
  | 8 => b2n (s.pg (0x1120 + e) 1 == 1 && s.bootStep != 1) ||| b2n (s.summit.isNone) <<< 1 ||| b2n (s.isolated e) <<< 2 |||
      b2n (s.mode == .factory) <<< 3
  | _ => 0

/-- What a read of mailbox m of an endpoint returns, at an offset of Table 16.8 (R484): while an access is in progress
only control reads other than 0. -/
def mailboxRead (s : State) (e m off : Nat) : Nat :=
  let b := mget s.boxes (e * 8 + m)
  let selCode := match b.acc.sel with
    | .none => 0
    | .die d => 0x10 + d.val
    | .all => 0x1F
    | .bad c => c
  let opCode := match b.acc.op with
    | .read => 1
    | .write => 2
    | .describe => 3
  let data := if b.control = 2 ∧ 0 < b.reply.len then toBytesLE 1032 b.reply.val else toBytesLE 1032 b.acc.val
  if off = 0 then b.control
  else if b.control = 1 then 0
  else if off = 4 then b.reply.status
  else if off = 8 then opCode <<< 24 ||| selCode <<< 16 ||| b.acc.idx
  else if off = 0x0C then b.acc.len <<< 16 ||| b.acc.sub
  else if off = 0x10 then b.reply.len
  else if 0x20 ≤ off then leNat ((data.drop (off - 0x20)).take 4)
  else 0

/-! ### Batches (R248, R464) -/

/-- A flush that has started runs to its end; the number bounds its steps. -/
def flushAllN (d : Nat) : Nat → State → State
  | 0, s => s
  | n + 1, s => if (s.die d).look.flush.isSome then flushAllN d n (flushStep d s) else s

/-- A flush of a die that has started runs to its end (R248). -/
def flushAll (d : Nat) (s : State) : State :=
  match (s.die d).look.flush with
  | some f => flushAllN d (flushSteps s f) s
  | none => s

/-- A FIB flush of a die ended with entries kept (R247). -/
def flushKept (s : State) (d : Nat) : Bool := bits (s.dg d 0x4640 2) 23 22 == 3

/-- One command of a batch: its completion, whether it failed, and the effect. A flush completes with its end; one that kept
entries with NO_PATH (R247). -/
def batchCmd (d v : Nat) (s : State) : Nat × Bool × State :=
  let t := bits v 111 108
  let flush := cmdOp v == 5
  if t = 0xF ∧ s.summit.isNone then (completion s d v 0 { status := 0x17 }, true, s)
  else if t = 0xF && oneDieOnly v then (completion s d v 0 { status := 0x14 }, true, s)
  else if t = 0xF then
    let o := origin s 0
    let (x, s) := performAll 0 { op := .write, sel := .all, idx := 0x4640, sub := 1, len := 80, val := v } s
    let s := if flush && decide (x.status < 0x10) then s.each s.active flushAll else s
    if flush && decide (x.status < 0x10) && s.active.any (flushKept s) then (completion s o v 0 { status := 0x12 }, true, s)
    else (x.val, decide (0x10 ≤ x.status), s)
  else if !s.has t ∨ s.isolated t then (completion s d v 0 { status := if s.has t then 0x18 else 0x15 }, true, s)
  else
    let (o, s) := tableCmd t false v (engGrant t 0 s)
    let flush := flush && o.status == 0
    let s := if flush then flushAll t s else s
    let o := if flush && flushKept s t then { o with status := 0x12 } else o
    (completion s t v 0 o, decide (0x10 ≤ o.status), s)

/-- The commands of a batch in order: completions and effect; after a failing command with stop_on_error the others get
BUSY and do not run. -/
def batchAll (d : Nat) : List Nat → Bool → State → List Nat × State
  | [], _, s => ([], s)
  | v :: r, stop, s =>
    if stop then
      let (l, s) := batchAll d r true s
      (completion s d v 0 { status := 0x11 } :: l, s)
    else
      let (c, bad, s) := batchCmd d v s
      let (l, s) := batchAll d r (bad && bit v 104) s
      (c :: l, s)

/-- BATCH_RUN (R464): the batch ring of a die takes its next posted slot, with the commands and translation entries that
host memory holds for it. A batch waits while a table engine is occupied (R242). A count outside 1 to 4,096 is a bad descriptor
(Table 15.9; log entry 99). -/
def batchRun (d : Nat) (slot : BitVec 256) (cmds : List (BitVec 640)) (atts : List (Nat × BitVec 64)) (s : State) : State :=
  let k := 20
  if ringState s d k ≠ 1 ∨ posted s d k = 0 ∨ enginesBusy s then s
  else
    let w := slot.toNat
    let n := bits w 207 194
    let e := ringEp s d k
    let at_ := slotRva s d k (s.dg d (ringIdx k) 0x0B)
    let src := bits w 255 208
    let dst := bits w 191 144
    match ringLinkCause s d k with
    | some c => ringError d k c s
    | none =>
      match (attFault s e atts false at_ 32).or (attFault s e atts false src (80 * n)) with
      | some f => ringFault d k f s
      | none =>
        match attFault s e atts true dst (80 * n) with
        | some f => ringFault d k f s
        | none =>
          if n = 0 ∨ 4096 < n then ringError d k 2 s
          else
            let s := attKeepAll e atts src (80 * n) (attKeepAll e atts at_ 32 s)
            let (l, s) := batchAll d ((cmds.take n).map (·.toNat)) false s
            let s := dmaWrite e atts dst (l.flatMap (toBytesLE 80)) s
            ringAdvance d k atts s

end Sys2Proof.Machine
end

