-- ==== Sys2Proof/Machine/Jdp.lean ====
section
/-! DEFINITION. The management relay and JDP: frames, sessions, requests and image messages (The Object Dictionary and
JDP; Firmware Update over the Chain). -/

namespace Sys2Proof.Machine

/-! ### Frames (R487, R488) -/

/-- The UDP payload of a JDP frame, if the frame is one (R487 step 1). The frame carries no FCS here. -/
def jdpPayload (s : State) (f : Bytes) : Option Bytes :=
  let ip := f.drop 14
  let udp := ip.drop 20
  let n := beNat ((udp.drop 4).take 2)
  if beNat ((f.drop 12).take 2) = 0x0800 ∧ (ip.getD 0 0).toNat = 0x45 ∧ ip.length ≥ 28 ∧ wordSum (ip.take 20) % 65535 = 0 ∧
      (ip.getD 9 0).toNat = 17 ∧ beNat ((udp.drop 2).take 2) = s.pg 0x1100 2 ∧ 40 ≤ n ∧ n ≤ udp.length then
    some ((udp.drop 8).take (n - 8))
  else none

/-- A message targets this device (R488). -/
def aimedHere (s : State) (m : JdpMsg) : Bool :=
  match m.addrMode with
  | 0 => m.target == s.pg 0x1100 1 && s.pg 0x1100 1 != 0
  | 1 => m.target == m.hops
  | 2 => true
  | _ => false

/-- A message that the relay consumes when it targets this device: REQUEST, OPEN, CLOSE, image transfer. -/
def consumedType (t : Nat) : Bool := [1, 3, 5, 9, 10, 11, 12].contains t

/-- The frame leaves on the opposite port with one more hop. -/
def forwardFrame (port : Nat) (f : Bytes) (s : State) : State :=
  let out := 1 - port
  if mgmtUp s out then { s with sent := s.sent ++ [(out, f.modify 43 (· + 1))] }.pinc (0x1101 + port) 4 1 else s

/-- The relay delivers what it has consumed to the Summit, over the saddles from die 0 (R486); it waits while there is none, or no
way to it. -/
def relayDeliver (s : State) : State :=
  match s.summit with
  | none => s
  | some 0 => { s with inbox := s.inbox ++ s.relayed, relayed := [] }
  | some m =>
    if !(s.active.contains 0 && s.reach 0 m) then s
    else ({ s with relayed := [] } : State).each s.relayed (fun x s => s.send 0 m (.relay x.1 x.2))

/-- JDP_FRAME_RECEIVE (R487, R488, R578): a frame arrives on a management port. -/
def jdpFrameReceive (port : Nat) (f : Bytes) (s : State) : State :=
  if !mgmtUp s port then s
  else match jdpPayload s f with
    | none => s.pinc (0x1101 + port) 6 1
    | some b =>
      let m := jdpParse b
      let image := decide (9 ≤ m.msgType) && decide (m.msgType ≤ 12)
      if m.version ≠ 1 ∨ jdpPayloadLen b + 32 ≠ b.length then s.pinc 0x1150 7 1
      else if s.pg 0x1100 6 = 1 ∧ image ∧ m.addrMode = 2 then s.pinc 0x1150 7 1
      else
        let take := fun (s : State) => (relayDeliver { s with relayed := s.relayed ++ [(port, m)] }).pinc (0x1101 + port) 5 1
        let pass := fun (s : State) => if m.hops = 63 then s.pinc (0x1101 + port) 6 1 else forwardFrame port f s
        if s.pg 0x1100 6 = 1 ∧ consumedType m.msgType ∧ aimedHere s m then take s
        else if s.pg 0x1100 6 = 1 ∧ (m.msgType = 6 ∨ (m.msgType = 4 ∧ s.fwRelay.isSome)) then pass (take s)
        else pass s

/-! ### Messages reach the Summit -/

/-- Messages of the relay that have arrived reach the Summit; what arrived at a former Summit goes on to it. -/
def relayArrive (s : State) : State :=
  s.each ((s.msgs.filter (fun m => m.arrived && (match m.body with | .relay .. => true | _ => false))).map (·.dst)) fun d s =>
    s.receive d (fun b => match b with | .relay .. => true | _ => false) fun m s => match m.body, s.summit with
      | .relay p x, some h => if h = d then { s with inbox := s.inbox ++ [(p, x)] } else s.send d h (.relay p x)
      | .relay p x, none => { s with relayed := s.relayed ++ [(p, x)] }
      | _, _ => s

/-- Take the first message of a kind from those at the Summit. -/
def takeInbox (f : JdpMsg → Bool) : List (Nat × JdpMsg) → Option ((Nat × JdpMsg) × List (Nat × JdpMsg))
  | [] => none
  | x :: r => if f x.2 then some (x, r) else (takeInbox f r).map (fun y => (y.1, x :: y.2))

/-- Act on the first message of a kind at the Summit; without a Summit it waits, and during an in-place switch it goes unanswered
(R486, R582). -/
def onInbox (p : JdpMsg → Bool) (f : Nat → JdpMsg → State → State) (s : State) : State :=
  let s := relayDeliver (relayArrive s)
  if s.summit.isNone then s
  else match takeInbox p s.inbox with
    | none => s
    | some ((port, m), r) =>
      let s := { s with inbox := r }
      if inSwitch s then s else f port m s

/-- A message of a session passes its tag (R490) and its sequence (R492), and is acted on; a repeat, which the session
accepts too, gets its cached response, everything else is discarded and counted. -/
def inSession (port : Nat) (m : JdpMsg) (f : Nat → State → State) (s : State) : State :=
  let i := m.session - 1
  if !sessionOpen s m.session then s.pinc 0x1150 1 1
  else
    let k := (mget s.sessions i).key
    if jdpTag k m ≠ m.tag then s.pinc 0x1150 1 1
    else match seqClass s i m.sequence with
      | 0 => f i (seqAccept i m.sequence port s)
      | 1 =>
        match ((mget s.sessions i).cached).find? (fun c => c.1 == m.sequence) with
        | some c =>
          jdpReply port k c.2 (sessionSeen i port (s.pinc 0x1150 2 1))
        | none => s
      | _ => s.pinc 0x1150 3 1

/-! ### Requests (R489, Table 16.10) -/

/-- The selector of a code (Table 16.8). -/
def selOf (c : Nat) : Sel :=
  if c = 0 then .none
  else if h : 0x10 ≤ c ∧ c < 0x18 then .die ⟨c - 0x10, by omega⟩
  else if c = 0x1F then .all
  else .bad c

/-- The operation of an opcode (Table 16.8); others are no operation of the table. -/
def opOf (c : Nat) : Option AccOp := match c with
  | 1 => some .read | 2 => some .write | 3 => some .describe | _ => none

/-- An entry is carried byte 0 first on both paths (R470). -/
def isOctets (i sub : Nat) : Bool := match findEntry i sub with
  | some e => decide (e.ty = .octets)
  | none => false

/-- Access records of a payload: opcode code and access, with the header's selector byte; none when they overrun it. -/
def accessRecords : Nat → Bytes → Option (List (Nat × Nat × Access))
  | 0, _ => some []
  | n + 1, b =>
    let h := beNat (b.take 8)
    let len := bits h 15 0
    let i := bits h 47 32
    let sub := bits h 31 24
    let data := (b.drop 8).take len
    let a : Access := { op := (opOf (bits h 63 56)).getD .read, sel := selOf (bits h 55 48), idx := i, sub := sub, len := len
                        val := if isOctets i sub then leNat data else beNat data }
    if b.length < 8 + ceilDiv len 4 * 4 then none
    else (accessRecords n (b.drop (8 + ceilDiv len 4 * 4))).map ((bits h 63 56, bits h 55 48, a) :: ·)

/-- The reply data that an access can bring, in bytes, from the entries' sizes. -/
def replySize (op : Nat) (a : Access) : Nat :=
  match op, findEntry a.idx a.sub with
  | 1, some e => e.size
  | 2, some _ => cmdReplyLen a.idx a.sub
  | 3, some _ => 48
  | _, _ => 0

/-- A reply record (Table 16.10). -/
def jdpRecord (op sel : Nat) (a : Access) (x : Reply) : Bytes :=
  let data := if op == 3 || isOctets a.idx a.sub || op == 2 then toBytesLE x.len x.val else toBytes x.len x.val
  toBytes 8 (x.status <<< 56 ||| sel <<< 48 ||| a.idx <<< 32 ||| a.sub <<< 24 ||| x.len) ++ padTo (ceilDiv x.len 4 * 4) data

/-- The RESPONSE to a request of session i under a key; a session that is still open caches it (R492). -/
def jdpAnswer (port i : Nat) (k : Bytes) (m : JdpMsg) (status count : Nat) (p : Bytes) (s : State) : State :=
  let x : JdpMsg := { msgType := 2, session := m.session, sequence := m.sequence, status := status, count := count, payload := p }
  jdpReply port k x (if s.pg (0x1130 + i) 1 = 1 then cacheReply i m.sequence x s else s)

/-- The accesses of a request in order, each presented when the one before it has its reply (R479, R489); when all have theirs, the
RESPONSE. -/
def jdpGo (i : Nat) (j : JdpJob) : List (Nat × Nat × Access) → Bytes → State → State
  | [], out, s => jdpAnswer j.port i j.key j.msg 0 j.msg.count out { s with jdpJobs := mdel s.jdpJobs (16 + i) }
  | (op, sel, a) :: rest, out, s =>
    if (opOf op).isNone then jdpGo i j rest (out ++ jdpRecord op sel a { status := 0x1B }) (s.pinc (0x1130 + i) 6 1)
    else
      let s := endpoint (16 + i) a s
      if (mget? s.busy (16 + i)).isSome then
        { s with jdpJobs := mput s.jdpJobs (16 + i) { j with out := out, cur := (op, sel, a), rest := rest } }
      else jdpGo i j rest (out ++ jdpRecord op sel a (mget s.replies (16 + i))) s

/-- JDP_REQUEST (R489, R492): the accesses of a request. -/
def jdpRequest (port : Nat) (m : JdpMsg) (s : State) : State :=
  inSession port m (fun i s =>
    let k := (mget s.sessions i).key
    match (if 16 < m.count then none else accessRecords m.count m.payload) with
    | none => jdpAnswer port i k m 0x1C 0 [] s
    | some l =>
      if 1440 < (l.map (fun x => 8 + ceilDiv (replySize x.1 x.2.2) 4 * 4)).sum then jdpAnswer port i k m 0x1C 0 [] s
      else jdpGo i { port := port, key := k, msg := m } l [] s) s

/-- A session whose access has its reply goes on with its request. -/
def jdpResume (i : Nat) (s : State) : State :=
  match mget? s.jdpJobs (16 + i) with
  | none => s
  | some j =>
    if (mget? s.busy (16 + i)).isSome then s
    else jdpGo i j j.rest (j.out ++ jdpRecord j.cur.1 j.cur.2.1 j.cur.2.2 (mget s.replies (16 + i))) s

/-- The requester of a session is at a request. -/
def jdpBusy (s : State) (n : Nat) : Bool := decide (1 ≤ n) && (mget? s.jdpJobs (15 + n)).isSome

/-- Requests whose access has its reply go on, and the next request of a session that is at none begins. -/
def jdpServe (s : State) : State :=
  let s := s.each (List.range 16) jdpResume
  onInbox (fun m => m.msgType == 1 && !jdpBusy s m.session) jdpRequest s

/-! ### Sessions (R491 to R493) -/

/-- JDP_OPEN (R491): an enabled slot and a tag that passes open a session under a free number. -/
def jdpOpen (port : Nat) (m : JdpMsg) (s : State) : State :=
  let k := (m.payload.getD 0 0).toNat
  if 15 < k ∨ !(mget s.keys k).enable then s.pinc 0x1150 4 1
  else if jdpTag (slotKey s k) m ≠ m.tag ∨ m.payload.length ≠ 20 then s.pinc 0x1150 1 1
  else
    let free := (List.range 16).filter (fun i => s.pg (0x1130 + i) 1 != 1)
    let answer := fun (key : Bytes) (st lvl n nonce : Nat) (s : State) =>
      jdpReply port key { msgType := 4, session := n, sequence := m.sequence, payload := toBytes 1 st ++ toBytes 1 lvl ++ toBytes 2 0 ++ toBytes 16 nonce } s
    let (c, s) := s.fresh
    let (v, s) := s.fresh
    match free[c % free.length]? with
    | none => answer (slotKey s k) 0x11 0 0 (v % 2 ^ 128) s
    | some i =>
      let lvl := (mget s.keys k).level
      let key := sessionKey (slotKey s k) serialNo (i + 1) (beNat ((m.payload.drop 4).take 16)) (v % 2 ^ 128)
      let s := ((((s.pset (0x1130 + i) 1 1).pset (0x1130 + i) 2 k).pset (0x1130 + i) 3 lvl).pset (0x1130 + i) 4 0).pset (0x1130 + i) 7 port
      let s := (s.pset (0x1130 + i) 6 0).pinc (0x1140 + k) 4 1
      answer key 0 lvl (i + 1) (v % 2 ^ 128) { s with sessions := mput s.sessions i { key := key, last := s.now } }

/-- JDP_CLOSE (R492). -/
def jdpClose (_port : Nat) (m : JdpMsg) (s : State) : State :=
  if !sessionOpen s m.session then s.pinc 0x1150 1 1
  else if jdpTag (mget s.sessions (m.session - 1)).key m ≠ m.tag then s.pinc 0x1150 1 1
  else closeSession (m.session - 1) s

/-- JDP_DISCOVER (R493): one DISCOVER_REPLY, with a tag of 0. -/
def jdpDiscover (port : Nat) (m : JdpMsg) (s : State) : State :=
  let p := toBytes 2 (partCode s.part) ++ toBytes 8 serialNo ++ toBytes 4 (imageVersion (activeImage s)) ++ toBytes 2 (s.pg 0x1100 1) ++ toBytes 1 m.hops
  jdpOut port { msgType := 7, source := s.pg 0x1100 1, sequence := m.sequence, payload := p } (s.pinc 0x1150 6 1)

/-- SESSION_IDLE_TIMEOUT (R492). -/
def idleTimeout (i : Nat) (s : State) : State :=
  if s.pg (0x1130 + i) 1 = 1 ∧ (mget s.sessions i).last + s.pg 0x1100 5 * 10 ^ 9 ≤ s.now then closeSession i s else s

/-- An image message of a session (R578). -/
def jdpImage (port : Nat) (m : JdpMsg) (s : State) : State :=
  inSession port m (fun i s => imageMessage i port m s) s

/-- JDP_STATUS (R579, R580): a STATUS for the relay's session downstream. -/
def jdpStatus (port : Nat) (m : JdpMsg) (s : State) : State :=
  match s.fwRelay with
  | none => s
  | some r =>
    let h := beNat (m.payload.take 16)
    if r.step ≠ 2 ∨ r.port ≠ port ∨ m.session ≠ r.session then s
    else if jdpTag r.key m ≠ m.tag then s.pinc 0x1150 1 1
    else if bits h 127 96 ≠ r.transfer then s
    else relayStatus (bits h 95 64) (bits h 23 20) s

/-- JDP_FRAME_RECEIVE on a management port. -/
def execJdpFrameReceive (port : Fin 2) (f : Bytes) (s : State) : Host.Outcome State Fault Refusal := .next (jdpFrameReceive port f s)
/-- JDP_REQUEST: sessions whose accesses have their replies go on with their requests; then the first REQUEST at the Summit of a session
that is at none. -/
def execJdpRequest (s : State) : Host.Outcome State Fault Refusal := .next (jdpServe s)
/-- JDP_OPEN. -/
def execJdpOpen (s : State) : Host.Outcome State Fault Refusal := .next (onInbox (·.msgType == 3) jdpOpen s)
/-- JDP_OPEN_REPLY, with the package serial number of the device downstream. -/
def execJdpOpenReply (serial : BitVec 64) (s : State) : Host.Outcome State Fault Refusal :=
  .next (onInbox (·.msgType == 4) (fun port m s => relayOpened port serial.toNat m s) s)
/-- JDP_CLOSE. -/
def execJdpClose (s : State) : Host.Outcome State Fault Refusal := .next (onInbox (·.msgType == 5) jdpClose s)
/-- JDP_DISCOVER. -/
def execJdpDiscover (s : State) : Host.Outcome State Fault Refusal := .next (onInbox (·.msgType == 6) jdpDiscover s)
/-- SESSION_IDLE_TIMEOUT of one session. -/
def execSessionIdleTimeout (i : Fin 16) (s : State) : Host.Outcome State Fault Refusal := .next (idleTimeout i s)
/-- JDP_OFFER. -/
def execJdpOffer (s : State) : Host.Outcome State Fault Refusal := .next (onInbox (·.msgType == 9) jdpImage s)
/-- JDP_BLOCK. -/
def execJdpBlock (s : State) : Host.Outcome State Fault Refusal := .next (onInbox (·.msgType == 10) jdpImage s)
/-- JDP_STATUS. -/
def execJdpStatus (s : State) : Host.Outcome State Fault Refusal := .next (onInbox (·.msgType == 11) jdpStatus s)
/-- JDP_END. -/
def execJdpEnd (s : State) : Host.Outcome State Fault Refusal := .next (onInbox (·.msgType == 12) jdpImage s)

end Sys2Proof.Machine
end

