-- ==== Sys2Proof/Machine/Writes.lean ====
section
/-! DEFINITION. The rows of the table that are dictionary accesses: each is presented to the endpoint by a requester, which
checks it and carries it out (The Object Dictionary and JDP; the entry maps of every chapter). -/

namespace Sys2Proof.Machine

/-- The value of a table command (Table 7.11): opcode, table, its flags and cursor below bit 112, its record. -/
def commandOf (op table low : Nat) (rec : BitVec 512) : Nat := rec.toNat <<< 128 ||| op <<< 120 ||| table <<< 112 ||| low

/-- A table command presented by a requester (R243). -/
def tableBy (r : Nat) (sel : Sel) (op table low : Nat) (rec : BitVec 512) (s : State) : State :=
  writeBy r sel 0x4640 1 80 (commandOf op table low rec) s

/-- The value of a page command (Table 9.6). -/
def pageValue (op region page hpa : Nat) (fill : Bool) : Nat := op <<< 120 ||| region <<< 117 ||| b2n fill <<< 116 ||| page <<< 64 ||| hpa

/-- A page command presented by a requester (R306). -/
def pageBy (r : Nat) (sel : Sel) (op : Nat) (region : Fin 8) (page : BitVec 32) (hpa : BitVec 31) (fill : Bool) (s : State) : State :=
  writeBy r sel 0x4411 1 16 (pageValue op region page.toNat hpa.toNat fill) s

/-- Index of a counter set: clusters 0 to 15, search units 16 to 19 (R566). -/
def setIndex (k : Nat) : Nat := if k < 16 then 0x4580 + k else 0x4590 + (k - 16)

/-- DICT_WRITE (R477): a write of any entry; `len` bytes, `v` their value least significant byte first. -/
def execDictWrite (r : Requester) (sel : Sel) (i : Fin 65536) (sub : Fin 256) (len : Fin 1033) (v : BitVec 8256) (s : State) : Host.Outcome State Fault Refusal :=
  .next (writeBy r sel i sub len (v.toNat % 2 ^ (8 * len.val)) s)
/-- RC_READ (R472): a read access, which clears a read-clear counter. -/
def execRcRead (r : Requester) (sel : Sel) (i : Fin 65536) (sub : Fin 256) (s : State) : Host.Outcome State Fault Refusal :=
  .next (endpoint r { op := .read, sel := sel, idx := i, sub := sub } s)
/-- DESCRIBE (R483). -/
def execDescribe (r : Requester) (i : Fin 65536) (sub : Fin 256) (s : State) : Host.Outcome State Fault Refusal :=
  .next (endpoint r { op := .describe, idx := i, sub := sub } s)
/-- MAILBOX_GO (R484, R479): the mailboxes of the endpoints that are started in one cycle, each with the request written to it. -/
def execMailboxGo (l : List (Fin 2 × Fin 8 × Bool × Access)) (s : State) : Host.Outcome State Fault Refusal :=
  .next (mailboxGo l s)
/-- DIE_ACCESS_MESSAGE (R480) at a die. -/
def execDieAccessMessage (d : DieId) (s : State) : Host.Outcome State Fault Refusal :=
  onPresent d (dieAccess d) s
/-- BROADCAST_APPLY (R57) at a die. -/
def execBroadcastApply (d : DieId) (s : State) : Host.Outcome State Fault Refusal :=
  onPresent d (bcastApply d) s
/-- BROADCAST_COMPLETE (R56) of a requester. -/
def execBroadcastComplete (r : Requester) (s : State) : Host.Outcome State Fault Refusal :=
  .next (bcastDone r s)
/-- DIE_REJOIN (R54): a write of 1800.08. -/
def execDieRejoin (r : Requester) (v : BitVec 32) (s : State) : Host.Outcome State Fault Refusal :=
  .next (writeBy r .none 0x1800 8 4 v.toNat s)
/-- FIB_INSERT (R209 to R212) with the record of Table 6.12. -/
def execFibInsert (r : Requester) (sel : Sel) (rec : BitVec 512) (s : State) : Host.Outcome State Fault Refusal :=
  .next (tableBy r sel 1 1 0 rec s)
/-- FIB_DELETE (R209 to R212). -/
def execFibDelete (r : Requester) (sel : Sel) (rec : BitVec 512) (s : State) : Host.Outcome State Fault Refusal :=
  .next (tableBy r sel 2 1 0 rec s)
/-- MIGRATE_COPY_DONE. -/
def execMigrateCopyDone (d : DieId) (poisoned : List (Fin 32768)) (s : State) : Host.Outcome State Fault Refusal :=
  onLive d (migrated d poisoned) s
/-- FIB_HOME_OUTCOME (R210) at a die. -/
def execFibHomeOutcome (d : DieId) (s : State) : Host.Outcome State Fault Refusal :=
  onPresent d (fibOutcome d) s
/-- HOME_DIE_MAP_WRITE (R214). -/
def execHomeDieMapWrite (r : Requester) (sub : Fin 256) (v : BitVec 8) (s : State) : Host.Outcome State Fault Refusal :=
  .next (writeBy r .none 0x1810 sub 1 v.toNat s)
/-- TABLE_INSERT (R245) in a table by its id. -/
def execTableInsert (r : Requester) (sel : Sel) (t : BitVec 8) (static : Bool) (rec : BitVec 512) (s : State) : Host.Outcome State Fault Refusal :=
  .next (tableBy r sel 1 t.toNat (b2n static <<< 107) rec s)
/-- TABLE_DELETE (R245). -/
def execTableDelete (r : Requester) (sel : Sel) (t : BitVec 8) (rec : BitVec 512) (s : State) : Host.Outcome State Fault Refusal :=
  .next (tableBy r sel 2 t.toNat 0 rec s)
/-- TABLE_SEARCH (R245). -/
def execTableSearch (r : Requester) (sel : Sel) (t : BitVec 8) (rec : BitVec 512) (s : State) : Host.Outcome State Fault Refusal :=
  .next (tableBy r sel 3 t.toNat 0 rec s)
/-- TABLE_NEXT (R246). -/
def execTableNext (r : Requester) (sel : Sel) (t : BitVec 8) (cursor : BitVec 64) (s : State) : Host.Outcome State Fault Refusal :=
  .next (tableBy r sel 4 t.toNat cursor.toNat 0 s)
/-- FLUSH_BY_PORT (R247). -/
def execFlushByPort (r : Requester) (sel : Sel) (t : BitVec 8) (port : BitVec 9) (statics : Bool) (filter : Option (BitVec 14)) (s : State) : Host.Outcome State Fault Refusal :=
  .next (tableBy r sel 5 t.toNat (port.toNat <<< 77 ||| b2n statics <<< 106 ||| (match filter with | some f => 1 <<< 105 ||| f.toNat <<< 86 | none => 0)) 0 s)
/-- SHADOW_MODE_WRITE (R251). -/
def execShadowModeWrite (r : Requester) (sub : Fin 256) (v : BitVec 8) (s : State) : Host.Outcome State Fault Refusal :=
  .next (writeBy r .none 0x2220 sub 1 v.toNat s)
/-- RULE_INSERT (R273) in a rule table. -/
def execRuleInsert (r : Requester) (sel : Sel) (t : Fin 14) (rec : BitVec 512) (s : State) : Host.Outcome State Fault Refusal :=
  .next (tableBy r sel 1 (0x20 + t) 0 rec s)
/-- RULE_DELETE (R273) in a rule table. -/
def execRuleDelete (r : Requester) (sel : Sel) (t : Fin 14) (rec : BitVec 512) (s : State) : Host.Outcome State Fault Refusal :=
  .next (tableBy r sel 2 (0x20 + t) 0 rec s)
/-- RULE_SEARCH (R273) in a rule table. -/
def execRuleSearch (r : Requester) (sel : Sel) (t : Fin 14) (rec : BitVec 512) (s : State) : Host.Outcome State Fault Refusal :=
  .next (tableBy r sel 3 (0x20 + t) 0 rec s)
/-- RULE_NEXT (R273). -/
def execRuleNext (r : Requester) (sel : Sel) (t : Fin 14) (cursor : BitVec 64) (s : State) : Host.Outcome State Fault Refusal :=
  .next (tableBy r sel 4 (0x20 + t) cursor.toNat 0 s)
/-- EPOCH_INHERIT (R274). -/
def execEpochInherit (r : Requester) (s : State) : Host.Outcome State Fault Refusal :=
  .next (writeBy r .none 0x2300 7 0 0 s)
/-- EPOCH_DISCARD_NEXT (R274). -/
def execEpochDiscardNext (r : Requester) (s : State) : Host.Outcome State Fault Refusal :=
  .next (writeBy r .none 0x2300 8 0 0 s)
/-- EPOCH_SWAP (R275). -/
def execEpochSwap (r : Requester) (s : State) : Host.Outcome State Fault Refusal :=
  .next (writeBy r .none 0x2300 6 0 0 s)
/-- FORCE_RETIRE (R278). -/
def execForceRetire (r : Requester) (s : State) : Host.Outcome State Fault Refusal :=
  .next (writeBy r .none 0x2300 9 0 0 s)
/-- PAGE_MAP (R307). -/
def execPageMap (r : Requester) (sel : Sel) (region : Fin 8) (page : BitVec 32) (hpa : BitVec 31) (fill : Bool) (s : State) : Host.Outcome State Fault Refusal :=
  .next (pageBy r sel 1 region page hpa fill s)
/-- PAGE_UNMAP (R307). -/
def execPageUnmap (r : Requester) (sel : Sel) (region : Fin 8) (page : BitVec 32) (s : State) : Host.Outcome State Fault Refusal :=
  .next (pageBy r sel 2 region page 0 false s)
/-- PAGE_MIGRATE (R308). -/
def execPageMigrate (r : Requester) (sel : Sel) (region : Fin 8) (page : BitVec 32) (hpa : BitVec 31) (s : State) : Host.Outcome State Fault Refusal :=
  .next (pageBy r sel 3 region page hpa false s)
/-- PAGE_POISON (R307). -/
def execPagePoison (r : Requester) (sel : Sel) (region : Fin 8) (page : BitVec 32) (s : State) : Host.Outcome State Fault Refusal :=
  .next (pageBy r sel 4 region page 0 false s)
/-- PAGE_REPAIR (R307). -/
def execPageRepair (r : Requester) (sel : Sel) (region : Fin 8) (page : BitVec 32) (hpa : BitVec 31) (fill : Bool) (s : State) : Host.Outcome State Fault Refusal :=
  .next (pageBy r sel 5 region page hpa fill s)
/-- PAGE_QUERY (R307). -/
def execPageQuery (r : Requester) (sel : Sel) (region : Fin 8) (page : BitVec 32) (s : State) : Host.Outcome State Fault Refusal :=
  .next (pageBy r sel 6 region page 0 false s)
/-- SHAPER_RATE_WRITE (R347) of a node of a slot. -/
def execShaperRateWrite (r : Requester) (sel : Sel) (slot : Slot) (n : Fin 13) (v : BitVec 32) (s : State) : Host.Outcome State Fault Refusal :=
  .next (writeBy r sel (0x4880 + slot) (0x30 + n) 4 v.toNat s)
/-- SHAPER_BURST_WRITE (R347). -/
def execShaperBurstWrite (r : Requester) (sel : Sel) (slot : Slot) (n : Fin 13) (v : BitVec 32) (s : State) : Host.Outcome State Fault Refusal :=
  .next (writeBy r sel (0x4880 + slot) (0x40 + n) 4 v.toNat s)
/-- SHAPER_RESET (R347). -/
def execShaperReset (r : Requester) (sel : Sel) (slot : Slot) (n : Fin 13) (s : State) : Host.Outcome State Fault Refusal :=
  .next (writeBy r sel (0x4880 + slot) (0x50 + n) 1 1 s)
/-- APPLY_TEMPLATE (R369). -/
def execApplyTemplate (r : Requester) (sel : Sel) (slot : Slot) (t : BitVec 8) (s : State) : Host.Outcome State Fault Refusal :=
  .next (writeBy r sel (0x4880 + slot) 1 1 t.toNat s)
/-- GATE_LIST_WRITE (R356). -/
def execGateListWrite (r : Requester) (sel : Sel) (rec : BitVec 512) (s : State) : Host.Outcome State Fault Refusal :=
  .next (tableBy r sel 1 7 0 rec s)
/-- CONFIG_CHANGE (R358). -/
def execConfigChange (r : Requester) (sel : Sel) (slot : Slot) (s : State) : Host.Outcome State Fault Refusal :=
  .next (writeBy r sel (0x4840 + slot) 9 1 1 s)
/-- MERIDIAN_SET (R364). -/
def execMeridianSet (r : Requester) (t : BitVec 80) (s : State) : Host.Outcome State Fault Refusal :=
  .next (writeBy r .none 0x1600 2 10 t.toNat s)
/-- MERIDIAN_STEP (R364). -/
def execMeridianStep (r : Requester) (v : BitVec 32) (s : State) : Host.Outcome State Fault Refusal :=
  .next (writeBy r .none 0x1600 3 4 v.toNat s)
/-- FREQ_ADJ_WRITE (R364). -/
def execFreqAdjWrite (r : Requester) (v : BitVec 32) (s : State) : Host.Outcome State Fault Refusal :=
  .next (writeBy r .none 0x1600 4 4 v.toNat s)
/-- LANE_GROUP_MODE_WRITE (R373). -/
def execLaneGroupModeWrite (r : Requester) (sel : Sel) (g : Fin 4) (m : BitVec 8) (s : State) : Host.Outcome State Fault Refusal :=
  .next (writeBy r sel 0x4000 (g + 1) 1 m.toNat s)
/-- PORT_ENABLE_WRITE (R512). -/
def execPortEnableWrite (r : Requester) (sel : Sel) (slot : Slot) (on : Bool) (s : State) : Host.Outcome State Fault Refusal :=
  .next (writeBy r sel (0x4010 + slot) 1 1 (b2n on) s)
/-- SNAPSHOT (R388, R389). -/
def execSnapshot (r : Requester) (sel : Sel) (s : State) : Host.Outcome State Fault Refusal :=
  .next (writeBy r sel 0x4900 1 1 1 s)
/-- LINK_ENABLE_WRITE (R408). -/
def execLinkEnableWrite (r : Requester) (sel : Sel) (v : BitVec 32) (s : State) : Host.Outcome State Fault Refusal :=
  .next (writeBy r sel 0x4100 2 4 v.toNat s)
/-- RETRAIN_NOW (R437). -/
def execRetrainNow (r : Requester) (sel : Sel) (v : BitVec 32) (s : State) : Host.Outcome State Fault Refusal :=
  .next (writeBy r sel 0x4300 6 4 v.toNat s)
/-- PATTERN_COMMAND (R432). -/
def execPatternCommand (r : Requester) (sel : Sel) (k : Fin 2) (v : BitVec 128) (s : State) : Host.Outcome State Fault Refusal :=
  .next (writeBy r sel (0x4320 + k) 1 16 v.toNat s)
/-- FULL_TRAIN (R439). -/
def execFullTrain (r : Requester) (sel : Sel) (v : BitVec 32) (s : State) : Host.Outcome State Fault Refusal :=
  .next (writeBy r sel 0x4300 7 4 v.toNat s)
/-- ATT_INVALIDATE (R455). -/
def execAttInvalidate (r : Requester) (e : Fin 2) (first last : BitVec 48) (s : State) : Host.Outcome State Fault Refusal :=
  .next (writeBy r .none (0x1120 + e) 7 16 (first.toNat <<< 80 ||| last.toNat <<< 32) s)
/-- RING_ENABLE_WRITE (R460). -/
def execRingEnableWrite (r : Requester) (sel : Sel) (k : Fin 32) (on : Bool) (s : State) : Host.Outcome State Fault Refusal :=
  .next (writeBy r sel (0x4440 + k) 1 1 (b2n on) s)
/-- BATCH_RUN (R464) of a die. -/
def execBatchRun (d : DieId) (slot : BitVec 256) (cmds : List (BitVec 640)) (atts : List (Nat × BitVec 64)) (s : State) : Host.Outcome State Fault Refusal :=
  onLive d (batchRun d slot cmds atts) s
/-- SESSION_CLOSE (R492). -/
def execSessionClose (r : Requester) (i : Fin 16) (s : State) : Host.Outcome State Fault Refusal :=
  .next (writeBy r .none (0x1130 + i) 8 0 0 s)
/-- KEY_SLOT_WRITE (R494): entry 1140+k.(sub + 1). -/
def execKeySlotWrite (r : Requester) (k : Fin 16) (sub : Fin 3) (v : BitVec 256) (s : State) : Host.Outcome State Fault Refusal :=
  .next (writeBy r .none (0x1140 + k) (sub + 1) (if sub = 0 then 32 else 1) (if sub = 0 then v.toNat else v.toNat % 256) s)
/-- MODE_REQUEST_STANDBY (R500). -/
def execModeRequestStandby (r : Requester) (s : State) : Host.Outcome State Fault Refusal :=
  .next (writeBy r .none 0x1200 2 1 1 s)
/-- MODE_REQUEST_BRINGUP (R500). -/
def execModeRequestBringup (r : Requester) (s : State) : Host.Outcome State Fault Refusal :=
  .next (writeBy r .none 0x1200 2 1 2 s)
/-- MODE_REQUEST_FORWARDING (R500). -/
def execModeRequestForwarding (r : Requester) (s : State) : Host.Outcome State Fault Refusal :=
  .next (writeBy r .none 0x1200 2 1 3 s)
/-- MODE_REQUEST_DRAIN (R500). -/
def execModeRequestDrain (r : Requester) (s : State) : Host.Outcome State Fault Refusal :=
  .next (writeBy r .none 0x1200 2 1 6 s)
/-- MODE_REQUEST_QUIESCE (R500). -/
def execModeRequestQuiesce (r : Requester) (s : State) : Host.Outcome State Fault Refusal :=
  .next (writeBy r .none 0x1200 2 1 7 s)
/-- MODE_REQUEST_DIAGNOSTIC (R500). -/
def execModeRequestDiagnostic (r : Requester) (s : State) : Host.Outcome State Fault Refusal :=
  .next (writeBy r .none 0x1200 2 1 11 s)
/-- MODE_REQUEST_FACTORY (R500). -/
def execModeRequestFactory (r : Requester) (s : State) : Host.Outcome State Fault Refusal :=
  .next (writeBy r .none 0x1200 2 1 12 s)
/-- DOMAIN_REQUEST_WRITE (R510). -/
def execDomainRequestWrite (r : Requester) (d : DieId) (n : Fin 80) (v : BitVec 8) (s : State) : Host.Outcome State Fault Refusal :=
  .next (writeBy r .none (0x1320 + d) n 1 v.toNat s)
/-- PACKAGE_RESET (R516). -/
def execPackageReset (r : Requester) (s : State) : Host.Outcome State Fault Refusal :=
  .next (writeBy r .none 0x1200 8 0 0 s)
/-- LOG_ACK (R529). -/
def execLogAck (r : Requester) (v : BitVec 32) (s : State) : Host.Outcome State Fault Refusal :=
  .next (writeBy r .none 0x1400 0xB 4 v.toNat s)
/-- FIRST_FAULT_CLEAR (R525). -/
def execFirstFaultClear (r : Requester) (s : State) : Host.Outcome State Fault Refusal :=
  .next (writeBy r .none 0x1400 7 0 0 s)
/-- LOG_READ (R542). -/
def execLogRead (r : Requester) (v : BitVec 32) (s : State) : Host.Outcome State Fault Refusal :=
  .next (writeBy r .none 0x1401 1 4 v.toNat s)
/-- DIE_LOG_READ (R527). -/
def execDieLogRead (r : Requester) (v : BitVec 32) (s : State) : Host.Outcome State Fault Refusal :=
  .next (writeBy r .none 0x1401 2 4 v.toNat s)
/-- DUMP_NOW (R533). -/
def execDumpNow (r : Requester) (v : BitVec 32) (s : State) : Host.Outcome State Fault Refusal :=
  .next (writeBy r .none 0x1402 2 4 v.toNat s)
/-- DUMP_ACK (R534). -/
def execDumpAck (r : Requester) (v : BitVec 32) (s : State) : Host.Outcome State Fault Refusal :=
  .next (writeBy r .none 0x1402 3 4 v.toNat s)
/-- FAULT_INJECT (R541). -/
def execFaultInject (r : Requester) (v : BitVec 128) (s : State) : Host.Outcome State Fault Refusal :=
  .next (writeBy r .none 0x1440 1 16 v.toNat s)
/-- DIAG_LOOPBACK (R556). -/
def execDiagLoopback (r : Requester) (v : BitVec 32) (s : State) : Host.Outcome State Fault Refusal :=
  .next (writeBy r .none 0x1720 1 4 v.toNat s)
/-- DIAG_PATTERN (R556). -/
def execDiagPattern (r : Requester) (v : BitVec 32) (s : State) : Host.Outcome State Fault Refusal :=
  .next (writeBy r .none 0x1720 2 4 v.toNat s)
/-- COUNTER_VALUE_WRITE (R557). -/
def execCounterValueWrite (r : Requester) (sel : Sel) (k : Fin 20) (n : Fin 8) (v : BitVec 64) (s : State) : Host.Outcome State Fault Refusal :=
  .next (writeBy r sel (setIndex k) (0x20 + n) 8 v.toNat s)
/-- SAMPLE_READ (R566). -/
def execSampleRead (r : Requester) (sel : Sel) (k : Fin 20) (first : BitVec 32) (s : State) : Host.Outcome State Fault Refusal :=
  .next (writeBy r sel (setIndex k) 0x34 4 first.toNat s)
/-- SAMPLE_CLEAR (R566). -/
def execSampleClear (r : Requester) (sel : Sel) (k : Fin 20) (s : State) : Host.Outcome State Fault Refusal :=
  .next (writeBy r sel (setIndex k) 0x35 0 0 s)
/-- HOST_OFFER (R574). -/
def execHostOffer (r : Requester) (h : BitVec 1024) (s : State) : Host.Outcome State Fault Refusal :=
  .next (writeBy r .none 0x1501 5 128 h.toNat s)
/-- HOST_BLOCK (R579). -/
def execHostBlock (r : Requester) (v : BitVec 8256) (s : State) : Host.Outcome State Fault Refusal :=
  .next (writeBy r .none 0x1501 6 1032 v.toNat s)
/-- HOST_END (R577). -/
def execHostEnd (r : Requester) (s : State) : Host.Outcome State Fault Refusal :=
  .next (writeBy r .none 0x1501 7 0 0 s)
/-- FW_ABORT (R576). -/
def execFwAbort (r : Requester) (s : State) : Host.Outcome State Fault Refusal :=
  .next (writeBy r .none 0x1501 8 0 0 s)
/-- ACTIVATE (R582). -/
def execActivate (r : Requester) (s : State) : Host.Outcome State Fault Refusal :=
  .next (writeBy r .none 0x1500 0xA 0 0 s)
/-- INPLACE_SWITCH_DONE (R582); `crcBad`: the CRC of the settings slot fails. -/
def execInplaceSwitchDone (crcBad : Bool) (s : State) : Host.Outcome State Fault Refusal :=
  .next (switchEnd crcBad s)
/-- CONFIRM (R583). -/
def execConfirm (r : Requester) (s : State) : Host.Outcome State Fault Refusal :=
  .next (writeBy r .none 0x1500 0xB 0 0 s)
/-- REVERT (R584). -/
def execRevert (r : Requester) (s : State) : Host.Outcome State Fault Refusal :=
  .next (writeBy r .none 0x1500 0xC 0 0 s)
/-- SETTINGS_ACCEPT (R586). -/
def execSettingsAccept (r : Requester) (s : State) : Host.Outcome State Fault Refusal :=
  .next (writeBy r .none 0x1503 5 0 0 s)
/-- SETTINGS_FALLBACK (R586). -/
def execSettingsFallback (r : Requester) (s : State) : Host.Outcome State Fault Refusal :=
  .next (writeBy r .none 0x1503 6 0 0 s)

end Sys2Proof.Machine
end

