-- ==== Sys2Proof/Machine/Dispatch.lean ====
section
/-! DEFINITION. The effect of each command: one direct call of its meaning per constructor. -/

namespace Sys2Proof.Machine

/-- The effect of a command on everything but the queue. -/
def exec (i : Instr) (s : State) : Host.Outcome State Fault Refusal :=
  match i with
  | .dictWrite xr xsel xi xsub xlen xv => Sys2Proof.Machine.execDictWrite xr xsel xi xsub xlen xv s
  | .rcRead xr xsel xi xsub => Sys2Proof.Machine.execRcRead xr xsel xi xsub s
  | .describe xr xi xsub => Sys2Proof.Machine.execDescribe xr xi xsub s
  | .mailboxGo xl => Sys2Proof.Machine.execMailboxGo xl s
  | .dieAccessMessage xd => Sys2Proof.Machine.execDieAccessMessage xd s
  | .broadcastApply xd => Sys2Proof.Machine.execBroadcastApply xd s
  | .broadcastComplete xr => Sys2Proof.Machine.execBroadcastComplete xr s
  | .settingsSave => Sys2Proof.Machine.execSettingsSave s
  | .saddleFlitReceive xd xk xok => Sys2Proof.Machine.execSaddleFlitReceive xd xk xok s
  | .saddleNakReceive xd xk => Sys2Proof.Machine.execSaddleNakReceive xd xk s
  | .saddleAckReceive xd xk => Sys2Proof.Machine.execSaddleAckReceive xd xk s
  | .saddleTransferComplete xd xk => Sys2Proof.Machine.execSaddleTransferComplete xd xk s
  | .routeTableReceive xd => Sys2Proof.Machine.execRouteTableReceive xd s
  | .saddleUtilWindowEnd xd xk xutil => Sys2Proof.Machine.execSaddleUtilWindowEnd xd xk xutil s
  | .laneReq xd xk => Sys2Proof.Machine.execLaneReq xd xk s
  | .laneAck xd xk => Sys2Proof.Machine.execLaneAck xd xk s
  | .saddleLaneWakeDone xd xk => Sys2Proof.Machine.execSaddleLaneWakeDone xd xk s
  | .heartbeatTick => Sys2Proof.Machine.execHeartbeatTick s
  | .heartbeatTimeout xd => Sys2Proof.Machine.execHeartbeatTimeout xd s
  | .startPulseSeen xd => Sys2Proof.Machine.execStartPulseSeen xd s
  | .electionBitSample xd => Sys2Proof.Machine.execElectionBitSample xd s
  | .electionNoSummit => Sys2Proof.Machine.execElectionNoSummit s
  | .beaconStuckLow xd => Sys2Proof.Machine.execBeaconStuckLow xd s
  | .beaconStuckHigh xd => Sys2Proof.Machine.execBeaconStuckHigh xd s
  | .beaconFaultyNotice xd => Sys2Proof.Machine.execBeaconFaultyNotice xd s
  | .summitTokenTick => Sys2Proof.Machine.execSummitTokenTick s
  | .summitTokenReceive xd => Sys2Proof.Machine.execSummitTokenReceive xd s
  | .tokenTimeout xd => Sys2Proof.Machine.execTokenTimeout xd s
  | .dieRejoin xr xv => Sys2Proof.Machine.execDieRejoin xr xv s
  | .flashAgentAppear => Sys2Proof.Machine.execFlashAgentAppear s
  | .frameStart xd xframes => Sys2Proof.Machine.execFrameStart xd xframes s
  | .parseStart xd xslot => Sys2Proof.Machine.execParseStart xd xslot s
  | .frameTailReceive xd xslot xrest xcw => Sys2Proof.Machine.execFrameTailReceive xd xslot xrest xcw s
  | .packetDispatch xd xq => Sys2Proof.Machine.execPacketDispatch xd xq s
  | .dispatchRecordReceive xd => Sys2Proof.Machine.execDispatchRecordReceive xd s
  | .returnRecordReceive xd => Sys2Proof.Machine.execReturnRecordReceive xd s
  | .dispatchQueueRequest xd xc xreqs => Sys2Proof.Machine.execDispatchQueueRequest xd xc xreqs s
  | .threadStart xd xc => Sys2Proof.Machine.execThreadStart xd xc s
  | .stealLook xd => Sys2Proof.Machine.execStealLook xd s
  | .stealArrive xd xc => Sys2Proof.Machine.execStealArrive xd xc s
  | .parkRequest xd xreqs => Sys2Proof.Machine.execParkRequest xd xreqs s
  | .parkComplete xd xc xt => Sys2Proof.Machine.execParkComplete xd xc xt s
  | .contextResume xd xx => Sys2Proof.Machine.execContextResume xd xx s
  | .preempt xd => Sys2Proof.Machine.execPreempt xd s
  | .contextRestart xd xw => Sys2Proof.Machine.execContextRestart xd xw s
  | .nop xd xc xt => Sys2Proof.Machine.execNop xd xc xt s
  | .mov xd xc xt => Sys2Proof.Machine.execMov xd xc xt s
  | .add xd xc xt => Sys2Proof.Machine.execAdd xd xc xt s
  | .sub xd xc xt => Sys2Proof.Machine.execSub xd xc xt s
  | .and xd xc xt => Sys2Proof.Machine.execAnd xd xc xt s
  | .or xd xc xt => Sys2Proof.Machine.execOr xd xc xt s
  | .xor xd xc xt => Sys2Proof.Machine.execXor xd xc xt s
  | .andn xd xc xt => Sys2Proof.Machine.execAndn xd xc xt s
  | .shl xd xc xt => Sys2Proof.Machine.execShl xd xc xt s
  | .shr xd xc xt => Sys2Proof.Machine.execShr xd xc xt s
  | .ext xd xc xt => Sys2Proof.Machine.execExt xd xc xt s
  | .ins xd xc xt => Sys2Proof.Machine.execIns xd xc xt s
  | .cmp xd xc xt => Sys2Proof.Machine.execCmp xd xc xt s
  | .minu xd xc xt => Sys2Proof.Machine.execMinu xd xc xt s
  | .maxu xd xc xt => Sys2Proof.Machine.execMaxu xd xc xt s
  | .popc xd xc xt => Sys2Proof.Machine.execPopc xd xc xt s
  | .clz xd xc xt => Sys2Proof.Machine.execClz xd xc xt s
  | .next xd xc xt => Sys2Proof.Machine.execNext xd xc xt s
  | .jump xd xc xt => Sys2Proof.Machine.execJump xd xc xt s
  | .mway xd xc xt => Sys2Proof.Machine.execMway xd xc xt s
  | .call xd xc xt => Sys2Proof.Machine.execCall xd xc xt s
  | .ret xd xc xt => Sys2Proof.Machine.execRet xd xc xt s
  | .endWord xd xc xt => Sys2Proof.Machine.execEnd xd xc xt s
  | .ldh xd xc xt => Sys2Proof.Machine.execLdh xd xc xt s
  | .ldhx xd xc xt => Sys2Proof.Machine.execLdhx xd xc xt s
  | .jhdr xd xc xt => Sys2Proof.Machine.execJhdr xd xc xt s
  | .jhdrx xd xc xt => Sys2Proof.Machine.execJhdrx xd xc xt s
  | .jdesc xd xc xt => Sys2Proof.Machine.execJdesc xd xc xt s
  | .jcnt xd xc xt => Sys2Proof.Machine.execJcnt xd xc xt s
  | .jmeter xd xc xt => Sys2Proof.Machine.execJmeter xd xc xt s
  | .jctx xd xc xt => Sys2Proof.Machine.execJctx xd xc xt s
  | .jevt xd xc xt => Sys2Proof.Machine.execJevt xd xc xt s
  | .commit xd xc xt => Sys2Proof.Machine.execCommit xd xc xt s
  | .cntrd xd xc xt => Sys2Proof.Machine.execCntrd xd xc xt s
  | .searchIssue xd xc xt => Sys2Proof.Machine.execSearchIssue xd xc xt s
  | .searchResponse xd => Sys2Proof.Machine.execSearchResponse xd s
  | .journalEntryDrain xd xc xt => Sys2Proof.Machine.execJournalEntryDrain xd xc xt s
  | .csFetchParityFail xd xc xt xfails => Sys2Proof.Machine.execCsFetchParityFail xd xc xt xfails s
  | .csReloadDone xd xc xa xok => Sys2Proof.Machine.execCsReloadDone xd xc xa xok s
  | .rollingLoadClusterEmpty xd xc => Sys2Proof.Machine.execRollingLoadClusterEmpty xd xc s
  | .clusterStoreWritten xd xc xbad => Sys2Proof.Machine.execClusterStoreWritten xd xc xbad s
  | .reseqArrive xd xeg => Sys2Proof.Machine.execReseqArrive xd xeg s
  | .holeTimeout xd xeg xk => Sys2Proof.Machine.execHoleTimeout xd xeg xk s
  | .holeMarkerReceive xd => Sys2Proof.Machine.execHoleMarkerReceive xd s
  | .reseqRelease xd xeg xout => Sys2Proof.Machine.execReseqRelease xd xeg xout s
  | .rewrite xd => Sys2Proof.Machine.execRewrite xd s
  | .recircInput xd => Sys2Proof.Machine.execRecircInput xd s
  | .fibLookup xd xu xgrants => Sys2Proof.Machine.execFibLookup xd xu xgrants s
  | .fibResolve xd xu => Sys2Proof.Machine.execFibResolve xd xu s
  | .deepReadComplete xd xpoison => Sys2Proof.Machine.execDeepReadComplete xd xpoison s
  | .deepStagingAdmit xd => Sys2Proof.Machine.execDeepStagingAdmit xd s
  | .fibInsert xr xsel xrec => Sys2Proof.Machine.execFibInsert xr xsel xrec s
  | .fibDelete xr xsel xrec => Sys2Proof.Machine.execFibDelete xr xsel xrec s
  | .fibHomeOutcome xd => Sys2Proof.Machine.execFibHomeOutcome xd s
  | .stemRebuild xd => Sys2Proof.Machine.execStemRebuild xd s
  | .homeDieMapWrite xr xsub xv => Sys2Proof.Machine.execHomeDieMapWrite xr xsub xv s
  | .exactSearch xd xu xgrants => Sys2Proof.Machine.execExactSearch xd xu xgrants s
  | .tableInsert xr xsel xt xstatic xrec => Sys2Proof.Machine.execTableInsert xr xsel xt xstatic xrec s
  | .tableDelete xr xsel xt xrec => Sys2Proof.Machine.execTableDelete xr xsel xt xrec s
  | .tableSearch xr xsel xt xrec => Sys2Proof.Machine.execTableSearch xr xsel xt xrec s
  | .tableNext xr xsel xt xcursor => Sys2Proof.Machine.execTableNext xr xsel xt xcursor s
  | .flushByPort xr xsel xt xport xstatics xfilter => Sys2Proof.Machine.execFlushByPort xr xsel xt xport xstatics xfilter s
  | .flushStep xd => Sys2Proof.Machine.execFlushStep xd s
  | .learnEventProcess xd => Sys2Proof.Machine.execLearnEventProcess xd s
  | .ageingSweepVisit xd xt => Sys2Proof.Machine.execAgeingSweepVisit xd xt s
  | .shadowModeWrite xr xsub xv => Sys2Proof.Machine.execShadowModeWrite xr xsub xv s
  | .shadowCopyDone xsub => Sys2Proof.Machine.execShadowCopyDone xsub s
  | .scrubBucket xd xpoison => Sys2Proof.Machine.execScrubBucket xd xpoison s
  | .scrubRecheck xd xpoison => Sys2Proof.Machine.execScrubRecheck xd xpoison s
  | .ternarySearch xd xu => Sys2Proof.Machine.execTernarySearch xd xu s
  | .ruleInsert xr xsel xt xrec => Sys2Proof.Machine.execRuleInsert xr xsel xt xrec s
  | .ruleDelete xr xsel xt xrec => Sys2Proof.Machine.execRuleDelete xr xsel xt xrec s
  | .ruleSearch xr xsel xt xrec => Sys2Proof.Machine.execRuleSearch xr xsel xt xrec s
  | .ruleNext xr xsel xt xcursor => Sys2Proof.Machine.execRuleNext xr xsel xt xcursor s
  | .epochInherit xr => Sys2Proof.Machine.execEpochInherit xr s
  | .epochDiscardNext xr => Sys2Proof.Machine.execEpochDiscardNext xr s
  | .epochSwap xr => Sys2Proof.Machine.execEpochSwap xr s
  | .epochSwitchApply xd => Sys2Proof.Machine.execEpochSwitchApply xd s
  | .epochSwitchAck => Sys2Proof.Machine.execEpochSwitchAck s
  | .forceRetire xr => Sys2Proof.Machine.execForceRetire xr s
  | .retireTimeout => Sys2Proof.Machine.execRetireTimeout s
  | .holdersZero => Sys2Proof.Machine.execHoldersZero s
  | .epochClearDone => Sys2Proof.Machine.execEpochClearDone s
  | .contextRead xd xu => Sys2Proof.Machine.execContextRead xd xu s
  | .contextReadUpdate xd xu => Sys2Proof.Machine.execContextReadUpdate xd xu s
  | .lockGrant xc => Sys2Proof.Machine.execLockGrant xc s
  | .contextFillComplete xd xpoison => Sys2Proof.Machine.execContextFillComplete xd xpoison s
  | .fillPinWait xd xi => Sys2Proof.Machine.execFillPinWait xd xi s
  | .pageEventReceive xd => Sys2Proof.Machine.execPageEventReceive xd s
  | .pageWaitExpire xd xw => Sys2Proof.Machine.execPageWaitExpire xd xw s
  | .pageMap xr xsel xregion xpage xhpa xfill => Sys2Proof.Machine.execPageMap xr xsel xregion xpage xhpa xfill s
  | .pageUnmap xr xsel xregion xpage => Sys2Proof.Machine.execPageUnmap xr xsel xregion xpage s
  | .unmapComplete xd => Sys2Proof.Machine.execUnmapComplete xd s
  | .pageMigrate xr xsel xregion xpage xhpa => Sys2Proof.Machine.execPageMigrate xr xsel xregion xpage xhpa s
  | .migrateCopyDone xd xpoisoned => Sys2Proof.Machine.execMigrateCopyDone xd xpoisoned s
  | .pagePoison xr xsel xregion xpage => Sys2Proof.Machine.execPagePoison xr xsel xregion xpage s
  | .pageRepair xr xsel xregion xpage xhpa xfill => Sys2Proof.Machine.execPageRepair xr xsel xregion xpage xhpa xfill s
  | .pageQuery xr xsel xregion xpage => Sys2Proof.Machine.execPageQuery xr xsel xregion xpage s
  | .poolRelease xd xp => Sys2Proof.Machine.execPoolRelease xd xp s
  | .allocatorRefill xd xp => Sys2Proof.Machine.execAllocatorRefill xd xp s
  | .waitListHeadRetry xd => Sys2Proof.Machine.execWaitListHeadRetry xd s
  | .voqDepart xd xv => Sys2Proof.Machine.execVoqDepart xd xv s
  | .stacksReady xd => Sys2Proof.Machine.execStacksReady xd s
  | .replication xd => Sys2Proof.Machine.execReplication xd s
  | .residueEnter xd xslot xtc => Sys2Proof.Machine.execResidueEnter xd xslot xtc s
  | .residueTimeout xd xi => Sys2Proof.Machine.execResidueTimeout xd xi s
  | .portFlushDone xd xslot => Sys2Proof.Machine.execPortFlushDone xd xslot s
  | .schedSelect xd xg => Sys2Proof.Machine.execSchedSelect xd xg s
  | .shaperCreditPositive xd xslot xn => Sys2Proof.Machine.execShaperCreditPositive xd xslot xn s
  | .shaperRateWrite xr xsel xslot xn xv => Sys2Proof.Machine.execShaperRateWrite xr xsel xslot xn xv s
  | .shaperBurstWrite xr xsel xslot xn xv => Sys2Proof.Machine.execShaperBurstWrite xr xsel xslot xn xv s
  | .shaperReset xr xsel xslot xn => Sys2Proof.Machine.execShaperReset xr xsel xslot xn s
  | .applyTemplate xr xsel xslot xt => Sys2Proof.Machine.execApplyTemplate xr xsel xslot xt s
  | .gateListWrite xr xsel xrec => Sys2Proof.Machine.execGateListWrite xr xsel xrec s
  | .configChange xr xsel xslot => Sys2Proof.Machine.execConfigChange xr xsel xslot s
  | .configChangeTime xd xslot => Sys2Proof.Machine.execConfigChangeTime xd xslot s
  | .gateEntryEnd xd xslot => Sys2Proof.Machine.execGateEntryEnd xd xslot s
  | .meridianSet xr xt => Sys2Proof.Machine.execMeridianSet xr xt s
  | .meridianStep xr xv => Sys2Proof.Machine.execMeridianStep xr xv s
  | .meridianAdjustApply => Sys2Proof.Machine.execMeridianAdjustApply s
  | .freqAdjWrite xr xv => Sys2Proof.Machine.execFreqAdjWrite xr xv s
  | .ppsInEdge => Sys2Proof.Machine.execPpsInEdge s
  | .ppsOutSecond => Sys2Proof.Machine.execPpsOutSecond s
  | .samplerVisit xd xisVoq => Sys2Proof.Machine.execSamplerVisit xd xisVoq s
  | .laneGroupModeWrite xr xsel xg xm => Sys2Proof.Machine.execLaneGroupModeWrite xr xsel xg xm s
  | .portEnableWrite xr xsel xslot xon => Sys2Proof.Machine.execPortEnableWrite xr xsel xslot xon s
  | .autonegAttempt xd xslot => Sys2Proof.Machine.execAutonegAttempt xd xslot s
  | .linkLoss xd xslot xfault => Sys2Proof.Machine.execLinkLoss xd xslot xfault s
  | .remoteFault xd xslot => Sys2Proof.Machine.execRemoteFault xd xslot s
  | .linkUp xd xslot xodd => Sys2Proof.Machine.execLinkUp xd xslot xodd s
  | .txOversizeCut xd xslot => Sys2Proof.Machine.execTxOversizeCut xd xslot s
  | .txUnderrun xd xslot => Sys2Proof.Machine.execTxUnderrun xd xslot s
  | .frameTxComplete xd xslot => Sys2Proof.Machine.execFrameTxComplete xd xslot s
  | .pauseFrameReceive xd xslot xf xcw => Sys2Proof.Machine.execPauseFrameReceive xd xslot xf xcw s
  | .pauseTimerExpire xd xslot xcls => Sys2Proof.Machine.execPauseTimerExpire xd xslot xcls s
  | .pauseFrameSend xd xslot => Sys2Proof.Machine.execPauseFrameSend xd xslot s
  | .pauseRefresh xd xslot => Sys2Proof.Machine.execPauseRefresh xd xslot s
  | .snapshot xr xsel => Sys2Proof.Machine.execSnapshot xr xsel s
  | .snapshotCopyDone xd => Sys2Proof.Machine.execSnapshotCopyDone xd s
  | .snapshotAllApply xd => Sys2Proof.Machine.execSnapshotAllApply xd s
  | .dataCellReceive xd xl xhdr xpayload xcw xreplay => Sys2Proof.Machine.execDataCellReceive xd xl xhdr xpayload xcw xreplay s
  | .creditCellReceive xd xl xhdr xcw xreplay => Sys2Proof.Machine.execCreditCellReceive xd xl xhdr xcw xreplay s
  | .demandReceive xd xl xhdr xmsgs xcw xreplay => Sys2Proof.Machine.execDemandReceive xd xl xhdr xmsgs xcw xreplay s
  | .grantReceive xd xl xhdr xmsgs xcw xreplay => Sys2Proof.Machine.execGrantReceive xd xl xhdr xmsgs xcw xreplay s
  | .lcfAck xd xl xf xcw => Sys2Proof.Machine.execLcfAck xd xl xf xcw s
  | .lcfNak xd xl xf xcw => Sys2Proof.Machine.execLcfNak xd xl xf xcw s
  | .lcfTrain xd xl xf xcw => Sys2Proof.Machine.execLcfTrain xd xl xf xcw s
  | .lcfCreditInit xd xl xf xcw => Sys2Proof.Machine.execLcfCreditInit xd xl xf xcw s
  | .lcfReady xd xl xf xcw => Sys2Proof.Machine.execLcfReady xd xl xf xcw s
  | .lcfStepReq xd xl xf xcw => Sys2Proof.Machine.execLcfStepReq xd xl xf xcw s
  | .lcfStepAck xd xl xf xcw => Sys2Proof.Machine.execLcfStepAck xd xl xf xcw s
  | .lcfWakeReq xd xl xf xcw => Sys2Proof.Machine.execLcfWakeReq xd xl xf xcw s
  | .lcfWakeAck xd xl xf xcw => Sys2Proof.Machine.execLcfWakeAck xd xl xf xcw s
  | .linkAckTimer xd xl => Sys2Proof.Machine.execLinkAckTimer xd xl s
  | .nakRepeat xd xl => Sys2Proof.Machine.execNakRepeat xd xl s
  | .lcfRepeat xd xl => Sys2Proof.Machine.execLcfRepeat xd xl s
  | .linkEnableWrite xr xsel xv => Sys2Proof.Machine.execLinkEnableWrite xr xsel xv s
  | .fabricLinkDown xd xl xcause => Sys2Proof.Machine.execFabricLinkDown xd xl xcause s
  | .demandTimer xd xv => Sys2Proof.Machine.execDemandTimer xd xv s
  | .egressGrant xd xslot xtc => Sys2Proof.Machine.execEgressGrant xd xslot xtc s
  | .creditAudit xd xk => Sys2Proof.Machine.execCreditAudit xd xk s
  | .fabricUtilWindowEnd xd xset xutils => Sys2Proof.Machine.execFabricUtilWindowEnd xd xset xutils s
  | .linkIdleReady xd xl => Sys2Proof.Machine.execLinkIdleReady xd xl s
  | .dramRequest xd xk xasks => Sys2Proof.Machine.execDramRequest xd xk xasks s
  | .dramCommandSlot xd xk xpc => Sys2Proof.Machine.execDramCommandSlot xd xk xpc s
  | .dramReadComplete xd xk xfails => Sys2Proof.Machine.execDramReadComplete xd xk xfails s
  | .dramRefresh xd xk xpc xlo xhi xmargin => Sys2Proof.Machine.execDramRefresh xd xk xpc xlo xhi xmargin s
  | .dramTempRead xd xk xtemp xload => Sys2Proof.Machine.execDramTempRead xd xk xtemp xload s
  | .retrainNow xr xsel xv => Sys2Proof.Machine.execRetrainNow xr xsel xv s
  | .retrainWindowOpen xd xk => Sys2Proof.Machine.execRetrainWindowOpen xd xk s
  | .retrainWindowClose xd xk xmeas => Sys2Proof.Machine.execRetrainWindowClose xd xk xmeas s
  | .patternCommand xr xsel xk xv => Sys2Proof.Machine.execPatternCommand xr xsel xk xv s
  | .patternDone xd xk xres => Sys2Proof.Machine.execPatternDone xd xk xres s
  | .fullTrain xr xsel xv => Sys2Proof.Machine.execFullTrain xr xsel xv s
  | .trainingComplete xd xk xstep xfailed xmeas => Sys2Proof.Machine.execTrainingComplete xd xk xstep xfailed xmeas s
  | .eccPoll xd xk xn => Sys2Proof.Machine.execEccPoll xd xk xn s
  | .cxlBringupTimeout xd xunsupported => Sys2Proof.Machine.execCxlBringupTimeout xd xunsupported s
  | .cxlMemoryActive xd xrate xwidth xcap => Sys2Proof.Machine.execCxlMemoryActive xd xrate xwidth xcap s
  | .cxlLinkLost xd xinFlight => Sys2Proof.Machine.execCxlLinkLost xd xinFlight s
  | .cxlCompletionTimeout xd xinFlight => Sys2Proof.Machine.execCxlCompletionTimeout xd xinFlight s
  | .cxlFatalError xd xinFlight => Sys2Proof.Machine.execCxlFatalError xd xinFlight s
  | .cxlRetrain xd xcommitted xrate xwidth xcap => Sys2Proof.Machine.execCxlRetrain xd xcommitted xrate xwidth xcap s
  | .cxlEventPoll xd xn xreplays => Sys2Proof.Machine.execCxlEventPoll xd xn xreplays s
  | .endpointReset xe xrate xwidth => Sys2Proof.Machine.execEndpointReset xe xrate xwidth s
  | .attInvalidate xr xe xfirst xlast => Sys2Proof.Machine.execAttInvalidate xr xe xfirst xlast s
  | .doorbellWrite xe xoff xv => Sys2Proof.Machine.execDoorbellWrite xe xoff xv s
  | .ringEnableWrite xr xsel xk xon => Sys2Proof.Machine.execRingEnableWrite xr xsel xk xon s
  | .ringStopDone xd xk => Sys2Proof.Machine.execRingStopDone xd xk s
  | .puntWrite xd xk xslot xatts => Sys2Proof.Machine.execPuntWrite xd xk xslot xatts s
  | .injectRead xd xk xslot xframe xatts => Sys2Proof.Machine.execInjectRead xd xk xslot xframe xatts s
  | .batchRun xd xslot xcmds xatts => Sys2Proof.Machine.execBatchRun xd xslot xcmds xatts s
  | .recordRingWrite xd xk xatts => Sys2Proof.Machine.execRecordRingWrite xd xk xatts s
  | .ringIrqTimer xd xk => Sys2Proof.Machine.execRingIrqTimer xd xk s
  | .jdpFrameReceive xport xf => Sys2Proof.Machine.execJdpFrameReceive xport xf s
  | .jdpRequest => Sys2Proof.Machine.execJdpRequest s
  | .jdpOpen => Sys2Proof.Machine.execJdpOpen s
  | .jdpOpenReply xserial => Sys2Proof.Machine.execJdpOpenReply xserial s
  | .jdpClose => Sys2Proof.Machine.execJdpClose s
  | .jdpDiscover => Sys2Proof.Machine.execJdpDiscover s
  | .sessionIdleTimeout xi => Sys2Proof.Machine.execSessionIdleTimeout xi s
  | .sessionClose xr xi => Sys2Proof.Machine.execSessionClose xr xi s
  | .keySlotWrite xr xk xsub xv => Sys2Proof.Machine.execKeySlotWrite xr xk xsub xv s
  | .modeRequestStandby xr => Sys2Proof.Machine.execModeRequestStandby xr s
  | .modeRequestBringup xr => Sys2Proof.Machine.execModeRequestBringup xr s
  | .modeRequestForwarding xr => Sys2Proof.Machine.execModeRequestForwarding xr s
  | .modeRequestDrain xr => Sys2Proof.Machine.execModeRequestDrain xr s
  | .modeRequestQuiesce xr => Sys2Proof.Machine.execModeRequestQuiesce xr s
  | .modeRequestDiagnostic xr => Sys2Proof.Machine.execModeRequestDiagnostic xr s
  | .modeRequestFactory xr => Sys2Proof.Machine.execModeRequestFactory xr s
  | .drainEmpty => Sys2Proof.Machine.execDrainEmpty s
  | .quiesceTimeout => Sys2Proof.Machine.execQuiesceTimeout s
  | .functionReady xd xf => Sys2Proof.Machine.execFunctionReady xd xf s
  | .bringupTimeout => Sys2Proof.Machine.execBringupTimeout s
  | .leanWindow => Sys2Proof.Machine.execLeanWindow s
  | .clusterParkDone xd xc => Sys2Proof.Machine.execClusterParkDone xd xc s
  | .clusterWakeDone xd xc => Sys2Proof.Machine.execClusterWakeDone xd xc s
  | .domainRequestWrite xr xd xn xv => Sys2Proof.Machine.execDomainRequestWrite xr xd xn xv s
  | .domainOnDone xd xn => Sys2Proof.Machine.execDomainOnDone xd xn s
  | .packageReset xr => Sys2Proof.Machine.execPackageReset xr s
  | .resetLAssert => Sys2Proof.Machine.execResetLAssert s
  | .resetLRelease xstrap => Sys2Proof.Machine.execResetLRelease xstrap s
  | .faultAccept xd xn => Sys2Proof.Machine.execFaultAccept xd xn s
  | .cairnComplete xd xbad xatts => Sys2Proof.Machine.execCairnComplete xd xbad xatts s
  | .heldDumpPath xd => Sys2Proof.Machine.execHeldDumpPath xd s
  | .faultRecordReceive => Sys2Proof.Machine.execFaultRecordReceive s
  | .faultStagingCommit => Sys2Proof.Machine.execFaultStagingCommit s
  | .repeatUpdateReceive => Sys2Proof.Machine.execRepeatUpdateReceive s
  | .logAck xr xv => Sys2Proof.Machine.execLogAck xr xv s
  | .firstFaultClear xr => Sys2Proof.Machine.execFirstFaultClear xr s
  | .logRead xr xv => Sys2Proof.Machine.execLogRead xr xv s
  | .dieLogRead xr xv => Sys2Proof.Machine.execDieLogRead xr xv s
  | .dumpNow xr xv => Sys2Proof.Machine.execDumpNow xr xv s
  | .dumpAck xr xv => Sys2Proof.Machine.execDumpAck xr xv s
  | .resetHoldTimeout => Sys2Proof.Machine.execResetHoldTimeout s
  | .faultInject xr xv => Sys2Proof.Machine.execFaultInject xr xv s
  | .spareRebuildDone xd xsub => Sys2Proof.Machine.execSpareRebuildDone xd xsub s
  | .sliceDue xd xk xvin xclk xtj => Sys2Proof.Machine.execSliceDue xd xk xvin xclk xtj s
  | .sliceConditionCheck xd xvin xclk xtj => Sys2Proof.Machine.execSliceConditionCheck xd xvin xclk xtj s
  | .bankMirrorDone xd => Sys2Proof.Machine.execBankMirrorDone xd s
  | .bankTestDone xd xok xspareOk => Sys2Proof.Machine.execBankTestDone xd xok xspareOk s
  | .bankRestoreDone xd => Sys2Proof.Machine.execBankRestoreDone xd s
  | .engineDrained xd => Sys2Proof.Machine.execEngineDrained xd s
  | .engineDrainTimeout xd => Sys2Proof.Machine.execEngineDrainTimeout xd s
  | .engineTestDone xd xok => Sys2Proof.Machine.execEngineTestDone xd xok s
  | .cstoreWalkDone xd xok => Sys2Proof.Machine.execCstoreWalkDone xd xok s
  | .segmentMarchDone xd xok => Sys2Proof.Machine.execSegmentMarchDone xd xok s
  | .diagLoopback xr xv => Sys2Proof.Machine.execDiagLoopback xr xv s
  | .diagPattern xr xv => Sys2Proof.Machine.execDiagPattern xr xv s
  | .counterValueWrite xr xsel xk xn xv => Sys2Proof.Machine.execCounterValueWrite xr xsel xk xn xv s
  | .sampleRead xr xsel xk xfirst => Sys2Proof.Machine.execSampleRead xr xsel xk xfirst s
  | .sampleClear xr xsel xk => Sys2Proof.Machine.execSampleClear xr xsel xk s
  | .jtagIdcode xd => Sys2Proof.Machine.execJtagIdcode xd s
  | .jtagSamplePreload xd xcells => Sys2Proof.Machine.execJtagSamplePreload xd xcells s
  | .jtagExtest xd => Sys2Proof.Machine.execJtagExtest xd s
  | .jtagExtestPulse xd => Sys2Proof.Machine.execJtagExtestPulse xd s
  | .jtagExtestTrain xd => Sys2Proof.Machine.execJtagExtestTrain xd s
  | .jtagClamp xd => Sys2Proof.Machine.execJtagClamp xd s
  | .jtagHighz xd => Sys2Proof.Machine.execJtagHighz xd s
  | .jtagInternalScan xd => Sys2Proof.Machine.execJtagInternalScan xd s
  | .jtagDebugAccess xd => Sys2Proof.Machine.execJtagDebugAccess xd s
  | .jtagBypass xd => Sys2Proof.Machine.execJtagBypass xd s
  | .hostOffer xr xh => Sys2Proof.Machine.execHostOffer xr xh s
  | .hostBlock xr xv => Sys2Proof.Machine.execHostBlock xr xv s
  | .hostEnd xr => Sys2Proof.Machine.execHostEnd xr s
  | .fwAbort xr => Sys2Proof.Machine.execFwAbort xr s
  | .jdpOffer => Sys2Proof.Machine.execJdpOffer s
  | .jdpBlock => Sys2Proof.Machine.execJdpBlock s
  | .jdpStatus => Sys2Proof.Machine.execJdpStatus s
  | .jdpEnd => Sys2Proof.Machine.execJdpEnd s
  | .statusTimer => Sys2Proof.Machine.execStatusTimer s
  | .blockResendTimeout => Sys2Proof.Machine.execBlockResendTimeout s
  | .relayOpenRetry => Sys2Proof.Machine.execRelayOpenRetry s
  | .sessionStallTimeout => Sys2Proof.Machine.execSessionStallTimeout s
  | .stagingCheckDone => Sys2Proof.Machine.execStagingCheckDone s
  | .activate xr => Sys2Proof.Machine.execActivate xr s
  | .inplaceSwitchDone xcrcBad => Sys2Proof.Machine.execInplaceSwitchDone xcrcBad s
  | .confirm xr => Sys2Proof.Machine.execConfirm xr s
  | .probationExpire => Sys2Proof.Machine.execProbationExpire s
  | .revert xr => Sys2Proof.Machine.execRevert xr s
  | .settingsAccept xr => Sys2Proof.Machine.execSettingsAccept xr s
  | .settingsFallback xr => Sys2Proof.Machine.execSettingsFallback xr s
  | .railUndervoltage xd xr xn xmv xma => Sys2Proof.Machine.execRailUndervoltage xd xr xn xmv xma s
  | .railOvervoltage xd xr xn xmv xma => Sys2Proof.Machine.execRailOvervoltage xd xr xn xmv xma s
  | .railOvercurrent xd xr xn xmv xma => Sys2Proof.Machine.execRailOvercurrent xd xr xn xmv xma s
  | .vinMeasure xmv xwatts => Sys2Proof.Machine.execVinMeasure xmv xwatts s
  | .powerOnReset xd xvin => Sys2Proof.Machine.execPowerOnReset xd xvin s
  | .pwrokLow => Sys2Proof.Machine.execPwrokLow s
  | .timeclkLost => Sys2Proof.Machine.execTimeclkLost s
  | .refclkNetLost xd => Sys2Proof.Machine.execRefclkNetLost xd s
  | .refclkNetReturn xd => Sys2Proof.Machine.execRefclkNetReturn xd s
  | .refclkFabLost xd => Sys2Proof.Machine.execRefclkFabLost xd s
  | .refclkPciLost xd xinFlight => Sys2Proof.Machine.execRefclkPciLost xd xinFlight s
  | .thermalSensorRead xd xl xwatts => Sys2Proof.Machine.execThermalSensorRead xd xl xwatts s
  | .saddleTrainingDone xd xk xok => Sys2Proof.Machine.execSaddleTrainingDone xd xk xok s
  | .saddleLaneLoss xd xk => Sys2Proof.Machine.execSaddleLaneLoss xd xk s
  | .fabricAlignmentLock xd xl xa xb => Sys2Proof.Machine.execFabricAlignmentLock xd xl xa xb s
  | .dramPhyLaneLoss xd xk => Sys2Proof.Machine.execDramPhyLaneLoss xd xk s
  | .dramCatastrophicTemp xd xk => Sys2Proof.Machine.execDramCatastrophicTemp xd xk s
  | .watchdogExpire xd => Sys2Proof.Machine.execWatchdogExpire xd s
  | .timeclkLock => Sys2Proof.Machine.execTimeclkLock s
  | .refclkFabReturn xd => Sys2Proof.Machine.execRefclkFabReturn xd s
  | .powerOnResetRelease xd => Sys2Proof.Machine.execPowerOnResetRelease xd s
  | .domainStopDone xd xn => Sys2Proof.Machine.execDomainStopDone xd xn s
  | .selfCheckDone xok0 xok1 => Sys2Proof.Machine.execSelfCheckDone xok0 xok1 s
  | .bootImageReadDone xcrcBad => Sys2Proof.Machine.execBootImageReadDone xcrcBad s
  | .mgmtPortLinkChange xm xup => Sys2Proof.Machine.execMgmtPortLinkChange xm xup s

end Sys2Proof.Machine
end

