-- ==== Sys2Proof/Machine/Tick.lean ====
section
/-! DEFINITION. What passes with time while no command waits: a nanosecond of the reference, the cycles that performance counters
count, and the bit errors of a test pattern (Transit Self-Test and Performance Counters); what waited for a path or for an answer goes
on. -/

namespace Sys2Proof.Machine

/-- The threads of a cluster that hold a routine. -/
def heldThreads (s : State) (d c : Nat) : List Nat := (List.range 64).filter (fun t => (thread s d c t).run.isSome)

/-- The threads of some list with the address of the word each stands at. -/
def atWords (s : State) (d c : Nat) (l : List Nat) : List (Nat × Nat) :=
  l.map (fun t => (t, (((thread s d c t).run.map (·.pc.toNat)).getD 0)))

/-- A thread stands at a word with a wait code and has not got what it waits for. -/
def waitsAt (s : State) (d c code t : Nat) : Bool :=
  match (thread s d c t).run with
  | none => false
  | some r => uWait (threadWord s d c r) == code && !r.ended && (code != 3 || decide (16 ≤ journalUsed r))

/-- One engine cycle of a cluster in which no word issues (R559): each engine in service has a slot, front-starved when no thread of
it holds a routine and back-starved otherwise; threads wait on journal space and on the counter port (Table 19.4). A slot stands
at its engine's first thread, or where a thread waits at the lowest that does (log entry 32). -/
def clusterCycle (d c : Nat) (s : State) : State :=
  let on := (List.range 16).filter (engineServes s d c)
  let held := heldThreads s d c
  let first := fun (e : Nat) => held.find? (fun t => t / 4 == e)
  let s := perfThreads d c 0x01 (on.map (fun e => (4 * e, 0))) s
  let s := perfThreads d c 0x04 ((on.filter (fun e => (first e).isNone)).map (fun e => (4 * e, 0))) s
  let s := perfThreads d c 0x05 (atWords s d c (on.filterMap first)) s
  let s := perfThreads d c 0x0D (atWords s d c (held.filter (waitsAt s d c 3))) s
  perfThreads d c 0x0E (atWords s d c (held.filter (waitsAt s d c 4))) s

/-- A counter set counts or samples anything. -/
def setRuns (s : State) (d k : Nat) : Bool := s.domOn d 74 && (s.dg d (setBase k) 2 != 0 || s.dg d (setBase k) 0x30 != 0)

/-- Search cycles (1.6 GHz) that end in the nanosecond to come. -/
def searchCycles (s : State) : Nat := (s.now + 1) * 8 / 5 - s.now * 8 / 5

/-- The cycles of one nanosecond of a die in its counter sets: two of each cluster, and those of a search unit whose staging list
is full (event 0x45). -/
def countCycles (d : Nat) (s : State) : State :=
  if s.frozen d then s
  else
    let s := s.each ((List.range 16).filter (setRuns s d)) (fun c s => clusterCycle d c (clusterCycle d c s))
    s.each ((List.range 4).filter (fun u => setRuns s d (16 + u) && decide (64 ≤ (mget (s.die d).look.units u).staging.length)))
      (fun u s => perfEvent d (16 + u) 0x45 (searchCycles s) 0 0 0 s)

/-- The receive checkers count the bit errors of the patterns that are on (R556): how many come in a nanosecond lies outside the
part, and is a free value. -/
def checkErrors (d : Nat) (s : State) : State :=
  if (s.die d).core.patterns.isEmpty then s
  else let (f, s) := s.fresh; s.pinc 0x1720 3 f

/-- Fault records that waited for credit or for a way to the Summit are sent (R31, R527), and a request of a JDP session whose access has
its reply goes on (R479, R489). -/
def carryOn (s : State) : State :=
  let s := s.each ((s.present).filter (fun d => !(s.die d).core.sendQ.isEmpty)) sendRecords
  s.each (s.jdpJobs.map (fun x => x.1 - 16)) jdpResume

/-- What the block does while no command waits: the cycles of a nanosecond are counted, and it passes (log entry 2). -/
def idle (s : State) : State := tick (carryOn (s.each s.present (fun d s => checkErrors d (countCycles d s))))

end Sys2Proof.Machine
end

