-- ==== Sys2Proof/WellFormed.lean ====
section
/-! DEFINITION. Which commands are well formed: operands inside the ranges the specification gives their fields, where
the operand's type does not say it already. The meanings answer for every operand; an ill-formed command is one that no
sender can spell. -/

namespace Sys2Proof

/-- A die selector of Table 16.8: an undefined code is a byte outside 0x00, 0x10 to 0x17 and 0x1F. -/
def Sel.wf : Sel → Bool
  | .none => true
  | .die _ => true
  | .all => true
  | .bad c => decide (c < 256) && (c != 0) && !(decide (0x10 ≤ c) && decide (c ≤ 0x17)) && (c != 0x1F)

/-- An access of the dictionary (R9, R470, R483): a 16-bit index, an 8-bit subindex, at most 1,032 data bytes that hold
the value, and a read or describe carries no data. -/
def Access.wf (a : Access) : Bool :=
  a.sel.wf && decide (a.idx < 65536) && decide (a.sub < 256) && decide (a.len ≤ 1032) && decide (a.val < 2 ^ (8 * a.len)) &&
  (match a.op with
   | .write => true
   | .read => decide (a.len = 0)
   | .describe => decide (a.len = 0))

/-- The ATT entries a command names are at 48-bit RVAs (R455). -/
def attsWf (l : List (Nat × BitVec 64)) : Bool := l.all (fun p => decide (p.1 < 2 ^ 48))

/-- A temperature in 0.1 °C as an S32 (Table 16.1). -/
def tempWf (t : Int) : Bool := decide (-(2 ^ 31) ≤ t) && decide (t < 2 ^ 31)

/-- The pairs of a list are pairs of 32-bit numbers. -/
def pairsWf (l : List (Nat × Nat)) : Bool := l.all (fun p => decide (p.1 < 2 ^ 32) && decide (p.2 < 2 ^ 32))

/-- Well-formed commands. -/
def Instr.wf (i : Instr) : Bool :=
  match i with
  | .dictWrite _ sel _ _ len v => sel.wf && decide (v.toNat < 2 ^ (8 * len.val))
  | .rcRead _ sel _ _ => sel.wf
  | .describe _ _ _ => true
  | .mailboxGo l => l.all (fun x => x.2.2.2.wf)
  | .dieAccessMessage _ => true
  | .broadcastApply _ => true
  | .broadcastComplete _ => true
  | .settingsSave => true
  | .saddleFlitReceive _ _ _ => true
  | .saddleNakReceive _ _ => true
  | .saddleAckReceive _ _ => true
  | .saddleTransferComplete _ _ => true
  | .routeTableReceive _ => true
  | .saddleUtilWindowEnd _ _ _ => true
  | .laneReq _ _ => true
  | .laneAck _ _ => true
  | .saddleLaneWakeDone _ _ => true
  | .heartbeatTick => true
  | .heartbeatTimeout _ => true
  | .startPulseSeen _ => true
  | .electionBitSample _ => true
  | .electionNoSummit => true
  | .beaconStuckLow _ => true
  | .beaconStuckHigh _ => true
  | .beaconFaultyNotice _ => true
  | .summitTokenTick => true
  | .summitTokenReceive _ => true
  | .tokenTimeout _ => true
  | .dieRejoin _ _ => true
  | .flashAgentAppear => true
  | .frameStart _ _ => true
  | .parseStart _ _ => true
  | .frameTailReceive _ _ _ _ => true
  | .packetDispatch _ _ => true
  | .dispatchRecordReceive _ => true
  | .returnRecordReceive _ => true
  | .dispatchQueueRequest _ _ reqs => decide (reqs.length ≤ 16)
  | .threadStart _ _ => true
  | .stealLook _ => true
  | .stealArrive _ _ => true
  | .parkRequest _ _ => true
  | .parkComplete _ _ _ => true
  | .contextResume _ _ => true
  | .preempt _ => true
  | .contextRestart _ _ => true
  | .nop _ _ _ => true
  | .mov _ _ _ => true
  | .add _ _ _ => true
  | .sub _ _ _ => true
  | .and _ _ _ => true
  | .or _ _ _ => true
  | .xor _ _ _ => true
  | .andn _ _ _ => true
  | .shl _ _ _ => true
  | .shr _ _ _ => true
  | .ext _ _ _ => true
  | .ins _ _ _ => true
  | .cmp _ _ _ => true
  | .minu _ _ _ => true
  | .maxu _ _ _ => true
  | .popc _ _ _ => true
  | .clz _ _ _ => true
  | .next _ _ _ => true
  | .jump _ _ _ => true
  | .mway _ _ _ => true
  | .call _ _ _ => true
  | .ret _ _ _ => true
  | .endWord _ _ _ => true
  | .ldh _ _ _ => true
  | .ldhx _ _ _ => true
  | .jhdr _ _ _ => true
  | .jhdrx _ _ _ => true
  | .jdesc _ _ _ => true
  | .jcnt _ _ _ => true
  | .jmeter _ _ _ => true
  | .jctx _ _ _ => true
  | .jevt _ _ _ => true
  | .commit _ _ _ => true
  | .cntrd _ _ _ => true
  | .searchIssue _ _ _ => true
  | .searchResponse _ => true
  | .journalEntryDrain _ _ _ => true
  | .csFetchParityFail _ _ _ _ => true
  | .csReloadDone _ _ _ _ => true
  | .rollingLoadClusterEmpty _ _ => true
  | .clusterStoreWritten _ _ _ => true
  | .reseqArrive _ _ => true
  | .holeTimeout _ _ k => decide (k < 2 ^ 32)
  | .holeMarkerReceive _ => true
  | .reseqRelease _ _ out => decide (out < 2 ^ 32)
  | .rewrite _ => true
  | .recircInput _ => true
  | .fibLookup _ _ _ => true
  | .fibResolve _ _ => true
  | .deepReadComplete _ _ => true
  | .deepStagingAdmit _ => true
  | .fibInsert _ sel _ => sel.wf
  | .fibDelete _ sel _ => sel.wf
  | .fibHomeOutcome _ => true
  | .stemRebuild _ => true
  | .homeDieMapWrite _ _ _ => true
  | .exactSearch _ _ _ => true
  | .tableInsert _ sel _ _ _ => sel.wf
  | .tableDelete _ sel _ _ => sel.wf
  | .tableSearch _ sel _ _ => sel.wf
  | .tableNext _ sel _ _ => sel.wf
  | .flushByPort _ sel _ _ _ _ => sel.wf
  | .flushStep _ => true
  | .learnEventProcess _ => true
  | .ageingSweepVisit _ _ => true
  | .shadowModeWrite _ _ _ => true
  | .shadowCopyDone _ => true
  | .scrubBucket _ _ => true
  | .scrubRecheck _ _ => true
  | .ternarySearch _ _ => true
  | .ruleInsert _ sel _ _ => sel.wf
  | .ruleDelete _ sel _ _ => sel.wf
  | .ruleSearch _ sel _ _ => sel.wf
  | .ruleNext _ sel _ _ => sel.wf
  | .epochInherit _ => true
  | .epochDiscardNext _ => true
  | .epochSwap _ => true
  | .epochSwitchApply _ => true
  | .epochSwitchAck => true
  | .forceRetire _ => true
  | .retireTimeout => true
  | .holdersZero => true
  | .epochClearDone => true
  | .contextRead _ _ => true
  | .contextReadUpdate _ _ => true
  | .lockGrant _ => true
  | .contextFillComplete _ _ => true
  | .fillPinWait _ _ => true
  | .pageEventReceive _ => true
  | .pageWaitExpire _ _ => true
  | .pageMap _ sel _ _ _ _ => sel.wf
  | .pageUnmap _ sel _ _ => sel.wf
  | .unmapComplete _ => true
  | .pageMigrate _ sel _ _ _ => sel.wf
  | .migrateCopyDone _ _ => true
  | .pagePoison _ sel _ _ => sel.wf
  | .pageRepair _ sel _ _ _ _ => sel.wf
  | .pageQuery _ sel _ _ => sel.wf
  | .poolRelease _ _ => true
  | .allocatorRefill _ _ => true
  | .waitListHeadRetry _ => true
  | .voqDepart _ _ => true
  | .stacksReady _ => true
  | .replication _ => true
  | .residueEnter _ _ _ => true
  | .residueTimeout _ i => decide (i < 2 ^ 32)
  | .portFlushDone _ _ => true
  | .schedSelect _ _ => true
  | .shaperCreditPositive _ _ _ => true
  | .shaperRateWrite _ sel _ _ _ => sel.wf
  | .shaperBurstWrite _ sel _ _ _ => sel.wf
  | .shaperReset _ sel _ _ => sel.wf
  | .applyTemplate _ sel _ _ => sel.wf
  | .gateListWrite _ sel _ => sel.wf
  | .configChange _ sel _ => sel.wf
  | .configChangeTime _ _ => true
  | .gateEntryEnd _ _ => true
  | .meridianSet _ _ => true
  | .meridianStep _ _ => true
  | .meridianAdjustApply => true
  | .freqAdjWrite _ _ => true
  | .ppsInEdge => true
  | .ppsOutSecond => true
  | .samplerVisit _ _ => true
  | .laneGroupModeWrite _ sel _ _ => sel.wf
  | .portEnableWrite _ sel _ _ => sel.wf
  | .autonegAttempt _ _ => true
  | .linkLoss _ _ _ => true
  | .remoteFault _ _ => true
  | .linkUp _ _ _ => true
  | .txOversizeCut _ _ => true
  | .txUnderrun _ _ => true
  | .frameTxComplete _ _ => true
  | .pauseFrameReceive _ _ _ _ => true
  | .pauseTimerExpire _ _ _ => true
  | .pauseFrameSend _ _ => true
  | .pauseRefresh _ _ => true
  | .snapshot _ sel => sel.wf
  | .snapshotCopyDone _ => true
  | .snapshotAllApply _ => true
  | .dataCellReceive _ _ _ _ _ _ => true
  | .creditCellReceive _ _ _ _ _ => true
  | .demandReceive _ _ _ _ _ _ => true
  | .grantReceive _ _ _ _ _ _ => true
  | .lcfAck _ _ _ _ => true
  | .lcfNak _ _ _ _ => true
  | .lcfTrain _ _ _ _ => true
  | .lcfCreditInit _ _ _ _ => true
  | .lcfReady _ _ _ _ => true
  | .lcfStepReq _ _ _ _ => true
  | .lcfStepAck _ _ _ _ => true
  | .lcfWakeReq _ _ _ _ => true
  | .lcfWakeAck _ _ _ _ => true
  | .linkAckTimer _ _ => true
  | .nakRepeat _ _ => true
  | .lcfRepeat _ _ => true
  | .linkEnableWrite _ sel _ => sel.wf
  | .fabricLinkDown _ _ _ => true
  | .demandTimer _ _ => true
  | .egressGrant _ _ _ => true
  | .creditAudit _ _ => true
  | .fabricUtilWindowEnd _ _ _ => true
  | .linkIdleReady _ _ => true
  | .dramRequest _ _ _ => true
  | .dramCommandSlot _ _ _ => true
  | .dramReadComplete _ _ _ => true
  | .dramRefresh _ _ _ _ _ _ => true
  | .dramTempRead _ _ _ _ => true
  | .retrainNow _ sel _ => sel.wf
  | .retrainWindowOpen _ _ => true
  | .retrainWindowClose _ _ _ => true
  | .patternCommand _ sel _ _ => sel.wf
  | .patternDone _ _ res => pairsWf res
  | .fullTrain _ sel _ => sel.wf
  | .trainingComplete _ _ _ _ _ => true
  | .eccPoll _ _ n => decide (n < 2 ^ 32)
  | .cxlBringupTimeout _ _ => true
  | .cxlMemoryActive _ _ _ _ => true
  | .cxlLinkLost _ _ => true
  | .cxlCompletionTimeout _ _ => true
  | .cxlFatalError _ _ => true
  | .cxlRetrain _ _ _ _ _ => true
  | .cxlEventPoll _ n replays => decide (n < 2 ^ 32) && decide (replays < 2 ^ 32)
  | .endpointReset _ _ _ => true
  | .attInvalidate _ _ _ _ => true
  | .doorbellWrite _ _ _ => true
  | .ringEnableWrite _ sel _ _ => sel.wf
  | .ringStopDone _ _ => true
  | .puntWrite _ _ _ atts => attsWf atts
  | .injectRead _ _ _ _ atts => attsWf atts
  | .batchRun _ _ _ atts => attsWf atts
  | .recordRingWrite _ _ atts => attsWf atts
  | .ringIrqTimer _ _ => true
  | .jdpFrameReceive _ _ => true
  | .jdpRequest => true
  | .jdpOpen => true
  | .jdpOpenReply _ => true
  | .jdpClose => true
  | .jdpDiscover => true
  | .sessionIdleTimeout _ => true
  | .sessionClose _ _ => true
  | .keySlotWrite _ _ _ _ => true
  | .modeRequestStandby _ => true
  | .modeRequestBringup _ => true
  | .modeRequestForwarding _ => true
  | .modeRequestDrain _ => true
  | .modeRequestQuiesce _ => true
  | .modeRequestDiagnostic _ => true
  | .modeRequestFactory _ => true
  | .drainEmpty => true
  | .quiesceTimeout => true
  | .functionReady _ _ => true
  | .bringupTimeout => true
  | .leanWindow => true
  | .clusterParkDone _ _ => true
  | .clusterWakeDone _ _ => true
  | .domainRequestWrite _ _ _ _ => true
  | .domainOnDone _ _ => true
  | .packageReset _ => true
  | .resetLAssert => true
  | .resetLRelease _ => true
  | .faultAccept _ _ => true
  | .cairnComplete _ bad atts => pairsWf bad && attsWf atts
  | .heldDumpPath _ => true
  | .faultRecordReceive => true
  | .faultStagingCommit => true
  | .repeatUpdateReceive => true
  | .logAck _ _ => true
  | .firstFaultClear _ => true
  | .logRead _ _ => true
  | .dieLogRead _ _ => true
  | .dumpNow _ _ => true
  | .dumpAck _ _ => true
  | .resetHoldTimeout => true
  | .faultInject _ _ => true
  | .spareRebuildDone _ _ => true
  | .sliceDue _ _ vin _ tj => decide (vin < 2 ^ 16) && tempWf tj
  | .sliceConditionCheck _ vin _ tj => decide (vin < 2 ^ 16) && tempWf tj
  | .bankMirrorDone _ => true
  | .bankTestDone _ _ _ => true
  | .bankRestoreDone _ => true
  | .engineDrained _ => true
  | .engineDrainTimeout _ => true
  | .engineTestDone _ _ => true
  | .cstoreWalkDone _ _ => true
  | .segmentMarchDone _ _ => true
  | .diagLoopback _ _ => true
  | .diagPattern _ _ => true
  | .counterValueWrite _ sel _ _ _ => sel.wf
  | .sampleRead _ sel _ _ => sel.wf
  | .sampleClear _ sel _ => sel.wf
  | .jtagIdcode _ => true
  | .jtagSamplePreload _ _ => true
  | .jtagExtest _ => true
  | .jtagExtestPulse _ => true
  | .jtagExtestTrain _ => true
  | .jtagClamp _ => true
  | .jtagHighz _ => true
  | .jtagInternalScan _ => true
  | .jtagDebugAccess _ => true
  | .jtagBypass _ => true
  | .hostOffer _ _ => true
  | .hostBlock _ _ => true
  | .hostEnd _ => true
  | .fwAbort _ => true
  | .jdpOffer => true
  | .jdpBlock => true
  | .jdpStatus => true
  | .jdpEnd => true
  | .statusTimer => true
  | .blockResendTimeout => true
  | .relayOpenRetry => true
  | .sessionStallTimeout => true
  | .stagingCheckDone => true
  | .activate _ => true
  | .inplaceSwitchDone _ => true
  | .confirm _ => true
  | .probationExpire => true
  | .revert _ => true
  | .settingsAccept _ => true
  | .settingsFallback _ => true
  | .railUndervoltage _ _ _ _ _ => true
  | .railOvervoltage _ _ _ _ _ => true
  | .railOvercurrent _ _ _ _ _ => true
  | .vinMeasure _ _ => true
  | .powerOnReset _ _ => true
  | .pwrokLow => true
  | .timeclkLost => true
  | .refclkNetLost _ => true
  | .refclkNetReturn _ => true
  | .refclkFabLost _ => true
  | .refclkPciLost _ _ => true
  | .thermalSensorRead _ l _ => decide (l.length = 16) && l.all tempWf
  | .saddleTrainingDone _ _ _ => true
  | .saddleLaneLoss _ _ => true
  | .fabricAlignmentLock _ _ _ _ => true
  | .dramPhyLaneLoss _ _ => true
  | .dramCatastrophicTemp _ _ => true
  | .watchdogExpire _ => true
  | .timeclkLock => true
  | .refclkFabReturn _ => true
  | .powerOnResetRelease _ => true
  | .domainStopDone _ _ => true
  | .selfCheckDone _ _ => true
  | .bootImageReadDone _ => true
  | .mgmtPortLinkChange _ _ => true

end Sys2Proof
end

