-- ==== Sys2Proof/Safety.lean ====
section
/-! DEFINITION. What a safe run is: commands a sender can spell, to units the part has, and every step a next state; which
commands name a die; and what every command carries over. -/

namespace Sys2Proof

/-- Every waiting command is well formed. -/
def Machine.State.queueWf (s : Machine.State) : Bool := s.pending.all Instr.wf

/-- The next step neither faults nor refuses. -/
def Machine.State.safe (s : Machine.State) : Bool :=
  match Machine.step s with
  | .next _ => true
  | .fault _ => false
  | .refused _ => false

/-- A run of `n` steps ends in a state. -/
def Machine.runs : Nat → Machine.State → Machine.State → Prop
  | 0, s, t => t = s
  | n + 1, s, t => ∃ u, Machine.step s = .next u ∧ Machine.runs n u t

/-- From `s` to `t` the queue, the part and the reference clock stay, the anti-rollback counter does not fall and no
revocation bit is lost (R570). -/
def Machine.Carries (s t : Machine.State) : Prop :=
  t.pending = s.pending ∧ t.part = s.part ∧ t.now = s.now ∧ s.flash.rollback ≤ t.flash.rollback ∧
    s.flash.revoked ||| t.flash.revoked = t.flash.revoked

/-- A command answers a next state, the one given, and carries over what no command changes. -/
def Machine.Answers (c : Instr) (s t : Machine.State) : Prop := Machine.exec c s = .next t ∧ Machine.Carries s t

/-- A command is the write of one value of `len` bytes to one dictionary entry: it answers the next state DICT_WRITE of
that entry answers (R477). -/
def Machine.WritesEntry (c : Instr) (r : Requester) (sel : Sel) (i sub len v : Nat) (s : Machine.State) : Prop :=
  i < 65536 ∧ sub < 256 ∧ len < 1033 ∧ v < 2 ^ (8 * len) ∧
    ∃ t, Machine.exec c s = .next t ∧ Machine.Carries s t ∧
      Machine.exec (.dictWrite r sel (Fin.ofNat 65536 i) (Fin.ofNat 256 sub) (Fin.ofNat 1033 len) (BitVec.ofNat 8256 v)) s = .next t

/-- The die whose unit a command acts on, for the commands that act on one (R7). -/
def Instr.die? (i : Instr) : Option DieId :=
  match i with
  | .dictWrite _ _ _ _ _ _ => none
  | .rcRead _ _ _ _ => none
  | .describe _ _ _ => none
  | .mailboxGo _ => none
  | .dieAccessMessage d => some d
  | .broadcastApply d => some d
  | .broadcastComplete _ => none
  | .settingsSave => none
  | .saddleFlitReceive d _ _ => some d
  | .saddleNakReceive d _ => some d
  | .saddleAckReceive d _ => some d
  | .saddleTransferComplete d _ => some d
  | .routeTableReceive d => some d
  | .saddleUtilWindowEnd d _ _ => some d
  | .laneReq d _ => some d
  | .laneAck d _ => some d
  | .saddleLaneWakeDone d _ => some d
  | .heartbeatTick => none
  | .heartbeatTimeout d => some d
  | .startPulseSeen d => some d
  | .electionBitSample d => some d
  | .electionNoSummit => none
  | .beaconStuckLow d => some d
  | .beaconStuckHigh d => some d
  | .beaconFaultyNotice d => some d
  | .summitTokenTick => none
  | .summitTokenReceive d => some d
  | .tokenTimeout d => some d
  | .dieRejoin _ _ => none
  | .flashAgentAppear => none
  | .frameStart d _ => some d
  | .parseStart d _ => some d
  | .frameTailReceive d _ _ _ => some d
  | .packetDispatch d _ => some d
  | .dispatchRecordReceive d => some d
  | .returnRecordReceive d => some d
  | .dispatchQueueRequest d _ _ => some d
  | .threadStart d _ => some d
  | .stealLook d => some d
  | .stealArrive d _ => some d
  | .parkRequest d _ => some d
  | .parkComplete d _ _ => some d
  | .contextResume d _ => some d
  | .preempt d => some d
  | .contextRestart d _ => some d
  | .nop d _ _ => some d
  | .mov d _ _ => some d
  | .add d _ _ => some d
  | .sub d _ _ => some d
  | .and d _ _ => some d
  | .or d _ _ => some d
  | .xor d _ _ => some d
  | .andn d _ _ => some d
  | .shl d _ _ => some d
  | .shr d _ _ => some d
  | .ext d _ _ => some d
  | .ins d _ _ => some d
  | .cmp d _ _ => some d
  | .minu d _ _ => some d
  | .maxu d _ _ => some d
  | .popc d _ _ => some d
  | .clz d _ _ => some d
  | .next d _ _ => some d
  | .jump d _ _ => some d
  | .mway d _ _ => some d
  | .call d _ _ => some d
  | .ret d _ _ => some d
  | .endWord d _ _ => some d
  | .ldh d _ _ => some d
  | .ldhx d _ _ => some d
  | .jhdr d _ _ => some d
  | .jhdrx d _ _ => some d
  | .jdesc d _ _ => some d
  | .jcnt d _ _ => some d
  | .jmeter d _ _ => some d
  | .jctx d _ _ => some d
  | .jevt d _ _ => some d
  | .commit d _ _ => some d
  | .cntrd d _ _ => some d
  | .searchIssue d _ _ => some d
  | .searchResponse d => some d
  | .journalEntryDrain d _ _ => some d
  | .csFetchParityFail d _ _ _ => some d
  | .csReloadDone d _ _ _ => some d
  | .rollingLoadClusterEmpty d _ => some d
  | .clusterStoreWritten d _ _ => some d
  | .reseqArrive d _ => some d
  | .holeTimeout d _ _ => some d
  | .holeMarkerReceive d => some d
  | .reseqRelease d _ _ => some d
  | .rewrite d => some d
  | .recircInput d => some d
  | .fibLookup d _ _ => some d
  | .fibResolve d _ => some d
  | .deepReadComplete d _ => some d
  | .deepStagingAdmit d => some d
  | .fibInsert _ _ _ => none
  | .fibDelete _ _ _ => none
  | .fibHomeOutcome d => some d
  | .stemRebuild d => some d
  | .homeDieMapWrite _ _ _ => none
  | .exactSearch d _ _ => some d
  | .tableInsert _ _ _ _ _ => none
  | .tableDelete _ _ _ _ => none
  | .tableSearch _ _ _ _ => none
  | .tableNext _ _ _ _ => none
  | .flushByPort _ _ _ _ _ _ => none
  | .flushStep d => some d
  | .learnEventProcess d => some d
  | .ageingSweepVisit d _ => some d
  | .shadowModeWrite _ _ _ => none
  | .shadowCopyDone _ => none
  | .scrubBucket d _ => some d
  | .scrubRecheck d _ => some d
  | .ternarySearch d _ => some d
  | .ruleInsert _ _ _ _ => none
  | .ruleDelete _ _ _ _ => none
  | .ruleSearch _ _ _ _ => none
  | .ruleNext _ _ _ _ => none
  | .epochInherit _ => none
  | .epochDiscardNext _ => none
  | .epochSwap _ => none
  | .epochSwitchApply d => some d
  | .epochSwitchAck => none
  | .forceRetire _ => none
  | .retireTimeout => none
  | .holdersZero => none
  | .epochClearDone => none
  | .contextRead d _ => some d
  | .contextReadUpdate d _ => some d
  | .lockGrant _ => none
  | .contextFillComplete d _ => some d
  | .fillPinWait d _ => some d
  | .pageEventReceive d => some d
  | .pageWaitExpire d _ => some d
  | .pageMap _ _ _ _ _ _ => none
  | .pageUnmap _ _ _ _ => none
  | .unmapComplete d => some d
  | .pageMigrate _ _ _ _ _ => none
  | .migrateCopyDone d _ => some d
  | .pagePoison _ _ _ _ => none
  | .pageRepair _ _ _ _ _ _ => none
  | .pageQuery _ _ _ _ => none
  | .poolRelease d _ => some d
  | .allocatorRefill d _ => some d
  | .waitListHeadRetry d => some d
  | .voqDepart d _ => some d
  | .stacksReady d => some d
  | .replication d => some d
  | .residueEnter d _ _ => some d
  | .residueTimeout d _ => some d
  | .portFlushDone d _ => some d
  | .schedSelect d _ => some d
  | .shaperCreditPositive d _ _ => some d
  | .shaperRateWrite _ _ _ _ _ => none
  | .shaperBurstWrite _ _ _ _ _ => none
  | .shaperReset _ _ _ _ => none
  | .applyTemplate _ _ _ _ => none
  | .gateListWrite _ _ _ => none
  | .configChange _ _ _ => none
  | .configChangeTime d _ => some d
  | .gateEntryEnd d _ => some d
  | .meridianSet _ _ => none
  | .meridianStep _ _ => none
  | .meridianAdjustApply => none
  | .freqAdjWrite _ _ => none
  | .ppsInEdge => none
  | .ppsOutSecond => none
  | .samplerVisit d _ => some d
  | .laneGroupModeWrite _ _ _ _ => none
  | .portEnableWrite _ _ _ _ => none
  | .autonegAttempt d _ => some d
  | .linkLoss d _ _ => some d
  | .remoteFault d _ => some d
  | .linkUp d _ _ => some d
  | .txOversizeCut d _ => some d
  | .txUnderrun d _ => some d
  | .frameTxComplete d _ => some d
  | .pauseFrameReceive d _ _ _ => some d
  | .pauseTimerExpire d _ _ => some d
  | .pauseFrameSend d _ => some d
  | .pauseRefresh d _ => some d
  | .snapshot _ _ => none
  | .snapshotCopyDone d => some d
  | .snapshotAllApply d => some d
  | .dataCellReceive d _ _ _ _ _ => some d
  | .creditCellReceive d _ _ _ _ => some d
  | .demandReceive d _ _ _ _ _ => some d
  | .grantReceive d _ _ _ _ _ => some d
  | .lcfAck d _ _ _ => some d
  | .lcfNak d _ _ _ => some d
  | .lcfTrain d _ _ _ => some d
  | .lcfCreditInit d _ _ _ => some d
  | .lcfReady d _ _ _ => some d
  | .lcfStepReq d _ _ _ => some d
  | .lcfStepAck d _ _ _ => some d
  | .lcfWakeReq d _ _ _ => some d
  | .lcfWakeAck d _ _ _ => some d
  | .linkAckTimer d _ => some d
  | .nakRepeat d _ => some d
  | .lcfRepeat d _ => some d
  | .linkEnableWrite _ _ _ => none
  | .fabricLinkDown d _ _ => some d
  | .demandTimer d _ => some d
  | .egressGrant d _ _ => some d
  | .creditAudit d _ => some d
  | .fabricUtilWindowEnd d _ _ => some d
  | .linkIdleReady d _ => some d
  | .dramRequest d _ _ => some d
  | .dramCommandSlot d _ _ => some d
  | .dramReadComplete d _ _ => some d
  | .dramRefresh d _ _ _ _ _ => some d
  | .dramTempRead d _ _ _ => some d
  | .retrainNow _ _ _ => none
  | .retrainWindowOpen d _ => some d
  | .retrainWindowClose d _ _ => some d
  | .patternCommand _ _ _ _ => none
  | .patternDone d _ _ => some d
  | .fullTrain _ _ _ => none
  | .trainingComplete d _ _ _ _ => some d
  | .eccPoll d _ _ => some d
  | .cxlBringupTimeout d _ => some d
  | .cxlMemoryActive d _ _ _ => some d
  | .cxlLinkLost d _ => some d
  | .cxlCompletionTimeout d _ => some d
  | .cxlFatalError d _ => some d
  | .cxlRetrain d _ _ _ _ => some d
  | .cxlEventPoll d _ _ => some d
  | .endpointReset _ _ _ => none
  | .attInvalidate _ _ _ _ => none
  | .doorbellWrite _ _ _ => none
  | .ringEnableWrite _ _ _ _ => none
  | .ringStopDone d _ => some d
  | .puntWrite d _ _ _ => some d
  | .injectRead d _ _ _ _ => some d
  | .batchRun d _ _ _ => some d
  | .recordRingWrite d _ _ => some d
  | .ringIrqTimer d _ => some d
  | .jdpFrameReceive _ _ => none
  | .jdpRequest => none
  | .jdpOpen => none
  | .jdpOpenReply _ => none
  | .jdpClose => none
  | .jdpDiscover => none
  | .sessionIdleTimeout _ => none
  | .sessionClose _ _ => none
  | .keySlotWrite _ _ _ _ => none
  | .modeRequestStandby _ => none
  | .modeRequestBringup _ => none
  | .modeRequestForwarding _ => none
  | .modeRequestDrain _ => none
  | .modeRequestQuiesce _ => none
  | .modeRequestDiagnostic _ => none
  | .modeRequestFactory _ => none
  | .drainEmpty => none
  | .quiesceTimeout => none
  | .functionReady d _ => some d
  | .bringupTimeout => none
  | .leanWindow => none
  | .clusterParkDone d _ => some d
  | .clusterWakeDone d _ => some d
  | .domainRequestWrite _ _ _ _ => none
  | .domainOnDone d _ => some d
  | .packageReset _ => none
  | .resetLAssert => none
  | .resetLRelease _ => none
  | .faultAccept d _ => some d
  | .cairnComplete d _ _ => some d
  | .heldDumpPath d => some d
  | .faultRecordReceive => none
  | .faultStagingCommit => none
  | .repeatUpdateReceive => none
  | .logAck _ _ => none
  | .firstFaultClear _ => none
  | .logRead _ _ => none
  | .dieLogRead _ _ => none
  | .dumpNow _ _ => none
  | .dumpAck _ _ => none
  | .resetHoldTimeout => none
  | .faultInject _ _ => none
  | .spareRebuildDone d _ => some d
  | .sliceDue d _ _ _ _ => some d
  | .sliceConditionCheck d _ _ _ => some d
  | .bankMirrorDone d => some d
  | .bankTestDone d _ _ => some d
  | .bankRestoreDone d => some d
  | .engineDrained d => some d
  | .engineDrainTimeout d => some d
  | .engineTestDone d _ => some d
  | .cstoreWalkDone d _ => some d
  | .segmentMarchDone d _ => some d
  | .diagLoopback _ _ => none
  | .diagPattern _ _ => none
  | .counterValueWrite _ _ _ _ _ => none
  | .sampleRead _ _ _ _ => none
  | .sampleClear _ _ _ => none
  | .jtagIdcode d => some d
  | .jtagSamplePreload d _ => some d
  | .jtagExtest d => some d
  | .jtagExtestPulse d => some d
  | .jtagExtestTrain d => some d
  | .jtagClamp d => some d
  | .jtagHighz d => some d
  | .jtagInternalScan d => some d
  | .jtagDebugAccess d => some d
  | .jtagBypass d => some d
  | .hostOffer _ _ => none
  | .hostBlock _ _ => none
  | .hostEnd _ => none
  | .fwAbort _ => none
  | .jdpOffer => none
  | .jdpBlock => none
  | .jdpStatus => none
  | .jdpEnd => none
  | .statusTimer => none
  | .blockResendTimeout => none
  | .relayOpenRetry => none
  | .sessionStallTimeout => none
  | .stagingCheckDone => none
  | .activate _ => none
  | .inplaceSwitchDone _ => none
  | .confirm _ => none
  | .probationExpire => none
  | .revert _ => none
  | .settingsAccept _ => none
  | .settingsFallback _ => none
  | .railUndervoltage d _ _ _ _ => some d
  | .railOvervoltage d _ _ _ _ => some d
  | .railOvercurrent d _ _ _ _ => some d
  | .vinMeasure _ _ => none
  | .powerOnReset d _ => some d
  | .pwrokLow => none
  | .timeclkLost => none
  | .refclkNetLost d => some d
  | .refclkNetReturn d => some d
  | .refclkFabLost d => some d
  | .refclkPciLost d _ => some d
  | .thermalSensorRead d _ _ => some d
  | .saddleTrainingDone d _ _ => some d
  | .saddleLaneLoss d _ => some d
  | .fabricAlignmentLock d _ _ _ => some d
  | .dramPhyLaneLoss d _ => some d
  | .dramCatastrophicTemp d _ => some d
  | .watchdogExpire d => some d
  | .timeclkLock => none
  | .refclkFabReturn d => some d
  | .powerOnResetRelease d => some d
  | .domainStopDone d _ => some d
  | .selfCheckDone _ _ => none
  | .bootImageReadDone _ => none
  | .mgmtPortLinkChange _ _ => none

/-- The commands that carry or finish an access of the dictionary: a write to confirm (R583) can be among them. -/
def Instr.carriesAccess (i : Instr) : Bool :=
  match i with
  | .dictWrite _ _ _ _ _ _ => true
  | .rcRead _ _ _ _ => true
  | .describe _ _ _ => true
  | .mailboxGo _ => true
  | .dieAccessMessage _ => true
  | .broadcastApply _ => true
  | .broadcastComplete _ => false
  | .settingsSave => false
  | .saddleFlitReceive _ _ _ => false
  | .saddleNakReceive _ _ => false
  | .saddleAckReceive _ _ => false
  | .saddleTransferComplete _ _ => false
  | .routeTableReceive _ => false
  | .saddleUtilWindowEnd _ _ _ => false
  | .laneReq _ _ => false
  | .laneAck _ _ => false
  | .saddleLaneWakeDone _ _ => false
  | .heartbeatTick => false
  | .heartbeatTimeout _ => false
  | .startPulseSeen _ => false
  | .electionBitSample _ => false
  | .electionNoSummit => false
  | .beaconStuckLow _ => false
  | .beaconStuckHigh _ => false
  | .beaconFaultyNotice _ => false
  | .summitTokenTick => false
  | .summitTokenReceive _ => false
  | .tokenTimeout _ => false
  | .dieRejoin _ _ => true
  | .flashAgentAppear => false
  | .frameStart _ _ => false
  | .parseStart _ _ => false
  | .frameTailReceive _ _ _ _ => false
  | .packetDispatch _ _ => false
  | .dispatchRecordReceive _ => false
  | .returnRecordReceive _ => false
  | .dispatchQueueRequest _ _ _ => false
  | .threadStart _ _ => false
  | .stealLook _ => false
  | .stealArrive _ _ => false
  | .parkRequest _ _ => false
  | .parkComplete _ _ _ => false
  | .contextResume _ _ => false
  | .preempt _ => false
  | .contextRestart _ _ => false
  | .nop _ _ _ => false
  | .mov _ _ _ => false
  | .add _ _ _ => false
  | .sub _ _ _ => false
  | .and _ _ _ => false
  | .or _ _ _ => false
  | .xor _ _ _ => false
  | .andn _ _ _ => false
  | .shl _ _ _ => false
  | .shr _ _ _ => false
  | .ext _ _ _ => false
  | .ins _ _ _ => false
  | .cmp _ _ _ => false
  | .minu _ _ _ => false
  | .maxu _ _ _ => false
  | .popc _ _ _ => false
  | .clz _ _ _ => false
  | .next _ _ _ => false
  | .jump _ _ _ => false
  | .mway _ _ _ => false
  | .call _ _ _ => false
  | .ret _ _ _ => false
  | .endWord _ _ _ => false
  | .ldh _ _ _ => false
  | .ldhx _ _ _ => false
  | .jhdr _ _ _ => false
  | .jhdrx _ _ _ => false
  | .jdesc _ _ _ => false
  | .jcnt _ _ _ => false
  | .jmeter _ _ _ => false
  | .jctx _ _ _ => false
  | .jevt _ _ _ => false
  | .commit _ _ _ => false
  | .cntrd _ _ _ => false
  | .searchIssue _ _ _ => false
  | .searchResponse _ => false
  | .journalEntryDrain _ _ _ => false
  | .csFetchParityFail _ _ _ _ => false
  | .csReloadDone _ _ _ _ => false
  | .rollingLoadClusterEmpty _ _ => false
  | .clusterStoreWritten _ _ _ => false
  | .reseqArrive _ _ => false
  | .holeTimeout _ _ _ => false
  | .holeMarkerReceive _ => false
  | .reseqRelease _ _ _ => false
  | .rewrite _ => false
  | .recircInput _ => false
  | .fibLookup _ _ _ => false
  | .fibResolve _ _ => false
  | .deepReadComplete _ _ => false
  | .deepStagingAdmit _ => false
  | .fibInsert _ _ _ => true
  | .fibDelete _ _ _ => true
  | .fibHomeOutcome _ => false
  | .stemRebuild _ => false
  | .homeDieMapWrite _ _ _ => true
  | .exactSearch _ _ _ => false
  | .tableInsert _ _ _ _ _ => true
  | .tableDelete _ _ _ _ => true
  | .tableSearch _ _ _ _ => true
  | .tableNext _ _ _ _ => true
  | .flushByPort _ _ _ _ _ _ => true
  | .flushStep _ => false
  | .learnEventProcess _ => false
  | .ageingSweepVisit _ _ => false
  | .shadowModeWrite _ _ _ => true
  | .shadowCopyDone _ => false
  | .scrubBucket _ _ => false
  | .scrubRecheck _ _ => false
  | .ternarySearch _ _ => false
  | .ruleInsert _ _ _ _ => true
  | .ruleDelete _ _ _ _ => true
  | .ruleSearch _ _ _ _ => true
  | .ruleNext _ _ _ _ => true
  | .epochInherit _ => true
  | .epochDiscardNext _ => true
  | .epochSwap _ => true
  | .epochSwitchApply _ => false
  | .epochSwitchAck => false
  | .forceRetire _ => true
  | .retireTimeout => false
  | .holdersZero => false
  | .epochClearDone => false
  | .contextRead _ _ => false
  | .contextReadUpdate _ _ => false
  | .lockGrant _ => false
  | .contextFillComplete _ _ => false
  | .fillPinWait _ _ => false
  | .pageEventReceive _ => false
  | .pageWaitExpire _ _ => false
  | .pageMap _ _ _ _ _ _ => true
  | .pageUnmap _ _ _ _ => true
  | .unmapComplete _ => false
  | .pageMigrate _ _ _ _ _ => true
  | .migrateCopyDone _ _ => true
  | .pagePoison _ _ _ _ => true
  | .pageRepair _ _ _ _ _ _ => true
  | .pageQuery _ _ _ _ => true
  | .poolRelease _ _ => false
  | .allocatorRefill _ _ => false
  | .waitListHeadRetry _ => false
  | .voqDepart _ _ => false
  | .stacksReady _ => false
  | .replication _ => false
  | .residueEnter _ _ _ => false
  | .residueTimeout _ _ => false
  | .portFlushDone _ _ => false
  | .schedSelect _ _ => false
  | .shaperCreditPositive _ _ _ => false
  | .shaperRateWrite _ _ _ _ _ => true
  | .shaperBurstWrite _ _ _ _ _ => true
  | .shaperReset _ _ _ _ => true
  | .applyTemplate _ _ _ _ => true
  | .gateListWrite _ _ _ => true
  | .configChange _ _ _ => true
  | .configChangeTime _ _ => false
  | .gateEntryEnd _ _ => false
  | .meridianSet _ _ => true
  | .meridianStep _ _ => true
  | .meridianAdjustApply => false
  | .freqAdjWrite _ _ => true
  | .ppsInEdge => false
  | .ppsOutSecond => false
  | .samplerVisit _ _ => false
  | .laneGroupModeWrite _ _ _ _ => true
  | .portEnableWrite _ _ _ _ => true
  | .autonegAttempt _ _ => false
  | .linkLoss _ _ _ => false
  | .remoteFault _ _ => false
  | .linkUp _ _ _ => false
  | .txOversizeCut _ _ => false
  | .txUnderrun _ _ => false
  | .frameTxComplete _ _ => false
  | .pauseFrameReceive _ _ _ _ => false
  | .pauseTimerExpire _ _ _ => false
  | .pauseFrameSend _ _ => false
  | .pauseRefresh _ _ => false
  | .snapshot _ _ => true
  | .snapshotCopyDone _ => false
  | .snapshotAllApply _ => false
  | .dataCellReceive _ _ _ _ _ _ => false
  | .creditCellReceive _ _ _ _ _ => false
  | .demandReceive _ _ _ _ _ _ => false
  | .grantReceive _ _ _ _ _ _ => false
  | .lcfAck _ _ _ _ => false
  | .lcfNak _ _ _ _ => false
  | .lcfTrain _ _ _ _ => false
  | .lcfCreditInit _ _ _ _ => false
  | .lcfReady _ _ _ _ => false
  | .lcfStepReq _ _ _ _ => false
  | .lcfStepAck _ _ _ _ => false
  | .lcfWakeReq _ _ _ _ => false
  | .lcfWakeAck _ _ _ _ => false
  | .linkAckTimer _ _ => false
  | .nakRepeat _ _ => false
  | .lcfRepeat _ _ => false
  | .linkEnableWrite _ _ _ => true
  | .fabricLinkDown _ _ _ => false
  | .demandTimer _ _ => false
  | .egressGrant _ _ _ => false
  | .creditAudit _ _ => false
  | .fabricUtilWindowEnd _ _ _ => false
  | .linkIdleReady _ _ => false
  | .dramRequest _ _ _ => false
  | .dramCommandSlot _ _ _ => false
  | .dramReadComplete _ _ _ => false
  | .dramRefresh _ _ _ _ _ _ => false
  | .dramTempRead _ _ _ _ => false
  | .retrainNow _ _ _ => true
  | .retrainWindowOpen _ _ => false
  | .retrainWindowClose _ _ _ => false
  | .patternCommand _ _ _ _ => true
  | .patternDone _ _ _ => false
  | .fullTrain _ _ _ => true
  | .trainingComplete _ _ _ _ _ => false
  | .eccPoll _ _ _ => false
  | .cxlBringupTimeout _ _ => false
  | .cxlMemoryActive _ _ _ _ => false
  | .cxlLinkLost _ _ => false
  | .cxlCompletionTimeout _ _ => false
  | .cxlFatalError _ _ => false
  | .cxlRetrain _ _ _ _ _ => false
  | .cxlEventPoll _ _ _ => false
  | .endpointReset _ _ _ => false
  | .attInvalidate _ _ _ _ => true
  | .doorbellWrite _ _ _ => false
  | .ringEnableWrite _ _ _ _ => true
  | .ringStopDone _ _ => false
  | .puntWrite _ _ _ _ => false
  | .injectRead _ _ _ _ _ => false
  | .batchRun _ _ _ _ => true
  | .recordRingWrite _ _ _ => false
  | .ringIrqTimer _ _ => false
  | .jdpFrameReceive _ _ => false
  | .jdpRequest => true
  | .jdpOpen => false
  | .jdpOpenReply _ => false
  | .jdpClose => false
  | .jdpDiscover => false
  | .sessionIdleTimeout _ => false
  | .sessionClose _ _ => true
  | .keySlotWrite _ _ _ _ => true
  | .modeRequestStandby _ => true
  | .modeRequestBringup _ => true
  | .modeRequestForwarding _ => true
  | .modeRequestDrain _ => true
  | .modeRequestQuiesce _ => true
  | .modeRequestDiagnostic _ => true
  | .modeRequestFactory _ => true
  | .drainEmpty => false
  | .quiesceTimeout => false
  | .functionReady _ _ => false
  | .bringupTimeout => false
  | .leanWindow => false
  | .clusterParkDone _ _ => false
  | .clusterWakeDone _ _ => false
  | .domainRequestWrite _ _ _ _ => true
  | .domainOnDone _ _ => false
  | .packageReset _ => true
  | .resetLAssert => false
  | .resetLRelease _ => false
  | .faultAccept _ _ => false
  | .cairnComplete _ _ _ => false
  | .heldDumpPath _ => false
  | .faultRecordReceive => false
  | .faultStagingCommit => false
  | .repeatUpdateReceive => false
  | .logAck _ _ => true
  | .firstFaultClear _ => true
  | .logRead _ _ => true
  | .dieLogRead _ _ => true
  | .dumpNow _ _ => true
  | .dumpAck _ _ => true
  | .resetHoldTimeout => false
  | .faultInject _ _ => true
  | .spareRebuildDone _ _ => false
  | .sliceDue _ _ _ _ _ => false
  | .sliceConditionCheck _ _ _ _ => false
  | .bankMirrorDone _ => false
  | .bankTestDone _ _ _ => false
  | .bankRestoreDone _ => false
  | .engineDrained _ => false
  | .engineDrainTimeout _ => false
  | .engineTestDone _ _ => false
  | .cstoreWalkDone _ _ => false
  | .segmentMarchDone _ _ => false
  | .diagLoopback _ _ => true
  | .diagPattern _ _ => true
  | .counterValueWrite _ _ _ _ _ => true
  | .sampleRead _ _ _ _ => true
  | .sampleClear _ _ _ => true
  | .jtagIdcode _ => false
  | .jtagSamplePreload _ _ => false
  | .jtagExtest _ => false
  | .jtagExtestPulse _ => false
  | .jtagExtestTrain _ => false
  | .jtagClamp _ => false
  | .jtagHighz _ => false
  | .jtagInternalScan _ => false
  | .jtagDebugAccess _ => false
  | .jtagBypass _ => false
  | .hostOffer _ _ => true
  | .hostBlock _ _ => true
  | .hostEnd _ => true
  | .fwAbort _ => true
  | .jdpOffer => false
  | .jdpBlock => false
  | .jdpStatus => false
  | .jdpEnd => false
  | .statusTimer => false
  | .blockResendTimeout => false
  | .relayOpenRetry => false
  | .sessionStallTimeout => false
  | .stagingCheckDone => false
  | .activate _ => true
  | .inplaceSwitchDone _ => true
  | .confirm _ => true
  | .probationExpire => false
  | .revert _ => true
  | .settingsAccept _ => true
  | .settingsFallback _ => true
  | .railUndervoltage _ _ _ _ _ => false
  | .railOvervoltage _ _ _ _ _ => false
  | .railOvercurrent _ _ _ _ _ => false
  | .vinMeasure _ _ => false
  | .powerOnReset _ _ => false
  | .pwrokLow => false
  | .timeclkLost => false
  | .refclkNetLost _ => false
  | .refclkNetReturn _ => false
  | .refclkFabLost _ => false
  | .refclkPciLost _ _ => false
  | .thermalSensorRead _ _ _ => false
  | .saddleTrainingDone _ _ _ => false
  | .saddleLaneLoss _ _ => false
  | .fabricAlignmentLock _ _ _ _ => false
  | .dramPhyLaneLoss _ _ => false
  | .dramCatastrophicTemp _ _ => false
  | .watchdogExpire _ => false
  | .timeclkLock => false
  | .refclkFabReturn _ => false
  | .powerOnResetRelease _ => false
  | .domainStopDone _ _ => false
  | .selfCheckDone _ _ => false
  | .bootImageReadDone _ => false
  | .mgmtPortLinkChange _ _ => false

end Sys2Proof
end

