-- ==== Sys2Proof/Certificates/Slice0/Obligations.lean ====
section
/-! DEFINITION. The statements about the block. -/

open Sys2Proof Sys2Proof.Machine

/-- A step runs the command at the front of the queue. For every command c, queue rest and state s, step of s with c in
front of the rest is exec of c on s with the rest as its queue. (R477) -/
def Obligations.StepRunsTheFrontCommand : Prop :=
  ∀ (c : Instr) (rest : List Instr) (s : State),
    step { s with pending := c :: rest } = exec c { s with pending := rest }

/-- On an empty queue a nanosecond passes. With no command waiting, step answers a next state: the reference clock has
advanced by one nanosecond, and the queue and the part are as before. Where no fault record waits to be sent, no
request of a session waits, no test pattern is on and no counter set of a present die counts or samples, Meridian time
has advanced by one nanosecond with its rate correction, and nothing else has changed. That the block idles so is the
choice of log entry 2. (R364, R362) -/
def Obligations.EmptyQueueIdles : Prop :=
  ∀ s : State, s.pending = [] →
    (∃ t, step s = .next t ∧ t.now = s.now + 1 ∧ t.pending = [] ∧ t.part = s.part) ∧
    (s.jdpJobs = [] →
      (∀ d, d ∈ s.present → (s.die d).core.sendQ = [] ∧ (s.die d).core.patterns = [] ∧ ∀ k, k < 20 → setRuns s d k = false) →
      step s = .next { s with
        now := s.now + 1
        meridian := s.meridian + ((10 ^ 12 : Int) + s32 (s.pg 0x1600 4)).toNat })

/-- Every command completes unless its die is absent. For every command and state: when the command names a die the part
does not have, it stops with absentUnit; otherwise it answers a next state. No command is refused. (R7) -/
def Obligations.EveryCommandAnswersOrNamesAnAbsentDie : Prop :=
  ∀ (c : Instr) (s : State),
    (∀ d, c.die? = some d → s.has d = false → exec c s = .fault .absentUnit) ∧
    ((∀ d, c.die? = some d → s.has d = true) → ∃ t, exec c s = .next t)

/-- No command moves the queue, the part or the clock. For every command, when exec answers a next state the queue, the
part and the reference clock are as before. (R7) -/
def Obligations.NoCommandMovesQueuePartOrClock : Prop :=
  ∀ (c : Instr) (s t : State), exec c s = .next t →
    t.pending = s.pending ∧ t.part = s.part ∧ t.now = s.now

/-- The anti-rollback counter never decreases. For every state and bound n at most the anti-rollback counter, after any
step that answers a next state the counter is still at least n. (R570) -/
def Obligations.RollbackCounterNeverFalls : Prop :=
  ∀ (n : Nat) (s t : State), n ≤ s.flash.rollback → step s = .next t → n ≤ t.flash.rollback

/-- The anti-rollback counter is zero in the reset state. State.reset holds the counter at 0, the default of entry
1500.06, so the bound of RollbackCounterNeverFalls holds there with n = 0. (R570, R588) -/
def Obligations.RollbackCounterAtReset : Prop :=
  State.reset.flash.rollback = 0 ∧ 0 ≤ State.reset.flash.rollback

/-- A blown revocation bit stays blown. For every step that answers a next state, each revocation bit set before is set
after. (R570) -/
def Obligations.RevocationBitsStayBlown : Prop :=
  ∀ (s t : State), step s = .next t → ∀ i : Fin 4, s.flash.revoked.getLsbD i = true → t.flash.revoked.getLsbD i = true

/-- Only a command that carries an access can move the anti-rollback counter. Every command that neither carries nor
finishes a dictionary access leaves the anti-rollback counter and the revocation bits as they are. (R570, R583) -/
def Obligations.OnlyAnAccessMovesTheCounter : Prop :=
  ∀ (c : Instr) (s t : State), c.carriesAccess = false → exec c s = .next t →
    t.flash.rollback = s.flash.rollback ∧ t.flash.revoked = s.flash.revoked

/-- Confirmation raises the counter to the image's rollback_index. In probation with a flash agent, confirm answers OK;
the counter becomes the larger of its value and the confirmed image's rollback_index, the bits of its revoke_mask but
the one of its own key_index are blown, 1500.07 becomes 3. Outside probation it answers WRONG_MODE and changes
nothing. (R570) -/
def Obligations.ConfirmRaisesTheCounter : Prop :=
  ∀ s : State,
    (s.flash.probation = 1 → (flashAgent s).isSome = true →
      (confirm s).1 = 0 ∧
      (confirm s).2.flash.rollback = max s.flash.rollback (bits (imageHdr (activeImage s)) 127 96) ∧
      (∀ i : Fin 4, (confirm s).2.flash.revoked.getLsbD i =
        (s.flash.revoked.getLsbD i ||
          (bit (bits (imageHdr (activeImage s)) 255 252) i && decide (i.val ≠ bits (imageHdr (activeImage s)) 251 248)))) ∧
      (confirm s).2.flash.probation = 3) ∧
    (s.flash.probation ≠ 1 → confirm s = (0x16, s))

/-- Reset holds every register at its default. In State.reset the mode is Standby, no Summit holds office, no command
waits, no message, packet, log record, session or message of the relay exists, and every package-wide register and
every register of every die reads its default. The defaults the tables do not state are those of log entry 8. (R471, R497) -/
def Obligations.ResetHoldsDefaults : Prop :=
  State.reset.mode = .standby ∧ State.reset.summit = none ∧ State.reset.pending = [] ∧ State.reset.msgs = [] ∧
    State.reset.pkts = [] ∧ State.reset.pkgLog = [] ∧ State.reset.sessions = [] ∧ State.reset.inbox = [] ∧
    (∀ i j, State.reset.pg i j = entryDefault .d9080 i j) ∧
    (∀ d i j, State.reset.dg d i j = entryDefault .d9080 i j)

/-- Accesses, their messages and their end complete. Accesses, their messages and their end: for every state and a present
die each of RC_READ, DESCRIBE, MAILBOX_GO, DIE_ACCESS_MESSAGE, BROADCAST_APPLY, BROADCAST_COMPLETE, SETTINGS_SAVE,
FLASH_AGENT_APPEAR answers a next state, the one its own effect gives, in which the queue, the part and the reference
clock are as before, the anti-rollback counter has not fallen and no revocation bit is lost. (R472, R483, R484, R480, R57, R56, R474, R42) -/
def Obligations.AccessMessagesComplete : Prop :=
  ∀ s : State,
    (∀ d : DieId, s.has d = true →
      (Answers (.dieAccessMessage d) s (dieAccess d s)) ∧
      (Answers (.broadcastApply d) s (bcastApply d s))) ∧
    ((∀ (r : Requester) (sel : Sel) (i : Fin 65536) (sub : Fin 256), Answers (.rcRead r sel i sub) s (endpoint r { op := .read, sel := sel, idx := i, sub := sub } s)) ∧
      (∀ (r : Requester) (i : Fin 65536) (sub : Fin 256), Answers (.describe r i sub) s (endpoint r { op := .describe, idx := i, sub := sub } s)) ∧
      (∀ (l : List (Fin 2 × Fin 8 × Bool × Access)), Answers (.mailboxGo l) s (mailboxGo l s)) ∧
      (∀ (r : Requester), Answers (.broadcastComplete r) s (bcastDone r s)) ∧
      (Answers (.settingsSave) s (flashSave s)) ∧
      (Answers (.flashAgentAppear) s (flashSave s)))

/-- The saddle commands complete. The saddle commands: for every state and a present die each of SADDLE_FLIT_RECEIVE,
SADDLE_NAK_RECEIVE, SADDLE_ACK_RECEIVE, SADDLE_TRANSFER_COMPLETE, ROUTE_TABLE_RECEIVE, SADDLE_UTIL_WINDOW_END,
LANE_REQ, LANE_ACK, SADDLE_LANE_WAKE_DONE, SADDLE_TRAINING_DONE, SADDLE_LANE_LOSS answers a next state, the one its
own effect gives, in which the queue, the part and the reference clock are as before, the anti-rollback counter has
not fallen and no revocation bit is lost. (R34, R33, R35, R28, R38, R40, R36) -/
def Obligations.SaddleCommandsComplete : Prop :=
  ∀ s : State,
    (∀ d : DieId, s.has d = true →
      (∀ (k : Side) (ok : Bool), Answers (.saddleFlitReceive d k ok) s (flitReceive d (sideNo k) ok s)) ∧
      (∀ (k : Side), Answers (.saddleNakReceive d k) s (bareReceive true d (sideNo k) s)) ∧
      (∀ (k : Side), Answers (.saddleAckReceive d k) s (bareReceive false d (sideNo k) s)) ∧
      (∀ (k : Side), Answers (.saddleTransferComplete d k) s (transferComplete d (sideNo k) s)) ∧
      (Answers (.routeTableReceive d) s (routeReceive d s)) ∧
      (∀ (k : Side) (util : Fin 10001), Answers (.saddleUtilWindowEnd d k util) s (utilWindow d (sideNo k) util s)) ∧
      (∀ (k : Side), Answers (.laneReq d k) s (laneReq d (sideNo k) s)) ∧
      (∀ (k : Side), Answers (.laneAck d k) s (laneAck d (sideNo k) s)) ∧
      (∀ (k : Side), Answers (.saddleLaneWakeDone d k) s (laneWake d (sideNo k) s)) ∧
      (∀ (k : Side) (ok : Bool), Answers (.saddleTrainingDone d k ok) s (trainingDone d (sideNo k) ok s)) ∧
      (∀ (k : Side), Answers (.saddleLaneLoss d k) s (fenceSaddle d (sideNo k) 3 s)))

/-- The beacon, election and Summit commands complete. The beacon, election and Summit commands: for every state and a
present die each of HEARTBEAT_TICK, HEARTBEAT_TIMEOUT, START_PULSE_SEEN, ELECTION_BIT_SAMPLE, ELECTION_NO_SUMMIT,
BEACON_STUCK_LOW, BEACON_STUCK_HIGH, BEACON_FAULTY_NOTICE, SUMMIT_TOKEN_TICK, SUMMIT_TOKEN_RECEIVE, TOKEN_TIMEOUT
answers a next state, the one its own effect gives, in which the queue, the part and the reference clock are as
before, the anti-rollback counter has not fallen and no revocation bit is lost. (R44, R45, R46, R48, R49, R50, R51, R52) -/
def Obligations.SummitCommandsComplete : Prop :=
  ∀ s : State,
    (∀ d : DieId, s.has d = true →
      (Answers (.heartbeatTimeout d) s (heartbeatTimeout d s)) ∧
      (Answers (.startPulseSeen d) s (startPulse d s)) ∧
      (Answers (.electionBitSample d) s (electionSample d s)) ∧
      (Answers (.beaconStuckLow d) s (beaconStuck d 1 s)) ∧
      (Answers (.beaconStuckHigh d) s (stuckHigh d s)) ∧
      (Answers (.beaconFaultyNotice d) s (beaconNotice d s)) ∧
      (Answers (.summitTokenReceive d) s (tokenReceive d s)) ∧
      (Answers (.tokenTimeout d) s (tokenTimeout d s))) ∧
    ((Answers (.heartbeatTick) s (heartbeat s)) ∧
      (Answers (.electionNoSummit) s (noSummit s)) ∧
      (Answers (.summitTokenTick) s (tokenTick s)))

/-- The ingress, dispatch and thread commands complete. The ingress, dispatch and thread commands: for every state and a
present die that is not held still each of FRAME_START, PARSE_START, FRAME_TAIL_RECEIVE, PACKET_DISPATCH,
DISPATCH_RECORD_RECEIVE, RETURN_RECORD_RECEIVE, DISPATCH_QUEUE_REQUEST, THREAD_START, STEAL_LOOK, STEAL_ARRIVE,
PARK_REQUEST, PARK_COMPLETE, CONTEXT_RESUME, PREEMPT, CONTEXT_RESTART answers a next state, the one its own effect
gives, in which the queue, the part and the reference clock are as before, the anti-rollback counter has not fallen
and no revocation bit is lost. (R320, R154, R168, R89, R86, R92, R93, R97, R98, R127, R128, R133) -/
def Obligations.IngressAndThreadCommandsComplete : Prop :=
  ∀ s : State,
    (∀ d : DieId, s.has d = true → s.frozen d = false →
      (∀ (frames : List (Slot × Bytes)), Answers (.frameStart d frames) s (frameStart d (frames.map (fun x => (x.1.val, x.2))) s)) ∧
      (∀ (slot : Slot), Answers (.parseStart d slot) s (parseStart d slot s)) ∧
      (∀ (slot : Slot) (rest : Bytes) (cw : Cw), Answers (.frameTailReceive d slot rest cw) s (tailReceive d slot rest cw s)) ∧
      (∀ (q : Fin 10), Answers (.packetDispatch d q) s (packetDispatch d q s)) ∧
      (Answers (.dispatchRecordReceive d) s (recordReceive d s)) ∧
      (Answers (.returnRecordReceive d) s (returnReceive d s)) ∧
      (∀ (c : ClusterId) (reqs : List (Fin 10)), Answers (.dispatchQueueRequest d c reqs) s (queueRequest d c (reqs.map (·.val)) s)) ∧
      (∀ (c : ClusterId), Answers (.threadStart d c) s (threadStart d c s)) ∧
      (Answers (.stealLook d) s (stealLook d s)) ∧
      (∀ (c : ClusterId), Answers (.stealArrive d c) s (stealArrive d c s)) ∧
      (∀ (reqs : List (ClusterId × ThreadId)), Answers (.parkRequest d reqs) s (parkRequest d (reqs.map (fun q => (q.1.val, q.2.val))) s)) ∧
      (∀ (c : ClusterId) (t : ThreadId), Answers (.parkComplete d c t) s (parkComplete d c t s)) ∧
      (∀ (x : Fin 4096), Answers (.contextResume d x) s (contextResume d x s)) ∧
      (Answers (.preempt d) s (preempt d s)) ∧
      (∀ (w : WaitPlace), Answers (.contextRestart d w) s (contextRestart d w s)))

/-- The microwords of each ALU operation complete. The microwords of each ALU operation: for every state and a present die
that is not held still each of NOP, MOV, ADD, SUB, AND, OR, XOR, ANDN, SHL, SHR, EXT, INS, CMP, MINU, MAXU, POPC, CLZ
answers a next state, the one its own effect gives, in which the queue, the part and the reference clock are as
before, the anti-rollback counter has not fallen and no revocation bit is lost. (R115) -/
def Obligations.AluWordsComplete : Prop :=
  ∀ s : State,
    (∀ d : DieId, s.has d = true → s.frozen d = false →
      (∀ (c : ClusterId) (t : ThreadId), Answers (.nop d c t) s (issue d c t (fun w => uAlu w == 0) s)) ∧
      (∀ (c : ClusterId) (t : ThreadId), Answers (.mov d c t) s (issue d c t (fun w => uAlu w == 1) s)) ∧
      (∀ (c : ClusterId) (t : ThreadId), Answers (.add d c t) s (issue d c t (fun w => uAlu w == 2) s)) ∧
      (∀ (c : ClusterId) (t : ThreadId), Answers (.sub d c t) s (issue d c t (fun w => uAlu w == 3) s)) ∧
      (∀ (c : ClusterId) (t : ThreadId), Answers (.and d c t) s (issue d c t (fun w => uAlu w == 4) s)) ∧
      (∀ (c : ClusterId) (t : ThreadId), Answers (.or d c t) s (issue d c t (fun w => uAlu w == 5) s)) ∧
      (∀ (c : ClusterId) (t : ThreadId), Answers (.xor d c t) s (issue d c t (fun w => uAlu w == 6) s)) ∧
      (∀ (c : ClusterId) (t : ThreadId), Answers (.andn d c t) s (issue d c t (fun w => uAlu w == 7) s)) ∧
      (∀ (c : ClusterId) (t : ThreadId), Answers (.shl d c t) s (issue d c t (fun w => uAlu w == 8) s)) ∧
      (∀ (c : ClusterId) (t : ThreadId), Answers (.shr d c t) s (issue d c t (fun w => uAlu w == 9) s)) ∧
      (∀ (c : ClusterId) (t : ThreadId), Answers (.ext d c t) s (issue d c t (fun w => uAlu w == 10) s)) ∧
      (∀ (c : ClusterId) (t : ThreadId), Answers (.ins d c t) s (issue d c t (fun w => uAlu w == 11) s)) ∧
      (∀ (c : ClusterId) (t : ThreadId), Answers (.cmp d c t) s (issue d c t (fun w => uAlu w == 12) s)) ∧
      (∀ (c : ClusterId) (t : ThreadId), Answers (.minu d c t) s (issue d c t (fun w => uAlu w == 13) s)) ∧
      (∀ (c : ClusterId) (t : ThreadId), Answers (.maxu d c t) s (issue d c t (fun w => uAlu w == 14) s)) ∧
      (∀ (c : ClusterId) (t : ThreadId), Answers (.popc d c t) s (issue d c t (fun w => uAlu w == 15) s)) ∧
      (∀ (c : ClusterId) (t : ThreadId), Answers (.clz d c t) s (issue d c t (fun w => uAlu w == 16) s)))

/-- The microwords of each sequencer, header, journal and search operation complete. The microwords of each sequencer,
header, journal and search operation: for every state and a present die that is not held still each of NEXT, JUMP,
MWAY, CALL, RET, END, LDH, LDHX, JHDR, JHDRX, JDESC, JCNT, JMETER, JCTX, JEVT, COMMIT, CNTRD, SEARCH_ISSUE,
SEARCH_RESPONSE, JOURNAL_ENTRY_DRAIN answers a next state, the one its own effect gives, in which the queue, the part
and the reference clock are as before, the anti-rollback counter has not fallen and no revocation bit is lost. (R116, R131, R120, R121, R122, R129, R350, R296, R233, R130, R562, R124) -/
def Obligations.SequencerAndJournalWordsComplete : Prop :=
  ∀ s : State,
    (∀ d : DieId, s.has d = true → s.frozen d = false →
      (∀ (c : ClusterId) (t : ThreadId), Answers (.next d c t) s (issue d c t (fun w => uSeq w == 0) s)) ∧
      (∀ (c : ClusterId) (t : ThreadId), Answers (.jump d c t) s (issue d c t (fun w => uSeq w == 1) s)) ∧
      (∀ (c : ClusterId) (t : ThreadId), Answers (.mway d c t) s (issue d c t (fun w => uSeq w == 2) s)) ∧
      (∀ (c : ClusterId) (t : ThreadId), Answers (.call d c t) s (issue d c t (fun w => uSeq w == 3) s)) ∧
      (∀ (c : ClusterId) (t : ThreadId), Answers (.ret d c t) s (issue d c t (fun w => uSeq w == 4) s)) ∧
      (∀ (c : ClusterId) (t : ThreadId), Answers (.endWord d c t) s (issue d c t (fun w => uSeq w == 5) s)) ∧
      (∀ (c : ClusterId) (t : ThreadId), Answers (.ldh d c t) s (issue d c t (fun w => uMem w == 1) s)) ∧
      (∀ (c : ClusterId) (t : ThreadId), Answers (.ldhx d c t) s (issue d c t (fun w => uMem w == 2) s)) ∧
      (∀ (c : ClusterId) (t : ThreadId), Answers (.jhdr d c t) s (issue d c t (fun w => uMem w == 3) s)) ∧
      (∀ (c : ClusterId) (t : ThreadId), Answers (.jhdrx d c t) s (issue d c t (fun w => uMem w == 4) s)) ∧
      (∀ (c : ClusterId) (t : ThreadId), Answers (.jdesc d c t) s (issue d c t (fun w => uMem w == 5) s)) ∧
      (∀ (c : ClusterId) (t : ThreadId), Answers (.jcnt d c t) s (issue d c t (fun w => uMem w == 6) s)) ∧
      (∀ (c : ClusterId) (t : ThreadId), Answers (.jmeter d c t) s (issue d c t (fun w => uMem w == 7) s)) ∧
      (∀ (c : ClusterId) (t : ThreadId), Answers (.jctx d c t) s (issue d c t (fun w => uMem w == 8) s)) ∧
      (∀ (c : ClusterId) (t : ThreadId), Answers (.jevt d c t) s (issue d c t (fun w => uMem w == 9) s)) ∧
      (∀ (c : ClusterId) (t : ThreadId), Answers (.commit d c t) s (issue d c t (fun w => uMem w == 10) s)) ∧
      (∀ (c : ClusterId) (t : ThreadId), Answers (.cntrd d c t) s (issue d c t (fun w => uMem w == 11) s)) ∧
      (∀ (c : ClusterId) (t : ThreadId), Answers (.searchIssue d c t) s (issue d c t (fun w => uSrch w == 1) s)) ∧
      (Answers (.searchResponse d) s (searchResponse d s)) ∧
      (∀ (c : ClusterId) (t : ThreadId), Answers (.journalEntryDrain d c t) s (entryDrain d c t s)))

/-- The control-store, resequencer and rewrite commands complete. The control-store, resequencer and rewrite commands: for
every state and a present die that is not held still each of CS_FETCH_PARITY_FAIL, CS_RELOAD_DONE,
ROLLING_LOAD_CLUSTER_EMPTY, CLUSTER_STORE_WRITTEN, RESEQ_ARRIVE, HOLE_TIMEOUT, HOLE_MARKER_RECEIVE, RESEQ_RELEASE,
REWRITE, RECIRC_INPUT answers a next state, the one its own effect gives, in which the queue, the part and the
reference clock are as before, the anti-rollback counter has not fallen and no revocation bit is lost. (R139, R140, R143, R101, R102, R103, R105, R268, R270) -/
def Obligations.ControlStoreAndOrderCommandsComplete : Prop :=
  ∀ s : State,
    (∀ d : DieId, s.has d = true → s.frozen d = false →
      (∀ (c : ClusterId) (t : ThreadId) (fails : Fin 3), Answers (.csFetchParityFail d c t fails) s (fetchFail d c t fails s)) ∧
      (∀ (c : ClusterId) (a : Fin 16384) (ok : Bool), Answers (.csReloadDone d c a ok) s (reloadDone d c a ok s)) ∧
      (∀ (c : ClusterId), Answers (.rollingLoadClusterEmpty d c) s (loadEmpty d c s)) ∧
      (∀ (c : ClusterId) (bad : Option (Fin 16384)), Answers (.clusterStoreWritten d c bad) s (storeDone d c (bad.map (·.val)) s)) ∧
      (∀ (eg : Bool), Answers (.reseqArrive d eg) s (reseqArrive d eg s)) ∧
      (∀ (eg : Bool) (k : Nat), Answers (.holeTimeout d eg k) s (holeTimeout d eg k s)) ∧
      (Answers (.holeMarkerReceive d) s (markerReceive d s)) ∧
      (∀ (eg : Bool) (out : Nat), Answers (.reseqRelease d eg out) s (reseqRelease d eg out s)) ∧
      (Answers (.rewrite d) s (rewriteStep d s)) ∧
      (Answers (.recircInput d) s (sharedParse d s)))

/-- The forwarding, exact-match and classifier commands complete. The forwarding, exact-match and classifier commands: for
every state and a present die that is not held still (or a present die) each of FIB_LOOKUP, FIB_RESOLVE,
DEEP_READ_COMPLETE, DEEP_STAGING_ADMIT, FIB_HOME_OUTCOME, STEM_REBUILD, EXACT_SEARCH, FLUSH_STEP, LEARN_EVENT_PROCESS,
AGEING_SWEEP_VISIT, SHADOW_COPY_DONE, SCRUB_BUCKET, SCRUB_RECHECK, TERNARY_SEARCH answers a next state, the one its
own effect gives, in which the queue, the part and the reference clock are as before, the anti-rollback counter has
not fallen and no revocation bit is lost. (R191, R207, R192, R197, R210, R202, R223, R247, R235, R237, R251, R252) -/
def Obligations.TableCommandsComplete : Prop :=
  ∀ s : State,
    (∀ d : DieId, s.has d = true → s.frozen d = false →
      (∀ (u : Fin 4) (grants : List (Fin 129 × List ReadAt)), Answers (.fibLookup d u grants) s (serveHead d u (fun p => p == 0x10 || p == 0x11) (fibLookup d u grants) s)) ∧
      (∀ (u : Fin 4), Answers (.fibResolve d u) s (serveHead d u (fun p => p == 0x12) (fibResolve d) s)) ∧
      (∀ (poison : Fin 4), Answers (.deepReadComplete d poison) s (deepReadDone d poison s)) ∧
      (Answers (.deepStagingAdmit d) s (stagingAdmit d s)) ∧
      (Answers (.stemRebuild d) s (stemRebuild d s)) ∧
      (∀ (u : Fin 4) (grants : List ReadAt), Answers (.exactSearch d u grants) s (serveHead d u (fun p => decide (0x20 ≤ p) && decide (p ≤ 0x24)) (exactSearch d u grants) s)) ∧
      (Answers (.flushStep d) s (flushStep d s)) ∧
      (Answers (.learnEventProcess d) s (learnStep d s)) ∧
      (∀ (t : Fin 3), Answers (.ageingSweepVisit d t) s (sweepVisit d t s)) ∧
      (∀ (poison : Bool), Answers (.scrubBucket d poison) s (scrubBucket d poison s)) ∧
      (∀ (poison : Bool), Answers (.scrubRecheck d poison) s (scrubRecheck d poison s)) ∧
      (∀ (u : Fin 4), Answers (.ternarySearch d u) s (serveHead d u (fun p => decide (0x30 ≤ p) && decide (p ≤ 0x3D)) (ternarySearch d u) s))) ∧
    (∀ d : DieId, s.has d = true →
      (Answers (.fibHomeOutcome d) s (fibOutcome d s))) ∧
    ((∀ (sub : Fin 256), Answers (.shadowCopyDone sub) s (shadowCopyDone sub s)))

/-- The rule epoch, context and page commands complete. The rule epoch, context and page commands: for every state and a
present die that is not held still each of EPOCH_SWITCH_APPLY, EPOCH_SWITCH_ACK, RETIRE_TIMEOUT, HOLDERS_ZERO,
EPOCH_CLEAR_DONE, CONTEXT_READ, CONTEXT_READ_UPDATE, LOCK_GRANT, CONTEXT_FILL_COMPLETE, FILL_PIN_WAIT,
PAGE_EVENT_RECEIVE, PAGE_WAIT_EXPIRE, UNMAP_COMPLETE, MIGRATE_COPY_DONE answers a next state, the one its own effect
gives, in which the queue, the part and the reference clock are as before, the anti-rollback counter has not fallen
and no revocation bit is lost. (R276, R278, R280, R292, R298, R299, R294, R295, R302, R303, R307, R308) -/
def Obligations.EpochAndContextCommandsComplete : Prop :=
  ∀ s : State,
    (∀ d : DieId, s.has d = true → s.frozen d = false →
      (Answers (.epochSwitchApply d) s (switchApply d s)) ∧
      (∀ (u : Fin 8), Answers (.contextRead d u) s (contextServe d u 0x40 (contextAt d) s)) ∧
      (∀ (u : Fin 8), Answers (.contextReadUpdate d u) s (contextServe d u 0x41 (contextUpdateAt d) s)) ∧
      (∀ (poison : Fin 4), Answers (.contextFillComplete d poison) s (fillComplete d poison s)) ∧
      (∀ (i : Fin 16384), Answers (.fillPinWait d i) s (fillPinWait d i s)) ∧
      (Answers (.pageEventReceive d) s (pageEventReceive d s)) ∧
      (∀ (w : WaitPlace), Answers (.pageWaitExpire d w) s (pageWaitExpire d w s)) ∧
      (Answers (.unmapComplete d) s (unmapComplete d s)) ∧
      (∀ (poisoned : List (Fin 32768)), Answers (.migrateCopyDone d poisoned) s (migrated d poisoned s))) ∧
    ((Answers (.epochSwitchAck) s (switchAck s)) ∧
      (Answers (.retireTimeout) s (retireTimeout s)) ∧
      (Answers (.holdersZero) s (holdersZero s)) ∧
      (Answers (.epochClearDone) s (clearDone s)) ∧
      (∀ (c : Fin 16777216), Answers (.lockGrant c) s (if s.frozen (ctxHome s c) then s else lockGrant c s)))

/-- The pool, queue, replication and flush commands complete. The pool, queue, replication and flush commands: for every
state and a present die that is not held still each of POOL_RELEASE, ALLOCATOR_REFILL, WAIT_LIST_HEAD_RETRY,
VOQ_DEPART, STACKS_READY, REPLICATION, RESIDUE_ENTER, RESIDUE_TIMEOUT, PORT_FLUSH_DONE answers a next state, the one
its own effect gives, in which the queue, the part and the reference clock are as before, the anti-rollback counter
has not fallen and no revocation bit is lost. (R313, R325, R326, R328, R332, R333, R334, R336) -/
def Obligations.BufferCommandsComplete : Prop :=
  ∀ s : State,
    (∀ d : DieId, s.has d = true → s.frozen d = false →
      (∀ (p : Fin 3), Answers (.poolRelease d p) s ((fun s => rxDrainAll d (poolReleaseStep d p s)) s)) ∧
      (∀ (p : Fin 3), Answers (.allocatorRefill d p) s (refillStep d p s)) ∧
      (Answers (.waitListHeadRetry d) s (waitRetry d s)) ∧
      (∀ (v : Fin 65536), Answers (.voqDepart d v) s (voqDepart d v s)) ∧
      (Answers (.stacksReady d) s (stacksReady d s)) ∧
      (Answers (.replication d) s (replication d s)) ∧
      (∀ (slot : Slot) (tc : Fin 8), Answers (.residueEnter d slot tc) s (residueEnter d slot tc s)) ∧
      (∀ (i : Nat), Answers (.residueTimeout d i) s (residueTimeout d i s)) ∧
      (∀ (slot : Slot), Answers (.portFlushDone d slot) s (flushDone d slot s)))

/-- The scheduler, gate, Meridian and sampler commands complete. The scheduler, gate, Meridian and sampler commands: for
every state and a present die that is not held still each of SCHED_SELECT, SHAPER_CREDIT_POSITIVE, CONFIG_CHANGE_TIME,
GATE_ENTRY_END, MERIDIAN_ADJUST_APPLY, PPS_IN_EDGE, PPS_OUT_SECOND, SAMPLER_VISIT answers a next state, the one its
own effect gives, in which the queue, the part and the reference clock are as before, the anti-rollback counter has
not fallen and no revocation bit is lost. (R339, R346, R359, R364, R363, R365) -/
def Obligations.SchedulerAndTimeCommandsComplete : Prop :=
  ∀ s : State,
    (∀ d : DieId, s.has d = true → s.frozen d = false →
      (∀ (g : Fin 4), Answers (.schedSelect d g) s (schedSelect d g s)) ∧
      (∀ (slot : Slot) (n : Fin 13), Answers (.shaperCreditPositive d slot n) s (creditPositive d slot n s)) ∧
      (∀ (slot : Slot), Answers (.configChangeTime d slot) s (configTake d slot s)) ∧
      (∀ (slot : Slot), Answers (.gateEntryEnd d slot) s (gateStep d slot s)) ∧
      (∀ (isVoq : Bool), Answers (.samplerVisit d isVoq) s (samplerVisit d isVoq s))) ∧
    ((Answers (.meridianAdjustApply) s (meridianApply s)) ∧
      (Answers (.ppsInEdge) s (ppsIn s)) ∧
      (Answers (.ppsOutSecond) s (ppsOutRise s)))

/-- The network port commands complete. The network port commands: for every state and a present die that is not held
still each of AUTONEG_ATTEMPT, LINK_LOSS, REMOTE_FAULT, LINK_UP, TX_OVERSIZE_CUT, TX_UNDERRUN, FRAME_TX_COMPLETE,
PAUSE_FRAME_RECEIVE, PAUSE_TIMER_EXPIRE, PAUSE_FRAME_SEND, PAUSE_REFRESH, SNAPSHOT_COPY_DONE, SNAPSHOT_ALL_APPLY
answers a next state, the one its own effect gives, in which the queue, the part and the reference clock are as
before, the anti-rollback counter has not fallen and no revocation bit is lost. (R374, R375, R378, R381, R391, R383, R384, R388, R389) -/
def Obligations.PortCommandsComplete : Prop :=
  ∀ s : State,
    (∀ d : DieId, s.has d = true → s.frozen d = false →
      (∀ (slot : Slot), Answers (.autonegAttempt d slot) s (autonegAttempt d slot s)) ∧
      (∀ (slot : Slot) (fault : Bool), Answers (.linkLoss d slot fault) s (linkLoss d slot fault s)) ∧
      (∀ (slot : Slot), Answers (.remoteFault d slot) s (remoteFault d slot s)) ∧
      (∀ (slot : Slot) (odd : Bool), Answers (.linkUp d slot odd) s (linkUp d slot odd s)) ∧
      (∀ (slot : Slot), Answers (.txOversizeCut d slot) s (txOversize d slot s)) ∧
      (∀ (slot : Slot), Answers (.txUnderrun d slot) s (txUnderrun d slot s)) ∧
      (∀ (slot : Slot), Answers (.frameTxComplete d slot) s (txComplete d slot s)) ∧
      (∀ (slot : Slot) (f : Bytes) (cw : Cw), Answers (.pauseFrameReceive d slot f cw) s (pauseReceive d slot f cw s)) ∧
      (∀ (slot : Slot) (cls : Fin 9), Answers (.pauseTimerExpire d slot cls) s (pauseExpire d slot cls s)) ∧
      (∀ (slot : Slot), Answers (.pauseFrameSend d slot) s (pauseFrameSend d slot s)) ∧
      (∀ (slot : Slot), Answers (.pauseRefresh d slot) s (pauseRefresh d slot s)) ∧
      (Answers (.snapshotCopyDone d) s (snapshotDone d s)) ∧
      (Answers (.snapshotAllApply d) s (snapshotApply d s)))

/-- The Ridgeline fabric commands complete. (R398, R406, R413, R410, R404, R405, R408, R418, R403, R412, R414, R417) -/
def Obligations.FabricCommandsComplete : Prop :=
  ∀ s : State,
    (∀ d : DieId, s.has d = true → s.frozen d = false →
      (∀ (l : LinkId) (hdr : BitVec 128) (payload : Bytes) (cw : Cw) (replay : Bool), Answers (.dataCellReceive d l hdr payload cw replay) s (dataCellReceive d l hdr payload cw replay s)) ∧
      (∀ (l : LinkId) (hdr : BitVec 128) (cw : Cw) (replay : Bool), Answers (.creditCellReceive d l hdr cw replay) s (creditCell d l hdr cw replay s)) ∧
      (∀ (l : LinkId) (hdr : BitVec 128) (msgs : List (BitVec 128)) (cw : Cw) (replay : Bool), Answers (.demandReceive d l hdr msgs cw replay) s (demandReceive d l hdr msgs cw replay s)) ∧
      (∀ (l : LinkId) (hdr : BitVec 128) (msgs : List (BitVec 128)) (cw : Cw) (replay : Bool), Answers (.grantReceive d l hdr msgs cw replay) s (grantReceive d l hdr msgs cw replay s)) ∧
      (∀ (l : LinkId) (f : BitVec 64) (cw : Cw), Answers (.lcfAck d l f cw) s (lcfIn d l cw (lcfAck d l f) s)) ∧
      (∀ (l : LinkId) (f : BitVec 64) (cw : Cw), Answers (.lcfNak d l f cw) s (lcfIn d l cw (lcfNak d l f) s)) ∧
      (∀ (l : LinkId) (f : BitVec 64) (cw : Cw), Answers (.lcfTrain d l f cw) s (lcfIn d l cw (lcfTrain d l f) s)) ∧
      (∀ (l : LinkId) (f : BitVec 64) (cw : Cw), Answers (.lcfCreditInit d l f cw) s (lcfIn d l cw (lcfCreditInit d l f) s)) ∧
      (∀ (l : LinkId) (f : BitVec 64) (cw : Cw), Answers (.lcfReady d l f cw) s (lcfIn d l cw (lcfReady d l f) s)) ∧
      (∀ (l : LinkId) (f : BitVec 64) (cw : Cw), Answers (.lcfStepReq d l f cw) s (lcfIn d l cw (lcfStepReq d l f) s)) ∧
      (∀ (l : LinkId) (f : BitVec 64) (cw : Cw), Answers (.lcfStepAck d l f cw) s (lcfIn d l cw (lcfStepAck d l f) s)) ∧
      (∀ (l : LinkId) (f : BitVec 64) (cw : Cw), Answers (.lcfWakeReq d l f cw) s (lcfIn d l cw (lcfWakeReq d l f) s)) ∧
      (∀ (l : LinkId) (f : BitVec 64) (cw : Cw), Answers (.lcfWakeAck d l f cw) s (lcfIn d l cw (lcfWakeAck d l f) s)) ∧
      (∀ (l : LinkId), Answers (.linkAckTimer d l) s (linkAckTimer d l s)) ∧
      (∀ (l : LinkId), Answers (.nakRepeat d l) s (nakRepeat d l s)) ∧
      (∀ (l : LinkId), Answers (.lcfRepeat d l) s (lcfRepeat d l s)) ∧
      (∀ (l : LinkId) (cause : Fin 5), Answers (.fabricLinkDown d l cause) s (linkDown d l cause s)) ∧
      (∀ (v : Fin 65536), Answers (.demandTimer d v) s (demandTimer d v s)) ∧
      (∀ (slot : Slot) (tc : Fin 8), Answers (.egressGrant d slot tc) s (egressGrant d slot tc s)) ∧
      (∀ (k : Fin 65536), Answers (.creditAudit d k) s (creditAudit d k s)) ∧
      (∀ (set : Fin 32) (utils : List (Fin 10001)), Answers (.fabricUtilWindowEnd d set utils) s (fabricWindow d set (utils.map (·.val)) s)) ∧
      (∀ (l : LinkId), Answers (.linkIdleReady d l) s (linkIdleReady d l s)) ∧
      (∀ (l : LinkId) (a : BitVec 5140) (b : BitVec 5140), Answers (.fabricAlignmentLock d l a b) s (alignmentLock d l a b s)))

/-- The DRAM commands complete. The DRAM commands: for every state and a present die that is not held still each of
DRAM_REQUEST, DRAM_COMMAND_SLOT, DRAM_READ_COMPLETE, DRAM_REFRESH, DRAM_TEMP_READ, RETRAIN_WINDOW_OPEN,
RETRAIN_WINDOW_CLOSE, PATTERN_DONE, TRAINING_COMPLETE, ECC_POLL, DRAM_PHY_LANE_LOSS, DRAM_CATASTROPHIC_TEMP answers a
next state, the one its own effect gives, in which the queue, the part and the reference clock are as before, the
anti-rollback counter has not fallen and no revocation bit is lost. (R425, R427, R441, R430, R437, R438, R432, R435, R440, R442) -/
def Obligations.DramCommandsComplete : Prop :=
  ∀ s : State,
    (∀ d : DieId, s.has d = true → s.frozen d = false →
      (∀ (k : Fin 2) (asks : List (Fin 3 × Fin 65536)), Answers (.dramRequest d k asks) s (dramRequest d k (asks.map (fun a => (a.1.val, a.2.val))) s)) ∧
      (∀ (k : Fin 2) (pc : Fin 32), Answers (.dramCommandSlot d k pc) s (commandSlot d k pc s)) ∧
      (∀ (k : Fin 2) (fails : Fin 4), Answers (.dramReadComplete d k fails) s (readComplete d k fails s)) ∧
      (∀ (k : Fin 2) (pc : Fin 32) (lo : Bool) (hi : Bool) (margin : Fin 64), Answers (.dramRefresh d k pc lo hi margin) s (dramRefresh d k pc lo hi margin s)) ∧
      (∀ (k : Fin 2) (temp : BitVec 8) (load : Fin 101), Answers (.dramTempRead d k temp load) s (tempRead d k temp.toNat load s)) ∧
      (∀ (k : Fin 2), Answers (.retrainWindowOpen d k) s (windowOpen d k s)) ∧
      (∀ (k : Fin 2) (meas : BitVec 128), Answers (.retrainWindowClose d k meas) s (windowClose d k meas.toNat s)) ∧
      (∀ (k : Fin 2) (res : List (Nat × Nat)), Answers (.patternDone d k res) s (patternDone d k res s)) ∧
      (∀ (k : Fin 2) (step : Fin 9) (failed : Bool) (meas : List (BitVec 128)), Answers (.trainingComplete d k step failed meas) s (trainingComplete d k step failed meas s)) ∧
      (∀ (k : Fin 2) (n : Nat), Answers (.eccPoll d k n) s (eccPoll d k n s)) ∧
      (∀ (k : Fin 2), Answers (.dramPhyLaneLoss d k) s (stackFence d k 4 0 s)) ∧
      (∀ (k : Fin 2), Answers (.dramCatastrophicTemp d k) s (stackFence d k 3 0 s)))

/-- The CXL, endpoint and ring commands complete. The CXL, endpoint and ring commands: for every state and a present die
that is not held still (or a present die) each of CXL_BRINGUP_TIMEOUT, CXL_MEMORY_ACTIVE, CXL_LINK_LOST,
CXL_COMPLETION_TIMEOUT, CXL_FATAL_ERROR, CXL_RETRAIN, CXL_EVENT_POLL, ENDPOINT_RESET, DOORBELL_WRITE, RING_STOP_DONE,
PUNT_WRITE, INJECT_READ, BATCH_RUN, RECORD_RING_WRITE, RING_IRQ_TIMER answers a next state, the one its own effect
gives, in which the queue, the part and the reference clock are as before, the anti-rollback counter has not fallen
and no revocation bit is lost. (R446, R447, R449, R450, R453, R458, R460, R462, R463, R464, R465, R459) -/
def Obligations.CxlAndRingCommandsComplete : Prop :=
  ∀ s : State,
    (∀ d : DieId, s.has d = true → s.frozen d = false →
      (∀ (k : Fin 24), Answers (.ringStopDone d k) s (ringStopDone d k s)) ∧
      (∀ (k : Fin 16) (slot : BitVec 256) (atts : List (Nat × BitVec 64)), Answers (.puntWrite d k slot atts) s (puntWrite d k slot atts s)) ∧
      (∀ (k : Fin 4) (slot : BitVec 256) (frame : Bytes) (atts : List (Nat × BitVec 64)), Answers (.injectRead d k slot frame atts) s (injectRead d (16 + k) slot frame atts s)) ∧
      (∀ (slot : BitVec 256) (cmds : List (BitVec 640)) (atts : List (Nat × BitVec 64)), Answers (.batchRun d slot cmds atts) s (batchRun d slot cmds atts s)) ∧
      (∀ (k : Fin 3) (atts : List (Nat × BitVec 64)), Answers (.recordRingWrite d k atts) s (recordWrite d (21 + k) atts s)) ∧
      (∀ (k : Fin 24), Answers (.ringIrqTimer d k) s (ringIrqTimer d k s))) ∧
    (∀ d : DieId, s.has d = true →
      (∀ (unsupported : Bool), Answers (.cxlBringupTimeout d unsupported) s (cxlTimeout d unsupported s)) ∧
      (∀ (rate : Fin 7) (width : Fin 5) (cap : BitVec 64), Answers (.cxlMemoryActive d rate width cap) s (cxlActive d rate (2 ^ width.val) cap.toNat s)) ∧
      (∀ (inFlight : Fin 4097), Answers (.cxlLinkLost d inFlight) s (cxlDown d 1 inFlight s)) ∧
      (∀ (inFlight : Fin 4097), Answers (.cxlCompletionTimeout d inFlight) s (cxlDown d 2 inFlight s)) ∧
      (∀ (inFlight : Fin 4097), Answers (.cxlFatalError d inFlight) s (cxlDown d 3 inFlight s)) ∧
      (∀ (committed : Bool) (rate : Fin 7) (width : Fin 5) (cap : BitVec 64), Answers (.cxlRetrain d committed rate width cap) s (cxlRetrain d committed rate (2 ^ width.val) cap.toNat s)) ∧
      (∀ (n : Nat) (replays : Nat), Answers (.cxlEventPoll d n replays) s (cxlPoll d n replays s))) ∧
    ((∀ (e : Fin 2) (rate : Fin 6) (width : Fin 4), Answers (.endpointReset e rate width) s (endpointRestart e rate (2 ^ width.val) s)) ∧
      (∀ (e : Fin 2) (off : Fin 0x12000) (v : BitVec 32), Answers (.doorbellWrite e off v) s (barWrite e off v.toNat s)))

/-- The JDP commands complete. The JDP commands: for every state each of JDP_FRAME_RECEIVE, JDP_REQUEST, JDP_OPEN,
JDP_OPEN_REPLY, JDP_CLOSE, JDP_DISCOVER, SESSION_IDLE_TIMEOUT, JDP_OFFER, JDP_BLOCK, JDP_STATUS, JDP_END answers a
next state, the one its own effect gives, in which the queue, the part and the reference clock are as before, the
anti-rollback counter has not fallen and no revocation bit is lost. (R487, R492, R491, R580, R493, R579, R576) -/
def Obligations.JdpCommandsComplete : Prop :=
  ∀ s : State,
    ((∀ (port : Fin 2) (f : Bytes), Answers (.jdpFrameReceive port f) s (jdpFrameReceive port f s)) ∧
      (Answers (.jdpRequest) s (jdpServe s)) ∧
      (Answers (.jdpOpen) s (onInbox (·.msgType == 3) jdpOpen s)) ∧
      (∀ (serial : BitVec 64), Answers (.jdpOpenReply serial) s (onInbox (·.msgType == 4) (fun port m s => relayOpened port serial.toNat m s) s)) ∧
      (Answers (.jdpClose) s (onInbox (·.msgType == 5) jdpClose s)) ∧
      (Answers (.jdpDiscover) s (onInbox (·.msgType == 6) jdpDiscover s)) ∧
      (∀ (i : Fin 16), Answers (.sessionIdleTimeout i) s (idleTimeout i s)) ∧
      (Answers (.jdpOffer) s (onInbox (·.msgType == 9) jdpImage s)) ∧
      (Answers (.jdpBlock) s (onInbox (·.msgType == 10) jdpImage s)) ∧
      (Answers (.jdpStatus) s (onInbox (·.msgType == 11) jdpStatus s)) ∧
      (Answers (.jdpEnd) s (onInbox (·.msgType == 12) jdpImage s)))

/-- The mode, domain and reset commands complete. (R501, R502, R505, R506, R513, R515, R514, R511, R516, R593, R594, R512) -/
def Obligations.ModeAndResetCommandsComplete : Prop :=
  ∀ s : State,
    (∀ d : DieId, s.has d = true → s.frozen d = false →
      (∀ (c : ClusterId), Answers (.clusterParkDone d c) s (parkDone d c s)) ∧
      (∀ (c : ClusterId), Answers (.clusterWakeDone d c) s (wakeDone d c s))) ∧
    (∀ d : DieId, s.has d = true →
      (∀ (f : Fin 12), Answers (.functionReady d f) s (functionReady d f s)) ∧
      (∀ (n : Fin 80), Answers (.domainOnDone d n) s (domainOn d n s)) ∧
      (∀ (vin : Bool), Answers (.powerOnReset d vin) s (powerOnReset d vin s)) ∧
      (Answers (.powerOnResetRelease d) s (powerOnRelease d s)) ∧
      (∀ (n : Fin 80), Answers (.domainStopDone d n) s (domainStopped d n s)) ∧
      (∀ (bad : List (Nat × Nat)) (atts : List (Nat × BitVec 64)), Answers (.cairnComplete d bad atts) s (cairnComplete d bad atts s))) ∧
    ((Answers (.drainEmpty) s (drainEmpty s)) ∧
      (Answers (.quiesceTimeout) s (quiesceTimeout s)) ∧
      (Answers (.bringupTimeout) s (bringupTimeout s)) ∧
      (Answers (.leanWindow) s (leanWindow s)) ∧
      (Answers (.resetLAssert) s (resetLow s)) ∧
      (∀ (strap : BitVec 4), Answers (.resetLRelease strap) s (resetRelease strap s)) ∧
      (Answers (.pwrokLow) s (pwrokLow s)) ∧
      (∀ (ok0 : Bool) (ok1 : Bool), Answers (.selfCheckDone ok0 ok1) s (selfCheck ok0 ok1 s)) ∧
      (∀ (crcBad : Bool), Answers (.bootImageReadDone crcBad) s (bootDone crcBad s)) ∧
      (Answers (.resetHoldTimeout) s (resetHoldTimeout s)))

/-- The fault and dump commands complete. The fault and dump commands: for every state and a present die each of
FAULT_ACCEPT, HELD_DUMP_PATH, FAULT_RECORD_RECEIVE, FAULT_STAGING_COMMIT, REPEAT_UPDATE_RECEIVE, SPARE_REBUILD_DONE,
WATCHDOG_EXPIRE answers a next state, the one its own effect gives, in which the queue, the part and the reference
clock are as before, the anti-rollback counter has not fallen and no revocation bit is lost. (R524, R534, R528, R526, R532, R522) -/
def Obligations.FaultCommandsComplete : Prop :=
  ∀ s : State,
    (∀ d : DieId, s.has d = true →
      (∀ (n : Fin 5), Answers (.faultAccept d n) s (faultAccept d n s)) ∧
      (Answers (.heldDumpPath d) s (heldDumpPath d s)) ∧
      (∀ (sub : Fin 256), Answers (.spareRebuildDone d sub) s (spareRebuilt d sub s)) ∧
      (Answers (.watchdogExpire d) s (watchdog d s))) ∧
    ((Answers (.faultRecordReceive) s (faultReceive s)) ∧
      (Answers (.faultStagingCommit) s (stagingCommit s)) ∧
      (Answers (.repeatUpdateReceive) s (repeatReceive s)))

/-- The Transit, diagnostic and JTAG commands complete. (R544, R546, R548, R549, R551, R552, R553, R606, R555) -/
def Obligations.TransitAndJtagCommandsComplete : Prop :=
  ∀ s : State,
    (∀ d : DieId, s.has d = true → s.frozen d = false →
      (Answers (.bankMirrorDone d) s (mirrorDone d s)) ∧
      (∀ (ok : Bool) (spareOk : Bool), Answers (.bankTestDone d ok spareOk) s (bankTested d ok spareOk s)) ∧
      (Answers (.bankRestoreDone d) s (bankRestored d s)) ∧
      (Answers (.engineDrained d) s (engineDrained d s)) ∧
      (Answers (.engineDrainTimeout d) s (engineTimeout d s)) ∧
      (∀ (ok : Bool), Answers (.engineTestDone d ok) s (engineTested d ok s)) ∧
      (∀ (ok : Bool), Answers (.cstoreWalkDone d ok) s (walkDone d ok s)) ∧
      (∀ (ok : Bool), Answers (.segmentMarchDone d ok) s (segmentDone d ok s))) ∧
    (∀ d : DieId, s.has d = true →
      (∀ (k : Fin 4) (vin : Nat) (clk : BitVec 3) (tj : Int), Answers (.sliceDue d k vin clk tj) s (sliceDue d k { vin := vin, clk := clk, tj := tj } s)) ∧
      (∀ (vin : Nat) (clk : BitVec 3) (tj : Int), Answers (.sliceConditionCheck d vin clk tj) s (sliceCheck d { vin := vin, clk := clk, tj := tj } s)) ∧
      (Answers (.jtagIdcode d) s (tapLoad d 0x01 s)) ∧
      (∀ (cells : List Bool), Answers (.jtagSamplePreload d cells) s (samplePreload d cells s)) ∧
      (Answers (.jtagExtest d) s (tapLoad d 0x03 s)) ∧
      (Answers (.jtagExtestPulse d) s (tapLoad d 0x04 s)) ∧
      (Answers (.jtagExtestTrain d) s (tapLoad d 0x05 s)) ∧
      (Answers (.jtagClamp d) s (tapLoad d 0x06 s)) ∧
      (Answers (.jtagHighz d) s (tapLoad d 0x07 s)) ∧
      (Answers (.jtagInternalScan d) s (tapLoad d 0x10 s)) ∧
      (Answers (.jtagDebugAccess d) s (tapLoad d 0x11 s)) ∧
      (Answers (.jtagBypass d) s (tapLoad d 0xFF s)))

/-- The firmware update commands complete. The firmware update commands: for every state each of STATUS_TIMER,
BLOCK_RESEND_TIMEOUT, RELAY_OPEN_RETRY, SESSION_STALL_TIMEOUT, STAGING_CHECK_DONE, INPLACE_SWITCH_DONE,
PROBATION_EXPIRE, MGMT_PORT_LINK_CHANGE answers a next state, the one its own effect gives, in which the queue, the
part and the reference clock are as before, the anti-rollback counter has not fallen and no revocation bit is lost. (R579, R580, R577, R582, R583) -/
def Obligations.FirmwareCommandsComplete : Prop :=
  ∀ s : State,
    ((Answers (.statusTimer) s (statusTimer s)) ∧
      (Answers (.blockResendTimeout) s (resendTimeout s)) ∧
      (Answers (.relayOpenRetry) s (openRetry s)) ∧
      (Answers (.sessionStallTimeout) s (stallTimeout s)) ∧
      (Answers (.stagingCheckDone) s (checkDone s)) ∧
      (∀ (crcBad : Bool), Answers (.inplaceSwitchDone crcBad) s (switchEnd crcBad s)) ∧
      (Answers (.probationExpire) s (probationExpire s)) ∧
      (∀ (m : Fin 2) (up : Bool), Answers (.mgmtPortLinkChange m up) s (mgmtLink m up s)))

/-- The supply, clock and thermal commands complete. The supply, clock and thermal commands: for every state and a present
die each of RAIL_UNDERVOLTAGE, RAIL_OVERVOLTAGE, RAIL_OVERCURRENT, VIN_MEASURE, TIMECLK_LOST, REFCLK_NET_LOST,
REFCLK_NET_RETURN, REFCLK_FAB_LOST, REFCLK_PCI_LOST, THERMAL_SENSOR_READ, TIMECLK_LOCK, REFCLK_FAB_RETURN answers a
next state, the one its own effect gives, in which the queue, the part and the reference clock are as before, the
anti-rollback counter has not fallen and no revocation bit is lost. (R591, R592, R598, R600, R363, R508) -/
def Obligations.ElectricalCommandsComplete : Prop :=
  ∀ s : State,
    (∀ d : DieId, s.has d = true →
      (∀ (r : Fin 8) (n : Fin 80) (mv : BitVec 16) (ma : BitVec 32), Answers (.railUndervoltage d r n mv ma) s (railUnder d r n mv.toNat ma.toNat s)) ∧
      (∀ (r : Fin 8) (n : Fin 80) (mv : BitVec 16) (ma : BitVec 32), Answers (.railOvervoltage d r n mv ma) s (railOver d r n mv.toNat ma.toNat s)) ∧
      (∀ (r : Fin 8) (n : Fin 80) (mv : BitVec 16) (ma : BitVec 32), Answers (.railOvercurrent d r n mv ma) s (railCurrent d r n mv.toNat ma.toNat s)) ∧
      (Answers (.refclkNetLost d) s (refNetLost d s)) ∧
      (Answers (.refclkNetReturn d) s (refNetReturn d s)) ∧
      (Answers (.refclkFabLost d) s (refFabLost d s)) ∧
      (∀ (inFlight : Fin 4097), Answers (.refclkPciLost d inFlight) s (refPciLost d inFlight s)) ∧
      (∀ (l : List Int) (watts : BitVec 16), Answers (.thermalSensorRead d l watts) s (thermalRead d l watts.toNat s)) ∧
      (Answers (.refclkFabReturn d) s (refFabReturn d s))) ∧
    ((∀ (mv : BitVec 16) (watts : BitVec 16), Answers (.vinMeasure mv watts) s (vinMeasure mv.toNat watts.toNat s)) ∧
      (Answers (.timeclkLost) s (timeclkLost s)) ∧
      (Answers (.timeclkLock) s (timeclkLock s)))

/-- The table, rule, gate list and page commands are writes of their entries. The table, rule, gate list and page
commands: for every state and operands each of FIB_INSERT, FIB_DELETE, TABLE_INSERT, TABLE_DELETE, TABLE_SEARCH,
TABLE_NEXT, FLUSH_BY_PORT, RULE_INSERT, RULE_DELETE, RULE_SEARCH, RULE_NEXT, PAGE_MAP, PAGE_UNMAP, PAGE_MIGRATE,
PAGE_POISON, PAGE_REPAIR, PAGE_QUERY, GATE_LIST_WRITE answers a next state, the one that DICT_WRITE of its entry, with
its value, answers; the queue, the part and the reference clock are as before and the anti-rollback counter has not
fallen. (R212, R245, R246, R247, R273, R307, R308, R356) -/
def Obligations.TableWritesWriteTheCommandEntry : Prop :=
  ∀ s : State,
    (∀ (r : Requester) (sel : Sel) (rec : BitVec 512), WritesEntry (.fibInsert r sel rec) r sel 0x4640 1 80 (commandOf 1 1 0 rec) s) ∧
    (∀ (r : Requester) (sel : Sel) (rec : BitVec 512), WritesEntry (.fibDelete r sel rec) r sel 0x4640 1 80 (commandOf 2 1 0 rec) s) ∧
    (∀ (r : Requester) (sel : Sel) (t : BitVec 8) (static : Bool) (rec : BitVec 512), WritesEntry (.tableInsert r sel t static rec) r sel 0x4640 1 80 (commandOf 1 t.toNat (b2n static <<< 107) rec) s) ∧
    (∀ (r : Requester) (sel : Sel) (t : BitVec 8) (rec : BitVec 512), WritesEntry (.tableDelete r sel t rec) r sel 0x4640 1 80 (commandOf 2 t.toNat 0 rec) s) ∧
    (∀ (r : Requester) (sel : Sel) (t : BitVec 8) (rec : BitVec 512), WritesEntry (.tableSearch r sel t rec) r sel 0x4640 1 80 (commandOf 3 t.toNat 0 rec) s) ∧
    (∀ (r : Requester) (sel : Sel) (t : BitVec 8) (cursor : BitVec 64), WritesEntry (.tableNext r sel t cursor) r sel 0x4640 1 80 (commandOf 4 t.toNat cursor.toNat 0) s) ∧
    (∀ (r : Requester) (sel : Sel) (t : BitVec 8) (port : BitVec 9) (statics : Bool) (filter : Option (BitVec 14)), WritesEntry (.flushByPort r sel t port statics filter) r sel 0x4640 1 80 (commandOf 5 t.toNat (port.toNat <<< 77 ||| b2n statics <<< 106 ||| (match filter with | some f => 1 <<< 105 ||| f.toNat <<< 86 | none => 0)) 0) s) ∧
    (∀ (r : Requester) (sel : Sel) (t : Fin 14) (rec : BitVec 512), WritesEntry (.ruleInsert r sel t rec) r sel 0x4640 1 80 (commandOf 1 (0x20 + t) 0 rec) s) ∧
    (∀ (r : Requester) (sel : Sel) (t : Fin 14) (rec : BitVec 512), WritesEntry (.ruleDelete r sel t rec) r sel 0x4640 1 80 (commandOf 2 (0x20 + t) 0 rec) s) ∧
    (∀ (r : Requester) (sel : Sel) (t : Fin 14) (rec : BitVec 512), WritesEntry (.ruleSearch r sel t rec) r sel 0x4640 1 80 (commandOf 3 (0x20 + t) 0 rec) s) ∧
    (∀ (r : Requester) (sel : Sel) (t : Fin 14) (cursor : BitVec 64), WritesEntry (.ruleNext r sel t cursor) r sel 0x4640 1 80 (commandOf 4 (0x20 + t) cursor.toNat 0) s) ∧
    (∀ (r : Requester) (sel : Sel) (region : Fin 8) (page : BitVec 32) (hpa : BitVec 31) (fill : Bool), WritesEntry (.pageMap r sel region page hpa fill) r sel 0x4411 1 16 (pageValue 1 region page.toNat hpa.toNat fill) s) ∧
    (∀ (r : Requester) (sel : Sel) (region : Fin 8) (page : BitVec 32), WritesEntry (.pageUnmap r sel region page) r sel 0x4411 1 16 (pageValue 2 region page.toNat 0 false) s) ∧
    (∀ (r : Requester) (sel : Sel) (region : Fin 8) (page : BitVec 32) (hpa : BitVec 31), WritesEntry (.pageMigrate r sel region page hpa) r sel 0x4411 1 16 (pageValue 3 region page.toNat hpa.toNat false) s) ∧
    (∀ (r : Requester) (sel : Sel) (region : Fin 8) (page : BitVec 32), WritesEntry (.pagePoison r sel region page) r sel 0x4411 1 16 (pageValue 4 region page.toNat 0 false) s) ∧
    (∀ (r : Requester) (sel : Sel) (region : Fin 8) (page : BitVec 32) (hpa : BitVec 31) (fill : Bool), WritesEntry (.pageRepair r sel region page hpa fill) r sel 0x4411 1 16 (pageValue 5 region page.toNat hpa.toNat fill) s) ∧
    (∀ (r : Requester) (sel : Sel) (region : Fin 8) (page : BitVec 32), WritesEntry (.pageQuery r sel region page) r sel 0x4411 1 16 (pageValue 6 region page.toNat 0 false) s) ∧
    (∀ (r : Requester) (sel : Sel) (rec : BitVec 512), WritesEntry (.gateListWrite r sel rec) r sel 0x4640 1 80 (commandOf 1 7 0 rec) s)

/-- The datapath register commands are writes of their entries. (R54, R214, R251, R274, R275, R278, R347, R369, R358, R364, R373, R512) -/
def Obligations.DatapathWritesWriteTheirEntries : Prop :=
  ∀ s : State,
    (∀ (r : Requester) (v : BitVec 32), WritesEntry (.dieRejoin r v) r Sel.none 0x1800 8 4 v.toNat s) ∧
    (∀ (r : Requester) (sub : Fin 256) (v : BitVec 8), WritesEntry (.homeDieMapWrite r sub v) r Sel.none 0x1810 sub 1 v.toNat s) ∧
    (∀ (r : Requester) (sub : Fin 256) (v : BitVec 8), WritesEntry (.shadowModeWrite r sub v) r Sel.none 0x2220 sub 1 v.toNat s) ∧
    (∀ (r : Requester), WritesEntry (.epochInherit r) r Sel.none 0x2300 7 0 0 s) ∧
    (∀ (r : Requester), WritesEntry (.epochDiscardNext r) r Sel.none 0x2300 8 0 0 s) ∧
    (∀ (r : Requester), WritesEntry (.epochSwap r) r Sel.none 0x2300 6 0 0 s) ∧
    (∀ (r : Requester), WritesEntry (.forceRetire r) r Sel.none 0x2300 9 0 0 s) ∧
    (∀ (r : Requester) (sel : Sel) (slot : Slot) (n : Fin 13) (v : BitVec 32), WritesEntry (.shaperRateWrite r sel slot n v) r sel (0x4880 + slot) (0x30 + n) 4 v.toNat s) ∧
    (∀ (r : Requester) (sel : Sel) (slot : Slot) (n : Fin 13) (v : BitVec 32), WritesEntry (.shaperBurstWrite r sel slot n v) r sel (0x4880 + slot) (0x40 + n) 4 v.toNat s) ∧
    (∀ (r : Requester) (sel : Sel) (slot : Slot) (n : Fin 13), WritesEntry (.shaperReset r sel slot n) r sel (0x4880 + slot) (0x50 + n) 1 1 s) ∧
    (∀ (r : Requester) (sel : Sel) (slot : Slot) (t : BitVec 8), WritesEntry (.applyTemplate r sel slot t) r sel (0x4880 + slot) 1 1 t.toNat s) ∧
    (∀ (r : Requester) (sel : Sel) (slot : Slot), WritesEntry (.configChange r sel slot) r sel (0x4840 + slot) 9 1 1 s) ∧
    (∀ (r : Requester) (t : BitVec 80), WritesEntry (.meridianSet r t) r Sel.none 0x1600 2 10 t.toNat s) ∧
    (∀ (r : Requester) (v : BitVec 32), WritesEntry (.meridianStep r v) r Sel.none 0x1600 3 4 v.toNat s) ∧
    (∀ (r : Requester) (v : BitVec 32), WritesEntry (.freqAdjWrite r v) r Sel.none 0x1600 4 4 v.toNat s) ∧
    (∀ (r : Requester) (sel : Sel) (g : Fin 4) (m : BitVec 8), WritesEntry (.laneGroupModeWrite r sel g m) r sel 0x4000 (g + 1) 1 m.toNat s) ∧
    (∀ (r : Requester) (sel : Sel) (slot : Slot) (on : Bool), WritesEntry (.portEnableWrite r sel slot on) r sel (0x4010 + slot) 1 1 (b2n on) s) ∧
    (∀ (r : Requester) (sel : Sel), WritesEntry (.snapshot r sel) r sel 0x4900 1 1 1 s) ∧
    (∀ (r : Requester) (sel : Sel) (v : BitVec 32), WritesEntry (.linkEnableWrite r sel v) r sel 0x4100 2 4 v.toNat s) ∧
    (∀ (r : Requester) (sel : Sel) (v : BitVec 32), WritesEntry (.retrainNow r sel v) r sel 0x4300 6 4 v.toNat s) ∧
    (∀ (r : Requester) (sel : Sel) (k : Fin 2) (v : BitVec 128), WritesEntry (.patternCommand r sel k v) r sel (0x4320 + k) 1 16 v.toNat s) ∧
    (∀ (r : Requester) (sel : Sel) (v : BitVec 32), WritesEntry (.fullTrain r sel v) r sel 0x4300 7 4 v.toNat s) ∧
    (∀ (r : Requester) (e : Fin 2) (first : BitVec 48) (last : BitVec 48), WritesEntry (.attInvalidate r e first last) r Sel.none (0x1120 + e) 7 16 (first.toNat <<< 80 ||| last.toNat <<< 32) s) ∧
    (∀ (r : Requester) (sel : Sel) (k : Fin 32) (on : Bool), WritesEntry (.ringEnableWrite r sel k on) r sel (0x4440 + k) 1 1 (b2n on) s)

/-- The session, key, mode and domain commands are writes of their entries. The session, key, mode and domain commands:
for every state and operands each of SESSION_CLOSE, KEY_SLOT_WRITE, MODE_REQUEST_STANDBY, MODE_REQUEST_BRINGUP,
MODE_REQUEST_FORWARDING, MODE_REQUEST_DRAIN, MODE_REQUEST_QUIESCE, MODE_REQUEST_DIAGNOSTIC, MODE_REQUEST_FACTORY,
DOMAIN_REQUEST_WRITE, PACKAGE_RESET answers a next state, the one that DICT_WRITE of its entry, with its value,
answers; the queue, the part and the reference clock are as before and the anti-rollback counter has not fallen. (R492, R494, R500, R501, R502, R503, R510, R516) -/
def Obligations.ModeAndSessionWritesWriteTheirEntries : Prop :=
  ∀ s : State,
    (∀ (r : Requester) (i : Fin 16), WritesEntry (.sessionClose r i) r Sel.none (0x1130 + i) 8 0 0 s) ∧
    (∀ (r : Requester) (k : Fin 16) (sub : Fin 3) (v : BitVec 256), WritesEntry (.keySlotWrite r k sub v) r Sel.none (0x1140 + k) (sub + 1) (if sub = 0 then 32 else 1) (if sub = 0 then v.toNat else v.toNat % 256) s) ∧
    (∀ (r : Requester), WritesEntry (.modeRequestStandby r) r Sel.none 0x1200 2 1 1 s) ∧
    (∀ (r : Requester), WritesEntry (.modeRequestBringup r) r Sel.none 0x1200 2 1 2 s) ∧
    (∀ (r : Requester), WritesEntry (.modeRequestForwarding r) r Sel.none 0x1200 2 1 3 s) ∧
    (∀ (r : Requester), WritesEntry (.modeRequestDrain r) r Sel.none 0x1200 2 1 6 s) ∧
    (∀ (r : Requester), WritesEntry (.modeRequestQuiesce r) r Sel.none 0x1200 2 1 7 s) ∧
    (∀ (r : Requester), WritesEntry (.modeRequestDiagnostic r) r Sel.none 0x1200 2 1 11 s) ∧
    (∀ (r : Requester), WritesEntry (.modeRequestFactory r) r Sel.none 0x1200 2 1 12 s) ∧
    (∀ (r : Requester) (d : DieId) (n : Fin 80) (v : BitVec 8), WritesEntry (.domainRequestWrite r d n v) r Sel.none (0x1320 + d) n 1 v.toNat s) ∧
    (∀ (r : Requester), WritesEntry (.packageReset r) r Sel.none 0x1200 8 0 0 s)

/-- The fault, diagnostic, counter and firmware commands are writes of their entries. The fault, diagnostic, counter and
firmware commands: for every state and operands each of LOG_ACK, FIRST_FAULT_CLEAR, LOG_READ, DIE_LOG_READ, DUMP_NOW,
DUMP_ACK, FAULT_INJECT, DIAG_LOOPBACK, DIAG_PATTERN, COUNTER_VALUE_WRITE, SAMPLE_READ, SAMPLE_CLEAR, HOST_OFFER,
HOST_BLOCK, HOST_END, FW_ABORT, ACTIVATE, CONFIRM, REVERT, SETTINGS_ACCEPT, SETTINGS_FALLBACK answers a next state,
the one that DICT_WRITE of its entry, with its value, answers; the queue, the part and the reference clock are as
before and the anti-rollback counter has not fallen. (R529, R525, R542, R527, R533, R534, R541, R556, R557, R566, R574, R579) -/
def Obligations.MaintenanceWritesWriteTheirEntries : Prop :=
  ∀ s : State,
    (∀ (r : Requester) (v : BitVec 32), WritesEntry (.logAck r v) r Sel.none 0x1400 0xB 4 v.toNat s) ∧
    (∀ (r : Requester), WritesEntry (.firstFaultClear r) r Sel.none 0x1400 7 0 0 s) ∧
    (∀ (r : Requester) (v : BitVec 32), WritesEntry (.logRead r v) r Sel.none 0x1401 1 4 v.toNat s) ∧
    (∀ (r : Requester) (v : BitVec 32), WritesEntry (.dieLogRead r v) r Sel.none 0x1401 2 4 v.toNat s) ∧
    (∀ (r : Requester) (v : BitVec 32), WritesEntry (.dumpNow r v) r Sel.none 0x1402 2 4 v.toNat s) ∧
    (∀ (r : Requester) (v : BitVec 32), WritesEntry (.dumpAck r v) r Sel.none 0x1402 3 4 v.toNat s) ∧
    (∀ (r : Requester) (v : BitVec 128), WritesEntry (.faultInject r v) r Sel.none 0x1440 1 16 v.toNat s) ∧
    (∀ (r : Requester) (v : BitVec 32), WritesEntry (.diagLoopback r v) r Sel.none 0x1720 1 4 v.toNat s) ∧
    (∀ (r : Requester) (v : BitVec 32), WritesEntry (.diagPattern r v) r Sel.none 0x1720 2 4 v.toNat s) ∧
    (∀ (r : Requester) (sel : Sel) (k : Fin 20) (n : Fin 8) (v : BitVec 64), WritesEntry (.counterValueWrite r sel k n v) r sel (setIndex k) (0x20 + n) 8 v.toNat s) ∧
    (∀ (r : Requester) (sel : Sel) (k : Fin 20) (first : BitVec 32), WritesEntry (.sampleRead r sel k first) r sel (setIndex k) 0x34 4 first.toNat s) ∧
    (∀ (r : Requester) (sel : Sel) (k : Fin 20), WritesEntry (.sampleClear r sel k) r sel (setIndex k) 0x35 0 0 s) ∧
    (∀ (r : Requester) (h : BitVec 1024), WritesEntry (.hostOffer r h) r Sel.none 0x1501 5 128 h.toNat s) ∧
    (∀ (r : Requester) (v : BitVec 8256), WritesEntry (.hostBlock r v) r Sel.none 0x1501 6 1032 v.toNat s) ∧
    (∀ (r : Requester), WritesEntry (.hostEnd r) r Sel.none 0x1501 7 0 0 s) ∧
    (∀ (r : Requester), WritesEntry (.fwAbort r) r Sel.none 0x1501 8 0 0 s) ∧
    (∀ (r : Requester), WritesEntry (.activate r) r Sel.none 0x1500 0xA 0 0 s) ∧
    (∀ (r : Requester), WritesEntry (.confirm r) r Sel.none 0x1500 0xB 0 0 s) ∧
    (∀ (r : Requester), WritesEntry (.revert r) r Sel.none 0x1500 0xC 0 0 s) ∧
    (∀ (r : Requester), WritesEntry (.settingsAccept r) r Sel.none 0x1503 5 0 0 s) ∧
    (∀ (r : Requester), WritesEntry (.settingsFallback r) r Sel.none 0x1503 6 0 0 s)

/-- A requester has at most one access outstanding. While an access of a requester is outstanding, a write, read or
describe it presents answers the state as it is: nothing is accepted. DICT_WRITE otherwise goes to the endpoint with
its bytes as its value. (R480) -/
def Obligations.BusyRequesterWaits : Prop :=
  ∀ (r : Requester) (s : State),
    (∀ a, mget? s.busy r = some a →
      (∀ sel i sub len v, exec (.dictWrite r sel i sub len v) s = .next s) ∧
      (∀ sel i sub, exec (.rcRead r sel i sub) s = .next s) ∧
      (∀ i sub, exec (.describe r i sub) s = .next s)) ∧
    (∀ sel (i : Fin 65536) (sub : Fin 256) (len : Fin 1033) v,
      Answers (.dictWrite r sel i sub len v) s
        (endpoint r { op := .write, sel := sel, idx := i, sub := sub, len := len, val := v.toNat % 2 ^ (8 * len.val) } s))

/-- The first check that fails decides the status. Checks 1 to 7 come in order: SUMMIT_CHANGE or ISOLATED, NO_ENTRY,
BAD_SELECTOR, NO_DIE, NO_ACCESS, BAD_ACCESS, BAD_LENGTH; an access that fails one gets the status of the first and the
state stays as it is. The row an access is judged by is that of its entry, where it has one. (R477, R483) -/
def Obligations.FirstFailingCheckDecides : Prop :=
  ∀ (s : State) (r : Nat) (a : Access),
    (check1 s r a ≠ 0 → precheck s r a = check1 s r a) ∧
    ((findEntry a.idx a.sub).isSome = true → accessRow a = findEntry a.idx a.sub) ∧
    (check1 s r a = 0 → accessRow a = none → precheck s r a = 0x19) ∧
    (∀ e, check1 s r a = 0 → accessRow a = some e →
      (a.op = .describe → precheck s r a = 0) ∧
      (a.op ≠ .describe → badSelector a = true → precheck s r a = 0x14) ∧
      (a.op ≠ .describe → badSelector a = false → noDie s a = true → precheck s r a = 0x15) ∧
      (a.op ≠ .describe → badSelector a = false → noDie s a = false → noAccess s r e a = true → precheck s r a = 0x1A) ∧
      (a.op ≠ .describe → badSelector a = false → noDie s a = false → noAccess s r e a = false → badAccess e a.op = true →
        precheck s r a = 0x1B) ∧
      (badSelector a = false → noDie s a = false → noAccess s r e a = false → badAccess e a.op = false →
        a.op = .write → a.len ≠ e.size → precheck s r a = 0x1C)) ∧
    (onIsolated s r = false → precheck s r a ≠ 0 → accessNow r a s = ({ status := precheck s r a }, s))

/-- A read-clear entry returns its value and clears to 0. Reading an RC entry, of a die or package-wide, returns the value
it held and leaves it 0. Every other register of every die and of the package stays, and so does the mode; reading an
entry that is not RC changes nothing. (R471, R472) -/
def Obligations.ReadClearReturnsAndClears : Prop :=
  ∀ (s : State) (i j : Nat) (e : EntryRow), findEntry i j = some e →
    (∀ t, (readClear s t i j).1 = readEntry s t i j ∧ (readClear s t i j).2.mode = s.mode ∧ (e.acc ≠ .rc → (readClear s t i j).2 = s)) ∧
    (e.acc = .rc → ∀ d,
      (readClear s (some d) i j).2.dg d i j = 0 ∧
      (∀ d' i' j', (d' ≠ d ∨ key i' j' ≠ key i j) → (readClear s (some d) i j).2.dg d' i' j' = s.dg d' i' j') ∧
      (∀ i' j', (readClear s (some d) i j).2.pg i' j' = s.pg i' j')) ∧
    (e.acc = .rc →
      (readClear s none i j).2.pg i j = 0 ∧
      (∀ i' j', key i' j' ≠ key i j → (readClear s none i j).2.pg i' j' = s.pg i' j') ∧
      (∀ d i' j', (readClear s none i j).2.dg d i' j' = s.dg d i' j'))

/-- The arbiter grants the first requester at or after the pointer. For n requesters and a pointer below n: a winner
requests and no index from the pointer up to it, counting upward and wrapping to 0, requests; there is no winner
exactly when no index requests. (R22) -/
def Obligations.ArbiterTakesFirstAtOrAfterPointer : Prop :=
  ∀ (n ptr : Nat) (req : Nat → Bool), ptr < n →
    (∀ i, arbiter n ptr req = some i →
      ∃ k, k < n ∧ i = (ptr + k) % n ∧ req i = true ∧ ∀ j, j < k → req ((ptr + j) % n) = false) ∧
    (arbiter n ptr req = none ↔ ∀ i, i < n → req i = false)

/-- Host memory is little-endian, headers big-endian. Writing a number out in n bytes and reading it back gives it modulo
256^n, in either order; byte i of the little-endian form holds bits [8i+7:8i], and the other form is its reverse. (R5, R6) -/
def Obligations.ByteOrders : Prop :=
  ∀ n x : Nat,
    leNat (toBytesLE n x) = x % 256 ^ n ∧ beNat (toBytes n x) = x % 256 ^ n ∧
    (toBytesLE n x).length = n ∧ (toBytes n x).length = n ∧
    (∀ i, i < n → (toBytesLE n x)[i]? = some (BitVec.ofNat 8 (x >>> (8 * i)))) ∧
    toBytes n x = (toBytesLE n x).reverse

/-- TIME80 holds seconds and nanoseconds below 10^9. Meridian time as a TIME80, the Summit's copy and that of each die,
keeps its nanosecond field below 10^9 and its time in ns is seconds × 10^9 + nanoseconds, modulo 2^64; so is it for
any count of nanoseconds. (R362) -/
def Obligations.Time80CountsSecondsAndNanoseconds : Prop :=
  (∀ s : State, s.time80 % 2 ^ 32 < 10 ^ 9 ∧ t80ns s.time80 = s.ns ∧ s.ns < 2 ^ 64) ∧
    (∀ (s : State) (d : Nat), s.time80On d % 2 ^ 32 < 10 ^ 9 ∧ t80ns (s.time80On d) = s.nsOn d) ∧
    (∀ n : Nat, nsT80 n % 2 ^ 32 < 10 ^ 9 ∧ t80ns (nsT80 n) = n % 2 ^ 64)

/-- A block holds 16 fault messages, Fatal and Terminal ones are never lost. A message joins its die's queue unless it is
below Fatal and 16 messages of its block wait there; then the queues stay and lost messages are counted in 1400.10. No
other register changes. (R520) -/
def Obligations.FaultMessagesQueueSixteenPerBlock : Prop :=
  ∀ (s : State) (d block inst cls kind addr : Nat),
    let full := decide (16 ≤ ((s.die d).core.faultQ.filter (fun x => x.block == block)).length)
    let t := s.report d block inst cls kind addr
    ((4 ≤ cls ∨ full = false) →
      t.dies = (s.onDie d (fun x => { x with core.faultQ := x.core.faultQ ++
        [{ cls := cls, die := d, block := block, inst := inst, kind := kind, addr := addr, time := s.time80On d }] })).dies ∧
      t.regs = s.regs ∧ t.mode = s.mode) ∧
    (cls < 4 → full = true → t = s.pinc 0x1400 0x10 1)

/-- A microword row issues the word its thread stands at. On a live die: a thread that holds its engine's issue slot and
stands at a word of the row's operation runs that whole word, and the slot's pointer moves past it, unless a parity
flip has been injected at its address; without the slot, and so for a thread whose word cannot issue or that runs
nothing, nothing changes. Said for a row of each field: MOV, ADD, SUB, CMP (ALU), JUMP, CALL, RET, END (sequencer),
LDH, JHDR, JCTX, COMMIT (header and journal) and SEARCH_ISSUE. (R108, R109, R115, R116, R124) -/
def Obligations.MicrowordRowIssuesItsWord : Prop :=
  ∀ (s : State) (d : DieId) (c : ClusterId) (t : ThreadId), s.has d = true → s.frozen d = false →
    ((thread s d c t).run = none →
      exec (.mov d c t) s = .next s ∧ exec (.jump d c t) s = .next s ∧ exec (.ldh d c t) s = .next s ∧
      exec (.commit d c t) s = .next s ∧ exec (.searchIssue d c t) s = .next s) ∧
    (∀ r, (thread s d c t).run = some r → canIssue s d c t r (threadWord s d c r) = false → hasSlot s d c t = false) ∧
    (hasSlot s d c t = false →
      exec (.mov d c t) s = .next s ∧ exec (.jump d c t) s = .next s ∧ exec (.ldh d c t) s = .next s ∧
      exec (.commit d c t) s = .next s ∧ exec (.searchIssue d c t) s = .next s) ∧
    (∀ r, (thread s d c t).run = some r → hasSlot s d c t = true → s.flipAt d 4 c r.pc.toNat = none →
      let go : Host.Outcome State Fault Refusal := .next (issueWord d c t (threadWord s d c r) r s)
      let w := threadWord s d c r
      (uAlu w = 1 → exec (.mov d c t) s = go) ∧ (uAlu w = 2 → exec (.add d c t) s = go) ∧
      (uAlu w = 3 → exec (.sub d c t) s = go) ∧ (uAlu w = 12 → exec (.cmp d c t) s = go) ∧
      (uSeq w = 1 → exec (.jump d c t) s = go) ∧ (uSeq w = 3 → exec (.call d c t) s = go) ∧
      (uSeq w = 4 → exec (.ret d c t) s = go) ∧ (uSeq w = 5 → exec (.endWord d c t) s = go) ∧
      (uMem w = 1 → exec (.ldh d c t) s = go) ∧ (uMem w = 3 → exec (.jhdr d c t) s = go) ∧
      (uMem w = 8 → exec (.jctx d c t) s = go) ∧ (uMem w = 10 → exec (.commit d c t) s = go) ∧
      (uSrch w = 1 → exec (.searchIssue d c t) s = go))

/-- The ALU computes each operation of Table 4.3. For all operands: the sum, difference and comparison modulo 2^64, the
bitwise operations bit by bit, shifts that fill with 0, unsigned minimum and maximum, the number of ones, and the
number of leading zeros (64 for 0). (R115) -/
def Obligations.AluResults : Prop :=
  ∀ a b old : Word,
    aluResult 1 a b old = some a ∧
    (∃ x, aluResult 2 a b old = some x ∧ x.toNat = (a.toNat + b.toNat) % 2 ^ 64) ∧
    (∃ x, aluResult 3 a b old = some x ∧ (x + b = a)) ∧
    aluResult 12 a b old = aluResult 3 a b old ∧
    (∃ x, aluResult 7 a b old = some x ∧ ∀ i, i < 64 → x.getLsbD i = (a.getLsbD i && !b.getLsbD i)) ∧
    (∃ x, aluResult 8 a b old = some x ∧
      ∀ i, i < 64 → x.getLsbD i = (decide (fieldPos b ≤ i) && a.getLsbD (i - fieldPos b))) ∧
    (∃ x, aluResult 9 a b old = some x ∧ ∀ i, i < 64 → x.getLsbD i = a.getLsbD (i + fieldPos b)) ∧
    (∃ x, aluResult 13 a b old = some x ∧ x.toNat = min a.toNat b.toNat) ∧
    (∃ x, aluResult 14 a b old = some x ∧ x.toNat = max a.toNat b.toNat) ∧
    (∃ x, aluResult 15 a b old = some x ∧ x.toNat = ((List.range 64).filter (fun i => a.getLsbD i)).length) ∧
    (∃ x, aluResult 16 a b old = some x ∧ x.toNat ≤ 64 ∧ (∀ i, i < 64 → 64 - x.toNat ≤ i → a.getLsbD i = false) ∧
      (x.toNat < 64 → a.getLsbD (63 - x.toNat) = true))

/-- PPS_IN latches Meridian time. PPS_IN_EDGE answers the state in which 1600.07 holds Meridian time; no die, no other
register but the edge counter 1600.08, and no time changes. (R363) -/
def Obligations.PpsInLatchesMeridianTime : Prop :=
  ∀ s : State, ∃ t, exec .ppsInEdge s = .next t ∧ t.pg 0x1600 7 = s.time80 ∧
    (∀ i j, key i j ≠ key 0x1600 7 → key i j ≠ key 0x1600 8 → t.pg i j = s.pg i j) ∧
    (s.pg 0x1600 8 + 1 < 2 ^ entryBits 0x1600 8 → t.pg 0x1600 8 = s.pg 0x1600 8 + 1) ∧
    t.dies = s.dies ∧ t.meridian = s.meridian ∧ t.now = s.now ∧ t.mode = s.mode

/-- A second step or set is refused with BUSY. While a step or set waits, a further one answers BUSY and changes nothing. (R364) -/
def Obligations.SecondAdjustmentIsBusy : Prop :=
  ∀ (s : State) (a : Bool × Int), s.adjust = some a →
    (∀ t, meridianSet t s = (0x11, s)) ∧ (∀ v, meridianStep v s = (0x11, s))

/-- A waiting step or set is applied once, at a whole microsecond. At a whole microsecond of Meridian time (as a step of
the model sees it pass, log entry 127) MERIDIAN_ADJUST_APPLY loads the value of a set, or adds the offset of a step,
and clears the request; a die that runs no gate list and waits for no snapshot stays as it is. Between whole
microseconds, and with no request waiting, it changes nothing. (R364) -/
def Obligations.AdjustmentApplies : Prop :=
  ∀ s : State,
    (s.adjust = none → exec .meridianAdjustApply s = .next s) ∧
    (2 ≤ s.ns % 1000 → exec .meridianAdjustApply s = .next s) ∧
    (∀ set v, s.adjust = some (set, v) → s.ns % 1000 < 2 →
      ∃ t, exec .meridianAdjustApply s = .next t ∧ t.adjust = none ∧
        t.meridian = (if set then v.toNat * 10 ^ 12 else ((s.meridian : Int) + v * 10 ^ 12).toNat) ∧
        (∀ e, (s.die e).buf.gates = [] → (s.die e).buf.snapAt = [] → t.die e = s.die e) ∧ t.now = s.now ∧ t.mode = s.mode)

/-- 1400.07 clears the first-fault records. first_fault_clear answers OK, reads 0 in the package first fault 1400.06 and
in the first-fault record of every die, and changes no other register and no die. (R525) -/
def Obligations.FirstFaultClearClearsBoth : Prop :=
  ∀ s : State, ∃ t, firstFaultClear s = (0, t) ∧ t.pg 0x1400 6 = 0 ∧ (∀ d, d < 8 → t.pg (0x1410 + d) 1 = 0) ∧
    (∀ i j, key i j ≠ key 0x1400 6 → (∀ d, d < 8 → key i j ≠ key (0x1410 + d) 1) → t.pg i j = s.pg i j) ∧
    t.dies = s.dies ∧ t.mode = s.mode ∧ t.pkgLog = s.pkgLog

/-- A doorbell to a disabled or foreign ring is ignored and counted. A write of the doorbell of a ring of a present die,
at 0x10000 + die × 0x800 + k × 0x40 of BAR0, answers the state in which only 1120+e.09 has counted it when the ring is
disabled or bound to the other endpoint. (R458, R452) -/
def Obligations.DoorbellToDisabledRingIsIgnored : Prop :=
  ∀ (s : State) (e : Fin 2) (off : Fin 0x12000) (d : DieId) (k : Fin 32) (v : BitVec 32), off.val = d * 0x800 + k * 0x40 → s.has d = true →
    (ringState s d k = 0 ∨ ringEp s d k ≠ e.val) →
    exec (.doorbellWrite e off v) s = .next (s.pinc (0x1120 + e) 9 1)

/-- A doorbell sets host_index, and an impossible value stops the ring. On a ring of its endpoint that is not disabled the
doorbell's value becomes host_index; for a punt, inject or batch ring whose posted count would then exceed its size,
and for a record ring whose consumed count would exceed the written count, the ring takes state 4, with cause 5 unless
it was in state 4 before (log entry 99); no other register changes. (R458, R452) -/
def Obligations.DoorbellSetsHostIndex : Prop :=
  ∀ (s : State) (e : Fin 2) (off : Fin 0x12000) (d : DieId) (k : Fin 32) (v : BitVec 32), off.val = d * 0x800 + k * 0x40 → s.has d = true → k.val < 24 →
    ringState s d k ≠ 0 → ringEp s d k = e.val →
    let dev := s.dg d (ringIdx k) 0x0B
    let bad := (k.val ≤ 20 ∧ ringSize s d k < (v.toNat + 2 ^ 32 - dev) % 2 ^ 32) ∨
      (20 < k.val ∧ unread s d k < (v.toNat + 2 ^ 32 - s.dg d (ringIdx k) 0x0A) % 2 ^ 32)
    ∃ t, exec (.doorbellWrite e off v) s = .next t ∧ t.dg d (ringIdx k) 0x0A = v.toNat ∧
      (bad → ringState t d k = 4 ∧ (ringState s d k ≠ 4 → t.dg d (ringIdx k) 0x0D = 5)) ∧
      ((¬bad ∨ ringState s d k = 4) → ringState t d k = ringState s d k ∧ t.dg d (ringIdx k) 0x0D = s.dg d (ringIdx k) 0x0D) ∧
      (∀ d' i j, (d' ≠ d.val ∨ (key i j ≠ key (ringIdx k) 0x0A ∧ key i j ≠ key (ringIdx k) 0x0C ∧ key i j ≠ key (ringIdx k) 0x0D)) →
        t.dg d' i j = s.dg d' i j) ∧
      t.regs = s.regs

/-- Every JTAG instruction loads its code, and the Factory ones act only in Factory mode. On a present die whose always-on
domain runs each instruction loads its code of Table 21.12 in every mode, and SAMPLE/PRELOAD its boundary cells too,
one for each cell of the die; with Factory mode and domain 79 on the instructions of the Factory rows act on the pins,
the scan chains or debug, and otherwise these stay with the part. In power-on reset nothing is loaded. (R606, R555, R593) -/
def Obligations.JtagInstructionsLoad : Prop :=
  ∀ (s : State) (d : DieId), s.has d = true →
    let acting : List (Instr × BitVec 8 × Nat × Bool × Bool) :=
      [(.jtagExtest d, 0x03, 1, false, false), (.jtagExtestPulse d, 0x04, 2, false, false), (.jtagExtestTrain d, 0x05, 3, false, false),
       (.jtagClamp d, 0x06, 4, false, false), (.jtagHighz d, 0x07, 5, false, false), (.jtagInternalScan d, 0x10, 0, true, false),
       (.jtagDebugAccess d, 0x11, 0, false, true), (.jtagIdcode d, 0x01, 0, false, false), (.jtagBypass d, 0xFF, 0, false, false)]
    (∀ c code pins scan debug, (c, code, pins, scan, debug) ∈ acting →
      ((s.die d).core.por = true → exec c s = .next s) ∧
      ((s.die d).core.por = false → ∃ t, exec c s = .next t ∧ (t.die d).core.tap.ir = code ∧
        (t.die d).core.tap.boundary = (s.die d).core.tap.boundary ∧
        (s.mode = .factory → domSt s d 79 = 2 →
          (t.die d).core.tap.pins = pins ∧ (t.die d).core.tap.scan = scan ∧ (t.die d).core.tap.debug = debug) ∧
        ((s.mode ≠ .factory ∨ domSt s d 79 ≠ 2) →
          (t.die d).core.tap.pins = 0 ∧ (t.die d).core.tap.scan = false ∧ (t.die d).core.tap.debug = false) ∧
        (∀ e, e ≠ d.val → t.die e = s.die e) ∧ t.regs = s.regs ∧ t.mode = s.mode)) ∧
    (∀ cells, ((s.die d).core.por = true → exec (.jtagSamplePreload d cells) s = .next s) ∧
      ((s.die d).core.por = false → ∃ t, exec (.jtagSamplePreload d cells) s = .next t ∧ (t.die d).core.tap.ir = 0x02 ∧
        (t.die d).core.tap.boundary.length = tapCells d ∧
        (∀ i, i < tapCells d → (t.die d).core.tap.boundary[i]? = some (cells.getD i false)) ∧
        (t.die d).core.tap.pins = 0 ∧ (t.die d).core.tap.scan = false ∧ (t.die d).core.tap.debug = false ∧
        (∀ e, e ≠ d.val → t.die e = s.die e) ∧ t.regs = s.regs ∧ t.mode = s.mode))

/-- A stack that loses its PHY lanes or overheats is fenced. On a live die, DRAM_PHY_LANE_LOSS and DRAM_CATASTROPHIC_TEMP
take a stack that is training, ready or retraining to state 4 with its cause, and leave the other stack's registers
and the other dies' registers as they are; a stack that is off, absent or already fenced stays as it is and nothing
changes. (R442) -/
def Obligations.StackFenceTakesStateFour : Prop :=
  ∀ (s : State) (d : DieId) (k : Fin 2), s.has d = true → s.frozen d = false →
    ((stackState s d k = 1 ∨ stackState s d k = 2 ∨ stackState s d k = 3) →
      (∃ t, exec (.dramPhyLaneLoss d k) s = .next t ∧ stackState t d k = 4 ∧ t.dg d (0x4310 + k) 2 = 4 ∧
        (∀ j, j < 256 → t.dg d (0x4310 + (1 - k)) j = s.dg d (0x4310 + (1 - k)) j) ∧
        (∀ e i j, e ≠ d.val → t.dg e i j = s.dg e i j)) ∧
      (∃ t, exec (.dramCatastrophicTemp d k) s = .next t ∧ stackState t d k = 4 ∧ t.dg d (0x4310 + k) 2 = 3 ∧
        (∀ j, j < 256 → t.dg d (0x4310 + (1 - k)) j = s.dg d (0x4310 + (1 - k)) j) ∧
        (∀ e i j, e ≠ d.val → t.dg e i j = s.dg e i j))) ∧
    ((stackState s d k ≠ 1 ∧ stackState s d k ≠ 2 ∧ stackState s d k ≠ 3) → exec (.dramPhyLaneLoss d k) s = .next s ∧ exec (.dramCatastrophicTemp d k) s = .next s)

/-- A control-core watchdog is a Fatal fault of kind 0x001. On a present die WATCHDOG_EXPIRE puts a Fatal record of kind
0x001, block 0x01, at the Meridian time of the die's copy into the die's fault queue, whatever it holds, and changes
nothing else. (R522, R520) -/
def Obligations.WatchdogIsFatal : Prop :=
  ∀ (s : State) (d : DieId), s.has d = true →
    exec (.watchdogExpire d) s = .next (s.onDie d (fun x => { x with core.faultQ := x.core.faultQ ++
      [{ cls := 4, die := d, block := 1, inst := 0, kind := 0x001, addr := 0, time := s.time80On d }] }))

/-- RESET_L does not leave Locked, and a second assertion does nothing. While RESET_L is low, RESET_L_ASSERT changes
nothing and PWROK_LOW only records the pin; in Locked, RESET_L_ASSERT only records the pin; with RESET_L high,
PWROK_LOW resets the package with no dump. (R593, R594, R516) -/
def Obligations.ResetPinsInLocked : Prop :=
  ∀ s : State,
    (s.resetLow = true → exec .resetLAssert s = .next s ∧ exec .pwrokLow s = .next { s with pwrok := false }) ∧
    (s.resetLow = false → s.mode = .locked → exec .resetLAssert s = .next { s with resetLow := true }) ∧
    (s.resetLow = false → exec .pwrokLow s = .next (resetPackage { s with pwrok := false }))

/-- A package reset does not leave Locked. A package reset of a package in Locked leaves it in Locked; from any other mode
it leads to Standby with no Summit in office and no command lost. (R593, R523, R516) -/
def Obligations.LockedSurvivesPackageReset : Prop :=
  ∀ s : State,
    (s.mode = .locked → (resetPackage s).mode = .locked) ∧
    (s.mode ≠ .locked → (resetPackage s).mode = .standby) ∧
    (resetPackage s).summit = none ∧ (resetPackage s).pending = s.pending ∧ (resetPackage s).part = s.part

/-- A mode request is refused by value, by row and while a transition runs. Codes but 0x1, 0x2, 0x3, 0x6, 0x7, 0xB and 0xC
answer BAD_VALUE; a request matching no row from the current mode answers WRONG_MODE, so every request in Fault-hold,
Locked and Isolated does; a request while 1200.04 reads 1 answers BUSY; each leaves the state as it is. (R500) -/
def Obligations.ModeRequestRefusals : Prop :=
  ∀ (s : State) (v : Nat),
    (v ∉ [1, 2, 3, 6, 7, 0xB, 0xC] → modeRequest v s = (0x13, s)) ∧
    (v ∈ [1, 2, 3, 6, 7, 0xB, 0xC] → requestRow s v = false → modeRequest v s = (0x16, s)) ∧
    (v ∈ [1, 2, 3, 6, 7, 0xB, 0xC] → requestRow s v = true → s.pg 0x1200 4 = 1 → modeRequest v s = (0x11, s)) ∧
    ((s.mode = .faultHold ∨ s.mode = .locked ∨ s.mode = .isolated) → requestRow s v = false)

/-- A closed session keeps nothing. Closing an open JDP session clears its entries 1130+i.01 to 05 and 07, forgets its
keys and cached responses, and changes no other register; closing a closed session changes nothing. (R492) -/
def Obligations.SessionCloseClears : Prop :=
  ∀ (s : State) (i : Nat), i < 16 →
    (s.pg (0x1130 + i) 1 = 0 → closeSession i s = s) ∧
    (s.pg (0x1130 + i) 1 ≠ 0 →
      mget? (closeSession i s).sessions i = none ∧
      (∀ j ∈ [1, 2, 3, 4, 5, 7], (closeSession i s).pg (0x1130 + i) j = 0) ∧
      (∀ a b, (∀ j ∈ [1, 2, 3, 4, 5, 7], key a b ≠ key (0x1130 + i) j) → (closeSession i s).pg a b = s.pg a b) ∧
      (∀ k, k ≠ i → mget? (closeSession i s).sessions k = mget? s.sessions k) ∧
      (closeSession i s).dies = s.dies)

/-- A whole transfer leaves its receiver in order. On a present die SADDLE_TRANSFER_COMPLETE takes the oldest whole
transfer off the side's receiver. With none nothing changes; one that carries a dispatch or a return record for this
die makes that message the one that has arrived, by this side, and leaves every other message, every other die and the
mode as they are. (R35, R86) -/
def Obligations.SaddleTransferLeavesTheReceiver : Prop :=
  ∀ (s : State) (d : DieId) (k : Side), s.has d = true →
    ((saddle s d (sideNo k)).rxWhole = [] → exec (.saddleTransferComplete d k) s = .next s) ∧
    (∀ id fs r m i, (saddle s d (sideNo k)).rxWhole = (id, fs) :: r → s.msg? id = some m → m.dst = d.val →
      (m.body = .dispatch i ∨ m.body = .ret i) →
      ∃ t, exec (.saddleTransferComplete d k) s = .next t ∧ (saddle t d (sideNo k)).rxWhole = r ∧
        t.msgs = s.msgs.map (fun x => if x.id = id ∧ !x.arrived then { x with arrived := true, via := sideNo k, room := fs.head?.map (fun f => (flitVc f, fs.length)) } else x) ∧
        (∀ e, e ≠ d.val → t.die e = s.die e) ∧ t.pkts = s.pkts ∧ t.mode = s.mode)

/-- The selector all: is valid for writes and commands only. A read of an entry, read-clear or not, under all: passes no
further than check 3: where checks 1 and 2 pass it is refused with BAD_SELECTOR and the state, every die of it, stays
as it is; a write of a per-die entry under all: passes check 3, unless it is a table command search or iterate, which
must name one die (R58). (R11) -/
def Obligations.SelectorAllIsForWritesOnly : Prop :=
  ∀ (s : State) (r : Nat) (a : Access), a.sel = .all →
    (a.op = .read → onIsolated s r = false → check1 s r a = 0 → (findEntry a.idx a.sub).isSome = true →
      accessNow r a s = ({ status := 0x14 }, s)) ∧
    (a.op = .write → isPerDie a.idx = true → badSelector a = (tableAccess a && oneDieOnly a.val))

/-- A write needs the level of its entry, a read only that of a Factory entry. For an accessor of each level: a write or
command is without access when its level is below the entry's (or it asks over JDP for Factory mode, R500, or is a
command of a host session, log entry 154); a read when the entry is of Factory level and the accessor is not. Where
checks 1 to 4 pass, an access without enough level is refused with NO_ACCESS and changes nothing. (R475) -/
def Obligations.AccessLevelsAreHeld : Prop :=
  ∀ (s : State) (r : Nat) (e : EntryRow) (a : Access),
    (a.op = .read → (noAccess s r e a = true ↔ e.lvl = 3 ∧ levelOf s r < 3)) ∧
    (a.op = .write → levelOf s r < e.lvl → noAccess s r e a = true) ∧
    (a.op = .write → e.lvl ≤ levelOf s r → (r < 16 ∨ (¬(a.idx = 0x1200 ∧ a.sub = 2 ∧ a.val = 0xC) ∧ ¬(a.idx = 0x1501 ∧ 5 ≤ a.sub ∧ a.sub ≤ 7))) → noAccess s r e a = false) ∧
    (a.op ≠ .describe → onIsolated s r = false → check1 s r a = 0 → accessRow a = some e → badSelector a = false →
      noDie s a = false → noAccess s r e a = true → accessNow r a s = ({ status := 0x1A }, s))
end

