-- ==== Sys2Proof/Laws/Fixed/Base.lean ====
section
/-! SUPPORT. The part of the state that no operation changes but the tick and the confirmation of an image, and how that
reads through updates, choices and iterations. -/

set_option linter.all false

namespace Sys2Proof.Machine

/-- The part, the queue, the clock, the anti-rollback counter and the revocation bits. -/
def State.fixed (s : State) : Part × List Instr × Nat × Nat × BitVec 4 :=
  (s.part, s.pending, s.now, s.flash.rollback, s.flash.revoked)

theorem State.fixed_def (s : State) :
    (s.part, s.pending, s.now, s.flash.rollback, s.flash.revoked) = s.fixed := by
  rw [State.fixed]

theorem State.fixed_mk a0 a1 a2 a3 a4 a5 a6 a7 a8 a9 a10 a11 a12 a13 a14 a15 a16 a17 a18 a19 a20 a21 a22 a23 a24 a25 a26 a27 a28 a29 a30 a31 a32 a33 a34 a35 a36 a37 a38 a39 a40 a41 a42 a43 a44 a45 a46 a47 a48 a49 a50 a51 a52 a53 a54 a55 a56 a57 a58 a59 a60 a61 a62 a63 a64 a65 a66 a67 a68 a69 a70 a71 a72 a73 a74 a75 a76 a77 a78 a79 a80 a81 :
    (State.mk a0 a1 a2 a3 a4 a5 a6 a7 a8 a9 a10 a11 a12 a13 a14 a15 a16 a17 a18 a19 a20 a21 a22 a23 a24 a25 a26 a27 a28 a29 a30 a31 a32 a33 a34 a35 a36 a37 a38 a39 a40 a41 a42 a43 a44 a45 a46 a47 a48 a49 a50 a51 a52 a53 a54 a55 a56 a57 a58 a59 a60 a61 a62 a63 a64 a65 a66 a67 a68 a69 a70 a71 a72 a73 a74 a75 a76 a77 a78 a79 a80 a81).fixed = (a0, a1, a2, a33.rollback, a33.revoked) := by
  rw [State.fixed]

/-- The same fixed part. -/
theorem State.fixed_eq (s t : State) : t.fixed = s.fixed ↔
    t.part = s.part ∧ t.pending = s.pending ∧ t.now = s.now ∧ t.flash.rollback = s.flash.rollback ∧
      t.flash.revoked = s.flash.revoked := by
  simp [State.fixed]

theorem foldl_fixed {α : Type} (f : State → α → State) (l : List α) (s : State) (h : ∀ a x, (f a x).fixed = a.fixed) :
    (l.foldl f s).fixed = s.fixed := by
  induction l generalizing s with
  | nil => rfl
  | cons x l ih => rw [List.foldl_cons, ih, h]

theorem foldl_fixed_snd {α β : Type} (f : β × State → α → β × State) (l : List α) (p : β × State)
    (h : ∀ a x, (f a x).2.fixed = a.2.fixed) : (l.foldl f p).2.fixed = p.2.fixed := by
  induction l generalizing p with
  | nil => rfl
  | cons x l ih => rw [List.foldl_cons, ih, h]

theorem foldl_fixed_snd2 {α β γ : Type} (f : β × γ × State → α → β × γ × State) (l : List α) (p : β × γ × State)
    (h : ∀ a x, (f a x).2.2.fixed = a.2.2.fixed) : (l.foldl f p).2.2.fixed = p.2.2.fixed := by
  induction l generalizing p with
  | nil => rfl
  | cons x l ih => rw [List.foldl_cons, ih, h]

theorem ite_fixed {c : Prop} [Decidable c] {a b : State} {x : Part × List Instr × Nat × Nat × BitVec 4}
    (h : a.fixed = x) (k : b.fixed = x) : (if c then a else b).fixed = x := by
  split <;> assumption

theorem getD_fixed {o : Option State} {t : State} {x : Part × List Instr × Nat × Nat × BitVec 4}
    (h : o.elim x State.fixed = x) (k : t.fixed = x) : (o.getD t).fixed = x := by
  cases o <;> assumption

theorem ite_snd_fixed {α : Type} {c : Prop} [Decidable c] {a b : α × State} {x : Part × List Instr × Nat × Nat × BitVec 4}
    (h : a.2.fixed = x) (k : b.2.fixed = x) : (if c then a else b).2.fixed = x := by
  split <;> assumption

theorem ite_snd2_fixed {α β : Type} {c : Prop} [Decidable c] {a b : α × β × State} {x : Part × List Instr × Nat × Nat × BitVec 4}
    (h : a.2.2.fixed = x) (k : b.2.2.fixed = x) : (if c then a else b).2.2.fixed = x := by
  split <;> assumption

theorem ite_elim_fixed {c : Prop} [Decidable c] {a b : Option State} {x y : Part × List Instr × Nat × Nat × BitVec 4}
    (h : a.elim y State.fixed = x) (k : b.elim y State.fixed = x) : (if c then a else b).elim y State.fixed = x := by
  split <;> assumption

theorem some_elim_fixed (s : State) (y : Part × List Instr × Nat × Nat × BitVec 4) :
    (some s).elim y State.fixed = s.fixed := rfl

theorem none_elim_fixed (y : Part × List Instr × Nat × Nat × BitVec 4) :
    (none : Option State).elim y State.fixed = y := rfl

theorem ite_fst_elim_fixed {α : Type} {c : Prop} [Decidable c] {a b : Option State × α} {x y : Part × List Instr × Nat × Nat × BitVec 4}
    (h : a.1.elim y State.fixed = x) (k : b.1.elim y State.fixed = x) : (if c then a else b).1.elim y State.fixed = x := by
  split <;> assumption

theorem snd_fixed {α : Type} {p : α × State} {a : α} {s : State} {c : Part × List Instr × Nat × Nat × BitVec 4}
    (hh : p = (a, s)) (h : p.2.fixed = c) : s.fixed = c := by
  subst hh; exact h

theorem snd2_fixed {α β : Type} {p : α × β × State} {a : α} {b : β} {s : State} {c : Part × List Instr × Nat × Nat × BitVec 4}
    (hh : p = (a, b, s)) (h : p.2.2.fixed = c) : s.fixed = c := by
  subst hh; exact h

theorem fst_elim_fixed {α : Type} {p : Option State × α} {a : α} {s : State} {c : Part × List Instr × Nat × Nat × BitVec 4}
    (hh : p = (some s, a)) (h : p.1.elim c State.fixed = c) : s.fixed = c := by
  subst hh; exact h

theorem of_some_fixed {o : Option State} {s : State} {c : Part × List Instr × Nat × Nat × BitVec 4}
    (hh : o = some s) (h : o.elim c State.fixed = c) : s.fixed = c := by
  subst hh; exact h

theorem map_elim_fixed {o : Option State} {f : State → State} {c : Part × List Instr × Nat × Nat × BitVec 4}
    (h : ∀ a, (f a).fixed = a.fixed) (k : o.elim c State.fixed = c) : (o.map f).elim c State.fixed = c := by
  cases o with
  | none => rfl
  | some s => exact (h s).trans k

theorem foldl_elim_fixed {α : Type} (f : Option State → α → Option State) (l : List α) (o : Option State)
    {c : Part × List Instr × Nat × Nat × BitVec 4} (h : ∀ o x, o.elim c State.fixed = c → (f o x).elim c State.fixed = c)
    (k : o.elim c State.fixed = c) : (l.foldl f o).elim c State.fixed = c := by
  induction l generalizing o with
  | nil => exact k
  | cons x l ih => exact ih _ (h _ _ k)

theorem bind_elim_fixed {o : Option State} {f : State → Option State} {c : Part × List Instr × Nat × Nat × BitVec 4}
    (k : o.elim c State.fixed = c) (h : ∀ a, a.fixed = c → (f a).elim c State.fixed = c) :
    (o.bind f).elim c State.fixed = c := by
  cases o with
  | none => rfl
  | some a => exact h a k

theorem State.each_fixed {α : Type} (s : State) (l : List α) (f : α → State → State)
    (h : ∀ x a, (f x a).fixed = a.fixed) : (s.each l f).fixed = s.fixed :=
  foldl_fixed _ l s (fun a x => h x a)

theorem State.when_fixed (s : State) (c : Bool) (f : State → State) (h : ∀ a, (f a).fixed = a.fixed) :
    (s.when c f).fixed = s.fixed := by
  unfold State.when; split
  · exact h s
  · rfl

theorem onPresent_fixed {d : Nat} {f : State → State} {s t : State} (h : ∀ a, (f a).fixed = a.fixed)
    (e : onPresent d f s = .next t) : t.fixed = s.fixed := by
  unfold onPresent at e
  split at e
  · cases e; exact h s
  · cases e

theorem onLive_fixed {d : Nat} {f : State → State} {s t : State} (h : ∀ a, (f a).fixed = a.fixed)
    (e : onLive d f s = .next t) : t.fixed = s.fixed := by
  refine onPresent_fixed (fun a => ?_) e
  split
  · rfl
  · exact h a

/-- The part, the queue and the clock stay, the counter does not fall and no revocation bit is lost. -/
def KeptF (a b : Part × List Instr × Nat × Nat × BitVec 4) : Prop :=
  b.1 = a.1 ∧ b.2.1 = a.2.1 ∧ b.2.2.1 = a.2.2.1 ∧ a.2.2.2.1 ≤ b.2.2.2.1 ∧ a.2.2.2.2 ||| b.2.2.2.2 = b.2.2.2.2

theorem KeptF.refl (a : Part × List Instr × Nat × Nat × BitVec 4) : KeptF a a := by simp [KeptF]

theorem KeptF.trans' {a b c : Part × List Instr × Nat × Nat × BitVec 4} (k : KeptF b c) (h : KeptF a b) : KeptF a c := by
  obtain ⟨h1, h2, h3, h4, h5⟩ := h
  obtain ⟨k1, k2, k3, k4, k5⟩ := k
  refine ⟨k1.trans h1, k2.trans h2, k3.trans h3, h4.trans k4, ?_⟩
  rw [← k5, ← h5, ← BitVec.or_assoc, ← BitVec.or_assoc, BitVec.or_self]

theorem KeptF.step {a b c : Part × List Instr × Nat × Nat × BitVec 4} (k : c = b) (h : KeptF a b) : KeptF a c := k ▸ h

theorem ite_kept {c : Prop} [Decidable c] {a b : State} {x : Part × List Instr × Nat × Nat × BitVec 4}
    (h : KeptF x a.fixed) (k : KeptF x b.fixed) : KeptF x (if c then a else b).fixed := by
  split <;> assumption

theorem ite_snd_kept {α : Type} {c : Prop} [Decidable c] {a b : α × State} {x : Part × List Instr × Nat × Nat × BitVec 4}
    (h : KeptF x a.2.fixed) (k : KeptF x b.2.fixed) : KeptF x (if c then a else b).2.fixed := by
  split <;> assumption

theorem snd_kept {α : Type} {p : α × State} {a : α} {s : State} {c : Part × List Instr × Nat × Nat × BitVec 4}
    (hh : p = (a, s)) (h : KeptF c p.2.fixed) : KeptF c s.fixed := by
  subst hh; exact h

theorem foldl_kept {α : Type} (f : State → α → State) (l : List α) (s : State) (h : ∀ a x, KeptF a.fixed (f a x).fixed) :
    KeptF s.fixed (l.foldl f s).fixed := by
  induction l generalizing s with
  | nil => exact KeptF.refl _
  | cons x l ih => exact (ih _).trans' (h _ _)

theorem foldl_kept_snd {α β : Type} (f : β × State → α → β × State) (l : List α) (p : β × State)
    (h : ∀ a x, KeptF a.2.fixed (f a x).2.fixed) : KeptF p.2.fixed (l.foldl f p).2.fixed := by
  induction l generalizing p with
  | nil => exact KeptF.refl _
  | cons x l ih => exact (ih _).trans' (h _ _)

theorem State.each_kept {α : Type} (s : State) (l : List α) (f : α → State → State)
    (h : ∀ x a, KeptF a.fixed (f x a).fixed) : KeptF s.fixed (s.each l f).fixed :=
  foldl_kept _ l s (fun a x => h x a)

theorem State.when_kept (s : State) (c : Bool) (f : State → State) (h : ∀ a, KeptF a.fixed (f a).fixed) :
    KeptF s.fixed (s.when c f).fixed := by
  unfold State.when; split
  · exact h s
  · exact KeptF.refl _

theorem onPresent_kept {d : Nat} {f : State → State} {s t : State} (h : ∀ a, KeptF a.fixed (f a).fixed)
    (e : onPresent d f s = .next t) : KeptF s.fixed t.fixed := by
  unfold onPresent at e
  split at e
  · cases e; exact h s
  · cases e

theorem onLive_kept {d : Nat} {f : State → State} {s t : State} (h : ∀ a, KeptF a.fixed (f a).fixed)
    (e : onLive d f s = .next t) : KeptF s.fixed t.fixed := by
  refine onPresent_kept (fun a => ?_) e
  split
  · exact KeptF.refl _
  · exact h a

end Sys2Proof.Machine
end

