-- ==== Sys2Proof/Laws/Fixed/Ops.lean ====
section
/-! SUPPORT. What the operations of Machine/Ops.lean leave as it is: the part, the queue, the clock, the anti-rollback
counter and the revocation bits. -/

set_option linter.all false
set_option maxRecDepth 4000

namespace Sys2Proof.Machine

theorem State.onDie_fixed (s : State) (d : ℕ) (f : Die → Die) :
    (State.onDie s d f).fixed = s.fixed := by
  unfold State.onDie
  repeat' with_reducible (first | rfl | refine ite_fixed ?_ ?_ | intro _ | split | refine (foldl_fixed _ _ _ ?_).trans ?_ | simp only [↓State.fixed_mk, ↓State.fixed_def, State.fixed_def])

theorem State.onDies_fixed (s : State) (f : ℕ → Die → Die) :
    (State.onDies s f).fixed = s.fixed := by
  unfold State.onDies
  repeat' with_reducible (first | rfl | refine ite_fixed ?_ ?_ | intro _ | refine (State.onDie_fixed ..).trans ?_ | split | refine (foldl_fixed _ _ _ ?_).trans ?_ | simp only [↓State.fixed_mk, ↓State.fixed_def, State.fixed_def])

theorem State.pset_fixed (s : State) (idx : ℕ) (sub : ℕ) (v : ℕ) :
    (State.pset s idx sub v).fixed = s.fixed := by
  unfold State.pset
  repeat' with_reducible (first | rfl | refine ite_fixed ?_ ?_ | intro _ | split | refine (foldl_fixed _ _ _ ?_).trans ?_ | simp only [↓State.fixed_mk, ↓State.fixed_def, State.fixed_def])

theorem State.dset_fixed (s : State) (d : ℕ) (idx : ℕ) (sub : ℕ) (v : ℕ) :
    (State.dset s d idx sub v).fixed = s.fixed := by
  unfold State.dset
  repeat' with_reducible (first | rfl | refine ite_fixed ?_ ?_ | refine (State.onDie_fixed ..).trans ?_ | split)

theorem State.fresh_fixed (s : State) :
    (State.fresh s).2.fixed = s.fixed := by
  unfold State.fresh
  repeat' with_reducible (first | rfl | refine ite_fixed ?_ ?_ | intro _ | split | refine (foldl_fixed _ _ _ ?_).trans ?_ | simp only [↓State.fixed_mk, ↓State.fixed_def, State.fixed_def])

theorem State.pinc_fixed (s : State) (idx : ℕ) (sub : ℕ) (n : ℕ) :
    (State.pinc s idx sub n).fixed = s.fixed := by
  unfold State.pinc
  repeat' with_reducible (first | rfl | refine ite_fixed ?_ ?_ | refine (State.fresh_fixed ..).trans ?_ | refine (State.pset_fixed ..).trans ?_ | split)

theorem State.dinc_fixed (s : State) (d : ℕ) (idx : ℕ) (sub : ℕ) (n : ℕ) :
    (State.dinc s d idx sub n).fixed = s.fixed := by
  unfold State.dinc
  repeat' with_reducible (first | rfl | refine ite_fixed ?_ ?_ | refine (State.dset_fixed ..).trans ?_ | refine (State.fresh_fixed ..).trans ?_ | split)

theorem State.ddec_fixed (s : State) (d : ℕ) (idx : ℕ) (sub : ℕ) (n : ℕ) :
    (State.ddec s d idx sub n).fixed = s.fixed := by
  unfold State.ddec
  repeat' with_reducible (first | rfl | refine ite_fixed ?_ ?_ | refine (State.dset_fixed ..).trans ?_ | split)

theorem State.post_fixed (s : State) (d : ℕ) (r : FaultRec) :
    (State.post s d r).fixed = s.fixed := by
  unfold State.post
  (try dsimp only)
  repeat' with_reducible (first | rfl | assumption | intro _ | refine ite_fixed ?_ ?_ | refine ite_snd_fixed ?_ ?_ | refine ite_snd2_fixed ?_ ?_ | refine getD_fixed ?_ ?_ | refine ite_elim_fixed ?_ ?_ | refine (some_elim_fixed ..).trans ?_ | refine (none_elim_fixed ..).trans ?_ | refine ite_fst_elim_fixed ?_ ?_ | refine map_elim_fixed ?_ ?_ | refine bind_elim_fixed ?_ ?_ | refine foldl_elim_fixed _ _ _ ?_ ?_ | refine (State.onDie_fixed ..).trans ?_ | refine (State.pinc_fixed ..).trans ?_ | refine snd_fixed (by assumption) ?_ | refine snd2_fixed (by assumption) ?_ | refine fst_elim_fixed (by assumption) ?_ | refine of_some_fixed (by assumption) ?_ | split | refine (foldl_fixed _ _ _ ?_).trans ?_ | refine (foldl_fixed_snd _ _ _ ?_).trans ?_ | refine (foldl_fixed_snd2 _ _ _ ?_).trans ?_ | simp only [↓State.fixed_mk, ↓State.fixed_def, State.fixed_def])

theorem State.report_fixed (s : State) (d : ℕ) (block : ℕ) (inst : ℕ) (cls : ℕ) (kind : ℕ) (addr : ℕ) :
    (State.report s d block inst cls kind addr).fixed = s.fixed := by
  unfold State.report
  repeat' with_reducible (first | rfl | refine ite_fixed ?_ ?_ | refine (State.post_fixed ..).trans ?_ | split)

theorem State.onPkt_fixed (s : State) (i : ℕ) (f : Packet → Packet) :
    (State.onPkt s i f).fixed = s.fixed := by
  unfold State.onPkt
  repeat' with_reducible (first | rfl | refine ite_fixed ?_ ?_ | intro _ | split | refine (foldl_fixed _ _ _ ?_).trans ?_ | simp only [↓State.fixed_mk, ↓State.fixed_def, State.fixed_def])

theorem State.stage_fixed (s : State) (i : ℕ) (g : Stage) :
    (State.stage s i g).fixed = s.fixed := by
  unfold State.stage
  repeat' with_reducible (first | rfl | refine ite_fixed ?_ ?_ | refine (State.onPkt_fixed ..).trans ?_ | split)

theorem State.newPkt_fixed (s : State) (p : Packet) :
    (State.newPkt s p).2.fixed = s.fixed := by
  unfold State.newPkt
  repeat' with_reducible (first | rfl | refine ite_fixed ?_ ?_ | intro _ | split | refine (foldl_fixed _ _ _ ?_).trans ?_ | simp only [↓State.fixed_mk, ↓State.fixed_def, State.fixed_def])

end Sys2Proof.Machine
end

