-- ==== Sys2Proof/Laws/Fixed/Wire.lean ====
section
/-! SUPPORT. What the operations of Machine/Wire.lean leave as it is: the part, the queue, the clock, the anti-rollback
counter and the revocation bits. -/

set_option linter.all false
set_option maxRecDepth 4000

namespace Sys2Proof.Machine

theorem onSaddle_fixed (d : ℕ) (k : ℕ) (f : Saddle → Saddle) (s : State) :
    (onSaddle d k f s).fixed = s.fixed := by
  unfold onSaddle
  repeat' with_reducible (first | rfl | refine ite_fixed ?_ ?_ | refine (State.onDie_fixed ..).trans ?_ | split)

theorem countFlit_fixed (d : ℕ) (k : ℕ) (esc : Bool) (s : State) :
    (countFlit d k esc s).fixed = s.fixed := by
  unfold countFlit
  repeat' with_reducible (first | rfl | refine ite_fixed ?_ ?_ | refine (State.dinc_fixed ..).trans ?_ | split)

theorem oweRoom_fixed (d : ℕ) (k : ℕ) (vc : ℕ) (n : ℕ) (s : State) :
    (oweRoom d k vc n s).fixed = s.fixed := by
  unfold oweRoom
  repeat' with_reducible (first | rfl | refine ite_fixed ?_ ?_ | refine (onSaddle_fixed ..).trans ?_ | split)

theorem leaveRoom_fixed (d : ℕ) (k : ℕ) (vc : ℕ) (s : State) :
    (leaveRoom d k vc s).fixed = s.fixed := by
  unfold leaveRoom
  repeat' with_reducible (first | rfl | refine ite_fixed ?_ ?_ | refine (oweRoom_fixed ..).trans ?_ | split)

theorem pumpN_fixed (a0 : ℕ) (a1 : ℕ) (a2 : ℕ) (a3 : State) :
    (pumpN a0 a1 a2 a3).fixed = a3.fixed := by
  induction a0 generalizing a1 a2 a3 with
  | zero => rfl
  | succ n ih =>
    unfold pumpN
    (try dsimp only)
    repeat' with_reducible (first | rfl | refine (ih ..).trans ?_ | assumption | intro _ | refine ite_fixed ?_ ?_ | refine ite_snd_fixed ?_ ?_ | refine ite_snd2_fixed ?_ ?_ | refine getD_fixed ?_ ?_ | refine ite_elim_fixed ?_ ?_ | refine (some_elim_fixed ..).trans ?_ | refine (none_elim_fixed ..).trans ?_ | refine ite_fst_elim_fixed ?_ ?_ | refine map_elim_fixed ?_ ?_ | refine bind_elim_fixed ?_ ?_ | refine foldl_elim_fixed _ _ _ ?_ ?_ | refine (countFlit_fixed ..).trans ?_ | refine (leaveRoom_fixed ..).trans ?_ | refine (onSaddle_fixed ..).trans ?_ | refine snd_fixed (by assumption) ?_ | refine snd2_fixed (by assumption) ?_ | refine fst_elim_fixed (by assumption) ?_ | refine of_some_fixed (by assumption) ?_ | split | refine (foldl_fixed _ _ _ ?_).trans ?_ | refine (foldl_fixed_snd _ _ _ ?_).trans ?_ | refine (foldl_fixed_snd2 _ _ _ ?_).trans ?_ | simp only [↓State.fixed_mk, ↓State.fixed_def, State.fixed_def])

theorem pump_fixed (d : ℕ) (k : ℕ) (s : State) :
    (pump d k s).fixed = s.fixed := by
  unfold pump
  repeat' with_reducible (first | rfl | refine ite_fixed ?_ ?_ | intro _ | refine (State.each_fixed _ _ _ ?_).trans ?_ | refine (pumpN_fixed ..).trans ?_ | split | refine (foldl_fixed _ _ _ ?_).trans ?_ | simp only [↓State.fixed_mk, ↓State.fixed_def, State.fixed_def])

theorem enqueue_fixed (d : ℕ) (k : ℕ) (fs : List Flit) (s : State) :
    (enqueue d k fs s).fixed = s.fixed := by
  unfold enqueue
  repeat' with_reducible (first | rfl | refine ite_fixed ?_ ?_ | refine (onSaddle_fixed ..).trans ?_ | refine (pump_fixed ..).trans ?_ | split)

theorem strand_fixed (d : ℕ) (ids : List (ℕ × Option (ℕ × ℕ))) (s : State) :
    (strand d ids s).fixed = s.fixed := by
  unfold strand
  repeat' with_reducible (first | rfl | refine ite_fixed ?_ ?_ | refine (State.onDie_fixed ..).trans ?_ | split)

theorem launchOn_fixed (d : ℕ) (m : Msg) (r : Route) (via : Option (ℕ × ℕ)) (s : State) :
    (launchOn d m r via s).fixed = s.fixed := by
  unfold launchOn
  repeat' with_reducible (first | rfl | refine ite_fixed ?_ ?_ | refine (enqueue_fixed ..).trans ?_ | refine (strand_fixed ..).trans ?_ | split)

theorem launch_fixed (d : ℕ) (m : Msg) (via : Option (ℕ × ℕ)) (s : State) :
    (launch d m via s).fixed = s.fixed := by
  unfold launch
  repeat' with_reducible (first | rfl | refine ite_fixed ?_ ?_ | refine (launchOn_fixed ..).trans ?_ | refine (strand_fixed ..).trans ?_ | split)

theorem relaunch_fixed (d : ℕ) (s : State) :
    (relaunch d s).fixed = s.fixed := by
  unfold relaunch
  repeat' with_reducible (first | rfl | refine ite_fixed ?_ ?_ | intro _ | refine (State.each_fixed _ _ _ ?_).trans ?_ | refine (State.onDie_fixed ..).trans ?_ | refine (launch_fixed ..).trans ?_ | refine (oweRoom_fixed ..).trans ?_ | split | refine (foldl_fixed _ _ _ ?_).trans ?_ | simp only [↓State.fixed_mk, ↓State.fixed_def, State.fixed_def])

theorem State.newMsg_fixed (s : State) (a : ℕ) (b : ℕ) (m : MsgBody) :
    (State.newMsg s a b m).2.fixed = s.fixed := by
  unfold State.newMsg
  repeat' with_reducible (first | rfl | refine ite_fixed ?_ ?_ | intro _ | split | refine (foldl_fixed _ _ _ ?_).trans ?_ | simp only [↓State.fixed_mk, ↓State.fixed_def, State.fixed_def])

theorem State.send_fixed (s : State) (a : ℕ) (b : ℕ) (m : MsgBody) :
    (State.send s a b m).fixed = s.fixed := by
  unfold State.send
  repeat' with_reducible (first | rfl | refine ite_fixed ?_ ?_ | refine (State.newMsg_fixed ..).trans ?_ | refine (launch_fixed ..).trans ?_ | split)

theorem State.sendSide_fixed (s : State) (a : ℕ) (k : ℕ) (m : MsgBody) :
    (State.sendSide s a k m).fixed = s.fixed := by
  unfold State.sendSide
  repeat' with_reducible (first | rfl | refine ite_fixed ?_ ?_ | refine (State.newMsg_fixed ..).trans ?_ | refine (launchOn_fixed ..).trans ?_ | split)

theorem leaveBuffer_fixed (m : Msg) (s : State) :
    (leaveBuffer m s).fixed = s.fixed := by
  unfold leaveBuffer
  repeat' with_reducible (first | rfl | refine ite_fixed ?_ ?_ | refine (oweRoom_fixed ..).trans ?_ | refine (pump_fixed ..).trans ?_ | split)

theorem State.dropMsgs_fixed (s : State) (p : Msg → Bool) :
    (State.dropMsgs s p).fixed = s.fixed := by
  unfold State.dropMsgs
  repeat' with_reducible (first | rfl | refine ite_fixed ?_ ?_ | intro _ | refine (State.each_fixed _ _ _ ?_).trans ?_ | refine (leaveBuffer_fixed ..).trans ?_ | split | refine (foldl_fixed _ _ _ ?_).trans ?_ | simp only [↓State.fixed_mk, ↓State.fixed_def, State.fixed_def])

theorem State.receive_fixed (s : State) (d : Nat) (p : MsgBody → Bool) (f : Msg → State → State)
    (h : ∀ m a, (f m a).fixed = a.fixed) : (s.receive d p f).fixed = s.fixed := by
  unfold State.receive; split
  · rfl
  · rw [h, leaveBuffer_fixed]; rfl

theorem State.receive_kept (s : State) (d : Nat) (p : MsgBody → Bool) (f : Msg → State → State)
    (h : ∀ m a, KeptF a.fixed (f m a).fixed) : KeptF s.fixed (s.receive d p f).fixed := by
  unfold State.receive; split
  · exact KeptF.refl _
  · exact KeptF.trans' (h _ _) (KeptF.step ((leaveBuffer_fixed ..).trans rfl) (KeptF.refl _))

theorem State.receivePick_fixed (s : State) (d : Nat) (p : Msg → Bool) (f : Msg → State → State)
    (h : ∀ m a, (f m a).fixed = a.fixed) : (s.receivePick d p f).fixed = s.fixed := by
  unfold State.receivePick; split
  · rfl
  · rw [h, leaveBuffer_fixed]; rfl

theorem State.receivePick_kept (s : State) (d : Nat) (p : Msg → Bool) (f : Msg → State → State)
    (h : ∀ m a, KeptF a.fixed (f m a).fixed) : KeptF s.fixed (s.receivePick d p f).fixed := by
  unfold State.receivePick; split
  · exact KeptF.refl _
  · exact KeptF.trans' (h _ _) (KeptF.step ((leaveBuffer_fixed ..).trans rfl) (KeptF.refl _))

theorem State.receiveInOrder_fixed (s : State) (d : Nat) (p : MsgBody → Bool) (f : Msg → State → State)
    (h : ∀ m a, (f m a).fixed = a.fixed) : (s.receiveInOrder d p f).fixed = s.fixed := by
  unfold State.receiveInOrder; split
  · rfl
  · rw [h, leaveBuffer_fixed]; rfl

theorem State.receiveInOrder_kept (s : State) (d : Nat) (p : MsgBody → Bool) (f : Msg → State → State)
    (h : ∀ m a, KeptF a.fixed (f m a).fixed) : KeptF s.fixed (s.receiveInOrder d p f).fixed := by
  unfold State.receiveInOrder; split
  · exact KeptF.refl _
  · exact KeptF.trans' (h _ _) (KeptF.step ((leaveBuffer_fixed ..).trans rfl) (KeptF.refl _))

theorem noteStale_fixed (m : ℕ) (s : State) :
    (noteStale m s).fixed = s.fixed := by
  unfold noteStale
  (try dsimp only)
  repeat' with_reducible (first | rfl | assumption | intro _ | refine ite_fixed ?_ ?_ | refine ite_snd_fixed ?_ ?_ | refine ite_snd2_fixed ?_ ?_ | refine getD_fixed ?_ ?_ | refine ite_elim_fixed ?_ ?_ | refine (some_elim_fixed ..).trans ?_ | refine (none_elim_fixed ..).trans ?_ | refine ite_fst_elim_fixed ?_ ?_ | refine map_elim_fixed ?_ ?_ | refine bind_elim_fixed ?_ ?_ | refine foldl_elim_fixed _ _ _ ?_ ?_ | refine snd_fixed (by assumption) ?_ | refine snd2_fixed (by assumption) ?_ | refine fst_elim_fixed (by assumption) ?_ | refine of_some_fixed (by assumption) ?_ | split | refine (foldl_fixed _ _ _ ?_).trans ?_ | refine (foldl_fixed_snd _ _ _ ?_).trans ?_ | refine (foldl_fixed_snd2 _ _ _ ?_).trans ?_ | simp only [↓State.fixed_mk, ↓State.fixed_def, State.fixed_def])

theorem ownRecord_fixed (d : ℕ) (s : State) :
    (ownRecord d s).fixed = s.fixed := by
  unfold ownRecord
  (try dsimp only)
  repeat' with_reducible (first | rfl | assumption | intro _ | refine ite_fixed ?_ ?_ | refine ite_snd_fixed ?_ ?_ | refine ite_snd2_fixed ?_ ?_ | refine getD_fixed ?_ ?_ | refine ite_elim_fixed ?_ ?_ | refine (some_elim_fixed ..).trans ?_ | refine (none_elim_fixed ..).trans ?_ | refine ite_fst_elim_fixed ?_ ?_ | refine map_elim_fixed ?_ ?_ | refine bind_elim_fixed ?_ ?_ | refine foldl_elim_fixed _ _ _ ?_ ?_ | refine snd_fixed (by assumption) ?_ | refine snd2_fixed (by assumption) ?_ | refine fst_elim_fixed (by assumption) ?_ | refine of_some_fixed (by assumption) ?_ | split | refine (foldl_fixed _ _ _ ?_).trans ?_ | refine (foldl_fixed_snd _ _ _ ?_).trans ?_ | refine (foldl_fixed_snd2 _ _ _ ?_).trans ?_ | simp only [↓State.fixed_mk, ↓State.fixed_def, State.fixed_def])

theorem topology_fixed (s : State) :
    (topology s).fixed = s.fixed := by
  unfold topology
  repeat' with_reducible (first | rfl | refine ite_fixed ?_ ?_ | intro _ | refine (State.each_fixed _ _ _ ?_).trans ?_ | refine (State.onDie_fixed ..).trans ?_ | refine (State.pinc_fixed ..).trans ?_ | refine (State.send_fixed ..).trans ?_ | refine (noteStale_fixed ..).trans ?_ | refine (relaunch_fixed ..).trans ?_ | split | refine (foldl_fixed _ _ _ ?_).trans ?_ | simp only [↓State.fixed_mk, ↓State.fixed_def, State.fixed_def])

theorem saddleClear_fixed (d : ℕ) (k : ℕ) (s : State) :
    (saddleClear d k s).fixed = s.fixed := by
  unfold saddleClear
  repeat' with_reducible (first | rfl | refine ite_fixed ?_ ?_ | intro _ | refine (State.each_fixed _ _ _ ?_).trans ?_ | refine (onSaddle_fixed ..).trans ?_ | refine (oweRoom_fixed ..).trans ?_ | refine (pump_fixed ..).trans ?_ | refine (strand_fixed ..).trans ?_ | split | refine (foldl_fixed _ _ _ ?_).trans ?_ | simp only [↓State.fixed_mk, ↓State.fixed_def, State.fixed_def])

end Sys2Proof.Machine
end

