-- ==== Sys2Proof/Laws/Fixed/Lost.lean ====
section
/-! SUPPORT. What the operations of Machine/Lost.lean leave as it is: the part, the queue, the clock, the anti-rollback
counter and the revocation bits. -/

set_option linter.all false
set_option maxRecDepth 4000

namespace Sys2Proof.Machine

theorem tapsRest_fixed (s : State) :
    (tapsRest s).fixed = s.fixed := by
  unfold tapsRest
  (try dsimp only)
  repeat' with_reducible (first | rfl | assumption | intro _ | refine ite_fixed ?_ ?_ | refine ite_snd_fixed ?_ ?_ | refine ite_snd2_fixed ?_ ?_ | refine getD_fixed ?_ ?_ | refine ite_elim_fixed ?_ ?_ | refine (some_elim_fixed ..).trans ?_ | refine (none_elim_fixed ..).trans ?_ | refine ite_fst_elim_fixed ?_ ?_ | refine map_elim_fixed ?_ ?_ | refine bind_elim_fixed ?_ ?_ | refine foldl_elim_fixed _ _ _ ?_ ?_ | refine (State.onDies_fixed ..).trans ?_ | refine snd_fixed (by assumption) ?_ | refine snd2_fixed (by assumption) ?_ | refine fst_elim_fixed (by assumption) ?_ | refine of_some_fixed (by assumption) ?_ | split | refine (foldl_fixed _ _ _ ?_).trans ?_ | refine (foldl_fixed_snd _ _ _ ?_).trans ?_ | refine (foldl_fixed_snd2 _ _ _ ?_).trans ?_ | simp only [↓State.fixed_mk, ↓State.fixed_def, State.fixed_def])

theorem spendFlip_fixed (d : ℕ) (f : ℕ × ℕ × ℕ × ℕ) (n : ℕ) (s : State) :
    (spendFlip d f n s).fixed = s.fixed := by
  unfold spendFlip
  (try dsimp only)
  repeat' with_reducible (first | rfl | assumption | intro _ | refine ite_fixed ?_ ?_ | refine ite_snd_fixed ?_ ?_ | refine ite_snd2_fixed ?_ ?_ | refine getD_fixed ?_ ?_ | refine ite_elim_fixed ?_ ?_ | refine (some_elim_fixed ..).trans ?_ | refine (none_elim_fixed ..).trans ?_ | refine ite_fst_elim_fixed ?_ ?_ | refine map_elim_fixed ?_ ?_ | refine bind_elim_fixed ?_ ?_ | refine foldl_elim_fixed _ _ _ ?_ ?_ | refine (State.onDie_fixed ..).trans ?_ | refine snd_fixed (by assumption) ?_ | refine snd2_fixed (by assumption) ?_ | refine fst_elim_fixed (by assumption) ?_ | refine of_some_fixed (by assumption) ?_ | split | refine (foldl_fixed _ _ _ ?_).trans ?_ | refine (foldl_fixed_snd _ _ _ ?_).trans ?_ | refine (foldl_fixed_snd2 _ _ _ ?_).trans ?_ | simp only [↓State.fixed_mk, ↓State.fixed_def, State.fixed_def])

theorem assignSpare_fixed (d : ℕ) (b : ℕ) (s : State) :
    (assignSpare d b s).fixed = s.fixed := by
  unfold assignSpare
  repeat' with_reducible (first | rfl | refine ite_fixed ?_ ?_ | refine (State.onDie_fixed ..).trans ?_ | refine (State.pset_fixed ..).trans ?_ | split)

theorem spareBack_fixed (d : ℕ) (s : State) :
    (spareBack d s).fixed = s.fixed := by
  unfold spareBack
  dsimp only
  repeat' with_reducible (first | rfl | refine ite_fixed ?_ ?_ | refine (State.pset_fixed ..).trans ?_ | refine (assignSpare_fixed ..).trans ?_ | split)

theorem setSlice_fixed (d : ℕ) (k : ℕ) (x : Option Slice) (s : State) :
    (setSlice d k x s).fixed = s.fixed := by
  unfold setSlice
  repeat' with_reducible (first | rfl | refine ite_fixed ?_ ?_ | refine (State.onDie_fixed ..).trans ?_ | split)

theorem engineOut_fixed (d : ℕ) (t : ℕ) (out : Bool) (s : State) :
    (engineOut d t out s).fixed = s.fixed := by
  unfold engineOut
  repeat' with_reducible (first | rfl | refine ite_fixed ?_ ?_ | refine (State.onDie_fixed ..).trans ?_ | split)

theorem sliceAbandon_fixed (d : ℕ) (k : ℕ) (s : State) :
    (sliceAbandon d k s).fixed = s.fixed := by
  unfold sliceAbandon
  repeat' with_reducible (first | rfl | refine ite_fixed ?_ ?_ | refine (State.pinc_fixed ..).trans ?_ | refine (State.pset_fixed ..).trans ?_ | refine (State.report_fixed ..).trans ?_ | refine (engineOut_fixed ..).trans ?_ | refine (setSlice_fixed ..).trans ?_ | refine (spareBack_fixed ..).trans ?_ | split)

theorem stopSlices_fixed (d : ℕ) (s : State) :
    (stopSlices d s).fixed = s.fixed := by
  unfold stopSlices
  (try dsimp only)
  repeat' with_reducible (first | rfl | assumption | intro _ | refine ite_fixed ?_ ?_ | refine ite_snd_fixed ?_ ?_ | refine ite_snd2_fixed ?_ ?_ | refine getD_fixed ?_ ?_ | refine ite_elim_fixed ?_ ?_ | refine (some_elim_fixed ..).trans ?_ | refine (none_elim_fixed ..).trans ?_ | refine ite_fst_elim_fixed ?_ ?_ | refine map_elim_fixed ?_ ?_ | refine bind_elim_fixed ?_ ?_ | refine foldl_elim_fixed _ _ _ ?_ ?_ | refine (State.each_fixed _ _ _ ?_).trans ?_ | refine (State.onDie_fixed ..).trans ?_ | refine (sliceAbandon_fixed ..).trans ?_ | refine snd_fixed (by assumption) ?_ | refine snd2_fixed (by assumption) ?_ | refine fst_elim_fixed (by assumption) ?_ | refine of_some_fixed (by assumption) ?_ | split | refine (foldl_fixed _ _ _ ?_).trans ?_ | refine (foldl_fixed_snd _ _ _ ?_).trans ?_ | refine (foldl_fixed_snd2 _ _ _ ?_).trans ?_ | simp only [↓State.fixed_mk, ↓State.fixed_def, State.fixed_def])

theorem setMode_fixed (m : Mode) (s : State) :
    (setMode m s).fixed = s.fixed := by
  unfold setMode
  repeat' with_reducible (first | rfl | refine ite_fixed ?_ ?_ | intro _ | refine (State.each_fixed _ _ _ ?_).trans ?_ | refine (State.pinc_fixed ..).trans ?_ | refine (State.pset_fixed ..).trans ?_ | refine (State.when_fixed _ _ _ ?_).trans ?_ | refine (stopSlices_fixed ..).trans ?_ | refine (tapsRest_fixed ..).trans ?_ | split | refine (foldl_fixed _ _ _ ?_).trans ?_ | simp only [↓State.fixed_mk, ↓State.fixed_def, State.fixed_def])

theorem reviewMode_fixed (s : State) :
    (reviewMode s).fixed = s.fixed := by
  unfold reviewMode
  repeat' with_reducible (first | rfl | refine ite_fixed ?_ ?_ | refine (setMode_fixed ..).trans ?_ | split)

theorem clearLost_fixed (d : ℕ) (b : ℕ) (s : State) :
    (clearLost d b s).fixed = s.fixed := by
  unfold clearLost
  repeat' with_reducible (first | rfl | refine ite_fixed ?_ ?_ | refine (State.onDie_fixed ..).trans ?_ | refine (State.pset_fixed ..).trans ?_ | refine (reviewMode_fixed ..).trans ?_ | split)

theorem setLost_fixed (d : ℕ) (b : ℕ) (s : State) :
    (setLost d b s).fixed = s.fixed := by
  unfold setLost
  repeat' with_reducible (first | rfl | refine ite_fixed ?_ ?_ | refine (State.onDie_fixed ..).trans ?_ | split)

end Sys2Proof.Machine
end

