-- ==== Sys2Proof/Laws/Fixed/Perf.lean ====
section
/-! SUPPORT. What the operations of Machine/Perf.lean leave as it is: the part, the queue, the clock, the anti-rollback
counter and the revocation bits. -/

set_option linter.all false
set_option maxRecDepth 4000

namespace Sys2Proof.Machine

theorem State.reportOpen_fixed (s : State) (d : ℕ) (block : ℕ) (inst : ℕ) (cls : ℕ) (lo : ℕ) (n : ℕ) (addr : ℕ) :
    (State.reportOpen s d block inst cls lo n addr).fixed = s.fixed := by
  unfold State.reportOpen
  repeat' with_reducible (first | rfl | refine ite_fixed ?_ ?_ | refine (State.fresh_fixed ..).trans ?_ | refine (State.report_fixed ..).trans ?_ | split)

theorem sample_fixed (d : ℕ) (k : ℕ) (code : ℕ) (o : Occ) (s : State) :
    (sample d k code o s).fixed = s.fixed := by
  unfold sample
  repeat' with_reducible (first | rfl | refine ite_fixed ?_ ?_ | refine (State.dinc_fixed ..).trans ?_ | refine (State.onDie_fixed ..).trans ?_ | split)

theorem sampleEnd_fixed (d : ℕ) (k : ℕ) (code : ℕ) (n : ℕ) (s : State) :
    (sampleEnd d k code n s).fixed = s.fixed := by
  unfold sampleEnd
  (try dsimp only)
  repeat' with_reducible (first | rfl | assumption | intro _ | refine ite_fixed ?_ ?_ | refine ite_snd_fixed ?_ ?_ | refine ite_snd2_fixed ?_ ?_ | refine getD_fixed ?_ ?_ | refine ite_elim_fixed ?_ ?_ | refine (some_elim_fixed ..).trans ?_ | refine (none_elim_fixed ..).trans ?_ | refine ite_fst_elim_fixed ?_ ?_ | refine map_elim_fixed ?_ ?_ | refine bind_elim_fixed ?_ ?_ | refine foldl_elim_fixed _ _ _ ?_ ?_ | refine (State.onDie_fixed ..).trans ?_ | refine snd_fixed (by assumption) ?_ | refine snd2_fixed (by assumption) ?_ | refine fst_elim_fixed (by assumption) ?_ | refine of_some_fixed (by assumption) ?_ | split | refine (foldl_fixed _ _ _ ?_).trans ?_ | refine (foldl_fixed_snd _ _ _ ?_).trans ?_ | refine (foldl_fixed_snd2 _ _ _ ?_).trans ?_ | simp only [↓State.fixed_mk, ↓State.fixed_def, State.fixed_def])

theorem perfCount_fixed (d : ℕ) (k : ℕ) (code : ℕ) (n : ℕ) (s : State) :
    (perfCount d k code n s).fixed = s.fixed := by
  unfold perfCount
  (try dsimp only)
  repeat' with_reducible (first | rfl | assumption | intro _ | refine ite_fixed ?_ ?_ | refine ite_snd_fixed ?_ ?_ | refine ite_snd2_fixed ?_ ?_ | refine getD_fixed ?_ ?_ | refine ite_elim_fixed ?_ ?_ | refine (some_elim_fixed ..).trans ?_ | refine (none_elim_fixed ..).trans ?_ | refine ite_fst_elim_fixed ?_ ?_ | refine map_elim_fixed ?_ ?_ | refine bind_elim_fixed ?_ ?_ | refine foldl_elim_fixed _ _ _ ?_ ?_ | refine (State.dset_fixed ..).trans ?_ | refine (State.each_fixed _ _ _ ?_).trans ?_ | refine snd_fixed (by assumption) ?_ | refine snd2_fixed (by assumption) ?_ | refine fst_elim_fixed (by assumption) ?_ | refine of_some_fixed (by assumption) ?_ | split | refine (foldl_fixed _ _ _ ?_).trans ?_ | refine (foldl_fixed_snd _ _ _ ?_).trans ?_ | refine (foldl_fixed_snd2 _ _ _ ?_).trans ?_ | simp only [↓State.fixed_mk, ↓State.fixed_def, State.fixed_def])

theorem perfNote_fixed (d : ℕ) (k : ℕ) (code : ℕ) (n : ℕ) (o : Occ) (s : State) :
    (perfNote d k code n o s).fixed = s.fixed := by
  unfold perfNote
  (try dsimp only)
  repeat' with_reducible (first | rfl | assumption | intro _ | refine ite_fixed ?_ ?_ | refine ite_snd_fixed ?_ ?_ | refine ite_snd2_fixed ?_ ?_ | refine getD_fixed ?_ ?_ | refine ite_elim_fixed ?_ ?_ | refine (some_elim_fixed ..).trans ?_ | refine (none_elim_fixed ..).trans ?_ | refine ite_fst_elim_fixed ?_ ?_ | refine map_elim_fixed ?_ ?_ | refine bind_elim_fixed ?_ ?_ | refine foldl_elim_fixed _ _ _ ?_ ?_ | refine (State.onDie_fixed ..).trans ?_ | refine (perfCount_fixed ..).trans ?_ | refine (sample_fixed ..).trans ?_ | refine snd_fixed (by assumption) ?_ | refine snd2_fixed (by assumption) ?_ | refine fst_elim_fixed (by assumption) ?_ | refine of_some_fixed (by assumption) ?_ | split | refine (foldl_fixed _ _ _ ?_).trans ?_ | refine (foldl_fixed_snd _ _ _ ?_).trans ?_ | refine (foldl_fixed_snd2 _ _ _ ?_).trans ?_ | simp only [↓State.fixed_mk, ↓State.fixed_def, State.fixed_def])

theorem perfEvent_fixed (d : ℕ) (k : ℕ) (code : ℕ) (n : ℕ) (c : ℕ) (t : ℕ) (addr : ℕ) (s : State) :
    (perfEvent d k code n c t addr s).fixed = s.fixed := by
  unfold perfEvent
  repeat' with_reducible (first | rfl | refine ite_fixed ?_ ?_ | intro _ | refine (perfNote_fixed ..).trans ?_ | split | refine (foldl_fixed _ _ _ ?_).trans ?_ | simp only [↓State.fixed_mk, ↓State.fixed_def, State.fixed_def])

theorem perfThreads_fixed (d : ℕ) (c : ℕ) (code : ℕ) (l : List (ℕ × ℕ)) (s : State) :
    (perfThreads d c code l s).fixed = s.fixed := by
  unfold perfThreads
  (try dsimp only)
  repeat' with_reducible (first | rfl | assumption | intro _ | refine ite_fixed ?_ ?_ | refine ite_snd_fixed ?_ ?_ | refine ite_snd2_fixed ?_ ?_ | refine getD_fixed ?_ ?_ | refine ite_elim_fixed ?_ ?_ | refine (some_elim_fixed ..).trans ?_ | refine (none_elim_fixed ..).trans ?_ | refine ite_fst_elim_fixed ?_ ?_ | refine map_elim_fixed ?_ ?_ | refine bind_elim_fixed ?_ ?_ | refine foldl_elim_fixed _ _ _ ?_ ?_ | refine (perfEvent_fixed ..).trans ?_ | refine snd_fixed (by assumption) ?_ | refine snd2_fixed (by assumption) ?_ | refine fst_elim_fixed (by assumption) ?_ | refine of_some_fixed (by assumption) ?_ | split | refine (foldl_fixed _ _ _ ?_).trans ?_ | refine (foldl_fixed_snd _ _ _ ?_).trans ?_ | refine (foldl_fixed_snd2 _ _ _ ?_).trans ?_ | simp only [↓State.fixed_mk, ↓State.fixed_def, State.fixed_def])

end Sys2Proof.Machine
end

