-- ==== Sys2Proof/Laws/Fixed/Map.lean ====
section
/-! SUPPORT. What the operations of Machine/Map.lean leave as it is: the part, the queue, the clock, the anti-rollback
counter and the revocation bits. -/

set_option linter.all false
set_option maxRecDepth 4000

namespace Sys2Proof.Machine

theorem onEntry_fixed (h : ℕ) (n : ℕ) (f : MapEntry → MapEntry) (s : State) :
    (onEntry h n f s).fixed = s.fixed := by
  unfold onEntry
  repeat' with_reducible (first | rfl | refine ite_fixed ?_ ?_ | refine (State.onDie_fixed ..).trans ?_ | split)

theorem sendPageEvent_fixed (h : ℕ) (n : ℕ) (s : State) :
    (sendPageEvent h n s).fixed = s.fixed := by
  unfold sendPageEvent
  repeat' with_reducible (first | rfl | refine ite_fixed ?_ ?_ | intro _ | refine (State.each_fixed _ _ _ ?_).trans ?_ | refine (State.send_fixed ..).trans ?_ | split | refine (foldl_fixed _ _ _ ?_).trans ?_ | simp only [↓State.fixed_mk, ↓State.fixed_def, State.fixed_def])

theorem setPage_fixed (h : ℕ) (n : ℕ) (st : ℕ) (hpa : ℕ) (s : State) :
    (setPage h n st hpa s).fixed = s.fixed := by
  unfold setPage
  repeat' with_reducible (first | rfl | refine ite_fixed ?_ ?_ | intro _ | refine (State.dinc_fixed ..).trans ?_ | refine (State.onDie_fixed ..).trans ?_ | refine (State.when_fixed _ _ _ ?_).trans ?_ | refine (clearLost_fixed ..).trans ?_ | refine (onEntry_fixed ..).trans ?_ | refine (sendPageEvent_fixed ..).trans ?_ | split | refine (foldl_fixed _ _ _ ?_).trans ?_ | simp only [↓State.fixed_mk, ↓State.fixed_def, State.fixed_def])

theorem clearMap_fixed (h : ℕ) (s : State) :
    (clearMap h s).fixed = s.fixed := by
  unfold clearMap
  repeat' with_reducible (first | rfl | refine ite_fixed ?_ ?_ | intro _ | refine (State.dinc_fixed ..).trans ?_ | refine (State.each_fixed _ _ _ ?_).trans ?_ | refine (State.onDie_fixed ..).trans ?_ | refine (sendPageEvent_fixed ..).trans ?_ | split | refine (foldl_fixed _ _ _ ?_).trans ?_ | simp only [↓State.fixed_mk, ↓State.fixed_def, State.fixed_def])

theorem translate_fixed (h : ℕ) (n : ℕ) (s : State) :
    (translate h n s).fixed = s.fixed := by
  unfold translate
  repeat' with_reducible (first | rfl | refine ite_fixed ?_ ?_ | refine (State.dinc_fixed ..).trans ?_ | refine (State.fresh_fixed ..).trans ?_ | refine (State.onDie_fixed ..).trans ?_ | split)

theorem mapFault_fixed (h : ℕ) (code : ℕ) (at_ : ℕ) (s : State) :
    (mapFault h code at_ s).fixed = s.fixed := by
  unfold mapFault
  dsimp only
  repeat' with_reducible (first | rfl | refine ite_fixed ?_ ?_ | refine (State.dinc_fixed ..).trans ?_ | refine (State.onDie_fixed ..).trans ?_ | refine (State.report_fixed ..).trans ?_ | split)

theorem access_fixed (h : ℕ) (r : ℕ) (p : ℕ) (off : ℕ) (s : State) :
    (access h r p off s).2.fixed = s.fixed := by
  unfold access
  dsimp only
  repeat' with_reducible (first | rfl | refine ite_fixed ?_ ?_ | refine (mapFault_fixed ..).trans ?_ | refine (translate_fixed ..).trans ?_ | split)

theorem poisonPage_fixed (h : ℕ) (n : ℕ) (s : State) :
    (poisonPage h n s).fixed = s.fixed := by
  unfold poisonPage
  repeat' with_reducible (first | rfl | refine ite_fixed ?_ ?_ | refine (State.report_fixed ..).trans ?_ | refine (setPage_fixed ..).trans ?_ | split)

theorem poisonLine_fixed (h : ℕ) (at_ : ℕ) (s : State) :
    (poisonLine h at_ s).fixed = s.fixed := by
  unfold poisonLine
  repeat' with_reducible (first | rfl | refine ite_fixed ?_ ?_ | refine (State.onDie_fixed ..).trans ?_ | refine (State.report_fixed ..).trans ?_ | refine (onEntry_fixed ..).trans ?_ | refine (poisonPage_fixed ..).trans ?_ | split)

theorem curePage_fixed (h : ℕ) (n : ℕ) (s : State) :
    (curePage h n s).fixed = s.fixed := by
  unfold curePage
  repeat' with_reducible (first | rfl | refine ite_fixed ?_ ?_ | refine (State.onDie_fixed ..).trans ?_ | refine (onEntry_fixed ..).trans ?_ | split)

theorem cureLine_fixed (h : ℕ) (at_ : ℕ) (s : State) :
    (cureLine h at_ s).fixed = s.fixed := by
  unfold cureLine
  repeat' with_reducible (first | rfl | refine ite_fixed ?_ ?_ | refine (State.onDie_fixed ..).trans ?_ | refine (onEntry_fixed ..).trans ?_ | split)

end Sys2Proof.Machine
end

