-- ==== Sys2Proof/Laws/Fixed/Pools.lean ====
section
/-! SUPPORT. What the operations of Machine/Pools.lean leave as it is: the part, the queue, the clock, the anti-rollback
counter and the revocation bits. -/

set_option linter.all false
set_option maxRecDepth 4000

namespace Sys2Proof.Machine

theorem onPool_fixed (s : State) (d : ℕ) (p : ℕ) (f : Pool → Pool) :
    (onPool s d p f).fixed = s.fixed := by
  unfold onPool
  repeat' with_reducible (first | rfl | refine ite_fixed ?_ ?_ | refine (State.onDie_fixed ..).trans ?_ | split)

theorem noteFree_fixed (d : ℕ) (p : ℕ) (s : State) :
    (noteFree d p s).fixed = s.fixed := by
  unfold noteFree
  repeat' with_reducible (first | rfl | refine ite_fixed ?_ ?_ | intro _ | refine (State.dset_fixed ..).trans ?_ | refine (State.when_fixed _ _ _ ?_).trans ?_ | refine (onPool_fixed ..).trans ?_ | split | refine (foldl_fixed _ _ _ ?_).trans ?_ | simp only [↓State.fixed_mk, ↓State.fixed_def, State.fixed_def])

theorem poolTake_fixed (s : State) (d : ℕ) (p : ℕ) (r : ℕ) (n : ℕ) :
    (poolTake s d p r n).2.fixed = s.fixed := by
  unfold poolTake
  repeat' with_reducible (first | rfl | refine ite_fixed ?_ ?_ | refine (noteFree_fixed ..).trans ?_ | refine (onPool_fixed ..).trans ?_ | split)

theorem poolRequest_fixed (s : State) (d : ℕ) (p : ℕ) (r : ℕ) (n : ℕ) :
    (poolRequest s d p r n).2.fixed = s.fixed := by
  unfold poolRequest
  repeat' with_reducible (first | rfl | refine ite_fixed ?_ ?_ | refine (State.dinc_fixed ..).trans ?_ | refine (onPool_fixed ..).trans ?_ | refine (poolTake_fixed ..).trans ?_ | split)

theorem poolReserve_fixed (s : State) (d : ℕ) (p : ℕ) (r : ℕ) (n : ℕ) :
    (poolReserve s d p r n).2.fixed = s.fixed := by
  unfold poolReserve
  repeat' with_reducible (first | rfl | refine ite_fixed ?_ ?_ | refine (State.dinc_fixed ..).trans ?_ | refine (onPool_fixed ..).trans ?_ | split)

theorem poolUnreserve_fixed (s : State) (d : ℕ) (p : ℕ) (r : ℕ) (n : ℕ) :
    (poolUnreserve s d p r n).fixed = s.fixed := by
  unfold poolUnreserve
  repeat' with_reducible (first | rfl | refine ite_fixed ?_ ?_ | refine (onPool_fixed ..).trans ?_ | split)

theorem poolDraw_fixed (s : State) (d : ℕ) (p : ℕ) (r : ℕ) (n : ℕ) :
    (poolDraw s d p r n).2.fixed = s.fixed := by
  unfold poolDraw
  repeat' with_reducible (first | rfl | refine ite_fixed ?_ ?_ | refine (poolTake_fixed ..).trans ?_ | refine (poolUnreserve_fixed ..).trans ?_ | split)

theorem poolFreeUnits_fixed (s : State) (d : ℕ) (p : ℕ) (us : List ℕ) :
    (poolFreeUnits s d p us).fixed = s.fixed := by
  unfold poolFreeUnits
  repeat' with_reducible (first | rfl | refine ite_fixed ?_ ?_ | refine (onPool_fixed ..).trans ?_ | split)

theorem poolReleaseStep_fixed (d : ℕ) (p : ℕ) (s : State) :
    (poolReleaseStep d p s).fixed = s.fixed := by
  unfold poolReleaseStep
  repeat' with_reducible (first | rfl | refine ite_fixed ?_ ?_ | refine (onPool_fixed ..).trans ?_ | split)

theorem segmentOut_fixed (d : ℕ) (p : ℕ) (g : ℕ) (s : State) :
    (segmentOut d p g s).fixed = s.fixed := by
  unfold segmentOut
  (try dsimp only)
  repeat' with_reducible (first | rfl | assumption | intro _ | refine ite_fixed ?_ ?_ | refine ite_snd_fixed ?_ ?_ | refine ite_snd2_fixed ?_ ?_ | refine getD_fixed ?_ ?_ | refine ite_elim_fixed ?_ ?_ | refine (some_elim_fixed ..).trans ?_ | refine (none_elim_fixed ..).trans ?_ | refine ite_fst_elim_fixed ?_ ?_ | refine map_elim_fixed ?_ ?_ | refine bind_elim_fixed ?_ ?_ | refine foldl_elim_fixed _ _ _ ?_ ?_ | refine (onPool_fixed ..).trans ?_ | refine snd_fixed (by assumption) ?_ | refine snd2_fixed (by assumption) ?_ | refine fst_elim_fixed (by assumption) ?_ | refine of_some_fixed (by assumption) ?_ | split | refine (foldl_fixed _ _ _ ?_).trans ?_ | refine (foldl_fixed_snd _ _ _ ?_).trans ?_ | refine (foldl_fixed_snd2 _ _ _ ?_).trans ?_ | simp only [↓State.fixed_mk, ↓State.fixed_def, State.fixed_def])

theorem segmentParity_fixed (d : ℕ) (p : ℕ) (g : ℕ) (s : State) :
    (segmentParity d p g s).2.fixed = s.fixed := by
  unfold segmentParity
  (try dsimp only)
  repeat' with_reducible (first | rfl | assumption | intro _ | refine ite_fixed ?_ ?_ | refine ite_snd_fixed ?_ ?_ | refine ite_snd2_fixed ?_ ?_ | refine getD_fixed ?_ ?_ | refine ite_elim_fixed ?_ ?_ | refine (some_elim_fixed ..).trans ?_ | refine (none_elim_fixed ..).trans ?_ | refine ite_fst_elim_fixed ?_ ?_ | refine map_elim_fixed ?_ ?_ | refine bind_elim_fixed ?_ ?_ | refine foldl_elim_fixed _ _ _ ?_ ?_ | refine (State.fresh_fixed ..).trans ?_ | refine (State.report_fixed ..).trans ?_ | refine (noteFree_fixed ..).trans ?_ | refine (segmentOut_fixed ..).trans ?_ | refine (spendFlip_fixed ..).trans ?_ | refine snd_fixed (by assumption) ?_ | refine snd2_fixed (by assumption) ?_ | refine fst_elim_fixed (by assumption) ?_ | refine of_some_fixed (by assumption) ?_ | split | refine (foldl_fixed _ _ _ ?_).trans ?_ | refine (foldl_fixed_snd _ _ _ ?_).trans ?_ | refine (foldl_fixed_snd2 _ _ _ ?_).trans ?_ | simp only [↓State.fixed_mk, ↓State.fixed_def, State.fixed_def])

theorem refillStep_fixed (d : ℕ) (p : ℕ) (s : State) :
    (refillStep d p s).fixed = s.fixed := by
  unfold refillStep
  repeat' with_reducible (first | rfl | refine ite_fixed ?_ ?_ | refine (onPool_fixed ..).trans ?_ | refine (segmentParity_fixed ..).trans ?_ | split)

theorem pauseAsk_fixed (d : ℕ) (slot : ℕ) (cls : ℕ) (above : Bool) (s : State) :
    (pauseAsk d slot cls above s).fixed = s.fixed := by
  unfold pauseAsk
  repeat' with_reducible (first | rfl | refine ite_fixed ?_ ?_ | refine (State.dinc_fixed ..).trans ?_ | refine (State.dset_fixed ..).trans ?_ | refine (State.onDie_fixed ..).trans ?_ | split)

theorem pauseCheck_fixed (d : ℕ) (slot : ℕ) (cls : ℕ) (s : State) :
    (pauseCheck d slot cls s).fixed = s.fixed := by
  unfold pauseCheck
  repeat' with_reducible (first | rfl | refine ite_fixed ?_ ?_ | refine (pauseAsk_fixed ..).trans ?_ | split)

theorem pauseCheckPort_fixed (d : ℕ) (slot : ℕ) (s : State) :
    (pauseCheckPort d slot s).fixed = s.fixed := by
  unfold pauseCheckPort
  repeat' with_reducible (first | rfl | refine ite_fixed ?_ ?_ | intro _ | refine (State.each_fixed _ _ _ ?_).trans ?_ | refine (pauseCheck_fixed ..).trans ?_ | split | refine (foldl_fixed _ _ _ ?_).trans ?_ | simp only [↓State.fixed_mk, ↓State.fixed_def, State.fixed_def])

theorem occAdd_fixed (d : ℕ) (slot : ℕ) (prio : ℕ) (n : ℕ) (s : State) :
    (occAdd d slot prio n s).fixed = s.fixed := by
  unfold occAdd
  repeat' with_reducible (first | rfl | refine ite_fixed ?_ ?_ | refine (State.dset_fixed ..).trans ?_ | refine (pauseCheckPort_fixed ..).trans ?_ | split)

theorem occSub_fixed (d : ℕ) (slot : ℕ) (prio : ℕ) (n : ℕ) (s : State) :
    (occSub d slot prio n s).fixed = s.fixed := by
  unfold occSub
  repeat' with_reducible (first | rfl | refine ite_fixed ?_ ?_ | refine (State.ddec_fixed ..).trans ?_ | refine (pauseCheckPort_fixed ..).trans ?_ | split)

theorem occEnd_fixed (i : ℕ) (s : State) :
    (occEnd i s).fixed = s.fixed := by
  unfold occEnd
  repeat' with_reducible (first | rfl | refine ite_fixed ?_ ?_ | refine (State.onPkt_fixed ..).trans ?_ | refine (occSub_fixed ..).trans ?_ | split)

theorem ctxUpdate_fixed (no : ℕ) (c : ℕ) (word : ℕ) (op : ℕ) (v : Word) (s : State) :
    (ctxUpdate no c word op v s).fixed = s.fixed := by
  unfold ctxUpdate
  repeat' with_reducible (first | rfl | refine ite_fixed ?_ ?_ | refine (State.dinc_fixed ..).trans ?_ | refine (State.onDie_fixed ..).trans ?_ | split)

theorem unpin_fixed (c : ℕ) (s : State) :
    (unpin c s).fixed = s.fixed := by
  unfold unpin
  repeat' with_reducible (first | rfl | refine ite_fixed ?_ ?_ | refine (State.onDie_fixed ..).trans ?_ | split)

theorem unlock_fixed (c : ℕ) (s : State) :
    (unlock c s).fixed = s.fixed := by
  unfold unlock
  repeat' with_reducible (first | rfl | refine ite_fixed ?_ ?_ | refine (State.onDie_fixed ..).trans ?_ | split)

theorem homeApply_fixed (q : HomeReq) (s : State) :
    (homeApply q s).fixed = s.fixed := by
  unfold homeApply
  repeat' with_reducible (first | rfl | refine ite_fixed ?_ ?_ | intro _ | refine (State.each_fixed _ _ _ ?_).trans ?_ | refine (ctxUpdate_fixed ..).trans ?_ | refine (unlock_fixed ..).trans ?_ | refine (unpin_fixed ..).trans ?_ | split | refine (foldl_fixed _ _ _ ?_).trans ?_ | simp only [↓State.fixed_mk, ↓State.fixed_def, State.fixed_def])

theorem toHome_fixed (d : ℕ) (h : ℕ) (q : HomeReq) (s : State) :
    (toHome d h q s).fixed = s.fixed := by
  unfold toHome
  repeat' with_reducible (first | rfl | refine ite_fixed ?_ ?_ | refine (State.send_fixed ..).trans ?_ | refine (homeApply_fixed ..).trans ?_ | split)

theorem shipGroup_fixed (d : ℕ) (no : ℕ) (es : List (ℕ × ℕ × ℕ × Word)) (s : State) :
    (shipGroup d no es s).fixed = s.fixed := by
  unfold shipGroup
  (try dsimp only)
  repeat' with_reducible (first | rfl | assumption | intro _ | refine ite_fixed ?_ ?_ | refine ite_snd_fixed ?_ ?_ | refine ite_snd2_fixed ?_ ?_ | refine getD_fixed ?_ ?_ | refine ite_elim_fixed ?_ ?_ | refine (some_elim_fixed ..).trans ?_ | refine (none_elim_fixed ..).trans ?_ | refine ite_fst_elim_fixed ?_ ?_ | refine map_elim_fixed ?_ ?_ | refine bind_elim_fixed ?_ ?_ | refine foldl_elim_fixed _ _ _ ?_ ?_ | refine (State.each_fixed _ _ _ ?_).trans ?_ | refine (toHome_fixed ..).trans ?_ | refine snd_fixed (by assumption) ?_ | refine snd2_fixed (by assumption) ?_ | refine fst_elim_fixed (by assumption) ?_ | refine of_some_fixed (by assumption) ?_ | split | refine (foldl_fixed _ _ _ ?_).trans ?_ | refine (foldl_fixed_snd _ _ _ ?_).trans ?_ | refine (foldl_fixed_snd2 _ _ _ ?_).trans ?_ | simp only [↓State.fixed_mk, ↓State.fixed_def, State.fixed_def])

theorem shipUpdates_fixed (d : ℕ) (es : List (ℕ × ℕ × ℕ × Word)) (s : State) :
    (shipUpdates d es s).fixed = s.fixed := by
  unfold shipUpdates
  repeat' with_reducible (first | rfl | refine ite_fixed ?_ ?_ | intro _ | refine (shipGroup_fixed ..).trans ?_ | split | refine (foldl_fixed _ _ _ ?_).trans ?_ | simp only [↓State.fixed_mk, ↓State.fixed_def, State.fixed_def])

theorem shipRelease_fixed (d : ℕ) (pins : List ℕ) (lock : Option ℕ) (s : State) :
    (shipRelease d pins lock s).fixed = s.fixed := by
  unfold shipRelease
  repeat' with_reducible (first | rfl | refine ite_fixed ?_ ?_ | intro _ | refine (State.each_fixed _ _ _ ?_).trans ?_ | refine (toHome_fixed ..).trans ?_ | split | refine (foldl_fixed _ _ _ ?_).trans ?_ | simp only [↓State.fixed_mk, ↓State.fixed_def, State.fixed_def])

theorem releaseRun_fixed (d : ℕ) (r : Run) (s : State) :
    (releaseRun d r s).fixed = s.fixed := by
  unfold releaseRun
  repeat' with_reducible (first | rfl | refine ite_fixed ?_ ?_ | refine (shipRelease_fixed ..).trans ?_ | split)

theorem onCluster_fixed (s : State) (d : ℕ) (c : ℕ) (f : Cluster → Cluster) :
    (onCluster s d c f).fixed = s.fixed := by
  unfold onCluster
  repeat' with_reducible (first | rfl | refine ite_fixed ?_ ?_ | refine (State.onDie_fixed ..).trans ?_ | split)

theorem onThread_fixed (s : State) (d : ℕ) (c : ℕ) (t : ℕ) (f : Thread → Thread) :
    (onThread s d c t f).fixed = s.fixed := by
  unfold onThread
  repeat' with_reducible (first | rfl | refine ite_fixed ?_ ?_ | refine (onCluster_fixed ..).trans ?_ | split)

theorem freeThread_fixed (d : ℕ) (c : ℕ) (t : ℕ) (s : State) :
    (freeThread d c t s).fixed = s.fixed := by
  unfold freeThread
  repeat' with_reducible (first | rfl | refine ite_fixed ?_ ?_ | refine (onThread_fixed ..).trans ?_ | split)

theorem freePark_fixed (d : ℕ) (x : ℕ) (s : State) :
    (freePark d x s).fixed = s.fixed := by
  unfold freePark
  repeat' with_reducible (first | rfl | refine ite_fixed ?_ ?_ | refine (State.onDie_fixed ..).trans ?_ | refine (sampleEnd_fixed ..).trans ?_ | split)

theorem leaveEngine_fixed (i : ℕ) (s : State) :
    (leaveEngine i s).fixed = s.fixed := by
  unfold leaveEngine
  repeat' with_reducible (first | rfl | refine ite_fixed ?_ ?_ | refine (State.dropMsgs_fixed ..).trans ?_ | refine (State.onDie_fixed ..).trans ?_ | refine (freePark_fixed ..).trans ?_ | refine (freeThread_fixed ..).trans ?_ | refine (onCluster_fixed ..).trans ?_ | refine (releaseRun_fixed ..).trans ?_ | split)

theorem releaseUnits_fixed (i : ℕ) (s : State) :
    (releaseUnits i s).fixed = s.fixed := by
  unfold releaseUnits
  repeat' with_reducible (first | rfl | refine ite_fixed ?_ ?_ | intro _ | refine (State.onPkt_fixed ..).trans ?_ | refine (poolFreeUnits_fixed ..).trans ?_ | refine (poolUnreserve_fixed ..).trans ?_ | split | refine (foldl_fixed _ _ _ ?_).trans ?_ | simp only [↓State.fixed_mk, ↓State.fixed_def, State.fixed_def])

theorem endHolder_fixed (i : ℕ) (s : State) :
    (endHolder i s).fixed = s.fixed := by
  unfold endHolder
  repeat' with_reducible (first | rfl | refine ite_fixed ?_ ?_ | refine (State.onPkt_fixed ..).trans ?_ | split)

theorem forget_fixed (i : ℕ) (s : State) :
    (forget i s).fixed = s.fixed := by
  unfold forget
  repeat' with_reducible (first | rfl | refine ite_fixed ?_ ?_ | intro _ | refine (State.onPkt_fixed ..).trans ?_ | split | refine (foldl_fixed _ _ _ ?_).trans ?_ | simp only [↓State.fixed_mk, ↓State.fixed_def, State.fixed_def])

theorem dropPkt_fixed (d : ℕ) (i : ℕ) (reason : ℕ) (s : State) :
    (dropPkt d i reason s).fixed = s.fixed := by
  unfold dropPkt
  repeat' with_reducible (first | rfl | refine ite_fixed ?_ ?_ | intro _ | refine (State.dinc_fixed ..).trans ?_ | refine (State.onDie_fixed ..).trans ?_ | refine (State.onPkt_fixed ..).trans ?_ | refine (State.when_fixed _ _ _ ?_).trans ?_ | refine (endHolder_fixed ..).trans ?_ | refine (forget_fixed ..).trans ?_ | refine (leaveEngine_fixed ..).trans ?_ | refine (occEnd_fixed ..).trans ?_ | refine (releaseUnits_fixed ..).trans ?_ | split | refine (foldl_fixed _ _ _ ?_).trans ?_ | simp only [↓State.fixed_mk, ↓State.fixed_def, State.fixed_def])

end Sys2Proof.Machine
end

