-- ==== Sys2Proof/Laws/Fixed/Build.lean ====
section
/-! SUPPORT. What the operations of Machine/Build.lean leave as it is: the part, the queue, the clock, the anti-rollback
counter and the revocation bits. -/

set_option linter.all false
set_option maxRecDepth 4000

namespace Sys2Proof.Machine

theorem buildHead_fixed (d : ℕ) (i : ℕ) (s : State) :
    (buildHead d i s).fixed = s.fixed := by
  unfold buildHead
  repeat' with_reducible (first | rfl | refine ite_fixed ?_ ?_ | intro _ | refine (State.dinc_fixed ..).trans ?_ | refine (State.onPkt_fixed ..).trans ?_ | refine (State.when_fixed _ _ _ ?_).trans ?_ | split | refine (foldl_fixed _ _ _ ?_).trans ?_ | simp only [↓State.fixed_mk, ↓State.fixed_def, State.fixed_def])

theorem bodyRead_fixed (d : ℕ) (i : ℕ) (from_ : ℕ) (s : State) :
    (bodyRead d i from_ s).2.fixed = s.fixed := by
  unfold bodyRead
  dsimp only
  repeat' with_reducible (first | rfl | refine ite_fixed ?_ ?_ | refine (State.fresh_fixed ..).trans ?_ | refine (State.onDie_fixed ..).trans ?_ | refine (State.report_fixed ..).trans ?_ | split)

theorem poisonBody_fixed (d : ℕ) (i : ℕ) (s : State) :
    (poisonBody d i s).fixed = s.fixed := by
  unfold poisonBody
  (try dsimp only)
  repeat' with_reducible (first | rfl | assumption | intro _ | refine ite_fixed ?_ ?_ | refine ite_snd_fixed ?_ ?_ | refine ite_snd2_fixed ?_ ?_ | refine getD_fixed ?_ ?_ | refine ite_elim_fixed ?_ ?_ | refine (some_elim_fixed ..).trans ?_ | refine (none_elim_fixed ..).trans ?_ | refine ite_fst_elim_fixed ?_ ?_ | refine map_elim_fixed ?_ ?_ | refine bind_elim_fixed ?_ ?_ | refine foldl_elim_fixed _ _ _ ?_ ?_ | refine (State.dinc_fixed ..).trans ?_ | refine (State.onPkt_fixed ..).trans ?_ | refine snd_fixed (by assumption) ?_ | refine snd2_fixed (by assumption) ?_ | refine fst_elim_fixed (by assumption) ?_ | refine of_some_fixed (by assumption) ?_ | split | refine (foldl_fixed _ _ _ ?_).trans ?_ | refine (foldl_fixed_snd _ _ _ ?_).trans ?_ | refine (foldl_fixed_snd2 _ _ _ ?_).trans ?_ | simp only [↓State.fixed_mk, ↓State.fixed_def, State.fixed_def])

theorem readRest_fixed (d : ℕ) (i : ℕ) (from_ : ℕ) (s : State) :
    (readRest d i from_ s).fixed = s.fixed := by
  unfold readRest
  (try dsimp only)
  repeat' with_reducible (first | rfl | assumption | intro _ | refine ite_fixed ?_ ?_ | refine ite_snd_fixed ?_ ?_ | refine ite_snd2_fixed ?_ ?_ | refine getD_fixed ?_ ?_ | refine ite_elim_fixed ?_ ?_ | refine (some_elim_fixed ..).trans ?_ | refine (none_elim_fixed ..).trans ?_ | refine ite_fst_elim_fixed ?_ ?_ | refine map_elim_fixed ?_ ?_ | refine bind_elim_fixed ?_ ?_ | refine foldl_elim_fixed _ _ _ ?_ ?_ | refine (State.when_fixed _ _ _ ?_).trans ?_ | refine (bodyRead_fixed ..).trans ?_ | refine (poisonBody_fixed ..).trans ?_ | refine snd_fixed (by assumption) ?_ | refine snd2_fixed (by assumption) ?_ | refine fst_elim_fixed (by assumption) ?_ | refine of_some_fixed (by assumption) ?_ | split | refine (foldl_fixed _ _ _ ?_).trans ?_ | refine (foldl_fixed_snd _ _ _ ?_).trans ?_ | refine (foldl_fixed_snd2 _ _ _ ?_).trans ?_ | simp only [↓State.fixed_mk, ↓State.fixed_def, State.fixed_def])

theorem mirrorAsk_fixed (i : ℕ) (s : State) :
    (mirrorAsk i s).fixed = s.fixed := by
  unfold mirrorAsk
  repeat' with_reducible (first | rfl | refine ite_fixed ?_ ?_ | refine (State.dinc_fixed ..).trans ?_ | refine (State.newPkt_fixed ..).trans ?_ | refine (State.onDie_fixed ..).trans ?_ | refine (State.onPkt_fixed ..).trans ?_ | refine (buildHead_fixed ..).trans ?_ | split)

end Sys2Proof.Machine
end

