-- ==== Sys2Proof/Laws/Fixed/Parse.lean ====
section
/-! SUPPORT. What the operations of Machine/Parse.lean leave as it is: the part, the queue, the clock, the anti-rollback
counter and the revocation bits. -/

set_option linter.all false
set_option maxRecDepth 4000

namespace Sys2Proof.Machine

theorem latchCfg_fixed (i : ℕ) (s : State) :
    (latchCfg i s).fixed = s.fixed := by
  unfold latchCfg
  repeat' with_reducible (first | rfl | refine ite_fixed ?_ ?_ | refine (State.onPkt_fixed ..).trans ?_ | split)

theorem parsePacket_fixed (i : ℕ) (q : ℕ) (s : State) :
    (parsePacket i q s).fixed = s.fixed := by
  unfold parsePacket
  repeat' with_reducible (first | rfl | refine ite_fixed ?_ ?_ | intro _ | refine (State.dinc_fixed ..).trans ?_ | refine (State.onDie_fixed ..).trans ?_ | refine (State.onPkt_fixed ..).trans ?_ | refine (State.when_fixed _ _ _ ?_).trans ?_ | refine (dropPkt_fixed ..).trans ?_ | split | refine (foldl_fixed _ _ _ ?_).trans ?_ | simp only [↓State.fixed_mk, ↓State.fixed_def, State.fixed_def])

theorem parseStart_fixed (d : ℕ) (slot : ℕ) (s : State) :
    (parseStart d slot s).fixed = s.fixed := by
  unfold parseStart
  repeat' with_reducible (first | rfl | refine ite_fixed ?_ ?_ | refine (State.onPkt_fixed ..).trans ?_ | refine (parsePacket_fixed ..).trans ?_ | split)

end Sys2Proof.Machine
end

