-- ==== Sys2Proof/Laws/Fixed/Ingress.lean ====
section
/-! SUPPORT. What the operations of Machine/Ingress.lean leave as it is: the part, the queue, the clock, the anti-rollback
counter and the revocation bits. -/

set_option linter.all false
set_option maxRecDepth 4000

namespace Sys2Proof.Machine

theorem rxTake_fixed (d : ℕ) (slot : ℕ) (i : ℕ) (s : State) :
    (rxTake d slot i s).fixed = s.fixed := by
  unfold rxTake
  repeat' with_reducible (first | rfl | refine ite_fixed ?_ ?_ | refine (State.onDie_fixed ..).trans ?_ | split)

theorem startDiscard_fixed (d : ℕ) (slot : ℕ) (reason : ℕ) (p : Packet) (s : State) :
    (startDiscard d slot reason p s).fixed = s.fixed := by
  unfold startDiscard
  repeat' with_reducible (first | rfl | refine ite_fixed ?_ ?_ | refine (State.dinc_fixed ..).trans ?_ | refine (State.newPkt_fixed ..).trans ?_ | refine (rxTake_fixed ..).trans ?_ | split)

theorem startReserve_fixed (d : ℕ) (a1 : List (ℕ × Bytes)) (a2 : State) :
    (startReserve d a1 a2).2.fixed = a2.fixed := by
  induction a1 generalizing a2 with
  | nil => rfl
  | cons x l ih =>
    unfold startReserve
    (try dsimp only)
    repeat' with_reducible (first | rfl | refine (ih ..).trans ?_ | assumption | intro _ | refine ite_fixed ?_ ?_ | refine ite_snd_fixed ?_ ?_ | refine ite_snd2_fixed ?_ ?_ | refine getD_fixed ?_ ?_ | refine ite_elim_fixed ?_ ?_ | refine (some_elim_fixed ..).trans ?_ | refine (none_elim_fixed ..).trans ?_ | refine ite_fst_elim_fixed ?_ ?_ | refine map_elim_fixed ?_ ?_ | refine bind_elim_fixed ?_ ?_ | refine foldl_elim_fixed _ _ _ ?_ ?_ | refine (poolReserve_fixed ..).trans ?_ | refine snd_fixed (by assumption) ?_ | refine snd2_fixed (by assumption) ?_ | refine fst_elim_fixed (by assumption) ?_ | refine of_some_fixed (by assumption) ?_ | split | refine (foldl_fixed _ _ _ ?_).trans ?_ | refine (foldl_fixed_snd _ _ _ ?_).trans ?_ | refine (foldl_fixed_snd2 _ _ _ ?_).trans ?_ | simp only [↓State.fixed_mk, ↓State.fixed_def, State.fixed_def])

theorem startUnits_fixed (d : ℕ) (a1 : List (ℕ × Bytes)) (a2 : State) :
    (startUnits d a1 a2).2.fixed = a2.fixed := by
  induction a1 generalizing a2 with
  | nil => rfl
  | cons x l ih =>
    unfold startUnits
    (try dsimp only)
    repeat' with_reducible (first | rfl | refine (ih ..).trans ?_ | assumption | intro _ | refine ite_fixed ?_ ?_ | refine ite_snd_fixed ?_ ?_ | refine ite_snd2_fixed ?_ ?_ | refine getD_fixed ?_ ?_ | refine ite_elim_fixed ?_ ?_ | refine (some_elim_fixed ..).trans ?_ | refine (none_elim_fixed ..).trans ?_ | refine ite_fst_elim_fixed ?_ ?_ | refine map_elim_fixed ?_ ?_ | refine bind_elim_fixed ?_ ?_ | refine foldl_elim_fixed _ _ _ ?_ ?_ | refine (poolRequest_fixed ..).trans ?_ | refine snd_fixed (by assumption) ?_ | refine snd2_fixed (by assumption) ?_ | refine fst_elim_fixed (by assumption) ?_ | refine of_some_fixed (by assumption) ?_ | split | refine (foldl_fixed _ _ _ ?_).trans ?_ | refine (foldl_fixed_snd _ _ _ ?_).trans ?_ | refine (foldl_fixed_snd2 _ _ _ ?_).trans ?_ | simp only [↓State.fixed_mk, ↓State.fixed_def, State.fixed_def])

theorem startOne_fixed (d : ℕ) (failed : List ℕ) (units : List (ℕ × ℕ)) (x : ℕ × Bytes) (s : State) :
    (startOne d failed units x s).fixed = s.fixed := by
  unfold startOne
  repeat' with_reducible (first | rfl | refine ite_fixed ?_ ?_ | refine (State.newPkt_fixed ..).trans ?_ | refine (latchCfg_fixed ..).trans ?_ | refine (occAdd_fixed ..).trans ?_ | refine (poolDraw_fixed ..).trans ?_ | refine (poolFreeUnits_fixed ..).trans ?_ | refine (poolUnreserve_fixed ..).trans ?_ | refine (rxTake_fixed ..).trans ?_ | refine (startDiscard_fixed ..).trans ?_ | split)

theorem frameStart_fixed (d : ℕ) (frames : List (ℕ × Bytes)) (s : State) :
    (frameStart d frames s).fixed = s.fixed := by
  unfold frameStart
  repeat' with_reducible (first | rfl | refine ite_fixed ?_ ?_ | intro _ | refine (State.each_fixed _ _ _ ?_).trans ?_ | refine (startDiscard_fixed ..).trans ?_ | refine (startOne_fixed ..).trans ?_ | refine (startReserve_fixed ..).trans ?_ | refine (startUnits_fixed ..).trans ?_ | split | refine (foldl_fixed _ _ _ ?_).trans ?_ | simp only [↓State.fixed_mk, ↓State.fixed_def, State.fixed_def])

theorem macRxCount_fixed (d : ℕ) (slot : ℕ) (n : ℕ) (t : Tail) (stomp : Bool) (s : State) :
    (macRxCount d slot n t stomp s).fixed = s.fixed := by
  unfold macRxCount
  repeat' with_reducible (first | rfl | refine ite_fixed ?_ ?_ | refine (State.dinc_fixed ..).trans ?_ | split)

theorem badAfterDispatch_fixed (i : ℕ) (reason : ℕ) (s : State) :
    (badAfterDispatch i reason s).fixed = s.fixed := by
  unfold badAfterDispatch
  repeat' with_reducible (first | rfl | refine ite_fixed ?_ ?_ | intro _ | refine (State.dinc_fixed ..).trans ?_ | refine (State.when_fixed _ _ _ ?_).trans ?_ | refine (dropPkt_fixed ..).trans ?_ | split | refine (foldl_fixed _ _ _ ?_).trans ?_ | simp only [↓State.fixed_mk, ↓State.fixed_def, State.fixed_def])

theorem tailBad_fixed (i : ℕ) (reason : ℕ) (s : State) :
    (tailBad i reason s).fixed = s.fixed := by
  unfold tailBad
  repeat' with_reducible (first | rfl | refine ite_fixed ?_ ?_ | refine (State.dinc_fixed ..).trans ?_ | refine (State.onPkt_fixed ..).trans ?_ | refine (badAfterDispatch_fixed ..).trans ?_ | refine (dropPkt_fixed ..).trans ?_ | split)

theorem deferredEnd_fixed (i : ℕ) (a1 : List ℕ) (a2 : State) :
    (deferredEnd i a1 a2).fixed = a2.fixed := by
  induction a1 generalizing a2 with
  | nil => rfl
  | cons x l ih =>
    unfold deferredEnd
    (try dsimp only)
    repeat' with_reducible (first | rfl | refine (ih ..).trans ?_ | assumption | intro _ | refine ite_fixed ?_ ?_ | refine ite_snd_fixed ?_ ?_ | refine ite_snd2_fixed ?_ ?_ | refine getD_fixed ?_ ?_ | refine ite_elim_fixed ?_ ?_ | refine (some_elim_fixed ..).trans ?_ | refine (none_elim_fixed ..).trans ?_ | refine ite_fst_elim_fixed ?_ ?_ | refine map_elim_fixed ?_ ?_ | refine bind_elim_fixed ?_ ?_ | refine foldl_elim_fixed _ _ _ ?_ ?_ | refine (State.dinc_fixed ..).trans ?_ | refine (State.onPkt_fixed ..).trans ?_ | refine (State.when_fixed _ _ _ ?_).trans ?_ | refine (tailBad_fixed ..).trans ?_ | refine snd_fixed (by assumption) ?_ | refine snd2_fixed (by assumption) ?_ | refine fst_elim_fixed (by assumption) ?_ | refine of_some_fixed (by assumption) ?_ | split | refine (foldl_fixed _ _ _ ?_).trans ?_ | refine (foldl_fixed_snd _ _ _ ?_).trans ?_ | refine (foldl_fixed_snd2 _ _ _ ?_).trans ?_ | simp only [↓State.fixed_mk, ↓State.fixed_def, State.fixed_def])

theorem copiesTail_fixed (i : ℕ) (t : Tail) (f : Bytes) (s : State) :
    (copiesTail i t f s).fixed = s.fixed := by
  unfold copiesTail
  repeat' with_reducible (first | rfl | refine ite_fixed ?_ ?_ | intro _ | refine (State.each_fixed _ _ _ ?_).trans ?_ | refine (State.onPkt_fixed ..).trans ?_ | split | refine (foldl_fixed _ _ _ ?_).trans ?_ | simp only [↓State.fixed_mk, ↓State.fixed_def, State.fixed_def])

theorem tailArrived_fixed (i : ℕ) (rest : Bytes) (s : State) :
    (tailArrived i rest s).fixed = s.fixed := by
  unfold tailArrived
  repeat' with_reducible (first | rfl | refine ite_fixed ?_ ?_ | intro _ | refine (State.dinc_fixed ..).trans ?_ | refine (State.onPkt_fixed ..).trans ?_ | refine (State.when_fixed _ _ _ ?_).trans ?_ | refine (copiesTail_fixed ..).trans ?_ | refine (deferredEnd_fixed ..).trans ?_ | refine (forget_fixed ..).trans ?_ | refine (occAdd_fixed ..).trans ?_ | refine (poolDraw_fixed ..).trans ?_ | refine (poolUnreserve_fixed ..).trans ?_ | refine (tailBad_fixed ..).trans ?_ | split | refine (foldl_fixed _ _ _ ?_).trans ?_ | simp only [↓State.fixed_mk, ↓State.fixed_def, State.fixed_def])

theorem frameTail_fixed (d : ℕ) (slot : ℕ) (rest : Bytes) (s : State) :
    (frameTail d slot rest s).fixed = s.fixed := by
  unfold frameTail
  repeat' with_reducible (first | rfl | refine ite_fixed ?_ ?_ | refine (State.onDie_fixed ..).trans ?_ | refine (macRxCount_fixed ..).trans ?_ | refine (tailArrived_fixed ..).trans ?_ | split)

theorem truncateRx_fixed (d : ℕ) (slot : ℕ) (s : State) :
    (truncateRx d slot s).fixed = s.fixed := by
  unfold truncateRx
  repeat' with_reducible (first | rfl | refine ite_fixed ?_ ?_ | refine (State.dinc_fixed ..).trans ?_ | refine (State.onDie_fixed ..).trans ?_ | refine (State.onPkt_fixed ..).trans ?_ | refine (copiesTail_fixed ..).trans ?_ | refine (forget_fixed ..).trans ?_ | refine (poolUnreserve_fixed ..).trans ?_ | refine (tailBad_fixed ..).trans ?_ | split)

theorem execFrameStart_fixed (d : DieId) (frames : List (Slot × Bytes)) (s : State) {s' : State}
    (h : execFrameStart d frames s = .next s') : s'.fixed = s.fixed := by
  unfold execFrameStart at h
  refine onLive_fixed (fun s => ?_) h
  repeat' with_reducible (first | rfl | refine ite_fixed ?_ ?_ | refine (frameStart_fixed ..).trans ?_ | split)

theorem execParseStart_fixed (d : DieId) (slot : Slot) (s : State) {s' : State}
    (h : execParseStart d slot s = .next s') : s'.fixed = s.fixed := by
  unfold execParseStart at h
  refine onLive_fixed (fun s => ?_) h
  repeat' with_reducible (first | rfl | refine ite_fixed ?_ ?_ | refine (parseStart_fixed ..).trans ?_ | split)

end Sys2Proof.Machine
end

