-- ==== Sys2Proof/Laws/Fixed/Steer.lean ====
section
/-! SUPPORT. What the operations of Machine/Steer.lean leave as it is: the part, the queue, the clock, the anti-rollback
counter and the revocation bits. -/

set_option linter.all false
set_option maxRecDepth 4000

namespace Sys2Proof.Machine

theorem holdFor_fixed (d : ℕ) (q : ℕ) (c : ℕ) (i : ℕ) (s : State) :
    (holdFor d q c i s).fixed = s.fixed := by
  unfold holdFor
  repeat' with_reducible (first | rfl | refine ite_fixed ?_ ?_ | refine (State.onDie_fixed ..).trans ?_ | refine (State.stage_fixed ..).trans ?_ | split)

theorem assignSeq_fixed (d : ℕ) (i : ℕ) (s : State) :
    (assignSeq d i s).fixed = s.fixed := by
  unfold assignSeq
  repeat' with_reducible (first | rfl | refine ite_fixed ?_ ?_ | refine (State.onDie_fixed ..).trans ?_ | refine (State.onPkt_fixed ..).trans ?_ | split)

theorem packetDispatch_fixed (d : ℕ) (q : ℕ) (s : State) :
    (packetDispatch d q s).fixed = s.fixed := by
  unfold packetDispatch
  repeat' with_reducible (first | rfl | refine ite_fixed ?_ ?_ | intro _ | refine (State.dinc_fixed ..).trans ?_ | refine (State.onDie_fixed ..).trans ?_ | refine (State.send_fixed ..).trans ?_ | refine (State.stage_fixed ..).trans ?_ | refine (State.when_fixed _ _ _ ?_).trans ?_ | refine (assignSeq_fixed ..).trans ?_ | refine (holdFor_fixed ..).trans ?_ | split | refine (foldl_fixed _ _ _ ?_).trans ?_ | simp only [↓State.fixed_mk, ↓State.fixed_def, State.fixed_def])

theorem recordReceive_fixed (d : Nat) (s : State) : (recordReceive d s).fixed = s.fixed := by
  unfold recordReceive State.receivePick; dsimp only; split
  · rfl
  · repeat' with_reducible (first | rfl | refine ite_fixed ?_ ?_ | refine (holdFor_fixed ..).trans ?_ | refine (State.dinc_fixed ..).trans ?_ | refine (leaveBuffer_fixed ..).trans ?_ | split | dsimp only | simp only [↓State.fixed_mk, ↓State.fixed_def, State.fixed_def])

theorem returnReceive_fixed (d : ℕ) (s : State) :
    (returnReceive d s).fixed = s.fixed := by
  unfold returnReceive
  repeat' with_reducible (first | rfl | refine ite_fixed ?_ ?_ | intro _ | refine (State.onDie_fixed ..).trans ?_ | refine (State.receive_fixed _ _ _ _ ?_).trans ?_ | refine (State.stage_fixed ..).trans ?_ | split | refine (foldl_fixed _ _ _ ?_).trans ?_ | simp only [↓State.fixed_mk, ↓State.fixed_def, State.fixed_def])

theorem moveSome_fixed (d : ℕ) (c : ℕ) (a2 : List ℕ) (a3 : State) :
    (moveSome d c a2 a3).fixed = a3.fixed := by
  induction a2 generalizing a3 with
  | nil => rfl
  | cons x l ih =>
    unfold moveSome
    (try dsimp only)
    repeat' with_reducible (first | rfl | refine (ih ..).trans ?_ | assumption | intro _ | refine ite_fixed ?_ ?_ | refine ite_snd_fixed ?_ ?_ | refine ite_snd2_fixed ?_ ?_ | refine getD_fixed ?_ ?_ | refine ite_elim_fixed ?_ ?_ | refine (some_elim_fixed ..).trans ?_ | refine (none_elim_fixed ..).trans ?_ | refine ite_fst_elim_fixed ?_ ?_ | refine map_elim_fixed ?_ ?_ | refine bind_elim_fixed ?_ ?_ | refine foldl_elim_fixed _ _ _ ?_ ?_ | refine (State.dinc_fixed ..).trans ?_ | refine (State.onPkt_fixed ..).trans ?_ | refine (holdFor_fixed ..).trans ?_ | refine (onCluster_fixed ..).trans ?_ | refine snd_fixed (by assumption) ?_ | refine snd2_fixed (by assumption) ?_ | refine fst_elim_fixed (by assumption) ?_ | refine of_some_fixed (by assumption) ?_ | split | refine (foldl_fixed _ _ _ ?_).trans ?_ | refine (foldl_fixed_snd _ _ _ ?_).trans ?_ | refine (foldl_fixed_snd2 _ _ _ ?_).trans ?_ | simp only [↓State.fixed_mk, ↓State.fixed_def, State.fixed_def])

theorem moveUnstarted_fixed (d : ℕ) (c : ℕ) (s : State) :
    (moveUnstarted d c s).fixed = s.fixed := by
  unfold moveUnstarted
  repeat' with_reducible (first | rfl | refine ite_fixed ?_ ?_ | refine (moveSome_fixed ..).trans ?_ | split)

theorem moveWaiting_fixed (d : ℕ) (s : State) :
    (moveWaiting d s).fixed = s.fixed := by
  unfold moveWaiting
  repeat' with_reducible (first | rfl | refine ite_fixed ?_ ?_ | intro _ | refine (State.each_fixed _ _ _ ?_).trans ?_ | refine (moveUnstarted_fixed ..).trans ?_ | split | refine (foldl_fixed _ _ _ ?_).trans ?_ | simp only [↓State.fixed_mk, ↓State.fixed_def, State.fixed_def])

theorem queueRequest_fixed (d : ℕ) (c : ℕ) (reqs : List ℕ) (s : State) :
    (queueRequest d c reqs s).fixed = s.fixed := by
  unfold queueRequest
  repeat' with_reducible (first | rfl | refine ite_fixed ?_ ?_ | intro _ | refine (State.dinc_fixed ..).trans ?_ | refine (State.each_fixed _ _ _ ?_).trans ?_ | refine (State.onDie_fixed ..).trans ?_ | refine (State.onPkt_fixed ..).trans ?_ | refine (State.stage_fixed ..).trans ?_ | refine (dropPkt_fixed ..).trans ?_ | refine (onCluster_fixed ..).trans ?_ | split | refine (foldl_fixed _ _ _ ?_).trans ?_ | simp only [↓State.fixed_mk, ↓State.fixed_def, State.fixed_def])

theorem startRun_fixed (d : ℕ) (c : ℕ) (t : ℕ) (i : ℕ) (gen : BitVec 2) (s : State) :
    (startRun d c t i gen s).fixed = s.fixed := by
  unfold startRun
  repeat' with_reducible (first | rfl | refine ite_fixed ?_ ?_ | intro _ | refine (State.stage_fixed ..).trans ?_ | refine (onThread_fixed ..).trans ?_ | split | refine (foldl_fixed _ _ _ ?_).trans ?_ | simp only [↓State.fixed_mk, ↓State.fixed_def, State.fixed_def])

theorem stealLook_fixed (d : ℕ) (s : State) :
    (stealLook d s).fixed = s.fixed := by
  unfold stealLook
  repeat' with_reducible (first | rfl | refine ite_fixed ?_ ?_ | intro _ | refine (State.dinc_fixed ..).trans ?_ | refine (State.each_fixed _ _ _ ?_).trans ?_ | refine (State.onPkt_fixed ..).trans ?_ | refine (onCluster_fixed ..).trans ?_ | refine (perfEvent_fixed ..).trans ?_ | split | refine (foldl_fixed _ _ _ ?_).trans ?_ | simp only [↓State.fixed_mk, ↓State.fixed_def, State.fixed_def])

theorem stealArrive_fixed (d : ℕ) (c : ℕ) (s : State) :
    (stealArrive d c s).fixed = s.fixed := by
  unfold stealArrive
  repeat' with_reducible (first | rfl | refine ite_fixed ?_ ?_ | intro _ | refine (State.each_fixed _ _ _ ?_).trans ?_ | refine (State.stage_fixed ..).trans ?_ | refine (moveWaiting_fixed ..).trans ?_ | refine (onCluster_fixed ..).trans ?_ | split | refine (foldl_fixed _ _ _ ?_).trans ?_ | simp only [↓State.fixed_mk, ↓State.fixed_def, State.fixed_def])

theorem parseRecirc_fixed (d : ℕ) (s : State) :
    (parseRecirc d s).fixed = s.fixed := by
  unfold parseRecirc
  repeat' with_reducible (first | rfl | refine ite_fixed ?_ ?_ | refine (State.onDie_fixed ..).trans ?_ | refine (State.onPkt_fixed ..).trans ?_ | refine (dropPkt_fixed ..).trans ?_ | refine (latchCfg_fixed ..).trans ?_ | refine (parsePacket_fixed ..).trans ?_ | split)

theorem parseInject_fixed (d : ℕ) (s : State) :
    (parseInject d s).fixed = s.fixed := by
  unfold parseInject
  repeat' with_reducible (first | rfl | refine ite_fixed ?_ ?_ | refine (State.onDie_fixed ..).trans ?_ | refine (latchCfg_fixed ..).trans ?_ | refine (parsePacket_fixed ..).trans ?_ | split)

theorem sharedParse_fixed (d : ℕ) (s : State) :
    (sharedParse d s).fixed = s.fixed := by
  unfold sharedParse
  dsimp only
  repeat' with_reducible (first | rfl | refine ite_fixed ?_ ?_ | refine (State.onDie_fixed ..).trans ?_ | refine (parseInject_fixed ..).trans ?_ | refine (parseRecirc_fixed ..).trans ?_ | split)

theorem execPacketDispatch_fixed (d : DieId) (q : Fin 10) (s : State) {s' : State}
    (h : execPacketDispatch d q s = .next s') : s'.fixed = s.fixed := by
  unfold execPacketDispatch at h
  refine onLive_fixed (fun s => ?_) h
  repeat' with_reducible (first | rfl | refine ite_fixed ?_ ?_ | refine (packetDispatch_fixed ..).trans ?_ | split)

theorem execDispatchRecordReceive_fixed (d : DieId) (s : State) {s' : State}
    (h : execDispatchRecordReceive d s = .next s') : s'.fixed = s.fixed := by
  unfold execDispatchRecordReceive at h
  refine onLive_fixed (fun s => ?_) h
  repeat' with_reducible (first | rfl | refine ite_fixed ?_ ?_ | refine (recordReceive_fixed ..).trans ?_ | split)

theorem execReturnRecordReceive_fixed (d : DieId) (s : State) {s' : State}
    (h : execReturnRecordReceive d s = .next s') : s'.fixed = s.fixed := by
  unfold execReturnRecordReceive at h
  refine onLive_fixed (fun s => ?_) h
  repeat' with_reducible (first | rfl | refine ite_fixed ?_ ?_ | refine (returnReceive_fixed ..).trans ?_ | split)

theorem execDispatchQueueRequest_fixed (d : DieId) (c : ClusterId) (reqs : List (Fin 10)) (s : State) {s' : State}
    (h : execDispatchQueueRequest d c reqs s = .next s') : s'.fixed = s.fixed := by
  unfold execDispatchQueueRequest at h
  refine onLive_fixed (fun s => ?_) h
  repeat' with_reducible (first | rfl | refine ite_fixed ?_ ?_ | refine (queueRequest_fixed ..).trans ?_ | split)

theorem execStealLook_fixed (d : DieId) (s : State) {s' : State}
    (h : execStealLook d s = .next s') : s'.fixed = s.fixed := by
  unfold execStealLook at h
  refine onLive_fixed (fun s => ?_) h
  repeat' with_reducible (first | rfl | refine ite_fixed ?_ ?_ | refine (stealLook_fixed ..).trans ?_ | split)

theorem execStealArrive_fixed (d : DieId) (c : ClusterId) (s : State) {s' : State}
    (h : execStealArrive d c s = .next s') : s'.fixed = s.fixed := by
  unfold execStealArrive at h
  refine onLive_fixed (fun s => ?_) h
  repeat' with_reducible (first | rfl | refine ite_fixed ?_ ?_ | refine (stealArrive_fixed ..).trans ?_ | split)

theorem execRecircInput_fixed (d : DieId) (s : State) {s' : State}
    (h : execRecircInput d s = .next s') : s'.fixed = s.fixed := by
  unfold execRecircInput at h
  refine onLive_fixed (fun s => ?_) h
  repeat' with_reducible (first | rfl | refine ite_fixed ?_ ?_ | refine (sharedParse_fixed ..).trans ?_ | split)

end Sys2Proof.Machine
end

