-- ==== Sys2Proof/Laws/Fixed/Meters.lean ====
section
/-! SUPPORT. What the operations of Machine/Meters.lean leave as it is: the part, the queue, the clock, the anti-rollback
counter and the revocation bits. -/

set_option linter.all false
set_option maxRecDepth 4000

namespace Sys2Proof.Machine

theorem meterCharge_fixed (d : ℕ) (c : ℕ) (n : ℕ) (dsc : Desc) (s : State) :
    (meterCharge d c n dsc s).2.fixed = s.fixed := by
  unfold meterCharge
  dsimp only
  repeat' with_reducible (first | rfl | refine ite_fixed ?_ ?_ | refine (State.dinc_fixed ..).trans ?_ | refine (State.onDie_fixed ..).trans ?_ | split)

theorem countAdd_fixed (d : ℕ) (n : ℕ) (bytes : ℕ) (s : State) :
    (countAdd d n bytes s).fixed = s.fixed := by
  unfold countAdd
  repeat' with_reducible (first | rfl | refine ite_fixed ?_ ?_ | intro _ | refine (State.dinc_fixed ..).trans ?_ | refine (State.onDie_fixed ..).trans ?_ | refine (State.report_fixed ..).trans ?_ | refine (State.when_fixed _ _ _ ?_).trans ?_ | refine (access_fixed ..).trans ?_ | split | refine (foldl_fixed _ _ _ ?_).trans ?_ | simp only [↓State.fixed_mk, ↓State.fixed_def, State.fixed_def])

theorem learnPost_fixed (d : ℕ) (e : LEvent) (s : State) :
    (learnPost d e s).fixed = s.fixed := by
  unfold learnPost
  repeat' with_reducible (first | rfl | refine ite_fixed ?_ ?_ | refine (State.dinc_fixed ..).trans ?_ | refine (State.onDie_fixed ..).trans ?_ | split)

end Sys2Proof.Machine
end

