-- ==== Sys2Proof/Laws/Fixed/Micro.lean ====
section
/-! SUPPORT. What the operations of Machine/Micro.lean leave as it is: the part, the queue, the clock, the anti-rollback
counter and the revocation bits. -/

set_option linter.all false
set_option maxRecDepth 4000

namespace Sys2Proof.Machine

theorem readOpnd_fixed (d : ℕ) (c : ℕ) (t : ℕ) (r : Run) (w : ℕ) (code : ℕ) (s : State) :
    (readOpnd d c t r w code s).2.fixed = s.fixed := by
  unfold readOpnd
  repeat' with_reducible (first | rfl | refine ite_fixed ?_ ?_ | refine (State.fresh_fixed ..).trans ?_ | split)

theorem applyEntry_fixed (d : ℕ) (c : ℕ) (r : Run) (e : JEntry) (x : Desc × Bytes × State) :
    (applyEntry d c r e x).2.2.fixed = x.2.2.fixed := by
  unfold applyEntry
  repeat' with_reducible (first | rfl | refine ite_fixed ?_ ?_ | refine (countAdd_fixed ..).trans ?_ | refine (learnPost_fixed ..).trans ?_ | refine (meterCharge_fixed ..).trans ?_ | split)

theorem issueSearch_fixed (d : ℕ) (c : ℕ) (t : ℕ) (r : Run) (w : ℕ) (x : Run × State) :
    (issueSearch d c t r w x).2.fixed = x.2.fixed := by
  unfold issueSearch
  repeat' with_reducible (first | rfl | refine ite_fixed ?_ ?_ | refine (State.onDie_fixed ..).trans ?_ | refine (perfEvent_fixed ..).trans ?_ | refine (perfNote_fixed ..).trans ?_ | split)

theorem runMem_fixed (d : ℕ) (c : ℕ) (r0 : Run) (w : ℕ) (x : Run × State) :
    (runMem d c r0 w x).2.fixed = x.2.fixed := by
  unfold runMem
  repeat' with_reducible (first | rfl | refine ite_fixed ?_ ?_ | refine (State.fresh_fixed ..).trans ?_ | split)

theorem machineCheck_fixed (d : ℕ) (c : ℕ) (t : ℕ) (addr : ℕ) (cause : ℕ) (committed : Bool) (dsc : Desc) (s : State) :
    (machineCheck d c t addr cause committed dsc s).fixed = s.fixed := by
  unfold machineCheck
  repeat' with_reducible (first | rfl | refine ite_fixed ?_ ?_ | refine (State.dinc_fixed ..).trans ?_ | refine (State.dset_fixed ..).trans ?_ | refine (State.onDie_fixed ..).trans ?_ | refine (State.report_fixed ..).trans ?_ | refine (perfEvent_fixed ..).trans ?_ | split)

theorem wasted_fixed (d : ℕ) (c : ℕ) (t : ℕ) (r : Run) (s : State) :
    (wasted d c t r s).fixed = s.fixed := by
  unfold wasted
  repeat' with_reducible (first | rfl | refine ite_fixed ?_ ?_ | refine (perfEvent_fixed ..).trans ?_ | split)

theorem commitRun_fixed (d : ℕ) (c : ℕ) (t : ℕ) (s0 : State) :
    (commitRun d c t s0).fixed = s0.fixed := by
  unfold commitRun
  (try dsimp only)
  repeat' with_reducible (first | rfl | assumption | intro _ | refine ite_fixed ?_ ?_ | refine ite_snd_fixed ?_ ?_ | refine ite_snd2_fixed ?_ ?_ | refine getD_fixed ?_ ?_ | refine ite_elim_fixed ?_ ?_ | refine (some_elim_fixed ..).trans ?_ | refine (none_elim_fixed ..).trans ?_ | refine ite_fst_elim_fixed ?_ ?_ | refine map_elim_fixed ?_ ?_ | refine bind_elim_fixed ?_ ?_ | refine foldl_elim_fixed _ _ _ ?_ ?_ | refine (State.dinc_fixed ..).trans ?_ | refine (State.onDie_fixed ..).trans ?_ | refine (State.onPkt_fixed ..).trans ?_ | refine (State.send_fixed ..).trans ?_ | refine (State.stage_fixed ..).trans ?_ | refine (State.when_fixed _ _ _ ?_).trans ?_ | refine (applyEntry_fixed ..).trans ?_ | refine (badAfterDispatch_fixed ..).trans ?_ | refine (dropPkt_fixed ..).trans ?_ | refine (endHolder_fixed ..).trans ?_ | refine (machineCheck_fixed ..).trans ?_ | refine (mirrorAsk_fixed ..).trans ?_ | refine (onThread_fixed ..).trans ?_ | refine (perfNote_fixed ..).trans ?_ | refine (shipUpdates_fixed ..).trans ?_ | refine (wasted_fixed ..).trans ?_ | refine snd_fixed (by assumption) ?_ | refine snd2_fixed (by assumption) ?_ | refine fst_elim_fixed (by assumption) ?_ | refine of_some_fixed (by assumption) ?_ | split | refine (foldl_fixed _ _ _ ?_).trans ?_ | refine (foldl_fixed_snd _ _ _ ?_).trans ?_ | refine (foldl_fixed_snd2 _ _ _ ?_).trans ?_ | simp only [↓State.fixed_mk, ↓State.fixed_def, State.fixed_def])

theorem endDrained_fixed (d : ℕ) (c : ℕ) (t : ℕ) (s : State) :
    (endDrained d c t s).fixed = s.fixed := by
  unfold endDrained
  repeat' with_reducible (first | rfl | refine ite_fixed ?_ ?_ | refine (freeThread_fixed ..).trans ?_ | refine (releaseRun_fixed ..).trans ?_ | split)

theorem endRun_fixed (d : ℕ) (c : ℕ) (t : ℕ) (s : State) :
    (endRun d c t s).fixed = s.fixed := by
  unfold endRun
  (try dsimp only)
  repeat' with_reducible (first | rfl | assumption | intro _ | refine ite_fixed ?_ ?_ | refine ite_snd_fixed ?_ ?_ | refine ite_snd2_fixed ?_ ?_ | refine getD_fixed ?_ ?_ | refine ite_elim_fixed ?_ ?_ | refine (some_elim_fixed ..).trans ?_ | refine (none_elim_fixed ..).trans ?_ | refine ite_fst_elim_fixed ?_ ?_ | refine map_elim_fixed ?_ ?_ | refine bind_elim_fixed ?_ ?_ | refine foldl_elim_fixed _ _ _ ?_ ?_ | refine (State.dinc_fixed ..).trans ?_ | refine (applyEntry_fixed ..).trans ?_ | refine (dropPkt_fixed ..).trans ?_ | refine (endDrained_fixed ..).trans ?_ | refine (onThread_fixed ..).trans ?_ | refine (perfEvent_fixed ..).trans ?_ | refine (shipUpdates_fixed ..).trans ?_ | refine snd_fixed (by assumption) ?_ | refine snd2_fixed (by assumption) ?_ | refine fst_elim_fixed (by assumption) ?_ | refine of_some_fixed (by assumption) ?_ | split | refine (foldl_fixed _ _ _ ?_).trans ?_ | refine (foldl_fixed_snd _ _ _ ?_).trans ?_ | refine (foldl_fixed_snd2 _ _ _ ?_).trans ?_ | simp only [↓State.fixed_mk, ↓State.fixed_def, State.fixed_def])

theorem runWord_fixed (d : ℕ) (c : ℕ) (t : ℕ) (w : ℕ) (r0 : Run) (s : State) :
    (runWord d c t w r0 s).fixed = s.fixed := by
  unfold runWord
  repeat' with_reducible (first | rfl | refine ite_fixed ?_ ?_ | refine (commitRun_fixed ..).trans ?_ | refine (endRun_fixed ..).trans ?_ | refine (issueSearch_fixed ..).trans ?_ | refine (onThread_fixed ..).trans ?_ | refine (perfEvent_fixed ..).trans ?_ | refine (readOpnd_fixed ..).trans ?_ | refine (runMem_fixed ..).trans ?_ | split)

theorem issueWord_fixed (d : ℕ) (c : ℕ) (t : ℕ) (w : ℕ) (r : Run) (s : State) :
    (issueWord d c t w r s).fixed = s.fixed := by
  unfold issueWord
  repeat' with_reducible (first | rfl | refine ite_fixed ?_ ?_ | refine (onCluster_fixed ..).trans ?_ | refine (runWord_fixed ..).trans ?_ | split)

theorem fetchFail_fixed (d : ℕ) (c : ℕ) (t : ℕ) (fails : ℕ) (s : State) :
    (fetchFail d c t fails s).fixed = s.fixed := by
  unfold fetchFail
  repeat' with_reducible (first | rfl | refine ite_fixed ?_ ?_ | refine (State.dinc_fixed ..).trans ?_ | refine (State.report_fixed ..).trans ?_ | refine (dropPkt_fixed ..).trans ?_ | refine (freeThread_fixed ..).trans ?_ | refine (issueWord_fixed ..).trans ?_ | refine (machineCheck_fixed ..).trans ?_ | refine (onCluster_fixed ..).trans ?_ | refine (perfEvent_fixed ..).trans ?_ | refine (releaseRun_fixed ..).trans ?_ | refine (wasted_fixed ..).trans ?_ | split)

theorem issue_fixed (d : ℕ) (c : ℕ) (t : ℕ) (row : ℕ → Bool) (s : State) :
    (issue d c t row s).fixed = s.fixed := by
  unfold issue
  repeat' with_reducible (first | rfl | refine ite_fixed ?_ ?_ | refine (fetchFail_fixed ..).trans ?_ | refine (issueWord_fixed ..).trans ?_ | refine (spendFlip_fixed ..).trans ?_ | split)

theorem entryDrain_fixed (d : ℕ) (c : ℕ) (t : ℕ) (s : State) :
    (entryDrain d c t s).fixed = s.fixed := by
  unfold entryDrain
  repeat' with_reducible (first | rfl | refine ite_fixed ?_ ?_ | refine (endDrained_fixed ..).trans ?_ | refine (onThread_fixed ..).trans ?_ | split)

theorem execNop_fixed (d : DieId) (c : ClusterId) (t : ThreadId) (s : State) {s' : State}
    (h : execNop d c t s = .next s') : s'.fixed = s.fixed := by
  unfold execNop at h
  refine onLive_fixed (fun s => ?_) h
  repeat' with_reducible (first | rfl | refine ite_fixed ?_ ?_ | refine (issue_fixed ..).trans ?_ | split)

theorem execMov_fixed (d : DieId) (c : ClusterId) (t : ThreadId) (s : State) {s' : State}
    (h : execMov d c t s = .next s') : s'.fixed = s.fixed := by
  unfold execMov at h
  refine onLive_fixed (fun s => ?_) h
  repeat' with_reducible (first | rfl | refine ite_fixed ?_ ?_ | refine (issue_fixed ..).trans ?_ | split)

theorem execAdd_fixed (d : DieId) (c : ClusterId) (t : ThreadId) (s : State) {s' : State}
    (h : execAdd d c t s = .next s') : s'.fixed = s.fixed := by
  unfold execAdd at h
  refine onLive_fixed (fun s => ?_) h
  repeat' with_reducible (first | rfl | refine ite_fixed ?_ ?_ | refine (issue_fixed ..).trans ?_ | split)

theorem execSub_fixed (d : DieId) (c : ClusterId) (t : ThreadId) (s : State) {s' : State}
    (h : execSub d c t s = .next s') : s'.fixed = s.fixed := by
  unfold execSub at h
  refine onLive_fixed (fun s => ?_) h
  repeat' with_reducible (first | rfl | refine ite_fixed ?_ ?_ | refine (issue_fixed ..).trans ?_ | split)

theorem execAnd_fixed (d : DieId) (c : ClusterId) (t : ThreadId) (s : State) {s' : State}
    (h : execAnd d c t s = .next s') : s'.fixed = s.fixed := by
  unfold execAnd at h
  refine onLive_fixed (fun s => ?_) h
  repeat' with_reducible (first | rfl | refine ite_fixed ?_ ?_ | refine (issue_fixed ..).trans ?_ | split)

theorem execOr_fixed (d : DieId) (c : ClusterId) (t : ThreadId) (s : State) {s' : State}
    (h : execOr d c t s = .next s') : s'.fixed = s.fixed := by
  unfold execOr at h
  refine onLive_fixed (fun s => ?_) h
  repeat' with_reducible (first | rfl | refine ite_fixed ?_ ?_ | refine (issue_fixed ..).trans ?_ | split)

theorem execXor_fixed (d : DieId) (c : ClusterId) (t : ThreadId) (s : State) {s' : State}
    (h : execXor d c t s = .next s') : s'.fixed = s.fixed := by
  unfold execXor at h
  refine onLive_fixed (fun s => ?_) h
  repeat' with_reducible (first | rfl | refine ite_fixed ?_ ?_ | refine (issue_fixed ..).trans ?_ | split)

theorem execAndn_fixed (d : DieId) (c : ClusterId) (t : ThreadId) (s : State) {s' : State}
    (h : execAndn d c t s = .next s') : s'.fixed = s.fixed := by
  unfold execAndn at h
  refine onLive_fixed (fun s => ?_) h
  repeat' with_reducible (first | rfl | refine ite_fixed ?_ ?_ | refine (issue_fixed ..).trans ?_ | split)

theorem execShl_fixed (d : DieId) (c : ClusterId) (t : ThreadId) (s : State) {s' : State}
    (h : execShl d c t s = .next s') : s'.fixed = s.fixed := by
  unfold execShl at h
  refine onLive_fixed (fun s => ?_) h
  repeat' with_reducible (first | rfl | refine ite_fixed ?_ ?_ | refine (issue_fixed ..).trans ?_ | split)

theorem execShr_fixed (d : DieId) (c : ClusterId) (t : ThreadId) (s : State) {s' : State}
    (h : execShr d c t s = .next s') : s'.fixed = s.fixed := by
  unfold execShr at h
  refine onLive_fixed (fun s => ?_) h
  repeat' with_reducible (first | rfl | refine ite_fixed ?_ ?_ | refine (issue_fixed ..).trans ?_ | split)

theorem execExt_fixed (d : DieId) (c : ClusterId) (t : ThreadId) (s : State) {s' : State}
    (h : execExt d c t s = .next s') : s'.fixed = s.fixed := by
  unfold execExt at h
  refine onLive_fixed (fun s => ?_) h
  repeat' with_reducible (first | rfl | refine ite_fixed ?_ ?_ | refine (issue_fixed ..).trans ?_ | split)

theorem execIns_fixed (d : DieId) (c : ClusterId) (t : ThreadId) (s : State) {s' : State}
    (h : execIns d c t s = .next s') : s'.fixed = s.fixed := by
  unfold execIns at h
  refine onLive_fixed (fun s => ?_) h
  repeat' with_reducible (first | rfl | refine ite_fixed ?_ ?_ | refine (issue_fixed ..).trans ?_ | split)

theorem execCmp_fixed (d : DieId) (c : ClusterId) (t : ThreadId) (s : State) {s' : State}
    (h : execCmp d c t s = .next s') : s'.fixed = s.fixed := by
  unfold execCmp at h
  refine onLive_fixed (fun s => ?_) h
  repeat' with_reducible (first | rfl | refine ite_fixed ?_ ?_ | refine (issue_fixed ..).trans ?_ | split)

theorem execMinu_fixed (d : DieId) (c : ClusterId) (t : ThreadId) (s : State) {s' : State}
    (h : execMinu d c t s = .next s') : s'.fixed = s.fixed := by
  unfold execMinu at h
  refine onLive_fixed (fun s => ?_) h
  repeat' with_reducible (first | rfl | refine ite_fixed ?_ ?_ | refine (issue_fixed ..).trans ?_ | split)

theorem execMaxu_fixed (d : DieId) (c : ClusterId) (t : ThreadId) (s : State) {s' : State}
    (h : execMaxu d c t s = .next s') : s'.fixed = s.fixed := by
  unfold execMaxu at h
  refine onLive_fixed (fun s => ?_) h
  repeat' with_reducible (first | rfl | refine ite_fixed ?_ ?_ | refine (issue_fixed ..).trans ?_ | split)

theorem execPopc_fixed (d : DieId) (c : ClusterId) (t : ThreadId) (s : State) {s' : State}
    (h : execPopc d c t s = .next s') : s'.fixed = s.fixed := by
  unfold execPopc at h
  refine onLive_fixed (fun s => ?_) h
  repeat' with_reducible (first | rfl | refine ite_fixed ?_ ?_ | refine (issue_fixed ..).trans ?_ | split)

theorem execClz_fixed (d : DieId) (c : ClusterId) (t : ThreadId) (s : State) {s' : State}
    (h : execClz d c t s = .next s') : s'.fixed = s.fixed := by
  unfold execClz at h
  refine onLive_fixed (fun s => ?_) h
  repeat' with_reducible (first | rfl | refine ite_fixed ?_ ?_ | refine (issue_fixed ..).trans ?_ | split)

theorem execNext_fixed (d : DieId) (c : ClusterId) (t : ThreadId) (s : State) {s' : State}
    (h : execNext d c t s = .next s') : s'.fixed = s.fixed := by
  unfold execNext at h
  refine onLive_fixed (fun s => ?_) h
  repeat' with_reducible (first | rfl | refine ite_fixed ?_ ?_ | refine (issue_fixed ..).trans ?_ | split)

theorem execJump_fixed (d : DieId) (c : ClusterId) (t : ThreadId) (s : State) {s' : State}
    (h : execJump d c t s = .next s') : s'.fixed = s.fixed := by
  unfold execJump at h
  refine onLive_fixed (fun s => ?_) h
  repeat' with_reducible (first | rfl | refine ite_fixed ?_ ?_ | refine (issue_fixed ..).trans ?_ | split)

theorem execMway_fixed (d : DieId) (c : ClusterId) (t : ThreadId) (s : State) {s' : State}
    (h : execMway d c t s = .next s') : s'.fixed = s.fixed := by
  unfold execMway at h
  refine onLive_fixed (fun s => ?_) h
  repeat' with_reducible (first | rfl | refine ite_fixed ?_ ?_ | refine (issue_fixed ..).trans ?_ | split)

theorem execCall_fixed (d : DieId) (c : ClusterId) (t : ThreadId) (s : State) {s' : State}
    (h : execCall d c t s = .next s') : s'.fixed = s.fixed := by
  unfold execCall at h
  refine onLive_fixed (fun s => ?_) h
  repeat' with_reducible (first | rfl | refine ite_fixed ?_ ?_ | refine (issue_fixed ..).trans ?_ | split)

theorem execRet_fixed (d : DieId) (c : ClusterId) (t : ThreadId) (s : State) {s' : State}
    (h : execRet d c t s = .next s') : s'.fixed = s.fixed := by
  unfold execRet at h
  refine onLive_fixed (fun s => ?_) h
  repeat' with_reducible (first | rfl | refine ite_fixed ?_ ?_ | refine (issue_fixed ..).trans ?_ | split)

theorem execEnd_fixed (d : DieId) (c : ClusterId) (t : ThreadId) (s : State) {s' : State}
    (h : execEnd d c t s = .next s') : s'.fixed = s.fixed := by
  unfold execEnd at h
  refine onLive_fixed (fun s => ?_) h
  repeat' with_reducible (first | rfl | refine ite_fixed ?_ ?_ | refine (issue_fixed ..).trans ?_ | split)

theorem execLdh_fixed (d : DieId) (c : ClusterId) (t : ThreadId) (s : State) {s' : State}
    (h : execLdh d c t s = .next s') : s'.fixed = s.fixed := by
  unfold execLdh at h
  refine onLive_fixed (fun s => ?_) h
  repeat' with_reducible (first | rfl | refine ite_fixed ?_ ?_ | refine (issue_fixed ..).trans ?_ | split)

theorem execLdhx_fixed (d : DieId) (c : ClusterId) (t : ThreadId) (s : State) {s' : State}
    (h : execLdhx d c t s = .next s') : s'.fixed = s.fixed := by
  unfold execLdhx at h
  refine onLive_fixed (fun s => ?_) h
  repeat' with_reducible (first | rfl | refine ite_fixed ?_ ?_ | refine (issue_fixed ..).trans ?_ | split)

theorem execJhdr_fixed (d : DieId) (c : ClusterId) (t : ThreadId) (s : State) {s' : State}
    (h : execJhdr d c t s = .next s') : s'.fixed = s.fixed := by
  unfold execJhdr at h
  refine onLive_fixed (fun s => ?_) h
  repeat' with_reducible (first | rfl | refine ite_fixed ?_ ?_ | refine (issue_fixed ..).trans ?_ | split)

theorem execJhdrx_fixed (d : DieId) (c : ClusterId) (t : ThreadId) (s : State) {s' : State}
    (h : execJhdrx d c t s = .next s') : s'.fixed = s.fixed := by
  unfold execJhdrx at h
  refine onLive_fixed (fun s => ?_) h
  repeat' with_reducible (first | rfl | refine ite_fixed ?_ ?_ | refine (issue_fixed ..).trans ?_ | split)

theorem execJdesc_fixed (d : DieId) (c : ClusterId) (t : ThreadId) (s : State) {s' : State}
    (h : execJdesc d c t s = .next s') : s'.fixed = s.fixed := by
  unfold execJdesc at h
  refine onLive_fixed (fun s => ?_) h
  repeat' with_reducible (first | rfl | refine ite_fixed ?_ ?_ | refine (issue_fixed ..).trans ?_ | split)

theorem execJcnt_fixed (d : DieId) (c : ClusterId) (t : ThreadId) (s : State) {s' : State}
    (h : execJcnt d c t s = .next s') : s'.fixed = s.fixed := by
  unfold execJcnt at h
  refine onLive_fixed (fun s => ?_) h
  repeat' with_reducible (first | rfl | refine ite_fixed ?_ ?_ | refine (issue_fixed ..).trans ?_ | split)

theorem execJmeter_fixed (d : DieId) (c : ClusterId) (t : ThreadId) (s : State) {s' : State}
    (h : execJmeter d c t s = .next s') : s'.fixed = s.fixed := by
  unfold execJmeter at h
  refine onLive_fixed (fun s => ?_) h
  repeat' with_reducible (first | rfl | refine ite_fixed ?_ ?_ | refine (issue_fixed ..).trans ?_ | split)

theorem execJctx_fixed (d : DieId) (c : ClusterId) (t : ThreadId) (s : State) {s' : State}
    (h : execJctx d c t s = .next s') : s'.fixed = s.fixed := by
  unfold execJctx at h
  refine onLive_fixed (fun s => ?_) h
  repeat' with_reducible (first | rfl | refine ite_fixed ?_ ?_ | refine (issue_fixed ..).trans ?_ | split)

theorem execJevt_fixed (d : DieId) (c : ClusterId) (t : ThreadId) (s : State) {s' : State}
    (h : execJevt d c t s = .next s') : s'.fixed = s.fixed := by
  unfold execJevt at h
  refine onLive_fixed (fun s => ?_) h
  repeat' with_reducible (first | rfl | refine ite_fixed ?_ ?_ | refine (issue_fixed ..).trans ?_ | split)

theorem execCommit_fixed (d : DieId) (c : ClusterId) (t : ThreadId) (s : State) {s' : State}
    (h : execCommit d c t s = .next s') : s'.fixed = s.fixed := by
  unfold execCommit at h
  refine onLive_fixed (fun s => ?_) h
  repeat' with_reducible (first | rfl | refine ite_fixed ?_ ?_ | refine (issue_fixed ..).trans ?_ | split)

theorem execCntrd_fixed (d : DieId) (c : ClusterId) (t : ThreadId) (s : State) {s' : State}
    (h : execCntrd d c t s = .next s') : s'.fixed = s.fixed := by
  unfold execCntrd at h
  refine onLive_fixed (fun s => ?_) h
  repeat' with_reducible (first | rfl | refine ite_fixed ?_ ?_ | refine (issue_fixed ..).trans ?_ | split)

theorem execSearchIssue_fixed (d : DieId) (c : ClusterId) (t : ThreadId) (s : State) {s' : State}
    (h : execSearchIssue d c t s = .next s') : s'.fixed = s.fixed := by
  unfold execSearchIssue at h
  refine onLive_fixed (fun s => ?_) h
  repeat' with_reducible (first | rfl | refine ite_fixed ?_ ?_ | refine (issue_fixed ..).trans ?_ | split)

theorem execJournalEntryDrain_fixed (d : DieId) (c : ClusterId) (t : ThreadId) (s : State) {s' : State}
    (h : execJournalEntryDrain d c t s = .next s') : s'.fixed = s.fixed := by
  unfold execJournalEntryDrain at h
  refine onLive_fixed (fun s => ?_) h
  repeat' with_reducible (first | rfl | refine ite_fixed ?_ ?_ | refine (entryDrain_fixed ..).trans ?_ | split)

end Sys2Proof.Machine
end

