-- ==== Sys2Proof/Laws/Fixed/Threads.lean ====
section
/-! SUPPORT. What the operations of Machine/Threads.lean leave as it is: the part, the queue, the clock, the anti-rollback
counter and the revocation bits. -/

set_option linter.all false
set_option maxRecDepth 4000

namespace Sys2Proof.Machine

theorem putRun_fixed (d : ℕ) (a : RunAt) (r : Run) (s : State) :
    (putRun d a r s).fixed = s.fixed := by
  unfold putRun
  repeat' with_reducible (first | rfl | refine ite_fixed ?_ ?_ | refine (State.onDie_fixed ..).trans ?_ | refine (onThread_fixed ..).trans ?_ | split)

theorem onRun_fixed (d : ℕ) (rid : ℕ) (f : Run → Run) (s : State) :
    (onRun d rid f s).fixed = s.fixed := by
  unfold onRun
  repeat' with_reducible (first | rfl | refine ite_fixed ?_ ?_ | refine (putRun_fixed ..).trans ?_ | split)

theorem deferSlot_fixed (d : ℕ) (rid : ℕ) (sl : ℕ) (s : State) :
    (deferSlot d rid sl s).fixed = s.fixed := by
  unfold deferSlot
  repeat' with_reducible (first | rfl | refine ite_fixed ?_ ?_ | refine (perfEvent_fixed ..).trans ?_ | refine (putRun_fixed ..).trans ?_ | split)

theorem threadStart_fixed (d : ℕ) (c : ℕ) (s : State) :
    (threadStart d c s).fixed = s.fixed := by
  unfold threadStart
  repeat' with_reducible (first | rfl | refine ite_fixed ?_ ?_ | refine (State.dinc_fixed ..).trans ?_ | refine (State.stage_fixed ..).trans ?_ | refine (dropPkt_fixed ..).trans ?_ | refine (moveWaiting_fixed ..).trans ?_ | refine (onCluster_fixed ..).trans ?_ | refine (perfNote_fixed ..).trans ?_ | refine (startRun_fixed ..).trans ?_ | split)

theorem parkOne_fixed (d : ℕ) (q : ℕ × ℕ) (s : State) :
    (parkOne d q s).fixed = s.fixed := by
  unfold parkOne
  repeat' with_reducible (first | rfl | refine ite_fixed ?_ ?_ | refine (State.dinc_fixed ..).trans ?_ | refine (State.onDie_fixed ..).trans ?_ | refine (onThread_fixed ..).trans ?_ | split)

theorem parkRequest_fixed (d : ℕ) (reqs : List (ℕ × ℕ)) (s : State) :
    (parkRequest d reqs s).fixed = s.fixed := by
  unfold parkRequest
  repeat' with_reducible (first | rfl | refine ite_fixed ?_ ?_ | intro _ | refine (State.each_fixed _ _ _ ?_).trans ?_ | refine (parkOne_fixed ..).trans ?_ | split | refine (foldl_fixed _ _ _ ?_).trans ?_ | simp only [↓State.fixed_mk, ↓State.fixed_def, State.fixed_def])

theorem parkComplete_fixed (d : ℕ) (c : ℕ) (t : ℕ) (s : State) :
    (parkComplete d c t s).fixed = s.fixed := by
  unfold parkComplete
  repeat' with_reducible (first | rfl | refine ite_fixed ?_ ?_ | refine (State.dinc_fixed ..).trans ?_ | refine (State.onDie_fixed ..).trans ?_ | refine (State.stage_fixed ..).trans ?_ | refine (freeThread_fixed ..).trans ?_ | refine (perfNote_fixed ..).trans ?_ | split)

theorem contextResume_fixed (d : ℕ) (x : ℕ) (s : State) :
    (contextResume d x s).fixed = s.fixed := by
  unfold contextResume
  dsimp only
  repeat' with_reducible (first | rfl | refine ite_fixed ?_ ?_ | refine (State.stage_fixed ..).trans ?_ | refine (freePark_fixed ..).trans ?_ | refine (onCluster_fixed ..).trans ?_ | refine (onThread_fixed ..).trans ?_ | split)

theorem discardRun_fixed (d : ℕ) (a : RunAt) (r : Run) (s : State) :
    (discardRun d a r s).fixed = s.fixed := by
  unfold discardRun
  repeat' with_reducible (first | rfl | refine ite_fixed ?_ ?_ | refine (releaseRun_fixed ..).trans ?_ | refine (wasted_fixed ..).trans ?_ | split)

theorem preemptAt_fixed (d : ℕ) (a : RunAt) (r : Run) (code : ℕ) (page : ℕ) (addr : ℕ) (s : State) :
    (preemptAt d a r code page addr s).fixed = s.fixed := by
  unfold preemptAt
  dsimp only
  repeat' with_reducible (first | rfl | refine ite_fixed ?_ ?_ | refine (State.dinc_fixed ..).trans ?_ | refine (State.onDie_fixed ..).trans ?_ | refine (State.stage_fixed ..).trans ?_ | refine (discardRun_fixed ..).trans ?_ | refine (freeThread_fixed ..).trans ?_ | refine (onThread_fixed ..).trans ?_ | refine (sampleEnd_fixed ..).trans ?_ | split)

theorem preempt_fixed (d : ℕ) (s : State) :
    (preempt d s).fixed = s.fixed := by
  unfold preempt
  repeat' with_reducible (first | rfl | refine ite_fixed ?_ ?_ | refine (State.onDie_fixed ..).trans ?_ | refine (discardRun_fixed ..).trans ?_ | refine (dropPkt_fixed ..).trans ?_ | refine (preemptAt_fixed ..).trans ?_ | split)

theorem clearWait_fixed (d : ℕ) (w : WaitPlace) (s : State) :
    (clearWait d w s).fixed = s.fixed := by
  unfold clearWait
  repeat' with_reducible (first | rfl | refine ite_fixed ?_ ?_ | refine (freePark_fixed ..).trans ?_ | refine (onThread_fixed ..).trans ?_ | split)

theorem endWaiting_fixed (d : ℕ) (w : WaitPlace) (i : ℕ) (s : State) :
    (endWaiting d w i s).fixed = s.fixed := by
  unfold endWaiting
  repeat' with_reducible (first | rfl | refine ite_fixed ?_ ?_ | refine (clearWait_fixed ..).trans ?_ | refine (dropPkt_fixed ..).trans ?_ | split)

theorem contextRestart_fixed (d : ℕ) (w : WaitPlace) (s : State) :
    (contextRestart d w s).fixed = s.fixed := by
  unfold contextRestart
  dsimp only
  repeat' with_reducible (first | rfl | refine ite_fixed ?_ ?_ | refine (State.dinc_fixed ..).trans ?_ | refine (State.onPkt_fixed ..).trans ?_ | refine (State.report_fixed ..).trans ?_ | refine (clearWait_fixed ..).trans ?_ | refine (endWaiting_fixed ..).trans ?_ | refine (onCluster_fixed ..).trans ?_ | refine (perfNote_fixed ..).trans ?_ | refine (startRun_fixed ..).trans ?_ | split)

theorem pageWaitExpire_fixed (d : ℕ) (w : WaitPlace) (s : State) :
    (pageWaitExpire d w s).fixed = s.fixed := by
  unfold pageWaitExpire
  repeat' with_reducible (first | rfl | refine ite_fixed ?_ ?_ | refine (State.dinc_fixed ..).trans ?_ | refine (endWaiting_fixed ..).trans ?_ | split)

theorem respond_fixed (d : ℕ) (q : SResp) (s : State) :
    (respond d q s).fixed = s.fixed := by
  unfold respond
  repeat' with_reducible (first | rfl | refine ite_fixed ?_ ?_ | refine (State.onDie_fixed ..).trans ?_ | split)

theorem searchResponse_fixed (d : ℕ) (s : State) :
    (searchResponse d s).fixed = s.fixed := by
  unfold searchResponse
  dsimp only
  repeat' with_reducible (first | rfl | refine ite_fixed ?_ ?_ | refine (State.dinc_fixed ..).trans ?_ | refine (State.onDie_fixed ..).trans ?_ | refine (freePark_fixed ..).trans ?_ | refine (onThread_fixed ..).trans ?_ | refine (putRun_fixed ..).trans ?_ | refine (sampleEnd_fixed ..).trans ?_ | split)

theorem execThreadStart_fixed (d : DieId) (c : ClusterId) (s : State) {s' : State}
    (h : execThreadStart d c s = .next s') : s'.fixed = s.fixed := by
  unfold execThreadStart at h
  refine onLive_fixed (fun s => ?_) h
  repeat' with_reducible (first | rfl | refine ite_fixed ?_ ?_ | refine (threadStart_fixed ..).trans ?_ | split)

theorem execParkRequest_fixed (d : DieId) (reqs : List (ClusterId × ThreadId)) (s : State) {s' : State}
    (h : execParkRequest d reqs s = .next s') : s'.fixed = s.fixed := by
  unfold execParkRequest at h
  refine onLive_fixed (fun s => ?_) h
  repeat' with_reducible (first | rfl | refine ite_fixed ?_ ?_ | refine (parkRequest_fixed ..).trans ?_ | split)

theorem execParkComplete_fixed (d : DieId) (c : ClusterId) (t : ThreadId) (s : State) {s' : State}
    (h : execParkComplete d c t s = .next s') : s'.fixed = s.fixed := by
  unfold execParkComplete at h
  refine onLive_fixed (fun s => ?_) h
  repeat' with_reducible (first | rfl | refine ite_fixed ?_ ?_ | refine (parkComplete_fixed ..).trans ?_ | split)

theorem execContextResume_fixed (d : DieId) (x : Fin 4096) (s : State) {s' : State}
    (h : execContextResume d x s = .next s') : s'.fixed = s.fixed := by
  unfold execContextResume at h
  refine onLive_fixed (fun s => ?_) h
  repeat' with_reducible (first | rfl | refine ite_fixed ?_ ?_ | refine (contextResume_fixed ..).trans ?_ | split)

theorem execPreempt_fixed (d : DieId) (s : State) {s' : State}
    (h : execPreempt d s = .next s') : s'.fixed = s.fixed := by
  unfold execPreempt at h
  refine onLive_fixed (fun s => ?_) h
  repeat' with_reducible (first | rfl | refine ite_fixed ?_ ?_ | refine (preempt_fixed ..).trans ?_ | split)

theorem execContextRestart_fixed (d : DieId) (w : WaitPlace) (s : State) {s' : State}
    (h : execContextRestart d w s = .next s') : s'.fixed = s.fixed := by
  unfold execContextRestart at h
  refine onLive_fixed (fun s => ?_) h
  repeat' with_reducible (first | rfl | refine ite_fixed ?_ ?_ | refine (contextRestart_fixed ..).trans ?_ | split)

theorem execPageWaitExpire_fixed (d : DieId) (w : WaitPlace) (s : State) {s' : State}
    (h : execPageWaitExpire d w s = .next s') : s'.fixed = s.fixed := by
  unfold execPageWaitExpire at h
  refine onLive_fixed (fun s => ?_) h
  repeat' with_reducible (first | rfl | refine ite_fixed ?_ ?_ | refine (pageWaitExpire_fixed ..).trans ?_ | split)

theorem execSearchResponse_fixed (d : DieId) (s : State) {s' : State}
    (h : execSearchResponse d s = .next s') : s'.fixed = s.fixed := by
  unfold execSearchResponse at h
  refine onLive_fixed (fun s => ?_) h
  repeat' with_reducible (first | rfl | refine ite_fixed ?_ ?_ | refine (searchResponse_fixed ..).trans ?_ | split)

end Sys2Proof.Machine
end

