-- ==== Sys2Proof/Laws/Fixed/CStore.lean ====
section
/-! SUPPORT. What the operations of Machine/CStore.lean leave as it is: the part, the queue, the clock, the anti-rollback
counter and the revocation bits. -/

set_option linter.all false
set_option maxRecDepth 4000

namespace Sys2Proof.Machine

theorem verState_fixed (d : ℕ) (c : ℕ) (st : ℕ) (s : State) :
    (verState d c st s).fixed = s.fixed := by
  unfold verState
  repeat' with_reducible (first | rfl | refine ite_fixed ?_ ?_ | refine (State.pset_fixed ..).trans ?_ | split)

theorem fenceCluster_fixed (d : ℕ) (c : ℕ) (s : State) :
    (fenceCluster d c s).fixed = s.fixed := by
  unfold fenceCluster
  repeat' with_reducible (first | rfl | refine ite_fixed ?_ ?_ | refine (State.dset_fixed ..).trans ?_ | refine (moveUnstarted_fixed ..).trans ?_ | refine (verState_fixed ..).trans ?_ | split)

theorem breakParity_fixed (d : ℕ) (c : ℕ) (a : ℕ) (s : State) :
    (breakParity d c a s).fixed = s.fixed := by
  unfold breakParity
  repeat' with_reducible (first | rfl | refine ite_fixed ?_ ?_ | refine (State.fresh_fixed ..).trans ?_ | refine (onCluster_fixed ..).trans ?_ | split)

theorem writePort_fixed (d c q : Nat) (f : State → State) (s : State) (h : ∀ a, (f a).fixed = a.fixed) :
    (writePort d c q f s).fixed = s.fixed := by
  unfold writePort
  split
  · exact h s
  · split
    · rw [h, onCluster_fixed]
    · rfl

theorem reloadWrite_fixed (d : ℕ) (c : ℕ) (a : ℕ) (ok : Bool) (s : State) :
    (reloadWrite d c a ok s).fixed = s.fixed := by
  unfold reloadWrite
  repeat' with_reducible (first | rfl | refine ite_fixed ?_ ?_ | refine (State.report_fixed ..).trans ?_ | refine (breakParity_fixed ..).trans ?_ | refine (fenceCluster_fixed ..).trans ?_ | refine (machineCheck_fixed ..).trans ?_ | refine (onCluster_fixed ..).trans ?_ | split)

theorem reloadDone_fixed (d : ℕ) (c : ℕ) (a : ℕ) (ok : Bool) (s : State) :
    (reloadDone d c a ok s).fixed = s.fixed := by
  unfold reloadDone
  repeat' with_reducible (first | rfl | refine ite_fixed ?_ ?_ | intro _ | refine (reloadWrite_fixed ..).trans ?_ | refine (writePort_fixed _ _ _ _ _ ?_).trans ?_ | split | refine (foldl_fixed _ _ _ ?_).trans ?_ | simp only [↓State.fixed_mk, ↓State.fixed_def, State.fixed_def])

theorem loadNext_fixed (d : ℕ) (s : State) :
    (loadNext d s).fixed = s.fixed := by
  unfold loadNext
  repeat' with_reducible (first | rfl | refine ite_fixed ?_ ?_ | refine (State.onDie_fixed ..).trans ?_ | refine (moveUnstarted_fixed ..).trans ?_ | refine (onCluster_fixed ..).trans ?_ | refine (verState_fixed ..).trans ?_ | split)

theorem startLoad_fixed (whole : Bool) (s : State) :
    (startLoad whole s).fixed = s.fixed := by
  unfold startLoad
  repeat' with_reducible (first | rfl | refine ite_fixed ?_ ?_ | intro _ | refine (State.each_fixed _ _ _ ?_).trans ?_ | refine (State.onDie_fixed ..).trans ?_ | refine (State.pset_fixed ..).trans ?_ | refine (loadNext_fixed ..).trans ?_ | split | refine (foldl_fixed _ _ _ ?_).trans ?_ | simp only [↓State.fixed_mk, ↓State.fixed_def, State.fixed_def])

theorem loadEmpty_fixed (d : ℕ) (c : ℕ) (s : State) :
    (loadEmpty d c s).fixed = s.fixed := by
  unfold loadEmpty
  repeat' with_reducible (first | rfl | refine ite_fixed ?_ ?_ | refine (onCluster_fixed ..).trans ?_ | split)

theorem writeStore_fixed (d : ℕ) (c : ℕ) (s : State) :
    (writeStore d c s).fixed = s.fixed := by
  unfold writeStore
  repeat' with_reducible (first | rfl | refine ite_fixed ?_ ?_ | refine (onCluster_fixed ..).trans ?_ | split)

theorem storeLoaded_fixed (d : ℕ) (c : ℕ) (bad : Option ℕ) (s : State) :
    (storeLoaded d c bad s).fixed = s.fixed := by
  unfold storeLoaded
  repeat' with_reducible (first | rfl | refine ite_fixed ?_ ?_ | refine (State.pset_fixed ..).trans ?_ | refine (State.report_fixed ..).trans ?_ | refine (breakParity_fixed ..).trans ?_ | refine (fenceCluster_fixed ..).trans ?_ | refine (loadNext_fixed ..).trans ?_ | refine (machineCheck_fixed ..).trans ?_ | refine (onCluster_fixed ..).trans ?_ | refine (writeStore_fixed ..).trans ?_ | split)

theorem storeWritten_fixed (d : ℕ) (c : ℕ) (bad : Option ℕ) (s : State) :
    (storeWritten d c bad s).fixed = s.fixed := by
  unfold storeWritten
  repeat' with_reducible (first | rfl | refine ite_fixed ?_ ?_ | intro _ | refine (storeLoaded_fixed ..).trans ?_ | refine (writePort_fixed _ _ _ _ _ ?_).trans ?_ | split | refine (foldl_fixed _ _ _ ?_).trans ?_ | simp only [↓State.fixed_mk, ↓State.fixed_def, State.fixed_def])

theorem execCsFetchParityFail_fixed (d : DieId) (c : ClusterId) (t : ThreadId) (fails : Fin 3) (s : State) {s' : State}
    (h : execCsFetchParityFail d c t fails s = .next s') : s'.fixed = s.fixed := by
  unfold execCsFetchParityFail at h
  refine onLive_fixed (fun s => ?_) h
  repeat' with_reducible (first | rfl | refine ite_fixed ?_ ?_ | refine (fetchFail_fixed ..).trans ?_ | split)

theorem execCsReloadDone_fixed (d : DieId) (c : ClusterId) (a : Fin 16384) (ok : Bool) (s : State) {s' : State}
    (h : execCsReloadDone d c a ok s = .next s') : s'.fixed = s.fixed := by
  unfold execCsReloadDone at h
  refine onLive_fixed (fun s => ?_) h
  repeat' with_reducible (first | rfl | refine ite_fixed ?_ ?_ | refine (reloadDone_fixed ..).trans ?_ | split)

theorem execRollingLoadClusterEmpty_fixed (d : DieId) (c : ClusterId) (s : State) {s' : State}
    (h : execRollingLoadClusterEmpty d c s = .next s') : s'.fixed = s.fixed := by
  unfold execRollingLoadClusterEmpty at h
  refine onLive_fixed (fun s => ?_) h
  repeat' with_reducible (first | rfl | refine ite_fixed ?_ ?_ | refine (loadEmpty_fixed ..).trans ?_ | split)

end Sys2Proof.Machine
end

