-- ==== Sys2Proof/Laws/Fixed/Reseq.lean ====
section
/-! SUPPORT. What the operations of Machine/Reseq.lean leave as it is: the part, the queue, the clock, the anti-rollback
counter and the revocation bits. -/

set_option linter.all false
set_option maxRecDepth 4000

namespace Sys2Proof.Machine

theorem putWin_fixed (d : ℕ) (eg : Bool) (k : ℕ) (w : Window) (s : State) :
    (putWin d eg k w s).fixed = s.fixed := by
  unfold putWin
  repeat' with_reducible (first | rfl | refine ite_fixed ?_ ?_ | refine (State.onDie_fixed ..).trans ?_ | split)

theorem copiesOut_fixed (d : ℕ) (k : ℕ) (s : State) :
    (copiesOut d k s).fixed = s.fixed := by
  unfold copiesOut
  repeat' with_reducible (first | rfl | refine ite_fixed ?_ ?_ | intro _ | refine (State.each_fixed _ _ _ ?_).trans ?_ | refine (State.onDie_fixed ..).trans ?_ | refine (State.onPkt_fixed ..).trans ?_ | split | refine (foldl_fixed _ _ _ ?_).trans ?_ | simp only [↓State.fixed_mk, ↓State.fixed_def, State.fixed_def])

theorem setWin_fixed (d : ℕ) (eg : Bool) (k : ℕ) (w : Window) (s : State) :
    (setWin d eg k w s).fixed = s.fixed := by
  unfold setWin
  repeat' with_reducible (first | rfl | refine ite_fixed ?_ ?_ | refine (copiesOut_fixed ..).trans ?_ | refine (putWin_fixed ..).trans ?_ | split)

theorem skipWin_fixed (d : ℕ) (eg : Bool) (k : ℕ) (s : State) :
    (skipWin d eg k s).fixed = s.fixed := by
  unfold skipWin
  repeat' with_reducible (first | rfl | refine ite_fixed ?_ ?_ | refine (State.dinc_fixed ..).trans ?_ | refine (setWin_fixed ..).trans ?_ | split)

theorem holeTimeout_fixed (d : ℕ) (eg : Bool) (k : ℕ) (s : State) :
    (holeTimeout d eg k s).fixed = s.fixed := by
  unfold holeTimeout
  repeat' with_reducible (first | rfl | refine ite_fixed ?_ ?_ | refine (skipWin_fixed ..).trans ?_ | split)

theorem reseqPut_fixed (d : ℕ) (eg : Bool) (k : ℕ) (n : ℕ) (i : ℕ) (s : State) :
    (reseqPut d eg k n i s).fixed = s.fixed := by
  unfold reseqPut
  repeat' with_reducible (first | rfl | refine ite_fixed ?_ ?_ | refine (State.dinc_fixed ..).trans ?_ | refine (setWin_fixed ..).trans ?_ | refine (skipWin_fixed ..).trans ?_ | split)

theorem putEntry_fixed (d : ℕ) (k : ℕ) (e : CEntry) (s : State) :
    (putEntry d k e s).fixed = s.fixed := by
  unfold putEntry
  repeat' with_reducible (first | rfl | refine ite_fixed ?_ ?_ | refine (State.onDie_fixed ..).trans ?_ | split)

theorem creditReceived_fixed (d : ℕ) (i : ℕ) (n : ℕ) (s : State) :
    (creditReceived d i n s).fixed = s.fixed := by
  unfold creditReceived
  dsimp only
  repeat' with_reducible (first | rfl | refine ite_fixed ?_ ?_ | refine (putEntry_fixed ..).trans ?_ | split)

theorem dropDuplicate_fixed (d : ℕ) (i : ℕ) (s : State) :
    (dropDuplicate d i s).fixed = s.fixed := by
  unfold dropDuplicate
  repeat' with_reducible (first | rfl | refine ite_fixed ?_ ?_ | refine (State.dinc_fixed ..).trans ?_ | refine (forget_fixed ..).trans ?_ | refine (releaseUnits_fixed ..).trans ?_ | split)

theorem egArrive_fixed (d : ℕ) (i : ℕ) (s : State) :
    (egArrive d i s).fixed = s.fixed := by
  unfold egArrive
  repeat' with_reducible (first | rfl | refine ite_fixed ?_ ?_ | intro _ | refine (State.stage_fixed ..).trans ?_ | refine (State.when_fixed _ _ _ ?_).trans ?_ | refine (creditReceived_fixed ..).trans ?_ | refine (dropDuplicate_fixed ..).trans ?_ | refine (putWin_fixed ..).trans ?_ | refine (reseqPut_fixed ..).trans ?_ | split | refine (foldl_fixed _ _ _ ?_).trans ?_ | simp only [↓State.fixed_mk, ↓State.fixed_def, State.fixed_def])

theorem reseqArrive_fixed (d : ℕ) (eg : Bool) (s : State) :
    (reseqArrive d eg s).fixed = s.fixed := by
  unfold reseqArrive
  repeat' with_reducible (first | rfl | refine ite_fixed ?_ ?_ | refine (State.onDie_fixed ..).trans ?_ | refine (State.stage_fixed ..).trans ?_ | refine (egArrive_fixed ..).trans ?_ | refine (reseqPut_fixed ..).trans ?_ | split)

theorem markerReceive_fixed (d : ℕ) (s : State) :
    (markerReceive d s).fixed = s.fixed := by
  unfold markerReceive
  repeat' with_reducible (first | rfl | refine ite_fixed ?_ ?_ | refine (State.dinc_fixed ..).trans ?_ | refine (State.onDie_fixed ..).trans ?_ | refine (copiesOut_fixed ..).trans ?_ | refine (setWin_fixed ..).trans ?_ | split)

theorem rewriteStep_fixed (d : ℕ) (s : State) :
    (rewriteStep d s).fixed = s.fixed := by
  unfold rewriteStep
  repeat' with_reducible (first | rfl | refine ite_fixed ?_ ?_ | refine (State.onDie_fixed ..).trans ?_ | refine (State.stage_fixed ..).trans ?_ | refine (buildHead_fixed ..).trans ?_ | split)

theorem execReseqArrive_fixed (d : DieId) (eg : Bool) (s : State) {s' : State}
    (h : execReseqArrive d eg s = .next s') : s'.fixed = s.fixed := by
  unfold execReseqArrive at h
  refine onLive_fixed (fun s => ?_) h
  repeat' with_reducible (first | rfl | refine ite_fixed ?_ ?_ | refine (reseqArrive_fixed ..).trans ?_ | split)

theorem execHoleTimeout_fixed (d : DieId) (eg : Bool) (k : ℕ) (s : State) {s' : State}
    (h : execHoleTimeout d eg k s = .next s') : s'.fixed = s.fixed := by
  unfold execHoleTimeout at h
  refine onLive_fixed (fun s => ?_) h
  repeat' with_reducible (first | rfl | refine ite_fixed ?_ ?_ | refine (holeTimeout_fixed ..).trans ?_ | split)

theorem execHoleMarkerReceive_fixed (d : DieId) (s : State) {s' : State}
    (h : execHoleMarkerReceive d s = .next s') : s'.fixed = s.fixed := by
  unfold execHoleMarkerReceive at h
  refine onLive_fixed (fun s => ?_) h
  repeat' with_reducible (first | rfl | refine ite_fixed ?_ ?_ | refine (markerReceive_fixed ..).trans ?_ | split)

theorem execRewrite_fixed (d : DieId) (s : State) {s' : State}
    (h : execRewrite d s = .next s') : s'.fixed = s.fixed := by
  unfold execRewrite at h
  refine onLive_fixed (fun s => ?_) h
  repeat' with_reducible (first | rfl | refine ite_fixed ?_ ?_ | refine (rewriteStep_fixed ..).trans ?_ | split)

end Sys2Proof.Machine
end

