-- ==== Sys2Proof/Laws/Fixed/Rings.lean ====
section
/-! SUPPORT. What the operations of Machine/Rings.lean leave as it is: the part, the queue, the clock, the anti-rollback
counter and the revocation bits. -/

set_option linter.all false
set_option maxRecDepth 4000

namespace Sys2Proof.Machine

theorem attKeep_fixed (e : ℕ) (atts : List (ℕ × BitVec 64)) (page : ℕ) (s : State) :
    (attKeep e atts page s).fixed = s.fixed := by
  unfold attKeep
  dsimp only
  repeat' with_reducible (first | rfl | refine ite_fixed ?_ ?_ | intro _ | refine (State.fresh_fixed ..).trans ?_ | split | refine (foldl_fixed _ _ _ ?_).trans ?_ | simp only [↓State.fixed_mk, ↓State.fixed_def, State.fixed_def])

theorem attKeepAll_fixed (e : ℕ) (atts : List (ℕ × BitVec 64)) (rva : ℕ) (n : ℕ) (s : State) :
    (attKeepAll e atts rva n s).fixed = s.fixed := by
  unfold attKeepAll
  repeat' with_reducible (first | rfl | refine ite_fixed ?_ ?_ | intro _ | refine (State.each_fixed _ _ _ ?_).trans ?_ | refine (attKeep_fixed ..).trans ?_ | split | refine (foldl_fixed _ _ _ ?_).trans ?_ | simp only [↓State.fixed_mk, ↓State.fixed_def, State.fixed_def])

theorem dmaWrite_fixed (e : ℕ) (atts : List (ℕ × BitVec 64)) (rva : ℕ) (bs : Bytes) (s : State) :
    (dmaWrite e atts rva bs s).fixed = s.fixed := by
  unfold dmaWrite
  repeat' with_reducible (first | rfl | refine ite_fixed ?_ ?_ | intro _ | refine (State.each_fixed _ _ _ ?_).trans ?_ | refine (attKeep_fixed ..).trans ?_ | split | refine (foldl_fixed _ _ _ ?_).trans ?_ | simp only [↓State.fixed_mk, ↓State.fixed_def, State.fixed_def])

theorem onRing_fixed (d : ℕ) (k : ℕ) (f : Ring → Ring) (s : State) :
    (onRing d k f s).fixed = s.fixed := by
  unfold onRing
  repeat' with_reducible (first | rfl | refine ite_fixed ?_ ?_ | refine (State.onDie_fixed ..).trans ?_ | split)

theorem ringError_fixed (d : ℕ) (k : ℕ) (cause : ℕ) (s : State) :
    (ringError d k cause s).fixed = s.fixed := by
  unfold ringError
  repeat' with_reducible (first | rfl | refine ite_fixed ?_ ?_ | refine (State.dset_fixed ..).trans ?_ | split)

theorem ringFault_fixed (d : ℕ) (k : ℕ) (rva : ℕ) (s : State) :
    (ringFault d k rva s).fixed = s.fixed := by
  unfold ringFault
  repeat' with_reducible (first | rfl | refine ite_fixed ?_ ?_ | refine (State.dset_fixed ..).trans ?_ | refine (State.pinc_fixed ..).trans ?_ | refine (State.reportOpen_fixed ..).trans ?_ | refine (ringError_fixed ..).trans ?_ | split)

theorem ringsCheck_fixed (s : State) :
    (ringsCheck s).fixed = s.fixed := by
  unfold ringsCheck
  repeat' with_reducible (first | rfl | refine ite_fixed ?_ ?_ | intro _ | refine (State.each_fixed _ _ _ ?_).trans ?_ | refine (ringError_fixed ..).trans ?_ | split | refine (foldl_fixed _ _ _ ?_).trans ?_ | simp only [↓State.fixed_mk, ↓State.fixed_def, State.fixed_def])

theorem fireMsix_fixed (e : ℕ) (v : ℕ) (s : State) :
    (fireMsix e v s).fixed = s.fixed := by
  unfold fireMsix
  repeat' with_reducible (first | rfl | refine ite_fixed ?_ ?_ | intro _ | split | refine (foldl_fixed _ _ _ ?_).trans ?_ | simp only [↓State.fixed_mk, ↓State.fixed_def, State.fixed_def])

theorem msixWrite_fixed (e : ℕ) (w : ℕ) (v : ℕ) (s : State) :
    (msixWrite e w v s).fixed = s.fixed := by
  unfold msixWrite
  repeat' with_reducible (first | rfl | refine ite_fixed ?_ ?_ | intro _ | refine (fireMsix_fixed ..).trans ?_ | split | refine (foldl_fixed _ _ _ ?_).trans ?_ | simp only [↓State.fixed_mk, ↓State.fixed_def, State.fixed_def])

theorem ringSignal_fixed (d : ℕ) (k : ℕ) (s : State) :
    (ringSignal d k s).fixed = s.fixed := by
  unfold ringSignal
  repeat' with_reducible (first | rfl | refine ite_fixed ?_ ?_ | refine (fireMsix_fixed ..).trans ?_ | refine (onRing_fixed ..).trans ?_ | split)

theorem ringAdvance_fixed (d : ℕ) (k : ℕ) (atts : List (ℕ × BitVec 64)) (s : State) :
    (ringAdvance d k atts s).fixed = s.fixed := by
  unfold ringAdvance
  repeat' with_reducible (first | rfl | refine ite_fixed ?_ ?_ | refine (State.dinc_fixed ..).trans ?_ | refine (State.dset_fixed ..).trans ?_ | refine (dmaWrite_fixed ..).trans ?_ | refine (onRing_fixed ..).trans ?_ | refine (ringFault_fixed ..).trans ?_ | refine (ringSignal_fixed ..).trans ?_ | split)

theorem ringIrqTimer_fixed (d : ℕ) (k : ℕ) (s : State) :
    (ringIrqTimer d k s).fixed = s.fixed := by
  unfold ringIrqTimer
  dsimp only
  repeat' with_reducible (first | rfl | refine ite_fixed ?_ ?_ | refine (fireMsix_fixed ..).trans ?_ | refine (onRing_fixed ..).trans ?_ | split)

theorem doorbell_fixed (e : ℕ) (d : ℕ) (k : ℕ) (v : ℕ) (s : State) :
    (doorbell e d k v s).fixed = s.fixed := by
  unfold doorbell
  repeat' with_reducible (first | rfl | refine ite_fixed ?_ ?_ | refine (State.dset_fixed ..).trans ?_ | refine (State.pinc_fixed ..).trans ?_ | refine (ringError_fixed ..).trans ?_ | split)

theorem barWrite_fixed (e : ℕ) (off : ℕ) (v : ℕ) (s : State) :
    (barWrite e off v s).fixed = s.fixed := by
  unfold barWrite
  repeat' with_reducible (first | rfl | refine ite_fixed ?_ ?_ | refine (State.pinc_fixed ..).trans ?_ | refine (doorbell_fixed ..).trans ?_ | refine (msixWrite_fixed ..).trans ?_ | split)

theorem ringEnable_fixed (d : ℕ) (k : ℕ) (on : Bool) (s : State) :
    (ringEnable d k on s).2.fixed = s.fixed := by
  unfold ringEnable
  dsimp only
  repeat' with_reducible (first | rfl | refine ite_fixed ?_ ?_ | refine (State.dset_fixed ..).trans ?_ | refine (onRing_fixed ..).trans ?_ | refine (ringError_fixed ..).trans ?_ | split)

theorem ringStopDone_fixed (d : ℕ) (k : ℕ) (s : State) :
    (ringStopDone d k s).fixed = s.fixed := by
  unfold ringStopDone
  repeat' with_reducible (first | rfl | refine ite_fixed ?_ ?_ | refine (State.dset_fixed ..).trans ?_ | refine (ringEnable_fixed ..).trans ?_ | split)

theorem endpointReset_fixed (e : ℕ) (s : State) :
    (endpointReset e s).fixed = s.fixed := by
  unfold endpointReset
  repeat' with_reducible (first | rfl | refine ite_fixed ?_ ?_ | intro _ | refine (State.each_fixed _ _ _ ?_).trans ?_ | refine (State.pinc_fixed ..).trans ?_ | refine (ringEnable_fixed ..).trans ?_ | split | refine (foldl_fixed _ _ _ ?_).trans ?_ | simp only [↓State.fixed_mk, ↓State.fixed_def, State.fixed_def])

theorem attInvalidate_fixed (e : ℕ) (first : ℕ) (last : ℕ) (s : State) :
    (attInvalidate e first last s).fixed = s.fixed := by
  unfold attInvalidate
  repeat' with_reducible (first | rfl | refine ite_fixed ?_ ?_ | intro _ | split | refine (foldl_fixed _ _ _ ?_).trans ?_ | simp only [↓State.fixed_mk, ↓State.fixed_def, State.fixed_def])

theorem puntTo_fixed (d : ℕ) (r : ℕ) (q : ℕ) (i : ℕ) (s : State) :
    (puntTo d r q i s).fixed = s.fixed := by
  unfold puntTo
  repeat' with_reducible (first | rfl | refine ite_fixed ?_ ?_ | refine (State.onDie_fixed ..).trans ?_ | refine (State.stage_fixed ..).trans ?_ | split)

theorem finishPkt_fixed (i : ℕ) (s : State) :
    (finishPkt i s).fixed = s.fixed := by
  unfold finishPkt
  repeat' with_reducible (first | rfl | refine ite_fixed ?_ ?_ | refine (forget_fixed ..).trans ?_ | refine (occEnd_fixed ..).trans ?_ | refine (releaseUnits_fixed ..).trans ?_ | split)

theorem puntWrite_fixed (d : ℕ) (k : ℕ) (slot : BitVec 256) (atts : List (ℕ × BitVec 64)) (s : State) :
    (puntWrite d k slot atts s).fixed = s.fixed := by
  unfold puntWrite
  dsimp only
  repeat' with_reducible (first | rfl | refine ite_fixed ?_ ?_ | refine (State.onDie_fixed ..).trans ?_ | refine (attKeepAll_fixed ..).trans ?_ | refine (bodyRead_fixed ..).trans ?_ | refine (dmaWrite_fixed ..).trans ?_ | refine (dropPkt_fixed ..).trans ?_ | refine (finishPkt_fixed ..).trans ?_ | refine (onRing_fixed ..).trans ?_ | refine (ringAdvance_fixed ..).trans ?_ | refine (ringError_fixed ..).trans ?_ | refine (ringFault_fixed ..).trans ?_ | split)

theorem injectRead_fixed (d : ℕ) (k : ℕ) (slot : BitVec 256) (frame : Bytes) (atts : List (ℕ × BitVec 64)) (s : State) :
    (injectRead d k slot frame atts s).fixed = s.fixed := by
  unfold injectRead
  dsimp only
  repeat' with_reducible (first | rfl | refine ite_fixed ?_ ?_ | refine (State.newPkt_fixed ..).trans ?_ | refine (State.onDie_fixed ..).trans ?_ | refine (State.stage_fixed ..).trans ?_ | refine (attKeepAll_fixed ..).trans ?_ | refine (dropPkt_fixed ..).trans ?_ | refine (poolFreeUnits_fixed ..).trans ?_ | refine (poolRequest_fixed ..).trans ?_ | refine (ringAdvance_fixed ..).trans ?_ | refine (ringError_fixed ..).trans ?_ | refine (ringFault_fixed ..).trans ?_ | refine (sharedParse_fixed ..).trans ?_ | split)

theorem recordPost_fixed (d : ℕ) (k : ℕ) (r : BitVec 256) (s : State) :
    (recordPost d k r s).fixed = s.fixed := by
  unfold recordPost
  repeat' with_reducible (first | rfl | refine ite_fixed ?_ ?_ | refine (State.onDie_fixed ..).trans ?_ | split)

theorem recordLost_fixed (d : ℕ) (k : ℕ) (r : BitVec 256) (s : State) :
    (recordLost d k r s).fixed = s.fixed := by
  unfold recordLost
  repeat' with_reducible (first | rfl | refine ite_fixed ?_ ?_ | refine (State.dinc_fixed ..).trans ?_ | split)

theorem recordWrite_fixed (d : ℕ) (k : ℕ) (atts : List (ℕ × BitVec 64)) (s : State) :
    (recordWrite d k atts s).fixed = s.fixed := by
  unfold recordWrite
  repeat' with_reducible (first | rfl | refine ite_fixed ?_ ?_ | intro _ | refine (State.dinc_fixed ..).trans ?_ | refine (State.onDie_fixed ..).trans ?_ | refine (State.when_fixed _ _ _ ?_).trans ?_ | refine (dmaWrite_fixed ..).trans ?_ | refine (recordLost_fixed ..).trans ?_ | refine (ringAdvance_fixed ..).trans ?_ | refine (ringError_fixed ..).trans ?_ | refine (ringFault_fixed ..).trans ?_ | split | refine (foldl_fixed _ _ _ ?_).trans ?_ | simp only [↓State.fixed_mk, ↓State.fixed_def, State.fixed_def])

theorem execRingIrqTimer_fixed (d : DieId) (k : Fin 24) (s : State) {s' : State}
    (h : execRingIrqTimer d k s = .next s') : s'.fixed = s.fixed := by
  unfold execRingIrqTimer at h
  refine onLive_fixed (fun s => ?_) h
  repeat' with_reducible (first | rfl | refine ite_fixed ?_ ?_ | refine (ringIrqTimer_fixed ..).trans ?_ | split)

theorem execDoorbellWrite_fixed (e : Fin 2) (off : Fin 73728) (v : BitVec 32) (s : State) {s' : State}
    (h : execDoorbellWrite e off v s = .next s') : s'.fixed = s.fixed := by
  unfold execDoorbellWrite at h
  cases h
  repeat' with_reducible (first | rfl | refine ite_fixed ?_ ?_ | refine (barWrite_fixed ..).trans ?_ | split)

theorem execRingStopDone_fixed (d : DieId) (k : Fin 24) (s : State) {s' : State}
    (h : execRingStopDone d k s = .next s') : s'.fixed = s.fixed := by
  unfold execRingStopDone at h
  refine onLive_fixed (fun s => ?_) h
  repeat' with_reducible (first | rfl | refine ite_fixed ?_ ?_ | refine (ringStopDone_fixed ..).trans ?_ | split)

theorem execPuntWrite_fixed (d : DieId) (k : Fin 16) (slot : BitVec 256) (atts : List (ℕ × BitVec 64)) (s : State) {s' : State}
    (h : execPuntWrite d k slot atts s = .next s') : s'.fixed = s.fixed := by
  unfold execPuntWrite at h
  refine onLive_fixed (fun s => ?_) h
  repeat' with_reducible (first | rfl | refine ite_fixed ?_ ?_ | refine (puntWrite_fixed ..).trans ?_ | split)

theorem execInjectRead_fixed (d : DieId) (k : Fin 4) (slot : BitVec 256) (frame : Bytes) (atts : List (ℕ × BitVec 64)) (s : State) {s' : State}
    (h : execInjectRead d k slot frame atts s = .next s') : s'.fixed = s.fixed := by
  unfold execInjectRead at h
  refine onLive_fixed (fun s => ?_) h
  repeat' with_reducible (first | rfl | refine ite_fixed ?_ ?_ | refine (injectRead_fixed ..).trans ?_ | split)

theorem execRecordRingWrite_fixed (d : DieId) (k : Fin 3) (atts : List (ℕ × BitVec 64)) (s : State) {s' : State}
    (h : execRecordRingWrite d k atts s = .next s') : s'.fixed = s.fixed := by
  unfold execRecordRingWrite at h
  refine onLive_fixed (fun s => ?_) h
  repeat' with_reducible (first | rfl | refine ite_fixed ?_ ?_ | refine (recordWrite_fixed ..).trans ?_ | split)

end Sys2Proof.Machine
end

