-- ==== Sys2Proof/Laws/Fixed/Fabric.lean ====
section
/-! SUPPORT. What the operations of Machine/Fabric.lean leave as it is: the part, the queue, the clock, the anti-rollback
counter and the revocation bits. -/

set_option linter.all false
set_option maxRecDepth 4000

namespace Sys2Proof.Machine

theorem onLink_fixed (d : ℕ) (l : ℕ) (f : FLink → FLink) (s : State) :
    (onLink d l f s).fixed = s.fixed := by
  unfold onLink
  repeat' with_reducible (first | rfl | refine ite_fixed ?_ ?_ | refine (State.onDie_fixed ..).trans ?_ | split)

theorem sendCell_fixed (d : ℕ) (l : ℕ) (c : FCell) (s : State) :
    (sendCell d l c s).fixed = s.fixed := by
  unfold sendCell
  repeat' with_reducible (first | rfl | refine ite_fixed ?_ ?_ | refine (State.dinc_fixed ..).trans ?_ | refine (onLink_fixed ..).trans ?_ | split)

theorem sendFitting_fixed (d : ℕ) (l : ℕ) (a2 : List FCell) (a3 : State) :
    (sendFitting d l a2 a3).2.fixed = a3.fixed := by
  induction a2 generalizing a3 with
  | nil => rfl
  | cons x l ih =>
    unfold sendFitting
    (try dsimp only)
    repeat' with_reducible (first | rfl | refine (ih ..).trans ?_ | assumption | intro _ | refine ite_fixed ?_ ?_ | refine ite_snd_fixed ?_ ?_ | refine ite_snd2_fixed ?_ ?_ | refine getD_fixed ?_ ?_ | refine ite_elim_fixed ?_ ?_ | refine (some_elim_fixed ..).trans ?_ | refine (none_elim_fixed ..).trans ?_ | refine ite_fst_elim_fixed ?_ ?_ | refine map_elim_fixed ?_ ?_ | refine bind_elim_fixed ?_ ?_ | refine foldl_elim_fixed _ _ _ ?_ ?_ | refine (State.ddec_fixed ..).trans ?_ | refine (sendCell_fixed ..).trans ?_ | refine snd_fixed (by assumption) ?_ | refine snd2_fixed (by assumption) ?_ | refine fst_elim_fixed (by assumption) ?_ | refine of_some_fixed (by assumption) ?_ | split | refine (foldl_fixed _ _ _ ?_).trans ?_ | refine (foldl_fixed_snd _ _ _ ?_).trans ?_ | refine (foldl_fixed_snd2 _ _ _ ?_).trans ?_ | simp only [↓State.fixed_mk, ↓State.fixed_def, State.fixed_def])

theorem ctlPump_fixed (a0 : ℕ) (a1 : ℕ) (a2 : ℕ) (a3 : State) :
    (ctlPump a0 a1 a2 a3).fixed = a3.fixed := by
  induction a0 generalizing a1 a2 a3 with
  | zero => rfl
  | succ n ih =>
    unfold ctlPump
    (try dsimp only)
    repeat' with_reducible (first | rfl | refine (ih ..).trans ?_ | assumption | intro _ | refine ite_fixed ?_ ?_ | refine ite_snd_fixed ?_ ?_ | refine ite_snd2_fixed ?_ ?_ | refine getD_fixed ?_ ?_ | refine ite_elim_fixed ?_ ?_ | refine (some_elim_fixed ..).trans ?_ | refine (none_elim_fixed ..).trans ?_ | refine ite_fst_elim_fixed ?_ ?_ | refine map_elim_fixed ?_ ?_ | refine bind_elim_fixed ?_ ?_ | refine foldl_elim_fixed _ _ _ ?_ ?_ | refine (onLink_fixed ..).trans ?_ | refine (sendCell_fixed ..).trans ?_ | refine snd_fixed (by assumption) ?_ | refine snd2_fixed (by assumption) ?_ | refine fst_elim_fixed (by assumption) ?_ | refine of_some_fixed (by assumption) ?_ | split | refine (foldl_fixed _ _ _ ?_).trans ?_ | refine (foldl_fixed_snd _ _ _ ?_).trans ?_ | refine (foldl_fixed_snd2 _ _ _ ?_).trans ?_ | simp only [↓State.fixed_mk, ↓State.fixed_def, State.fixed_def])

theorem ctlPut_fixed (d : ℕ) (l : ℕ) (cs : List FCell) (s : State) :
    (ctlPut d l cs s).fixed = s.fixed := by
  unfold ctlPut
  repeat' with_reducible (first | rfl | refine ite_fixed ?_ ?_ | refine (ctlPump_fixed ..).trans ?_ | refine (onLink_fixed ..).trans ?_ | split)

theorem sendControl_fixed (d : ℕ) (fid : ℕ) (msg : BitVec 128) (s : State) :
    (sendControl d fid msg s).2.fixed = s.fixed := by
  unfold sendControl
  repeat' with_reducible (first | rfl | refine ite_fixed ?_ ?_ | refine (ctlPut_fixed ..).trans ?_ | refine (onLink_fixed ..).trans ?_ | split)

theorem onCred_fixed (d : ℕ) (v : ℕ) (f : VCred → VCred) (s : State) :
    (onCred d v f s).fixed = s.fixed := by
  unfold onCred
  repeat' with_reducible (first | rfl | refine ite_fixed ?_ ?_ | refine (State.onDie_fixed ..).trans ?_ | split)

theorem sendDemand_fixed (d : ℕ) (v : ℕ) (s : State) :
    (sendDemand d v s).fixed = s.fixed := by
  unfold sendDemand
  repeat' with_reducible (first | rfl | refine ite_fixed ?_ ?_ | refine (State.dinc_fixed ..).trans ?_ | refine (onCred_fixed ..).trans ?_ | refine (sendControl_fixed ..).trans ?_ | split)

theorem stallSettle_fixed (d : ℕ) (s : State) :
    (stallSettle d s).fixed = s.fixed := by
  unfold stallSettle
  repeat' with_reducible (first | rfl | refine ite_fixed ?_ ?_ | refine (State.dinc_fixed ..).trans ?_ | refine (State.onDie_fixed ..).trans ?_ | split)

theorem stallNote_fixed (d : ℕ) (v : ℕ) (s : State) :
    (stallNote d v s).fixed = s.fixed := by
  unfold stallNote
  repeat' with_reducible (first | rfl | refine ite_fixed ?_ ?_ | refine (State.onDie_fixed ..).trans ?_ | refine (stallSettle_fixed ..).trans ?_ | split)

theorem creditCheck_fixed (d : ℕ) (v : ℕ) (s : State) :
    (creditCheck d v s).fixed = s.fixed := by
  unfold creditCheck
  repeat' with_reducible (first | rfl | refine ite_fixed ?_ ?_ | refine (onCred_fixed ..).trans ?_ | refine (sendDemand_fixed ..).trans ?_ | refine (stallNote_fixed ..).trans ?_ | split)

theorem streamNumber_fixed (d : ℕ) (i : ℕ) (s : State) :
    (streamNumber d i s).fixed = s.fixed := by
  unfold streamNumber
  repeat' with_reducible (first | rfl | refine ite_fixed ?_ ?_ | refine (State.onDie_fixed ..).trans ?_ | refine (State.onPkt_fixed ..).trans ?_ | split)

theorem recharge_fixed (d : ℕ) (i : ℕ) (n : ℕ) (s : State) :
    (recharge d i n s).fixed = s.fixed := by
  unfold recharge
  repeat' with_reducible (first | rfl | refine ite_fixed ?_ ?_ | refine (State.onPkt_fixed ..).trans ?_ | refine (onCred_fixed ..).trans ?_ | split)

theorem countSent_fixed (d : ℕ) (i : ℕ) (s : State) :
    (countSent d i s).fixed = s.fixed := by
  unfold countSent
  repeat' with_reducible (first | rfl | refine ite_fixed ?_ ?_ | refine (State.onPkt_fixed ..).trans ?_ | refine (onCred_fixed ..).trans ?_ | split)

theorem tailCharge_fixed (d : ℕ) (i : ℕ) (s : State) :
    (tailCharge d i s).fixed = s.fixed := by
  unfold tailCharge
  repeat' with_reducible (first | rfl | refine ite_fixed ?_ ?_ | refine (recharge_fixed ..).trans ?_ | split)

theorem pushCells_fixed (d : ℕ) (i : ℕ) (s : State) :
    (pushCells d i s).fixed = s.fixed := by
  unfold pushCells
  repeat' with_reducible (first | rfl | refine ite_fixed ?_ ?_ | intro _ | refine (State.onPkt_fixed ..).trans ?_ | refine (State.when_fixed _ _ _ ?_).trans ?_ | refine (countSent_fixed ..).trans ?_ | refine (occEnd_fixed ..).trans ?_ | refine (onLink_fixed ..).trans ?_ | refine (readRest_fixed ..).trans ?_ | refine (recharge_fixed ..).trans ?_ | refine (sendFitting_fixed ..).trans ?_ | split | refine (foldl_fixed _ _ _ ?_).trans ?_ | simp only [↓State.fixed_mk, ↓State.fixed_def, State.fixed_def])

theorem linkPump_fixed (d : ℕ) (l : ℕ) (s : State) :
    (linkPump d l s).fixed = s.fixed := by
  unfold linkPump
  repeat' with_reducible (first | rfl | refine ite_fixed ?_ ?_ | intro _ | refine (State.each_fixed _ _ _ ?_).trans ?_ | refine (ctlPump_fixed ..).trans ?_ | refine (pushCells_fixed ..).trans ?_ | split | refine (foldl_fixed _ _ _ ?_).trans ?_ | simp only [↓State.fixed_mk, ↓State.fixed_def, State.fixed_def])

theorem departFabric_fixed (d : ℕ) (i : ℕ) (s : State) {cc : Part × List Instr × Nat × Nat × BitVec 4}
    (hc : s.fixed = cc) : (departFabric d i s).elim cc State.fixed = cc := by
  subst hc
  unfold departFabric
  (try dsimp only)
  repeat' with_reducible (first | rfl | assumption | intro _ | refine ite_fixed ?_ ?_ | refine ite_snd_fixed ?_ ?_ | refine ite_snd2_fixed ?_ ?_ | refine getD_fixed ?_ ?_ | refine ite_elim_fixed ?_ ?_ | refine (some_elim_fixed ..).trans ?_ | refine (none_elim_fixed ..).trans ?_ | refine ite_fst_elim_fixed ?_ ?_ | refine map_elim_fixed ?_ ?_ | refine bind_elim_fixed ?_ ?_ | refine foldl_elim_fixed _ _ _ ?_ ?_ | refine (State.onPkt_fixed ..).trans ?_ | refine (State.stage_fixed ..).trans ?_ | refine (State.when_fixed _ _ _ ?_).trans ?_ | refine (onCred_fixed ..).trans ?_ | refine (onLink_fixed ..).trans ?_ | refine (pushCells_fixed ..).trans ?_ | refine (streamNumber_fixed ..).trans ?_ | refine snd_fixed (by assumption) ?_ | refine snd2_fixed (by assumption) ?_ | refine fst_elim_fixed (by assumption) ?_ | refine of_some_fixed (by assumption) ?_ | split | refine (foldl_fixed _ _ _ ?_).trans ?_ | refine (foldl_fixed_snd _ _ _ ?_).trans ?_ | refine (foldl_fixed_snd2 _ _ _ ?_).trans ?_ | simp only [↓State.fixed_mk, ↓State.fixed_def, State.fixed_def])

theorem egressTake_fixed (d : ℕ) (j : ℕ) (s : State) :
    (egressTake d j s).2.fixed = s.fixed := by
  unfold egressTake
  (try dsimp only)
  repeat' with_reducible (first | rfl | assumption | intro _ | refine ite_fixed ?_ ?_ | refine ite_snd_fixed ?_ ?_ | refine ite_snd2_fixed ?_ ?_ | refine getD_fixed ?_ ?_ | refine ite_elim_fixed ?_ ?_ | refine (some_elim_fixed ..).trans ?_ | refine (none_elim_fixed ..).trans ?_ | refine ite_fst_elim_fixed ?_ ?_ | refine map_elim_fixed ?_ ?_ | refine bind_elim_fixed ?_ ?_ | refine foldl_elim_fixed _ _ _ ?_ ?_ | refine (State.onDie_fixed ..).trans ?_ | refine (State.onPkt_fixed ..).trans ?_ | refine (poolFreeUnits_fixed ..).trans ?_ | refine (poolRequest_fixed ..).trans ?_ | refine snd_fixed (by assumption) ?_ | refine snd2_fixed (by assumption) ?_ | refine fst_elim_fixed (by assumption) ?_ | refine of_some_fixed (by assumption) ?_ | split | refine (foldl_fixed _ _ _ ?_).trans ?_ | refine (foldl_fixed_snd _ _ _ ?_).trans ?_ | refine (foldl_fixed_snd2 _ _ _ ?_).trans ?_ | simp only [↓State.fixed_mk, ↓State.fixed_def, State.fixed_def])

theorem egressTake_fixed_elim (d : ℕ) (j : ℕ) (s : State) {cc : Part × List Instr × Nat × Nat × BitVec 4}
    (hc : s.fixed = cc) : (egressTake d j s).1.elim cc State.fixed = cc := by
  subst hc
  unfold egressTake
  (try dsimp only)
  repeat' with_reducible (first | rfl | assumption | intro _ | refine ite_fixed ?_ ?_ | refine ite_snd_fixed ?_ ?_ | refine ite_snd2_fixed ?_ ?_ | refine getD_fixed ?_ ?_ | refine ite_elim_fixed ?_ ?_ | refine (some_elim_fixed ..).trans ?_ | refine (none_elim_fixed ..).trans ?_ | refine ite_fst_elim_fixed ?_ ?_ | refine map_elim_fixed ?_ ?_ | refine bind_elim_fixed ?_ ?_ | refine foldl_elim_fixed _ _ _ ?_ ?_ | refine (State.onDie_fixed ..).trans ?_ | refine (State.onPkt_fixed ..).trans ?_ | refine (poolFreeUnits_fixed ..).trans ?_ | refine (poolRequest_fixed ..).trans ?_ | refine snd_fixed (by assumption) ?_ | refine snd2_fixed (by assumption) ?_ | refine fst_elim_fixed (by assumption) ?_ | refine of_some_fixed (by assumption) ?_ | split | refine (foldl_fixed _ _ _ ?_).trans ?_ | refine (foldl_fixed_snd _ _ _ ?_).trans ?_ | refine (foldl_fixed_snd2 _ _ _ ?_).trans ?_ | simp only [↓State.fixed_mk, ↓State.fixed_def, State.fixed_def])

theorem refusedHere_fixed (d : ℕ) (after : State) (s : State) :
    (refusedHere d after s).fixed = s.fixed := by
  unfold refusedHere
  repeat' with_reducible (first | rfl | refine ite_fixed ?_ ?_ | intro _ | refine (State.dset_fixed ..).trans ?_ | refine (State.each_fixed _ _ _ ?_).trans ?_ | refine (onPool_fixed ..).trans ?_ | split | refine (foldl_fixed _ _ _ ?_).trans ?_ | simp only [↓State.fixed_mk, ↓State.fixed_def, State.fixed_def])

theorem departHere_fixed (d : ℕ) (i : ℕ) (s : State) :
    (departHere d i s).2.fixed = s.fixed := by
  unfold departHere
  (try dsimp only)
  repeat' with_reducible (first | rfl | assumption | intro _ | refine ite_fixed ?_ ?_ | refine ite_snd_fixed ?_ ?_ | refine ite_snd2_fixed ?_ ?_ | refine getD_fixed ?_ ?_ | refine ite_elim_fixed ?_ ?_ | refine (some_elim_fixed ..).trans ?_ | refine (none_elim_fixed ..).trans ?_ | refine ite_fst_elim_fixed ?_ ?_ | refine map_elim_fixed ?_ ?_ | refine bind_elim_fixed ?_ ?_ | refine foldl_elim_fixed _ _ _ ?_ ?_ | refine (State.newPkt_fixed ..).trans ?_ | refine (State.stage_fixed ..).trans ?_ | refine (egressTake_fixed ..).trans ?_ | refine egressTake_fixed_elim (hc := ?_) .. | refine (finishPkt_fixed ..).trans ?_ | refine (refusedHere_fixed ..).trans ?_ | refine (streamNumber_fixed ..).trans ?_ | refine snd_fixed (by assumption) ?_ | refine snd2_fixed (by assumption) ?_ | refine fst_elim_fixed (by assumption) ?_ | refine of_some_fixed (by assumption) ?_ | split | refine (foldl_fixed _ _ _ ?_).trans ?_ | refine (foldl_fixed_snd _ _ _ ?_).trans ?_ | refine (foldl_fixed_snd2 _ _ _ ?_).trans ?_ | simp only [↓State.fixed_mk, ↓State.fixed_def, State.fixed_def])

theorem departHere_fixed_elim (d : ℕ) (i : ℕ) (s : State) {cc : Part × List Instr × Nat × Nat × BitVec 4}
    (hc : s.fixed = cc) : (departHere d i s).1.elim cc State.fixed = cc := by
  subst hc
  unfold departHere
  (try dsimp only)
  repeat' with_reducible (first | rfl | assumption | intro _ | refine ite_fixed ?_ ?_ | refine ite_snd_fixed ?_ ?_ | refine ite_snd2_fixed ?_ ?_ | refine getD_fixed ?_ ?_ | refine ite_elim_fixed ?_ ?_ | refine (some_elim_fixed ..).trans ?_ | refine (none_elim_fixed ..).trans ?_ | refine ite_fst_elim_fixed ?_ ?_ | refine map_elim_fixed ?_ ?_ | refine bind_elim_fixed ?_ ?_ | refine foldl_elim_fixed _ _ _ ?_ ?_ | refine (State.newPkt_fixed ..).trans ?_ | refine (State.stage_fixed ..).trans ?_ | refine (egressTake_fixed ..).trans ?_ | refine egressTake_fixed_elim (hc := ?_) .. | refine (finishPkt_fixed ..).trans ?_ | refine (refusedHere_fixed ..).trans ?_ | refine (streamNumber_fixed ..).trans ?_ | refine snd_fixed (by assumption) ?_ | refine snd2_fixed (by assumption) ?_ | refine fst_elim_fixed (by assumption) ?_ | refine of_some_fixed (by assumption) ?_ | split | refine (foldl_fixed _ _ _ ?_).trans ?_ | refine (foldl_fixed_snd _ _ _ ?_).trans ?_ | refine (foldl_fixed_snd2 _ _ _ ?_).trans ?_ | simp only [↓State.fixed_mk, ↓State.fixed_def, State.fixed_def])

theorem departSaddle_fixed (d : ℕ) (i : ℕ) (s : State) {cc : Part × List Instr × Nat × Nat × BitVec 4}
    (hc : s.fixed = cc) : (departSaddle d i s).elim cc State.fixed = cc := by
  subst hc
  unfold departSaddle
  (try dsimp only)
  repeat' with_reducible (first | rfl | assumption | intro _ | refine ite_fixed ?_ ?_ | refine ite_snd_fixed ?_ ?_ | refine ite_snd2_fixed ?_ ?_ | refine getD_fixed ?_ ?_ | refine ite_elim_fixed ?_ ?_ | refine (some_elim_fixed ..).trans ?_ | refine (none_elim_fixed ..).trans ?_ | refine ite_fst_elim_fixed ?_ ?_ | refine map_elim_fixed ?_ ?_ | refine bind_elim_fixed ?_ ?_ | refine foldl_elim_fixed _ _ _ ?_ ?_ | refine (State.newPkt_fixed ..).trans ?_ | refine (State.onPkt_fixed ..).trans ?_ | refine (State.send_fixed ..).trans ?_ | refine (State.stage_fixed ..).trans ?_ | refine (finishPkt_fixed ..).trans ?_ | refine (streamNumber_fixed ..).trans ?_ | refine snd_fixed (by assumption) ?_ | refine snd2_fixed (by assumption) ?_ | refine fst_elim_fixed (by assumption) ?_ | refine of_some_fixed (by assumption) ?_ | split | refine (foldl_fixed _ _ _ ?_).trans ?_ | refine (foldl_fixed_snd _ _ _ ?_).trans ?_ | refine (foldl_fixed_snd2 _ _ _ ?_).trans ?_ | simp only [↓State.fixed_mk, ↓State.fixed_def, State.fixed_def])

theorem depart_fixed (d : ℕ) (i : ℕ) (s : State) :
    (depart d i s).2.fixed = s.fixed := by
  unfold depart
  (try dsimp only)
  repeat' with_reducible (first | rfl | assumption | intro _ | refine ite_fixed ?_ ?_ | refine ite_snd_fixed ?_ ?_ | refine ite_snd2_fixed ?_ ?_ | refine getD_fixed ?_ ?_ | refine ite_elim_fixed ?_ ?_ | refine (some_elim_fixed ..).trans ?_ | refine (none_elim_fixed ..).trans ?_ | refine ite_fst_elim_fixed ?_ ?_ | refine map_elim_fixed ?_ ?_ | refine bind_elim_fixed ?_ ?_ | refine foldl_elim_fixed _ _ _ ?_ ?_ | refine departFabric_fixed (hc := ?_) .. | refine (departHere_fixed ..).trans ?_ | refine departHere_fixed_elim (hc := ?_) .. | refine departSaddle_fixed (hc := ?_) .. | refine snd_fixed (by assumption) ?_ | refine snd2_fixed (by assumption) ?_ | refine fst_elim_fixed (by assumption) ?_ | refine of_some_fixed (by assumption) ?_ | split | refine (foldl_fixed _ _ _ ?_).trans ?_ | refine (foldl_fixed_snd _ _ _ ?_).trans ?_ | refine (foldl_fixed_snd2 _ _ _ ?_).trans ?_ | simp only [↓State.fixed_mk, ↓State.fixed_def, State.fixed_def])

theorem depart_fixed_elim (d : ℕ) (i : ℕ) (s : State) {cc : Part × List Instr × Nat × Nat × BitVec 4}
    (hc : s.fixed = cc) : (depart d i s).1.elim cc State.fixed = cc := by
  subst hc
  unfold depart
  (try dsimp only)
  repeat' with_reducible (first | rfl | assumption | intro _ | refine ite_fixed ?_ ?_ | refine ite_snd_fixed ?_ ?_ | refine ite_snd2_fixed ?_ ?_ | refine getD_fixed ?_ ?_ | refine ite_elim_fixed ?_ ?_ | refine (some_elim_fixed ..).trans ?_ | refine (none_elim_fixed ..).trans ?_ | refine ite_fst_elim_fixed ?_ ?_ | refine map_elim_fixed ?_ ?_ | refine bind_elim_fixed ?_ ?_ | refine foldl_elim_fixed _ _ _ ?_ ?_ | refine departFabric_fixed (hc := ?_) .. | refine (departHere_fixed ..).trans ?_ | refine departHere_fixed_elim (hc := ?_) .. | refine departSaddle_fixed (hc := ?_) .. | refine snd_fixed (by assumption) ?_ | refine snd2_fixed (by assumption) ?_ | refine fst_elim_fixed (by assumption) ?_ | refine of_some_fixed (by assumption) ?_ | split | refine (foldl_fixed _ _ _ ?_).trans ?_ | refine (foldl_fixed_snd _ _ _ ?_).trans ?_ | refine (foldl_fixed_snd2 _ _ _ ?_).trans ?_ | simp only [↓State.fixed_mk, ↓State.fixed_def, State.fixed_def])

theorem departRead_fixed (d : ℕ) (i : ℕ) (express : Bool) (s : State) :
    (departRead d i express s).2.fixed = s.fixed := by
  unfold departRead
  (try dsimp only)
  repeat' with_reducible (first | rfl | assumption | intro _ | refine ite_fixed ?_ ?_ | refine ite_snd_fixed ?_ ?_ | refine ite_snd2_fixed ?_ ?_ | refine getD_fixed ?_ ?_ | refine ite_elim_fixed ?_ ?_ | refine (some_elim_fixed ..).trans ?_ | refine (none_elim_fixed ..).trans ?_ | refine ite_fst_elim_fixed ?_ ?_ | refine map_elim_fixed ?_ ?_ | refine bind_elim_fixed ?_ ?_ | refine foldl_elim_fixed _ _ _ ?_ ?_ | refine (State.dinc_fixed ..).trans ?_ | refine (State.when_fixed _ _ _ ?_).trans ?_ | refine (bodyRead_fixed ..).trans ?_ | refine (depart_fixed ..).trans ?_ | refine depart_fixed_elim (hc := ?_) .. | refine (dropPkt_fixed ..).trans ?_ | refine (poisonBody_fixed ..).trans ?_ | refine snd_fixed (by assumption) ?_ | refine snd2_fixed (by assumption) ?_ | refine fst_elim_fixed (by assumption) ?_ | refine of_some_fixed (by assumption) ?_ | split | refine (foldl_fixed _ _ _ ?_).trans ?_ | refine (foldl_fixed_snd _ _ _ ?_).trans ?_ | refine (foldl_fixed_snd2 _ _ _ ?_).trans ?_ | simp only [↓State.fixed_mk, ↓State.fixed_def, State.fixed_def])

theorem departRead_fixed_elim (d : ℕ) (i : ℕ) (express : Bool) (s : State) {cc : Part × List Instr × Nat × Nat × BitVec 4}
    (hc : s.fixed = cc) : (departRead d i express s).1.elim cc State.fixed = cc := by
  subst hc
  unfold departRead
  (try dsimp only)
  repeat' with_reducible (first | rfl | assumption | intro _ | refine ite_fixed ?_ ?_ | refine ite_snd_fixed ?_ ?_ | refine ite_snd2_fixed ?_ ?_ | refine getD_fixed ?_ ?_ | refine ite_elim_fixed ?_ ?_ | refine (some_elim_fixed ..).trans ?_ | refine (none_elim_fixed ..).trans ?_ | refine ite_fst_elim_fixed ?_ ?_ | refine map_elim_fixed ?_ ?_ | refine bind_elim_fixed ?_ ?_ | refine foldl_elim_fixed _ _ _ ?_ ?_ | refine (State.dinc_fixed ..).trans ?_ | refine (State.when_fixed _ _ _ ?_).trans ?_ | refine (bodyRead_fixed ..).trans ?_ | refine (depart_fixed ..).trans ?_ | refine depart_fixed_elim (hc := ?_) .. | refine (dropPkt_fixed ..).trans ?_ | refine (poisonBody_fixed ..).trans ?_ | refine snd_fixed (by assumption) ?_ | refine snd2_fixed (by assumption) ?_ | refine fst_elim_fixed (by assumption) ?_ | refine of_some_fixed (by assumption) ?_ | split | refine (foldl_fixed _ _ _ ?_).trans ?_ | refine (foldl_fixed_snd _ _ _ ?_).trans ?_ | refine (foldl_fixed_snd2 _ _ _ ?_).trans ?_ | simp only [↓State.fixed_mk, ↓State.fixed_def, State.fixed_def])

theorem flushCut_fixed (d : ℕ) (i : ℕ) (s : State) :
    (flushCut d i s).fixed = s.fixed := by
  unfold flushCut
  repeat' with_reducible (first | rfl | refine ite_fixed ?_ ?_ | refine (State.newPkt_fixed ..).trans ?_ | refine (State.send_fixed ..).trans ?_ | refine (finishPkt_fixed ..).trans ?_ | refine (pushCells_fixed ..).trans ?_ | refine (readRest_fixed ..).trans ?_ | refine (tailCharge_fixed ..).trans ?_ | split)

theorem sendLcf_fixed (d : ℕ) (l : ℕ) (op : ℕ) (seq : ℕ) (data : ℕ) (s : State) :
    (sendLcf d l op seq data s).fixed = s.fixed := by
  unfold sendLcf
  repeat' with_reducible (first | rfl | refine ite_fixed ?_ ?_ | refine (onLink_fixed ..).trans ?_ | split)

theorem sendTrain_fixed (d : ℕ) (l : ℕ) (s : State) :
    (sendTrain d l s).fixed = s.fixed := by
  unfold sendTrain
  repeat' with_reducible (first | rfl | refine ite_fixed ?_ ?_ | refine (sendLcf_fixed ..).trans ?_ | split)

theorem wakeSet_fixed (d : ℕ) (set : ℕ) (not_ : ℕ) (s : State) :
    (wakeSet d set not_ s).fixed = s.fixed := by
  unfold wakeSet
  repeat' with_reducible (first | rfl | refine ite_fixed ?_ ?_ | intro _ | refine (State.dset_fixed ..).trans ?_ | refine (State.each_fixed _ _ _ ?_).trans ?_ | refine (State.onDie_fixed ..).trans ?_ | refine (onLink_fixed ..).trans ?_ | refine (sendLcf_fixed ..).trans ?_ | split | refine (foldl_fixed _ _ _ ?_).trans ?_ | simp only [↓State.fixed_mk, ↓State.fixed_def, State.fixed_def])

theorem otherLink_fixed (d : ℕ) (not_ : ℕ) (s : State) :
    (otherLink d not_ s).2.fixed = s.fixed := by
  unfold otherLink
  repeat' with_reducible (first | rfl | refine ite_fixed ?_ ?_ | refine (wakeSet_fixed ..).trans ?_ | split)

theorem resendPkt_fixed (d : ℕ) (i : ℕ) (not_ : ℕ) (s : State) :
    (resendPkt d i not_ s).fixed = s.fixed := by
  unfold resendPkt
  (try dsimp only)
  repeat' with_reducible (first | rfl | assumption | intro _ | refine ite_fixed ?_ ?_ | refine ite_snd_fixed ?_ ?_ | refine ite_snd2_fixed ?_ ?_ | refine getD_fixed ?_ ?_ | refine ite_elim_fixed ?_ ?_ | refine (some_elim_fixed ..).trans ?_ | refine (none_elim_fixed ..).trans ?_ | refine ite_fst_elim_fixed ?_ ?_ | refine map_elim_fixed ?_ ?_ | refine bind_elim_fixed ?_ ?_ | refine foldl_elim_fixed _ _ _ ?_ ?_ | refine (State.dinc_fixed ..).trans ?_ | refine (State.onPkt_fixed ..).trans ?_ | refine (finishPkt_fixed ..).trans ?_ | refine (onLink_fixed ..).trans ?_ | refine (otherLink_fixed ..).trans ?_ | refine (pushCells_fixed ..).trans ?_ | refine (recharge_fixed ..).trans ?_ | refine snd_fixed (by assumption) ?_ | refine snd2_fixed (by assumption) ?_ | refine fst_elim_fixed (by assumption) ?_ | refine of_some_fixed (by assumption) ?_ | split | refine (foldl_fixed _ _ _ ?_).trans ?_ | refine (foldl_fixed_snd _ _ _ ?_).trans ?_ | refine (foldl_fixed_snd2 _ _ _ ?_).trans ?_ | simp only [↓State.fixed_mk, ↓State.fixed_def, State.fixed_def])

theorem linkVoid_fixed (d : ℕ) (l : ℕ) (s : State) :
    (linkVoid d l s).fixed = s.fixed := by
  unfold linkVoid
  (try dsimp only)
  repeat' with_reducible (first | rfl | assumption | intro _ | refine ite_fixed ?_ ?_ | refine ite_snd_fixed ?_ ?_ | refine ite_snd2_fixed ?_ ?_ | refine getD_fixed ?_ ?_ | refine ite_elim_fixed ?_ ?_ | refine (some_elim_fixed ..).trans ?_ | refine (none_elim_fixed ..).trans ?_ | refine ite_fst_elim_fixed ?_ ?_ | refine map_elim_fixed ?_ ?_ | refine bind_elim_fixed ?_ ?_ | refine foldl_elim_fixed _ _ _ ?_ ?_ | refine (State.dset_fixed ..).trans ?_ | refine (State.each_fixed _ _ _ ?_).trans ?_ | refine (ctlPut_fixed ..).trans ?_ | refine (onLink_fixed ..).trans ?_ | refine (otherLink_fixed ..).trans ?_ | refine (resendPkt_fixed ..).trans ?_ | refine snd_fixed (by assumption) ?_ | refine snd2_fixed (by assumption) ?_ | refine fst_elim_fixed (by assumption) ?_ | refine of_some_fixed (by assumption) ?_ | split | refine (foldl_fixed _ _ _ ?_).trans ?_ | refine (foldl_fixed_snd _ _ _ ?_).trans ?_ | refine (foldl_fixed_snd2 _ _ _ ?_).trans ?_ | simp only [↓State.fixed_mk, ↓State.fixed_def, State.fixed_def])

theorem linkFenced_fixed (d : ℕ) (l : ℕ) (cause : ℕ) (s : State) :
    (linkFenced d l cause s).fixed = s.fixed := by
  unfold linkFenced
  repeat' with_reducible (first | rfl | refine ite_fixed ?_ ?_ | refine (State.dset_fixed ..).trans ?_ | refine (onLink_fixed ..).trans ?_ | split)

theorem linkOff_fixed (d : ℕ) (l : ℕ) (s : State) :
    (linkOff d l s).fixed = s.fixed := by
  unfold linkOff
  (try dsimp only)
  repeat' with_reducible (first | rfl | assumption | intro _ | refine ite_fixed ?_ ?_ | refine ite_snd_fixed ?_ ?_ | refine ite_snd2_fixed ?_ ?_ | refine getD_fixed ?_ ?_ | refine ite_elim_fixed ?_ ?_ | refine (some_elim_fixed ..).trans ?_ | refine (none_elim_fixed ..).trans ?_ | refine ite_fst_elim_fixed ?_ ?_ | refine map_elim_fixed ?_ ?_ | refine bind_elim_fixed ?_ ?_ | refine foldl_elim_fixed _ _ _ ?_ ?_ | refine (State.dset_fixed ..).trans ?_ | refine (linkVoid_fixed ..).trans ?_ | refine (onLink_fixed ..).trans ?_ | refine snd_fixed (by assumption) ?_ | refine snd2_fixed (by assumption) ?_ | refine fst_elim_fixed (by assumption) ?_ | refine of_some_fixed (by assumption) ?_ | split | refine (foldl_fixed _ _ _ ?_).trans ?_ | refine (foldl_fixed_snd _ _ _ ?_).trans ?_ | refine (foldl_fixed_snd2 _ _ _ ?_).trans ?_ | simp only [↓State.fixed_mk, ↓State.fixed_def, State.fixed_def])

theorem linkDown_fixed (d : ℕ) (l : ℕ) (cause : ℕ) (s : State) :
    (linkDown d l cause s).fixed = s.fixed := by
  unfold linkDown
  repeat' with_reducible (first | rfl | refine ite_fixed ?_ ?_ | refine (State.dinc_fixed ..).trans ?_ | refine (State.dset_fixed ..).trans ?_ | refine (State.report_fixed ..).trans ?_ | refine (State.reportOpen_fixed ..).trans ?_ | refine (linkFenced_fixed ..).trans ?_ | refine (linkOff_fixed ..).trans ?_ | refine (linkVoid_fixed ..).trans ?_ | refine (onLink_fixed ..).trans ?_ | refine (wakeSet_fixed ..).trans ?_ | split)

theorem linkStart_fixed (d : ℕ) (l : ℕ) (s : State) :
    (linkStart d l s).fixed = s.fixed := by
  unfold linkStart
  repeat' with_reducible (first | rfl | refine ite_fixed ?_ ?_ | refine (State.dset_fixed ..).trans ?_ | refine (onLink_fixed ..).trans ?_ | split)

theorem linkEnables_fixed (d : ℕ) (v : ℕ) (s : State) :
    (linkEnables d v s).fixed = s.fixed := by
  unfold linkEnables
  repeat' with_reducible (first | rfl | refine ite_fixed ?_ ?_ | intro _ | refine (State.dset_fixed ..).trans ?_ | refine (State.each_fixed _ _ _ ?_).trans ?_ | refine (linkOff_fixed ..).trans ?_ | refine (linkStart_fixed ..).trans ?_ | refine (onLink_fixed ..).trans ?_ | split | refine (foldl_fixed _ _ _ ?_).trans ?_ | simp only [↓State.fixed_mk, ↓State.fixed_def, State.fixed_def])

theorem fabricIdSet_fixed (d : ℕ) (s : State) :
    (fabricIdSet d s).fixed = s.fixed := by
  unfold fabricIdSet
  repeat' with_reducible (first | rfl | refine ite_fixed ?_ ?_ | intro _ | refine (State.each_fixed _ _ _ ?_).trans ?_ | refine (linkStart_fixed ..).trans ?_ | split | refine (foldl_fixed _ _ _ ?_).trans ?_ | simp only [↓State.fixed_mk, ↓State.fixed_def, State.fixed_def])

theorem alignmentLock_fixed (d : ℕ) (l : ℕ) (a : BitVec 5140) (b : BitVec 5140) (s : State) :
    (alignmentLock d l a b s).fixed = s.fixed := by
  unfold alignmentLock
  repeat' with_reducible (first | rfl | refine ite_fixed ?_ ?_ | refine (State.dset_fixed ..).trans ?_ | refine (sendTrain_fixed ..).trans ?_ | split)

theorem cwCount_fixed (d : ℕ) (l : ℕ) (cw : Cw) (s : State) :
    (cwCount d l cw s).fixed = s.fixed := by
  unfold cwCount
  repeat' with_reducible (first | rfl | refine ite_fixed ?_ ?_ | refine (State.dinc_fixed ..).trans ?_ | split)

theorem cellBroken_fixed (d : ℕ) (l : ℕ) (replay : Bool) (s : State) :
    (cellBroken d l replay s).fixed = s.fixed := by
  unfold cellBroken
  repeat' with_reducible (first | rfl | refine ite_fixed ?_ ?_ | refine (linkDown_fixed ..).trans ?_ | refine (onLink_fixed ..).trans ?_ | refine (sendLcf_fixed ..).trans ?_ | split)

theorem lcfIn_fixed (d l : Nat) (cw : Cw) (f : State → State) (s : State) (h : ∀ a, (f a).fixed = a.fixed) :
    (lcfIn d l cw f s).fixed = s.fixed := by
  unfold lcfIn; dsimp only
  split
  · rw [cellBroken_fixed, cwCount_fixed]
  · rw [h, cwCount_fixed]

theorem linkReady_fixed (d : ℕ) (l : ℕ) (s : State) :
    (linkReady d l s).fixed = s.fixed := by
  unfold linkReady
  repeat' with_reducible (first | rfl | refine ite_fixed ?_ ?_ | refine (State.dset_fixed ..).trans ?_ | refine (clearLost_fixed ..).trans ?_ | refine (linkOff_fixed ..).trans ?_ | refine (linkPump_fixed ..).trans ?_ | refine (onLink_fixed ..).trans ?_ | split)

theorem lcfTrain_fixed (d : ℕ) (l : ℕ) (f : BitVec 64) (s : State) :
    (lcfTrain d l f s).fixed = s.fixed := by
  unfold lcfTrain
  repeat' with_reducible (first | rfl | refine ite_fixed ?_ ?_ | refine (State.dset_fixed ..).trans ?_ | refine (linkDown_fixed ..).trans ?_ | refine (linkReady_fixed ..).trans ?_ | refine (onLink_fixed ..).trans ?_ | refine (sendLcf_fixed ..).trans ?_ | split)

theorem lcfCreditInit_fixed (d : ℕ) (l : ℕ) (f : BitVec 64) (s : State) :
    (lcfCreditInit d l f s).fixed = s.fixed := by
  unfold lcfCreditInit
  repeat' with_reducible (first | rfl | refine ite_fixed ?_ ?_ | refine (State.dset_fixed ..).trans ?_ | refine (linkReady_fixed ..).trans ?_ | refine (onLink_fixed ..).trans ?_ | refine (sendLcf_fixed ..).trans ?_ | split)

theorem lcfReady_fixed (d : ℕ) (l : ℕ) (f : BitVec 64) (s : State) :
    (lcfReady d l f s).fixed = s.fixed := by
  unfold lcfReady
  repeat' with_reducible (first | rfl | refine ite_fixed ?_ ?_ | refine (linkReady_fixed ..).trans ?_ | refine (onLink_fixed ..).trans ?_ | refine (sendLcf_fixed ..).trans ?_ | split)

theorem ackTo_fixed (d : ℕ) (l : ℕ) (seq : ℕ) (s : State) :
    (ackTo d l seq s).fixed = s.fixed := by
  unfold ackTo
  repeat' with_reducible (first | rfl | refine ite_fixed ?_ ?_ | intro _ | refine (State.each_fixed _ _ _ ?_).trans ?_ | refine (finishPkt_fixed ..).trans ?_ | refine (linkPump_fixed ..).trans ?_ | refine (onLink_fixed ..).trans ?_ | split | refine (foldl_fixed _ _ _ ?_).trans ?_ | simp only [↓State.fixed_mk, ↓State.fixed_def, State.fixed_def])

theorem lcfAck_fixed (d : ℕ) (l : ℕ) (f : BitVec 64) (s : State) :
    (lcfAck d l f s).fixed = s.fixed := by
  unfold lcfAck
  repeat' with_reducible (first | rfl | refine ite_fixed ?_ ?_ | refine (ackTo_fixed ..).trans ?_ | split)

theorem lcfNak_fixed (d : ℕ) (l : ℕ) (f : BitVec 64) (s : State) :
    (lcfNak d l f s).fixed = s.fixed := by
  unfold lcfNak
  repeat' with_reducible (first | rfl | refine ite_fixed ?_ ?_ | refine (ackTo_fixed ..).trans ?_ | refine (linkPump_fixed ..).trans ?_ | refine (onLink_fixed ..).trans ?_ | split)

theorem lcfStepReq_fixed (d : ℕ) (l : ℕ) (f : BitVec 64) (s : State) :
    (lcfStepReq d l f s).fixed = s.fixed := by
  unfold lcfStepReq
  dsimp only
  repeat' with_reducible (first | rfl | refine ite_fixed ?_ ?_ | refine (onLink_fixed ..).trans ?_ | refine (sendLcf_fixed ..).trans ?_ | split)

theorem lcfStepAck_fixed (d : ℕ) (l : ℕ) (f : BitVec 64) (s : State) :
    (lcfStepAck d l f s).fixed = s.fixed := by
  unfold lcfStepAck
  repeat' with_reducible (first | rfl | refine ite_fixed ?_ ?_ | refine (State.dset_fixed ..).trans ?_ | refine (onLink_fixed ..).trans ?_ | split)

theorem lcfWakeReq_fixed (d : ℕ) (l : ℕ) (f : BitVec 64) (s : State) :
    (lcfWakeReq d l f s).fixed = s.fixed := by
  unfold lcfWakeReq
  dsimp only
  repeat' with_reducible (first | rfl | refine ite_fixed ?_ ?_ | refine (onLink_fixed ..).trans ?_ | refine (sendLcf_fixed ..).trans ?_ | split)

theorem lcfWakeAck_fixed (d : ℕ) (l : ℕ) (f : BitVec 64) (s : State) :
    (lcfWakeAck d l f s).fixed = s.fixed := by
  unfold lcfWakeAck
  repeat' with_reducible (first | rfl | refine ite_fixed ?_ ?_ | refine (State.dset_fixed ..).trans ?_ | refine (onLink_fixed ..).trans ?_ | refine (sendTrain_fixed ..).trans ?_ | split)

theorem lcfRepeat_fixed (d : ℕ) (l : ℕ) (s : State) :
    (lcfRepeat d l s).fixed = s.fixed := by
  unfold lcfRepeat
  dsimp only
  repeat' with_reducible (first | rfl | refine ite_fixed ?_ ?_ | refine (onLink_fixed ..).trans ?_ | refine (sendLcf_fixed ..).trans ?_ | refine (sendTrain_fixed ..).trans ?_ | split)

theorem creditCells_fixed (a0 : ℕ) (a1 : ℕ) (a2 : ℕ) (a3 : State) :
    (creditCells a0 a1 a2 a3).fixed = a3.fixed := by
  induction a0 generalizing a1 a2 a3 with
  | zero => rfl
  | succ n ih =>
    unfold creditCells
    (try dsimp only)
    repeat' with_reducible (first | rfl | refine (ih ..).trans ?_ | assumption | intro _ | refine ite_fixed ?_ ?_ | refine ite_snd_fixed ?_ ?_ | refine ite_snd2_fixed ?_ ?_ | refine getD_fixed ?_ ?_ | refine ite_elim_fixed ?_ ?_ | refine (some_elim_fixed ..).trans ?_ | refine (none_elim_fixed ..).trans ?_ | refine ite_fst_elim_fixed ?_ ?_ | refine map_elim_fixed ?_ ?_ | refine bind_elim_fixed ?_ ?_ | refine foldl_elim_fixed _ _ _ ?_ ?_ | refine (sendCell_fixed ..).trans ?_ | refine snd_fixed (by assumption) ?_ | refine snd2_fixed (by assumption) ?_ | refine fst_elim_fixed (by assumption) ?_ | refine of_some_fixed (by assumption) ?_ | split | refine (foldl_fixed _ _ _ ?_).trans ?_ | refine (foldl_fixed_snd _ _ _ ?_).trans ?_ | refine (foldl_fixed_snd2 _ _ _ ?_).trans ?_ | simp only [↓State.fixed_mk, ↓State.fixed_def, State.fixed_def])

theorem linkAckTimer_fixed (d : ℕ) (l : ℕ) (s : State) :
    (linkAckTimer d l s).fixed = s.fixed := by
  unfold linkAckTimer
  repeat' with_reducible (first | rfl | refine ite_fixed ?_ ?_ | refine (creditCells_fixed ..).trans ?_ | refine (onLink_fixed ..).trans ?_ | refine (sendLcf_fixed ..).trans ?_ | split)

theorem nakRepeat_fixed (d : ℕ) (l : ℕ) (s : State) :
    (nakRepeat d l s).fixed = s.fixed := by
  unfold nakRepeat
  repeat' with_reducible (first | rfl | refine ite_fixed ?_ ?_ | refine (sendLcf_fixed ..).trans ?_ | split)

theorem notePeak_fixed (d : ℕ) (k : ℕ) (depth : ℕ) (s : State) :
    (notePeak d k depth s).fixed = s.fixed := by
  unfold notePeak
  repeat' with_reducible (first | rfl | refine ite_fixed ?_ ?_ | refine (State.onDie_fixed ..).trans ?_ | split)

theorem acceptCell_fixed (d : ℕ) (l : ℕ) (hdr : BitVec 128) (payload : Bytes) (cw : Cw) (fits : Bool) (replay : Bool) (s : State) :
    (acceptCell d l hdr payload cw fits replay s).2.fixed = s.fixed := by
  unfold acceptCell
  (try dsimp only)
  repeat' with_reducible (first | rfl | assumption | intro _ | refine ite_fixed ?_ ?_ | refine ite_snd_fixed ?_ ?_ | refine ite_snd2_fixed ?_ ?_ | refine getD_fixed ?_ ?_ | refine ite_elim_fixed ?_ ?_ | refine (some_elim_fixed ..).trans ?_ | refine (none_elim_fixed ..).trans ?_ | refine ite_fst_elim_fixed ?_ ?_ | refine map_elim_fixed ?_ ?_ | refine bind_elim_fixed ?_ ?_ | refine foldl_elim_fixed _ _ _ ?_ ?_ | refine (State.dinc_fixed ..).trans ?_ | refine (State.dset_fixed ..).trans ?_ | refine (State.reportOpen_fixed ..).trans ?_ | refine (cellBroken_fixed ..).trans ?_ | refine (cwCount_fixed ..).trans ?_ | refine (linkAckTimer_fixed ..).trans ?_ | refine (linkPump_fixed ..).trans ?_ | refine (onLink_fixed ..).trans ?_ | refine (spendFlip_fixed ..).trans ?_ | refine snd_fixed (by assumption) ?_ | refine snd2_fixed (by assumption) ?_ | refine fst_elim_fixed (by assumption) ?_ | refine of_some_fixed (by assumption) ?_ | split | refine (foldl_fixed _ _ _ ?_).trans ?_ | refine (foldl_fixed_snd _ _ _ ?_).trans ?_ | refine (foldl_fixed_snd2 _ _ _ ?_).trans ?_ | simp only [↓State.fixed_mk, ↓State.fixed_def, State.fixed_def])

theorem acceptCell_fixed_elim (d : ℕ) (l : ℕ) (hdr : BitVec 128) (payload : Bytes) (cw : Cw) (fits : Bool) (replay : Bool) (s : State) {cc : Part × List Instr × Nat × Nat × BitVec 4}
    (hc : s.fixed = cc) : (acceptCell d l hdr payload cw fits replay s).1.elim cc State.fixed = cc := by
  subst hc
  unfold acceptCell
  (try dsimp only)
  repeat' with_reducible (first | rfl | assumption | intro _ | refine ite_fixed ?_ ?_ | refine ite_snd_fixed ?_ ?_ | refine ite_snd2_fixed ?_ ?_ | refine getD_fixed ?_ ?_ | refine ite_elim_fixed ?_ ?_ | refine (some_elim_fixed ..).trans ?_ | refine (none_elim_fixed ..).trans ?_ | refine ite_fst_elim_fixed ?_ ?_ | refine map_elim_fixed ?_ ?_ | refine bind_elim_fixed ?_ ?_ | refine foldl_elim_fixed _ _ _ ?_ ?_ | refine (State.dinc_fixed ..).trans ?_ | refine (State.dset_fixed ..).trans ?_ | refine (State.reportOpen_fixed ..).trans ?_ | refine (cellBroken_fixed ..).trans ?_ | refine (cwCount_fixed ..).trans ?_ | refine (linkAckTimer_fixed ..).trans ?_ | refine (linkPump_fixed ..).trans ?_ | refine (onLink_fixed ..).trans ?_ | refine (spendFlip_fixed ..).trans ?_ | refine snd_fixed (by assumption) ?_ | refine snd2_fixed (by assumption) ?_ | refine fst_elim_fixed (by assumption) ?_ | refine of_some_fixed (by assumption) ?_ | split | refine (foldl_fixed _ _ _ ?_).trans ?_ | refine (foldl_fixed_snd _ _ _ ?_).trans ?_ | refine (foldl_fixed_snd2 _ _ _ ?_).trans ?_ | simp only [↓State.fixed_mk, ↓State.fixed_def, State.fixed_def])

theorem creditCell_fixed (d : ℕ) (l : ℕ) (hdr : BitVec 128) (cw : Cw) (replay : Bool) (s : State) :
    (creditCell d l hdr cw replay s).fixed = s.fixed := by
  unfold creditCell
  repeat' with_reducible (first | rfl | refine ite_fixed ?_ ?_ | refine (acceptCell_fixed ..).trans ?_ | refine acceptCell_fixed_elim (hc := ?_) .. | split)

theorem openReasm_fixed (d : ℕ) (l : ℕ) (h : ℕ) (s : State) :
    (openReasm d l h s).2.fixed = s.fixed := by
  unfold openReasm
  dsimp only
  repeat' with_reducible (first | rfl | refine ite_fixed ?_ ?_ | refine (State.dinc_fixed ..).trans ?_ | refine (State.newPkt_fixed ..).trans ?_ | refine (State.onDie_fixed ..).trans ?_ | refine (State.onPkt_fixed ..).trans ?_ | split)

theorem closeReasm_fixed (d : ℕ) (i : ℕ) (s : State) :
    (closeReasm d i s).fixed = s.fixed := by
  unfold closeReasm
  repeat' with_reducible (first | rfl | refine ite_fixed ?_ ?_ | refine (State.onDie_fixed ..).trans ?_ | split)

theorem reassemble_fixed (d : ℕ) (l : ℕ) (h : ℕ) (payload : Bytes) (s0 : State) :
    (reassemble d l h payload s0).2.fixed = s0.fixed := by
  unfold reassemble
  (try dsimp only)
  repeat' with_reducible (first | rfl | assumption | intro _ | refine ite_fixed ?_ ?_ | refine ite_snd_fixed ?_ ?_ | refine ite_snd2_fixed ?_ ?_ | refine getD_fixed ?_ ?_ | refine ite_elim_fixed ?_ ?_ | refine (some_elim_fixed ..).trans ?_ | refine (none_elim_fixed ..).trans ?_ | refine ite_fst_elim_fixed ?_ ?_ | refine map_elim_fixed ?_ ?_ | refine bind_elim_fixed ?_ ?_ | refine foldl_elim_fixed _ _ _ ?_ ?_ | refine (State.dinc_fixed ..).trans ?_ | refine (State.onDie_fixed ..).trans ?_ | refine (State.onPkt_fixed ..).trans ?_ | refine (State.when_fixed _ _ _ ?_).trans ?_ | refine (closeReasm_fixed ..).trans ?_ | refine (creditReceived_fixed ..).trans ?_ | refine (notePeak_fixed ..).trans ?_ | refine (openReasm_fixed ..).trans ?_ | refine (poolRequest_fixed ..).trans ?_ | refine snd_fixed (by assumption) ?_ | refine snd2_fixed (by assumption) ?_ | refine fst_elim_fixed (by assumption) ?_ | refine of_some_fixed (by assumption) ?_ | split | refine (foldl_fixed _ _ _ ?_).trans ?_ | refine (foldl_fixed_snd _ _ _ ?_).trans ?_ | refine (foldl_fixed_snd2 _ _ _ ?_).trans ?_ | simp only [↓State.fixed_mk, ↓State.fixed_def, State.fixed_def])

theorem reassemble_fixed_elim (d : ℕ) (l : ℕ) (h : ℕ) (payload : Bytes) (s0 : State) {cc : Part × List Instr × Nat × Nat × BitVec 4}
    (hc : s0.fixed = cc) : (reassemble d l h payload s0).1.elim cc State.fixed = cc := by
  subst hc
  unfold reassemble
  (try dsimp only)
  repeat' with_reducible (first | rfl | assumption | intro _ | refine ite_fixed ?_ ?_ | refine ite_snd_fixed ?_ ?_ | refine ite_snd2_fixed ?_ ?_ | refine getD_fixed ?_ ?_ | refine ite_elim_fixed ?_ ?_ | refine (some_elim_fixed ..).trans ?_ | refine (none_elim_fixed ..).trans ?_ | refine ite_fst_elim_fixed ?_ ?_ | refine map_elim_fixed ?_ ?_ | refine bind_elim_fixed ?_ ?_ | refine foldl_elim_fixed _ _ _ ?_ ?_ | refine (State.dinc_fixed ..).trans ?_ | refine (State.onDie_fixed ..).trans ?_ | refine (State.onPkt_fixed ..).trans ?_ | refine (State.when_fixed _ _ _ ?_).trans ?_ | refine (closeReasm_fixed ..).trans ?_ | refine (creditReceived_fixed ..).trans ?_ | refine (notePeak_fixed ..).trans ?_ | refine (openReasm_fixed ..).trans ?_ | refine (poolRequest_fixed ..).trans ?_ | refine snd_fixed (by assumption) ?_ | refine snd2_fixed (by assumption) ?_ | refine fst_elim_fixed (by assumption) ?_ | refine of_some_fixed (by assumption) ?_ | split | refine (foldl_fixed _ _ _ ?_).trans ?_ | refine (foldl_fixed_snd _ _ _ ?_).trans ?_ | refine (foldl_fixed_snd2 _ _ _ ?_).trans ?_ | simp only [↓State.fixed_mk, ↓State.fixed_def, State.fixed_def])

theorem poisonQueued_fixed (d : ℕ) (s : State) :
    (poisonQueued d s).fixed = s.fixed := by
  unfold poisonQueued
  repeat' with_reducible (first | rfl | refine ite_fixed ?_ ?_ | intro _ | refine (State.each_fixed _ _ _ ?_).trans ?_ | refine (dropPkt_fixed ..).trans ?_ | split | refine (foldl_fixed _ _ _ ?_).trans ?_ | simp only [↓State.fixed_mk, ↓State.fixed_def, State.fixed_def])

theorem rxDrain_fixed (a0 : ℕ) (a1 : ℕ) (a2 : ℕ) (a3 : State) :
    (rxDrain a0 a1 a2 a3).fixed = a3.fixed := by
  induction a0 generalizing a1 a2 a3 with
  | zero => rfl
  | succ n ih =>
    unfold rxDrain
    (try dsimp only)
    repeat' with_reducible (first | rfl | refine (ih ..).trans ?_ | assumption | intro _ | refine ite_fixed ?_ ?_ | refine ite_snd_fixed ?_ ?_ | refine ite_snd2_fixed ?_ ?_ | refine getD_fixed ?_ ?_ | refine ite_elim_fixed ?_ ?_ | refine (some_elim_fixed ..).trans ?_ | refine (none_elim_fixed ..).trans ?_ | refine ite_fst_elim_fixed ?_ ?_ | refine map_elim_fixed ?_ ?_ | refine bind_elim_fixed ?_ ?_ | refine foldl_elim_fixed _ _ _ ?_ ?_ | refine (onLink_fixed ..).trans ?_ | refine (poisonQueued_fixed ..).trans ?_ | refine (reassemble_fixed ..).trans ?_ | refine reassemble_fixed_elim (hc := ?_) .. | refine snd_fixed (by assumption) ?_ | refine snd2_fixed (by assumption) ?_ | refine fst_elim_fixed (by assumption) ?_ | refine of_some_fixed (by assumption) ?_ | split | refine (foldl_fixed _ _ _ ?_).trans ?_ | refine (foldl_fixed_snd _ _ _ ?_).trans ?_ | refine (foldl_fixed_snd2 _ _ _ ?_).trans ?_ | simp only [↓State.fixed_mk, ↓State.fixed_def, State.fixed_def])

theorem rxDrainAll_fixed (d : ℕ) (s : State) :
    (rxDrainAll d s).fixed = s.fixed := by
  unfold rxDrainAll
  repeat' with_reducible (first | rfl | refine ite_fixed ?_ ?_ | intro _ | refine (State.each_fixed _ _ _ ?_).trans ?_ | refine (rxDrain_fixed ..).trans ?_ | split | refine (foldl_fixed _ _ _ ?_).trans ?_ | simp only [↓State.fixed_mk, ↓State.fixed_def, State.fixed_def])

theorem dataCellReceive_fixed (d : ℕ) (l : ℕ) (hdr : BitVec 128) (payload : Bytes) (cw : Cw) (replay : Bool) (s : State) :
    (dataCellReceive d l hdr payload cw replay s).fixed = s.fixed := by
  unfold dataCellReceive
  (try dsimp only)
  repeat' with_reducible (first | rfl | assumption | intro _ | refine ite_fixed ?_ ?_ | refine ite_snd_fixed ?_ ?_ | refine ite_snd2_fixed ?_ ?_ | refine getD_fixed ?_ ?_ | refine ite_elim_fixed ?_ ?_ | refine (some_elim_fixed ..).trans ?_ | refine (none_elim_fixed ..).trans ?_ | refine ite_fst_elim_fixed ?_ ?_ | refine map_elim_fixed ?_ ?_ | refine bind_elim_fixed ?_ ?_ | refine foldl_elim_fixed _ _ _ ?_ ?_ | refine (acceptCell_fixed ..).trans ?_ | refine acceptCell_fixed_elim (hc := ?_) .. | refine (onLink_fixed ..).trans ?_ | refine (rxDrain_fixed ..).trans ?_ | refine snd_fixed (by assumption) ?_ | refine snd2_fixed (by assumption) ?_ | refine fst_elim_fixed (by assumption) ?_ | refine of_some_fixed (by assumption) ?_ | split | refine (foldl_fixed _ _ _ ?_).trans ?_ | refine (foldl_fixed_snd _ _ _ ?_).trans ?_ | refine (foldl_fixed_snd2 _ _ _ ?_).trans ?_ | simp only [↓State.fixed_mk, ↓State.fixed_def, State.fixed_def])

theorem demandTake_fixed (d : ℕ) (src : ℕ) (m : ℕ) (s : State) :
    (demandTake d src m s).fixed = s.fixed := by
  unfold demandTake
  dsimp only
  repeat' with_reducible (first | rfl | refine ite_fixed ?_ ?_ | refine (State.dinc_fixed ..).trans ?_ | refine (putEntry_fixed ..).trans ?_ | split)

theorem grantTake_fixed (d : ℕ) (m : ℕ) (s : State) :
    (grantTake d m s).fixed = s.fixed := by
  unfold grantTake
  repeat' with_reducible (first | rfl | refine ite_fixed ?_ ?_ | refine (onCred_fixed ..).trans ?_ | refine (sendDemand_fixed ..).trans ?_ | refine (stallNote_fixed ..).trans ?_ | split)

theorem messagesTake_fixed (d : ℕ) (src : ℕ) (msgs : List (BitVec 128)) (s : State) :
    (messagesTake d src msgs s).fixed = s.fixed := by
  unfold messagesTake
  repeat' with_reducible (first | rfl | refine ite_fixed ?_ ?_ | intro _ | refine (State.each_fixed _ _ _ ?_).trans ?_ | refine (demandTake_fixed ..).trans ?_ | refine (grantTake_fixed ..).trans ?_ | split | refine (foldl_fixed _ _ _ ?_).trans ?_ | simp only [↓State.fixed_mk, ↓State.fixed_def, State.fixed_def])

theorem controlCell_fixed (d : ℕ) (l : ℕ) (ty : ℕ) (hdr : BitVec 128) (msgs : List (BitVec 128)) (cw : Cw) (replay : Bool) (s : State) :
    (controlCell d l ty hdr msgs cw replay s).fixed = s.fixed := by
  unfold controlCell
  (try dsimp only)
  repeat' with_reducible (first | rfl | assumption | intro _ | refine ite_fixed ?_ ?_ | refine ite_snd_fixed ?_ ?_ | refine ite_snd2_fixed ?_ ?_ | refine getD_fixed ?_ ?_ | refine ite_elim_fixed ?_ ?_ | refine (some_elim_fixed ..).trans ?_ | refine (none_elim_fixed ..).trans ?_ | refine ite_fst_elim_fixed ?_ ?_ | refine map_elim_fixed ?_ ?_ | refine bind_elim_fixed ?_ ?_ | refine foldl_elim_fixed _ _ _ ?_ ?_ | refine (acceptCell_fixed ..).trans ?_ | refine acceptCell_fixed_elim (hc := ?_) .. | refine (messagesTake_fixed ..).trans ?_ | refine snd_fixed (by assumption) ?_ | refine snd2_fixed (by assumption) ?_ | refine fst_elim_fixed (by assumption) ?_ | refine of_some_fixed (by assumption) ?_ | split | refine (foldl_fixed _ _ _ ?_).trans ?_ | refine (foldl_fixed_snd _ _ _ ?_).trans ?_ | refine (foldl_fixed_snd2 _ _ _ ?_).trans ?_ | simp only [↓State.fixed_mk, ↓State.fixed_def, State.fixed_def])

theorem demandReceive_fixed (d : ℕ) (l : ℕ) (hdr : BitVec 128) (msgs : List (BitVec 128)) (cw : Cw) (replay : Bool) (s : State) :
    (demandReceive d l hdr msgs cw replay s).fixed = s.fixed := by
  unfold demandReceive
  repeat' with_reducible (first | rfl | refine ite_fixed ?_ ?_ | refine (controlCell_fixed ..).trans ?_ | split)

theorem grantReceive_fixed (d : ℕ) (l : ℕ) (hdr : BitVec 128) (msgs : List (BitVec 128)) (cw : Cw) (replay : Bool) (s : State) :
    (grantReceive d l hdr msgs cw replay s).fixed = s.fixed := by
  unfold grantReceive
  repeat' with_reducible (first | rfl | refine ite_fixed ?_ ?_ | refine (controlCell_fixed ..).trans ?_ | split)

theorem demandTimer_fixed (d : ℕ) (v : ℕ) (s : State) :
    (demandTimer d v s).fixed = s.fixed := by
  unfold demandTimer
  repeat' with_reducible (first | rfl | refine ite_fixed ?_ ?_ | refine (onCred_fixed ..).trans ?_ | refine (sendDemand_fixed ..).trans ?_ | split)

theorem egressGrant_fixed (d : ℕ) (slot : ℕ) (tc : ℕ) (s : State) :
    (egressGrant d slot tc s).fixed = s.fixed := by
  unfold egressGrant
  dsimp only
  repeat' with_reducible (first | rfl | refine ite_fixed ?_ ?_ | refine (State.dinc_fixed ..).trans ?_ | refine (State.onDie_fixed ..).trans ?_ | refine (sendControl_fixed ..).trans ?_ | split)

theorem creditAudit_fixed (d : ℕ) (k : ℕ) (s : State) :
    (creditAudit d k s).fixed = s.fixed := by
  unfold creditAudit
  repeat' with_reducible (first | rfl | refine ite_fixed ?_ ?_ | refine (State.dinc_fixed ..).trans ?_ | refine (State.reportOpen_fixed ..).trans ?_ | refine (putEntry_fixed ..).trans ?_ | split)

theorem fabricWindow_fixed (d : ℕ) (set : ℕ) (utils : List ℕ) (s : State) :
    (fabricWindow d set utils s).fixed = s.fixed := by
  unfold fabricWindow
  repeat' with_reducible (first | rfl | refine ite_fixed ?_ ?_ | intro _ | refine (State.dset_fixed ..).trans ?_ | refine (State.each_fixed _ _ _ ?_).trans ?_ | refine (State.onDie_fixed ..).trans ?_ | refine (onLink_fixed ..).trans ?_ | refine (wakeSet_fixed ..).trans ?_ | split | refine (foldl_fixed _ _ _ ?_).trans ?_ | simp only [↓State.fixed_mk, ↓State.fixed_def, State.fixed_def])

theorem linkIdleReady_fixed (d : ℕ) (l : ℕ) (s : State) :
    (linkIdleReady d l s).fixed = s.fixed := by
  unfold linkIdleReady
  repeat' with_reducible (first | rfl | refine ite_fixed ?_ ?_ | refine (onLink_fixed ..).trans ?_ | refine (sendLcf_fixed ..).trans ?_ | split)

theorem tailReceive_fixed (d : ℕ) (slot : ℕ) (rest : Bytes) (cw : Cw) (s : State) :
    (tailReceive d slot rest cw s).fixed = s.fixed := by
  unfold tailReceive
  repeat' with_reducible (first | rfl | refine ite_fixed ?_ ?_ | refine (State.dinc_fixed ..).trans ?_ | refine (flushCut_fixed ..).trans ?_ | refine (frameTail_fixed ..).trans ?_ | split)

theorem execFrameTailReceive_fixed (d : DieId) (slot : Slot) (rest : Bytes) (cw : Cw) (s : State) {s' : State}
    (h : execFrameTailReceive d slot rest cw s = .next s') : s'.fixed = s.fixed := by
  unfold execFrameTailReceive at h
  refine onLive_fixed (fun s => ?_) h
  repeat' with_reducible (first | rfl | refine ite_fixed ?_ ?_ | refine (tailReceive_fixed ..).trans ?_ | split)

theorem execDataCellReceive_fixed (d : DieId) (l : LinkId) (hdr : BitVec 128) (payload : Bytes) (cw : Cw) (replay : Bool) (s : State) {s' : State}
    (h : execDataCellReceive d l hdr payload cw replay s = .next s') : s'.fixed = s.fixed := by
  unfold execDataCellReceive at h
  refine onLive_fixed (fun s => ?_) h
  repeat' with_reducible (first | rfl | refine ite_fixed ?_ ?_ | refine (dataCellReceive_fixed ..).trans ?_ | split)

theorem execCreditCellReceive_fixed (d : DieId) (l : LinkId) (hdr : BitVec 128) (cw : Cw) (replay : Bool) (s : State) {s' : State}
    (h : execCreditCellReceive d l hdr cw replay s = .next s') : s'.fixed = s.fixed := by
  unfold execCreditCellReceive at h
  refine onLive_fixed (fun s => ?_) h
  repeat' with_reducible (first | rfl | refine ite_fixed ?_ ?_ | refine (creditCell_fixed ..).trans ?_ | split)

theorem execDemandReceive_fixed (d : DieId) (l : LinkId) (hdr : BitVec 128) (msgs : List (BitVec 128)) (cw : Cw) (replay : Bool) (s : State) {s' : State}
    (h : execDemandReceive d l hdr msgs cw replay s = .next s') : s'.fixed = s.fixed := by
  unfold execDemandReceive at h
  refine onLive_fixed (fun s => ?_) h
  repeat' with_reducible (first | rfl | refine ite_fixed ?_ ?_ | refine (demandReceive_fixed ..).trans ?_ | split)

theorem execGrantReceive_fixed (d : DieId) (l : LinkId) (hdr : BitVec 128) (msgs : List (BitVec 128)) (cw : Cw) (replay : Bool) (s : State) {s' : State}
    (h : execGrantReceive d l hdr msgs cw replay s = .next s') : s'.fixed = s.fixed := by
  unfold execGrantReceive at h
  refine onLive_fixed (fun s => ?_) h
  repeat' with_reducible (first | rfl | refine ite_fixed ?_ ?_ | refine (grantReceive_fixed ..).trans ?_ | split)

theorem execLcfAck_fixed (d : DieId) (l : LinkId) (f : BitVec 64) (cw : Cw) (s : State) {s' : State}
    (h : execLcfAck d l f cw s = .next s') : s'.fixed = s.fixed := by
  unfold execLcfAck at h
  refine onLive_fixed (fun s => ?_) h
  repeat' with_reducible (first | rfl | refine ite_fixed ?_ ?_ | intro _ | refine (lcfAck_fixed ..).trans ?_ | refine (lcfIn_fixed _ _ _ _ _ ?_).trans ?_ | split | refine (foldl_fixed _ _ _ ?_).trans ?_ | simp only [↓State.fixed_mk, ↓State.fixed_def, State.fixed_def])

theorem execLcfNak_fixed (d : DieId) (l : LinkId) (f : BitVec 64) (cw : Cw) (s : State) {s' : State}
    (h : execLcfNak d l f cw s = .next s') : s'.fixed = s.fixed := by
  unfold execLcfNak at h
  refine onLive_fixed (fun s => ?_) h
  repeat' with_reducible (first | rfl | refine ite_fixed ?_ ?_ | intro _ | refine (lcfIn_fixed _ _ _ _ _ ?_).trans ?_ | refine (lcfNak_fixed ..).trans ?_ | split | refine (foldl_fixed _ _ _ ?_).trans ?_ | simp only [↓State.fixed_mk, ↓State.fixed_def, State.fixed_def])

theorem execLcfTrain_fixed (d : DieId) (l : LinkId) (f : BitVec 64) (cw : Cw) (s : State) {s' : State}
    (h : execLcfTrain d l f cw s = .next s') : s'.fixed = s.fixed := by
  unfold execLcfTrain at h
  refine onLive_fixed (fun s => ?_) h
  repeat' with_reducible (first | rfl | refine ite_fixed ?_ ?_ | intro _ | refine (lcfIn_fixed _ _ _ _ _ ?_).trans ?_ | refine (lcfTrain_fixed ..).trans ?_ | split | refine (foldl_fixed _ _ _ ?_).trans ?_ | simp only [↓State.fixed_mk, ↓State.fixed_def, State.fixed_def])

theorem execLcfCreditInit_fixed (d : DieId) (l : LinkId) (f : BitVec 64) (cw : Cw) (s : State) {s' : State}
    (h : execLcfCreditInit d l f cw s = .next s') : s'.fixed = s.fixed := by
  unfold execLcfCreditInit at h
  refine onLive_fixed (fun s => ?_) h
  repeat' with_reducible (first | rfl | refine ite_fixed ?_ ?_ | intro _ | refine (lcfCreditInit_fixed ..).trans ?_ | refine (lcfIn_fixed _ _ _ _ _ ?_).trans ?_ | split | refine (foldl_fixed _ _ _ ?_).trans ?_ | simp only [↓State.fixed_mk, ↓State.fixed_def, State.fixed_def])

theorem execLcfReady_fixed (d : DieId) (l : LinkId) (f : BitVec 64) (cw : Cw) (s : State) {s' : State}
    (h : execLcfReady d l f cw s = .next s') : s'.fixed = s.fixed := by
  unfold execLcfReady at h
  refine onLive_fixed (fun s => ?_) h
  repeat' with_reducible (first | rfl | refine ite_fixed ?_ ?_ | intro _ | refine (lcfIn_fixed _ _ _ _ _ ?_).trans ?_ | refine (lcfReady_fixed ..).trans ?_ | split | refine (foldl_fixed _ _ _ ?_).trans ?_ | simp only [↓State.fixed_mk, ↓State.fixed_def, State.fixed_def])

theorem execLcfStepReq_fixed (d : DieId) (l : LinkId) (f : BitVec 64) (cw : Cw) (s : State) {s' : State}
    (h : execLcfStepReq d l f cw s = .next s') : s'.fixed = s.fixed := by
  unfold execLcfStepReq at h
  refine onLive_fixed (fun s => ?_) h
  repeat' with_reducible (first | rfl | refine ite_fixed ?_ ?_ | intro _ | refine (lcfIn_fixed _ _ _ _ _ ?_).trans ?_ | refine (lcfStepReq_fixed ..).trans ?_ | split | refine (foldl_fixed _ _ _ ?_).trans ?_ | simp only [↓State.fixed_mk, ↓State.fixed_def, State.fixed_def])

theorem execLcfStepAck_fixed (d : DieId) (l : LinkId) (f : BitVec 64) (cw : Cw) (s : State) {s' : State}
    (h : execLcfStepAck d l f cw s = .next s') : s'.fixed = s.fixed := by
  unfold execLcfStepAck at h
  refine onLive_fixed (fun s => ?_) h
  repeat' with_reducible (first | rfl | refine ite_fixed ?_ ?_ | intro _ | refine (lcfIn_fixed _ _ _ _ _ ?_).trans ?_ | refine (lcfStepAck_fixed ..).trans ?_ | split | refine (foldl_fixed _ _ _ ?_).trans ?_ | simp only [↓State.fixed_mk, ↓State.fixed_def, State.fixed_def])

theorem execLcfWakeReq_fixed (d : DieId) (l : LinkId) (f : BitVec 64) (cw : Cw) (s : State) {s' : State}
    (h : execLcfWakeReq d l f cw s = .next s') : s'.fixed = s.fixed := by
  unfold execLcfWakeReq at h
  refine onLive_fixed (fun s => ?_) h
  repeat' with_reducible (first | rfl | refine ite_fixed ?_ ?_ | intro _ | refine (lcfIn_fixed _ _ _ _ _ ?_).trans ?_ | refine (lcfWakeReq_fixed ..).trans ?_ | split | refine (foldl_fixed _ _ _ ?_).trans ?_ | simp only [↓State.fixed_mk, ↓State.fixed_def, State.fixed_def])

theorem execLcfWakeAck_fixed (d : DieId) (l : LinkId) (f : BitVec 64) (cw : Cw) (s : State) {s' : State}
    (h : execLcfWakeAck d l f cw s = .next s') : s'.fixed = s.fixed := by
  unfold execLcfWakeAck at h
  refine onLive_fixed (fun s => ?_) h
  repeat' with_reducible (first | rfl | refine ite_fixed ?_ ?_ | intro _ | refine (lcfIn_fixed _ _ _ _ _ ?_).trans ?_ | refine (lcfWakeAck_fixed ..).trans ?_ | split | refine (foldl_fixed _ _ _ ?_).trans ?_ | simp only [↓State.fixed_mk, ↓State.fixed_def, State.fixed_def])

theorem execLinkAckTimer_fixed (d : DieId) (l : LinkId) (s : State) {s' : State}
    (h : execLinkAckTimer d l s = .next s') : s'.fixed = s.fixed := by
  unfold execLinkAckTimer at h
  refine onLive_fixed (fun s => ?_) h
  repeat' with_reducible (first | rfl | refine ite_fixed ?_ ?_ | refine (linkAckTimer_fixed ..).trans ?_ | split)

theorem execNakRepeat_fixed (d : DieId) (l : LinkId) (s : State) {s' : State}
    (h : execNakRepeat d l s = .next s') : s'.fixed = s.fixed := by
  unfold execNakRepeat at h
  refine onLive_fixed (fun s => ?_) h
  repeat' with_reducible (first | rfl | refine ite_fixed ?_ ?_ | refine (nakRepeat_fixed ..).trans ?_ | split)

theorem execLcfRepeat_fixed (d : DieId) (l : LinkId) (s : State) {s' : State}
    (h : execLcfRepeat d l s = .next s') : s'.fixed = s.fixed := by
  unfold execLcfRepeat at h
  refine onLive_fixed (fun s => ?_) h
  repeat' with_reducible (first | rfl | refine ite_fixed ?_ ?_ | refine (lcfRepeat_fixed ..).trans ?_ | split)

theorem execFabricLinkDown_fixed (d : DieId) (l : LinkId) (cause : Fin 5) (s : State) {s' : State}
    (h : execFabricLinkDown d l cause s = .next s') : s'.fixed = s.fixed := by
  unfold execFabricLinkDown at h
  refine onLive_fixed (fun s => ?_) h
  repeat' with_reducible (first | rfl | refine ite_fixed ?_ ?_ | refine (linkDown_fixed ..).trans ?_ | split)

theorem execLinkIdleReady_fixed (d : DieId) (l : LinkId) (s : State) {s' : State}
    (h : execLinkIdleReady d l s = .next s') : s'.fixed = s.fixed := by
  unfold execLinkIdleReady at h
  refine onLive_fixed (fun s => ?_) h
  repeat' with_reducible (first | rfl | refine ite_fixed ?_ ?_ | refine (linkIdleReady_fixed ..).trans ?_ | split)

theorem execFabricAlignmentLock_fixed (d : DieId) (l : LinkId) (a : BitVec 5140) (b : BitVec 5140) (s : State) {s' : State}
    (h : execFabricAlignmentLock d l a b s = .next s') : s'.fixed = s.fixed := by
  unfold execFabricAlignmentLock at h
  refine onLive_fixed (fun s => ?_) h
  repeat' with_reducible (first | rfl | refine ite_fixed ?_ ?_ | refine (alignmentLock_fixed ..).trans ?_ | split)

theorem execDemandTimer_fixed (d : DieId) (v : Fin 65536) (s : State) {s' : State}
    (h : execDemandTimer d v s = .next s') : s'.fixed = s.fixed := by
  unfold execDemandTimer at h
  refine onLive_fixed (fun s => ?_) h
  repeat' with_reducible (first | rfl | refine ite_fixed ?_ ?_ | refine (demandTimer_fixed ..).trans ?_ | split)

theorem execEgressGrant_fixed (d : DieId) (slot : Slot) (tc : Fin 8) (s : State) {s' : State}
    (h : execEgressGrant d slot tc s = .next s') : s'.fixed = s.fixed := by
  unfold execEgressGrant at h
  refine onLive_fixed (fun s => ?_) h
  repeat' with_reducible (first | rfl | refine ite_fixed ?_ ?_ | refine (egressGrant_fixed ..).trans ?_ | split)

theorem execCreditAudit_fixed (d : DieId) (k : Fin 65536) (s : State) {s' : State}
    (h : execCreditAudit d k s = .next s') : s'.fixed = s.fixed := by
  unfold execCreditAudit at h
  refine onLive_fixed (fun s => ?_) h
  repeat' with_reducible (first | rfl | refine ite_fixed ?_ ?_ | refine (creditAudit_fixed ..).trans ?_ | split)

theorem execFabricUtilWindowEnd_fixed (d : DieId) (set : Fin 32) (utils : List (Fin 10001)) (s : State) {s' : State}
    (h : execFabricUtilWindowEnd d set utils s = .next s') : s'.fixed = s.fixed := by
  unfold execFabricUtilWindowEnd at h
  refine onLive_fixed (fun s => ?_) h
  repeat' with_reducible (first | rfl | refine ite_fixed ?_ ?_ | refine (fabricWindow_fixed ..).trans ?_ | split)

end Sys2Proof.Machine
end

