-- ==== Sys2Proof/Laws/Fixed/Admit.lean ====
section
/-! SUPPORT. What the operations of Machine/Admit.lean leave as it is: the part, the queue, the clock, the anti-rollback
counter and the revocation bits. -/

set_option linter.all false
set_option maxRecDepth 4000

namespace Sys2Proof.Machine

theorem onEgq_fixed (d : ℕ) (q : ℕ) (f : EgQueue → EgQueue) (s : State) :
    (onEgq d q f s).fixed = s.fixed := by
  unfold onEgq
  repeat' with_reducible (first | rfl | refine ite_fixed ?_ ?_ | refine (State.onDie_fixed ..).trans ?_ | split)

theorem egEnqueue_fixed (d : ℕ) (slot : ℕ) (tc : ℕ) (i : ℕ) (s : State) :
    (egEnqueue d slot tc i s).fixed = s.fixed := by
  unfold egEnqueue
  repeat' with_reducible (first | rfl | refine ite_fixed ?_ ?_ | refine (State.onPkt_fixed ..).trans ?_ | refine (State.stage_fixed ..).trans ?_ | refine (notePeak_fixed ..).trans ?_ | refine (onEgq_fixed ..).trans ?_ | split)

theorem egUnicast_fixed (d : ℕ) (i : ℕ) (s : State) :
    (egUnicast d i s).fixed = s.fixed := by
  unfold egUnicast
  repeat' with_reducible (first | rfl | refine ite_fixed ?_ ?_ | refine (State.stage_fixed ..).trans ?_ | refine (dropPkt_fixed ..).trans ?_ | refine (egEnqueue_fixed ..).trans ?_ | refine (onEgq_fixed ..).trans ?_ | split)

theorem voqPut_fixed (d : ℕ) (v : ℕ) (i : ℕ) (s : State) :
    (voqPut d v i s).2.fixed = s.fixed := by
  unfold voqPut
  (try dsimp only)
  repeat' with_reducible (first | rfl | assumption | intro _ | refine ite_fixed ?_ ?_ | refine ite_snd_fixed ?_ ?_ | refine ite_snd2_fixed ?_ ?_ | refine getD_fixed ?_ ?_ | refine ite_elim_fixed ?_ ?_ | refine (some_elim_fixed ..).trans ?_ | refine (none_elim_fixed ..).trans ?_ | refine ite_fst_elim_fixed ?_ ?_ | refine map_elim_fixed ?_ ?_ | refine bind_elim_fixed ?_ ?_ | refine foldl_elim_fixed _ _ _ ?_ ?_ | refine (State.dinc_fixed ..).trans ?_ | refine (State.onDie_fixed ..).trans ?_ | refine (State.onPkt_fixed ..).trans ?_ | refine (creditCheck_fixed ..).trans ?_ | refine (notePeak_fixed ..).trans ?_ | refine (onCred_fixed ..).trans ?_ | refine (poolRequest_fixed ..).trans ?_ | refine snd_fixed (by assumption) ?_ | refine snd2_fixed (by assumption) ?_ | refine fst_elim_fixed (by assumption) ?_ | refine of_some_fixed (by assumption) ?_ | split | refine (foldl_fixed _ _ _ ?_).trans ?_ | refine (foldl_fixed_snd _ _ _ ?_).trans ?_ | refine (foldl_fixed_snd2 _ _ _ ?_).trans ?_ | simp only [↓State.fixed_mk, ↓State.fixed_def, State.fixed_def])

theorem voqPut_fixed_elim (d : ℕ) (v : ℕ) (i : ℕ) (s : State) {cc : Part × List Instr × Nat × Nat × BitVec 4}
    (hc : s.fixed = cc) : (voqPut d v i s).1.elim cc State.fixed = cc := by
  subst hc
  unfold voqPut
  (try dsimp only)
  repeat' with_reducible (first | rfl | assumption | intro _ | refine ite_fixed ?_ ?_ | refine ite_snd_fixed ?_ ?_ | refine ite_snd2_fixed ?_ ?_ | refine getD_fixed ?_ ?_ | refine ite_elim_fixed ?_ ?_ | refine (some_elim_fixed ..).trans ?_ | refine (none_elim_fixed ..).trans ?_ | refine ite_fst_elim_fixed ?_ ?_ | refine map_elim_fixed ?_ ?_ | refine bind_elim_fixed ?_ ?_ | refine foldl_elim_fixed _ _ _ ?_ ?_ | refine (State.dinc_fixed ..).trans ?_ | refine (State.onDie_fixed ..).trans ?_ | refine (State.onPkt_fixed ..).trans ?_ | refine (creditCheck_fixed ..).trans ?_ | refine (notePeak_fixed ..).trans ?_ | refine (onCred_fixed ..).trans ?_ | refine (poolRequest_fixed ..).trans ?_ | refine snd_fixed (by assumption) ?_ | refine snd2_fixed (by assumption) ?_ | refine fst_elim_fixed (by assumption) ?_ | refine of_some_fixed (by assumption) ?_ | split | refine (foldl_fixed _ _ _ ?_).trans ?_ | refine (foldl_fixed_snd _ _ _ ?_).trans ?_ | refine (foldl_fixed_snd2 _ _ _ ?_).trans ?_ | simp only [↓State.fixed_mk, ↓State.fixed_def, State.fixed_def])

theorem admitPunt_fixed (d : ℕ) (i : ℕ) (s : State) :
    (admitPunt d i s).fixed = s.fixed := by
  unfold admitPunt
  repeat' with_reducible (first | rfl | refine ite_fixed ?_ ?_ | refine (State.newPkt_fixed ..).trans ?_ | refine (State.send_fixed ..).trans ?_ | refine (dropPkt_fixed ..).trans ?_ | refine (finishPkt_fixed ..).trans ?_ | refine (puntTo_fixed ..).trans ?_ | split)

theorem waitJoin_fixed (d : ℕ) (i : ℕ) (s : State) :
    (waitJoin d i s).fixed = s.fixed := by
  unfold waitJoin
  repeat' with_reducible (first | rfl | refine ite_fixed ?_ ?_ | refine (State.onDie_fixed ..).trans ?_ | refine (State.stage_fixed ..).trans ?_ | split)

theorem tryExpress_fixed (d : ℕ) (i : ℕ) (s : State) :
    (tryExpress d i s).2.fixed = s.fixed := by
  unfold tryExpress
  (try dsimp only)
  repeat' with_reducible (first | rfl | assumption | intro _ | refine ite_fixed ?_ ?_ | refine ite_snd_fixed ?_ ?_ | refine ite_snd2_fixed ?_ ?_ | refine getD_fixed ?_ ?_ | refine ite_elim_fixed ?_ ?_ | refine (some_elim_fixed ..).trans ?_ | refine (none_elim_fixed ..).trans ?_ | refine ite_fst_elim_fixed ?_ ?_ | refine map_elim_fixed ?_ ?_ | refine bind_elim_fixed ?_ ?_ | refine foldl_elim_fixed _ _ _ ?_ ?_ | refine (State.onPkt_fixed ..).trans ?_ | refine (departRead_fixed ..).trans ?_ | refine departRead_fixed_elim (hc := ?_) .. | refine (onCred_fixed ..).trans ?_ | refine (refusedHere_fixed ..).trans ?_ | refine snd_fixed (by assumption) ?_ | refine snd2_fixed (by assumption) ?_ | refine fst_elim_fixed (by assumption) ?_ | refine of_some_fixed (by assumption) ?_ | split | refine (foldl_fixed _ _ _ ?_).trans ?_ | refine (foldl_fixed_snd _ _ _ ?_).trans ?_ | refine (foldl_fixed_snd2 _ _ _ ?_).trans ?_ | simp only [↓State.fixed_mk, ↓State.fixed_def, State.fixed_def])

theorem tryExpress_fixed_elim (d : ℕ) (i : ℕ) (s : State) {cc : Part × List Instr × Nat × Nat × BitVec 4}
    (hc : s.fixed = cc) : (tryExpress d i s).1.elim cc State.fixed = cc := by
  subst hc
  unfold tryExpress
  (try dsimp only)
  repeat' with_reducible (first | rfl | assumption | intro _ | refine ite_fixed ?_ ?_ | refine ite_snd_fixed ?_ ?_ | refine ite_snd2_fixed ?_ ?_ | refine getD_fixed ?_ ?_ | refine ite_elim_fixed ?_ ?_ | refine (some_elim_fixed ..).trans ?_ | refine (none_elim_fixed ..).trans ?_ | refine ite_fst_elim_fixed ?_ ?_ | refine map_elim_fixed ?_ ?_ | refine bind_elim_fixed ?_ ?_ | refine foldl_elim_fixed _ _ _ ?_ ?_ | refine (State.onPkt_fixed ..).trans ?_ | refine (departRead_fixed ..).trans ?_ | refine departRead_fixed_elim (hc := ?_) .. | refine (onCred_fixed ..).trans ?_ | refine (refusedHere_fixed ..).trans ?_ | refine snd_fixed (by assumption) ?_ | refine snd2_fixed (by assumption) ?_ | refine fst_elim_fixed (by assumption) ?_ | refine of_some_fixed (by assumption) ?_ | split | refine (foldl_fixed _ _ _ ?_).trans ?_ | refine (foldl_fixed_snd _ _ _ ?_).trans ?_ | refine (foldl_fixed_snd2 _ _ _ ?_).trans ?_ | simp only [↓State.fixed_mk, ↓State.fixed_def, State.fixed_def])

theorem refusedToo_fixed (d : ℕ) (r : ℕ) (before : State) (after : State) (s : State) :
    (refusedToo d r before after s).fixed = s.fixed := by
  unfold refusedToo
  repeat' with_reducible (first | rfl | refine ite_fixed ?_ ?_ | refine (State.dinc_fixed ..).trans ?_ | split)

theorem admitQueue_fixed (d : ℕ) (i : ℕ) (head : Bool) (s : State) :
    (admitQueue d i head s).2.fixed = s.fixed := by
  unfold admitQueue
  (try dsimp only)
  repeat' with_reducible (first | rfl | assumption | intro _ | refine ite_fixed ?_ ?_ | refine ite_snd_fixed ?_ ?_ | refine ite_snd2_fixed ?_ ?_ | refine getD_fixed ?_ ?_ | refine ite_elim_fixed ?_ ?_ | refine (some_elim_fixed ..).trans ?_ | refine (none_elim_fixed ..).trans ?_ | refine ite_fst_elim_fixed ?_ ?_ | refine map_elim_fixed ?_ ?_ | refine bind_elim_fixed ?_ ?_ | refine foldl_elim_fixed _ _ _ ?_ ?_ | refine (State.onDie_fixed ..).trans ?_ | refine (dropPkt_fixed ..).trans ?_ | refine (refusedHere_fixed ..).trans ?_ | refine (refusedToo_fixed ..).trans ?_ | refine (tryExpress_fixed ..).trans ?_ | refine tryExpress_fixed_elim (hc := ?_) .. | refine (voqPut_fixed ..).trans ?_ | refine voqPut_fixed_elim (hc := ?_) .. | refine (waitJoin_fixed ..).trans ?_ | refine snd_fixed (by assumption) ?_ | refine snd2_fixed (by assumption) ?_ | refine fst_elim_fixed (by assumption) ?_ | refine of_some_fixed (by assumption) ?_ | split | refine (foldl_fixed _ _ _ ?_).trans ?_ | refine (foldl_fixed_snd _ _ _ ?_).trans ?_ | refine (foldl_fixed_snd2 _ _ _ ?_).trans ?_ | simp only [↓State.fixed_mk, ↓State.fixed_def, State.fixed_def])

theorem admitQueue_fixed_elim (d : ℕ) (i : ℕ) (head : Bool) (s : State) {cc : Part × List Instr × Nat × Nat × BitVec 4}
    (hc : s.fixed = cc) : (admitQueue d i head s).1.elim cc State.fixed = cc := by
  subst hc
  unfold admitQueue
  (try dsimp only)
  repeat' with_reducible (first | rfl | assumption | intro _ | refine ite_fixed ?_ ?_ | refine ite_snd_fixed ?_ ?_ | refine ite_snd2_fixed ?_ ?_ | refine getD_fixed ?_ ?_ | refine ite_elim_fixed ?_ ?_ | refine (some_elim_fixed ..).trans ?_ | refine (none_elim_fixed ..).trans ?_ | refine ite_fst_elim_fixed ?_ ?_ | refine map_elim_fixed ?_ ?_ | refine bind_elim_fixed ?_ ?_ | refine foldl_elim_fixed _ _ _ ?_ ?_ | refine (State.onDie_fixed ..).trans ?_ | refine (dropPkt_fixed ..).trans ?_ | refine (refusedHere_fixed ..).trans ?_ | refine (refusedToo_fixed ..).trans ?_ | refine (tryExpress_fixed ..).trans ?_ | refine tryExpress_fixed_elim (hc := ?_) .. | refine (voqPut_fixed ..).trans ?_ | refine voqPut_fixed_elim (hc := ?_) .. | refine (waitJoin_fixed ..).trans ?_ | refine snd_fixed (by assumption) ?_ | refine snd2_fixed (by assumption) ?_ | refine fst_elim_fixed (by assumption) ?_ | refine of_some_fixed (by assumption) ?_ | split | refine (foldl_fixed _ _ _ ?_).trans ?_ | refine (foldl_fixed_snd _ _ _ ?_).trans ?_ | refine (foldl_fixed_snd2 _ _ _ ?_).trans ?_ | simp only [↓State.fixed_mk, ↓State.fixed_def, State.fixed_def])

theorem leaveCells_fixed (i : ℕ) (s : State) :
    (leaveCells i s).fixed = s.fixed := by
  unfold leaveCells
  repeat' with_reducible (first | rfl | refine ite_fixed ?_ ?_ | intro _ | refine (State.each_fixed _ _ _ ?_).trans ?_ | refine (State.newPkt_fixed ..).trans ?_ | refine (State.onPkt_fixed ..).trans ?_ | split | refine (foldl_fixed _ _ _ ?_).trans ?_ | simp only [↓State.fixed_mk, ↓State.fixed_def, State.fixed_def])

theorem admitRecirc_fixed (d : ℕ) (i : ℕ) (s : State) :
    (admitRecirc d i s).2.fixed = s.fixed := by
  unfold admitRecirc
  (try dsimp only)
  repeat' with_reducible (first | rfl | assumption | intro _ | refine ite_fixed ?_ ?_ | refine ite_snd_fixed ?_ ?_ | refine ite_snd2_fixed ?_ ?_ | refine getD_fixed ?_ ?_ | refine ite_elim_fixed ?_ ?_ | refine (some_elim_fixed ..).trans ?_ | refine (none_elim_fixed ..).trans ?_ | refine ite_fst_elim_fixed ?_ ?_ | refine map_elim_fixed ?_ ?_ | refine bind_elim_fixed ?_ ?_ | refine foldl_elim_fixed _ _ _ ?_ ?_ | refine (State.dinc_fixed ..).trans ?_ | refine (State.onDie_fixed ..).trans ?_ | refine (State.onPkt_fixed ..).trans ?_ | refine (bodyRead_fixed ..).trans ?_ | refine (dropPkt_fixed ..).trans ?_ | refine (leaveCells_fixed ..).trans ?_ | refine (poolFreeUnits_fixed ..).trans ?_ | refine (poolRequest_fixed ..).trans ?_ | refine (releaseUnits_fixed ..).trans ?_ | refine snd_fixed (by assumption) ?_ | refine snd2_fixed (by assumption) ?_ | refine fst_elim_fixed (by assumption) ?_ | refine of_some_fixed (by assumption) ?_ | split | refine (foldl_fixed _ _ _ ?_).trans ?_ | refine (foldl_fixed_snd _ _ _ ?_).trans ?_ | refine (foldl_fixed_snd2 _ _ _ ?_).trans ?_ | simp only [↓State.fixed_mk, ↓State.fixed_def, State.fixed_def])

theorem admitRecirc_fixed_elim (d : ℕ) (i : ℕ) (s : State) {cc : Part × List Instr × Nat × Nat × BitVec 4}
    (hc : s.fixed = cc) : (admitRecirc d i s).1.elim cc State.fixed = cc := by
  subst hc
  unfold admitRecirc
  (try dsimp only)
  repeat' with_reducible (first | rfl | assumption | intro _ | refine ite_fixed ?_ ?_ | refine ite_snd_fixed ?_ ?_ | refine ite_snd2_fixed ?_ ?_ | refine getD_fixed ?_ ?_ | refine ite_elim_fixed ?_ ?_ | refine (some_elim_fixed ..).trans ?_ | refine (none_elim_fixed ..).trans ?_ | refine ite_fst_elim_fixed ?_ ?_ | refine map_elim_fixed ?_ ?_ | refine bind_elim_fixed ?_ ?_ | refine foldl_elim_fixed _ _ _ ?_ ?_ | refine (State.dinc_fixed ..).trans ?_ | refine (State.onDie_fixed ..).trans ?_ | refine (State.onPkt_fixed ..).trans ?_ | refine (bodyRead_fixed ..).trans ?_ | refine (dropPkt_fixed ..).trans ?_ | refine (leaveCells_fixed ..).trans ?_ | refine (poolFreeUnits_fixed ..).trans ?_ | refine (poolRequest_fixed ..).trans ?_ | refine (releaseUnits_fixed ..).trans ?_ | refine snd_fixed (by assumption) ?_ | refine snd2_fixed (by assumption) ?_ | refine fst_elim_fixed (by assumption) ?_ | refine of_some_fixed (by assumption) ?_ | split | refine (foldl_fixed _ _ _ ?_).trans ?_ | refine (foldl_fixed_snd _ _ _ ?_).trans ?_ | refine (foldl_fixed_snd2 _ _ _ ?_).trans ?_ | simp only [↓State.fixed_mk, ↓State.fixed_def, State.fixed_def])

theorem admitPkt_fixed (d : ℕ) (i : ℕ) (s : State) :
    (admitPkt d i s).2.fixed = s.fixed := by
  unfold admitPkt
  (try dsimp only)
  repeat' with_reducible (first | rfl | assumption | intro _ | refine ite_fixed ?_ ?_ | refine ite_snd_fixed ?_ ?_ | refine ite_snd2_fixed ?_ ?_ | refine getD_fixed ?_ ?_ | refine ite_elim_fixed ?_ ?_ | refine (some_elim_fixed ..).trans ?_ | refine (none_elim_fixed ..).trans ?_ | refine ite_fst_elim_fixed ?_ ?_ | refine map_elim_fixed ?_ ?_ | refine bind_elim_fixed ?_ ?_ | refine foldl_elim_fixed _ _ _ ?_ ?_ | refine (admitPunt_fixed ..).trans ?_ | refine (admitQueue_fixed ..).trans ?_ | refine admitQueue_fixed_elim (hc := ?_) .. | refine (admitRecirc_fixed ..).trans ?_ | refine admitRecirc_fixed_elim (hc := ?_) .. | refine snd_fixed (by assumption) ?_ | refine snd2_fixed (by assumption) ?_ | refine fst_elim_fixed (by assumption) ?_ | refine of_some_fixed (by assumption) ?_ | split | refine (foldl_fixed _ _ _ ?_).trans ?_ | refine (foldl_fixed_snd _ _ _ ?_).trans ?_ | refine (foldl_fixed_snd2 _ _ _ ?_).trans ?_ | simp only [↓State.fixed_mk, ↓State.fixed_def, State.fixed_def])

theorem admitPkt_fixed_elim (d : ℕ) (i : ℕ) (s : State) {cc : Part × List Instr × Nat × Nat × BitVec 4}
    (hc : s.fixed = cc) : (admitPkt d i s).1.elim cc State.fixed = cc := by
  subst hc
  unfold admitPkt
  (try dsimp only)
  repeat' with_reducible (first | rfl | assumption | intro _ | refine ite_fixed ?_ ?_ | refine ite_snd_fixed ?_ ?_ | refine ite_snd2_fixed ?_ ?_ | refine getD_fixed ?_ ?_ | refine ite_elim_fixed ?_ ?_ | refine (some_elim_fixed ..).trans ?_ | refine (none_elim_fixed ..).trans ?_ | refine ite_fst_elim_fixed ?_ ?_ | refine map_elim_fixed ?_ ?_ | refine bind_elim_fixed ?_ ?_ | refine foldl_elim_fixed _ _ _ ?_ ?_ | refine (admitPunt_fixed ..).trans ?_ | refine (admitQueue_fixed ..).trans ?_ | refine admitQueue_fixed_elim (hc := ?_) .. | refine (admitRecirc_fixed ..).trans ?_ | refine admitRecirc_fixed_elim (hc := ?_) .. | refine snd_fixed (by assumption) ?_ | refine snd2_fixed (by assumption) ?_ | refine fst_elim_fixed (by assumption) ?_ | refine of_some_fixed (by assumption) ?_ | split | refine (foldl_fixed _ _ _ ?_).trans ?_ | refine (foldl_fixed_snd _ _ _ ?_).trans ?_ | refine (foldl_fixed_snd2 _ _ _ ?_).trans ?_ | simp only [↓State.fixed_mk, ↓State.fixed_def, State.fixed_def])

theorem admitLoser_fixed (d : ℕ) (out : ℕ) (won : ℕ) (s : State) :
    (admitLoser d out won s).fixed = s.fixed := by
  unfold admitLoser
  (try dsimp only)
  repeat' with_reducible (first | rfl | assumption | intro _ | refine ite_fixed ?_ ?_ | refine ite_snd_fixed ?_ ?_ | refine ite_snd2_fixed ?_ ?_ | refine getD_fixed ?_ ?_ | refine ite_elim_fixed ?_ ?_ | refine (some_elim_fixed ..).trans ?_ | refine (none_elim_fixed ..).trans ?_ | refine ite_fst_elim_fixed ?_ ?_ | refine map_elim_fixed ?_ ?_ | refine bind_elim_fixed ?_ ?_ | refine foldl_elim_fixed _ _ _ ?_ ?_ | refine (dropPkt_fixed ..).trans ?_ | refine (putWin_fixed ..).trans ?_ | refine (voqPut_fixed ..).trans ?_ | refine voqPut_fixed_elim (hc := ?_) .. | refine (waitJoin_fixed ..).trans ?_ | refine snd_fixed (by assumption) ?_ | refine snd2_fixed (by assumption) ?_ | refine fst_elim_fixed (by assumption) ?_ | refine of_some_fixed (by assumption) ?_ | split | refine (foldl_fixed _ _ _ ?_).trans ?_ | refine (foldl_fixed_snd _ _ _ ?_).trans ?_ | refine (foldl_fixed_snd2 _ _ _ ?_).trans ?_ | simp only [↓State.fixed_mk, ↓State.fixed_def, State.fixed_def])

theorem reseqRelease_fixed (d : ℕ) (eg : Bool) (out : ℕ) (s : State) :
    (reseqRelease d eg out s).fixed = s.fixed := by
  unfold reseqRelease
  (try dsimp only)
  repeat' with_reducible (first | rfl | assumption | intro _ | refine ite_fixed ?_ ?_ | refine ite_snd_fixed ?_ ?_ | refine ite_snd2_fixed ?_ ?_ | refine getD_fixed ?_ ?_ | refine ite_elim_fixed ?_ ?_ | refine (some_elim_fixed ..).trans ?_ | refine (none_elim_fixed ..).trans ?_ | refine ite_fst_elim_fixed ?_ ?_ | refine map_elim_fixed ?_ ?_ | refine bind_elim_fixed ?_ ?_ | refine foldl_elim_fixed _ _ _ ?_ ?_ | refine (State.onDie_fixed ..).trans ?_ | refine (State.onPkt_fixed ..).trans ?_ | refine (admitLoser_fixed ..).trans ?_ | refine (admitPkt_fixed ..).trans ?_ | refine admitPkt_fixed_elim (hc := ?_) .. | refine (egUnicast_fixed ..).trans ?_ | refine (putWin_fixed ..).trans ?_ | refine snd_fixed (by assumption) ?_ | refine snd2_fixed (by assumption) ?_ | refine fst_elim_fixed (by assumption) ?_ | refine of_some_fixed (by assumption) ?_ | split | refine (foldl_fixed _ _ _ ?_).trans ?_ | refine (foldl_fixed_snd _ _ _ ?_).trans ?_ | refine (foldl_fixed_snd2 _ _ _ ?_).trans ?_ | simp only [↓State.fixed_mk, ↓State.fixed_def, State.fixed_def])

theorem waitRetry_fixed (d : ℕ) (s : State) :
    (waitRetry d s).fixed = s.fixed := by
  unfold waitRetry
  (try dsimp only)
  repeat' with_reducible (first | rfl | assumption | intro _ | refine ite_fixed ?_ ?_ | refine ite_snd_fixed ?_ ?_ | refine ite_snd2_fixed ?_ ?_ | refine getD_fixed ?_ ?_ | refine ite_elim_fixed ?_ ?_ | refine (some_elim_fixed ..).trans ?_ | refine (none_elim_fixed ..).trans ?_ | refine ite_fst_elim_fixed ?_ ?_ | refine map_elim_fixed ?_ ?_ | refine bind_elim_fixed ?_ ?_ | refine foldl_elim_fixed _ _ _ ?_ ?_ | refine (admitQueue_fixed ..).trans ?_ | refine admitQueue_fixed_elim (hc := ?_) .. | refine snd_fixed (by assumption) ?_ | refine snd2_fixed (by assumption) ?_ | refine fst_elim_fixed (by assumption) ?_ | refine of_some_fixed (by assumption) ?_ | split | refine (foldl_fixed _ _ _ ?_).trans ?_ | refine (foldl_fixed_snd _ _ _ ?_).trans ?_ | refine (foldl_fixed_snd2 _ _ _ ?_).trans ?_ | simp only [↓State.fixed_mk, ↓State.fixed_def, State.fixed_def])

theorem voqDepart_fixed (d : ℕ) (v : ℕ) (s : State) :
    (voqDepart d v s).fixed = s.fixed := by
  unfold voqDepart
  (try dsimp only)
  repeat' with_reducible (first | rfl | assumption | intro _ | refine ite_fixed ?_ ?_ | refine ite_snd_fixed ?_ ?_ | refine ite_snd2_fixed ?_ ?_ | refine getD_fixed ?_ ?_ | refine ite_elim_fixed ?_ ?_ | refine (some_elim_fixed ..).trans ?_ | refine (none_elim_fixed ..).trans ?_ | refine ite_fst_elim_fixed ?_ ?_ | refine map_elim_fixed ?_ ?_ | refine bind_elim_fixed ?_ ?_ | refine foldl_elim_fixed _ _ _ ?_ ?_ | refine (State.onDie_fixed ..).trans ?_ | refine (creditCheck_fixed ..).trans ?_ | refine (departRead_fixed ..).trans ?_ | refine departRead_fixed_elim (hc := ?_) .. | refine (dropPkt_fixed ..).trans ?_ | refine (refusedHere_fixed ..).trans ?_ | refine (stallNote_fixed ..).trans ?_ | refine snd_fixed (by assumption) ?_ | refine snd2_fixed (by assumption) ?_ | refine fst_elim_fixed (by assumption) ?_ | refine of_some_fixed (by assumption) ?_ | split | refine (foldl_fixed _ _ _ ?_).trans ?_ | refine (foldl_fixed_snd _ _ _ ?_).trans ?_ | refine (foldl_fixed_snd2 _ _ _ ?_).trans ?_ | simp only [↓State.fixed_mk, ↓State.fixed_def, State.fixed_def])

theorem stacksReady_fixed (d : ℕ) (s : State) :
    (stacksReady d s).fixed = s.fixed := by
  unfold stacksReady
  repeat' with_reducible (first | rfl | refine ite_fixed ?_ ?_ | refine (State.dset_fixed ..).trans ?_ | split)

theorem replicaUnits_fixed (d i : Nat) (s : State) : (replicaUnits d i s).2.fixed = s.fixed := by
  unfold replicaUnits
  repeat' with_reducible (first | rfl | refine (poolRequest_fixed ..).trans ?_ | refine (poolFreeUnits_fixed ..).trans ?_ | refine snd_fixed (by assumption) ?_ | split)

theorem replicaUnits_some {d i : Nat} {s s1 o : State} {u : Nat} {cs : List Nat}
    (h : replicaUnits d i s = (some (u, cs, s1), o)) : s1.fixed = s.fixed := by
  unfold replicaUnits at h
  repeat' split at h
  all_goals cases h
  all_goals repeat' with_reducible (first | rfl | refine (poolRequest_fixed ..).trans ?_ | refine snd_fixed (by assumption) ?_)

theorem dressCount_fixed (p : Packet) (s : State) :
    (dressCount p s).fixed = s.fixed := by
  unfold dressCount
  repeat' with_reducible (first | rfl | refine ite_fixed ?_ ?_ | intro _ | refine (State.dinc_fixed ..).trans ?_ | refine (State.when_fixed _ _ _ ?_).trans ?_ | split | refine (foldl_fixed _ _ _ ?_).trans ?_ | simp only [↓State.fixed_mk, ↓State.fixed_def, State.fixed_def])

theorem replicaPut_fixed (d : ℕ) (i : ℕ) (slot : ℕ) (tc : ℕ) (u : ℕ) (s : State) :
    (replicaPut d i slot tc u s).fixed = s.fixed := by
  unfold replicaPut
  repeat' with_reducible (first | rfl | refine ite_fixed ?_ ?_ | refine (State.dinc_fixed ..).trans ?_ | refine (State.newPkt_fixed ..).trans ?_ | refine (State.onPkt_fixed ..).trans ?_ | refine (egEnqueue_fixed ..).trans ?_ | split)

theorem serveTarget_fixed (d : ℕ) (i : ℕ) (t : Target) (s : State) :
    (serveTarget d i t s).2.fixed = s.fixed := by
  unfold serveTarget
  (try dsimp only)
  repeat' with_reducible (first | rfl | assumption | intro _ | refine ite_fixed ?_ ?_ | refine ite_snd_fixed ?_ ?_ | refine ite_snd2_fixed ?_ ?_ | refine getD_fixed ?_ ?_ | refine ite_elim_fixed ?_ ?_ | refine (some_elim_fixed ..).trans ?_ | refine (none_elim_fixed ..).trans ?_ | refine ite_fst_elim_fixed ?_ ?_ | refine map_elim_fixed ?_ ?_ | refine bind_elim_fixed ?_ ?_ | refine foldl_elim_fixed _ _ _ ?_ ?_ | refine (State.dinc_fixed ..).trans ?_ | refine (State.onPkt_fixed ..).trans ?_ | refine (admitPunt_fixed ..).trans ?_ | refine (dressCount_fixed ..).trans ?_ | refine (dropPkt_fixed ..).trans ?_ | refine (puntTo_fixed ..).trans ?_ | refine (refusedHere_fixed ..).trans ?_ | refine (refusedToo_fixed ..).trans ?_ | refine (replicaPut_fixed ..).trans ?_ | refine (replicaUnits_fixed ..).trans ?_ | refine (replicaUnits_some (by assumption)).trans ?_ | refine (tryExpress_fixed ..).trans ?_ | refine tryExpress_fixed_elim (hc := ?_) .. | refine (voqPut_fixed ..).trans ?_ | refine voqPut_fixed_elim (hc := ?_) .. | refine snd_fixed (by assumption) ?_ | refine snd2_fixed (by assumption) ?_ | refine fst_elim_fixed (by assumption) ?_ | refine of_some_fixed (by assumption) ?_ | split | refine (foldl_fixed _ _ _ ?_).trans ?_ | refine (foldl_fixed_snd _ _ _ ?_).trans ?_ | refine (foldl_fixed_snd2 _ _ _ ?_).trans ?_ | simp only [↓State.fixed_mk, ↓State.fixed_def, State.fixed_def])

theorem serveTarget_fixed_elim (d : ℕ) (i : ℕ) (t : Target) (s : State) {cc : Part × List Instr × Nat × Nat × BitVec 4}
    (hc : s.fixed = cc) : (serveTarget d i t s).1.elim cc State.fixed = cc := by
  subst hc
  unfold serveTarget
  (try dsimp only)
  repeat' with_reducible (first | rfl | assumption | intro _ | refine ite_fixed ?_ ?_ | refine ite_snd_fixed ?_ ?_ | refine ite_snd2_fixed ?_ ?_ | refine getD_fixed ?_ ?_ | refine ite_elim_fixed ?_ ?_ | refine (some_elim_fixed ..).trans ?_ | refine (none_elim_fixed ..).trans ?_ | refine ite_fst_elim_fixed ?_ ?_ | refine map_elim_fixed ?_ ?_ | refine bind_elim_fixed ?_ ?_ | refine foldl_elim_fixed _ _ _ ?_ ?_ | refine (State.dinc_fixed ..).trans ?_ | refine (State.onPkt_fixed ..).trans ?_ | refine (admitPunt_fixed ..).trans ?_ | refine (dressCount_fixed ..).trans ?_ | refine (dropPkt_fixed ..).trans ?_ | refine (puntTo_fixed ..).trans ?_ | refine (refusedHere_fixed ..).trans ?_ | refine (refusedToo_fixed ..).trans ?_ | refine (replicaPut_fixed ..).trans ?_ | refine (replicaUnits_fixed ..).trans ?_ | refine (replicaUnits_some (by assumption)).trans ?_ | refine (tryExpress_fixed ..).trans ?_ | refine tryExpress_fixed_elim (hc := ?_) .. | refine (voqPut_fixed ..).trans ?_ | refine voqPut_fixed_elim (hc := ?_) .. | refine snd_fixed (by assumption) ?_ | refine snd2_fixed (by assumption) ?_ | refine fst_elim_fixed (by assumption) ?_ | refine of_some_fixed (by assumption) ?_ | split | refine (foldl_fixed _ _ _ ?_).trans ?_ | refine (foldl_fixed_snd _ _ _ ?_).trans ?_ | refine (foldl_fixed_snd2 _ _ _ ?_).trans ?_ | simp only [↓State.fixed_mk, ↓State.fixed_def, State.fixed_def])

theorem serveAll_fixed (d : ℕ) (i : ℕ) (a2 : List Target) (a3 : State) :
    (serveAll d i a2 a3).2.fixed = a3.fixed := by
  induction a2 generalizing a3 with
  | nil => rfl
  | cons x l ih =>
    unfold serveAll
    (try dsimp only)
    repeat' with_reducible (first | rfl | refine (ih ..).trans ?_ | assumption | intro _ | refine ite_fixed ?_ ?_ | refine ite_snd_fixed ?_ ?_ | refine ite_snd2_fixed ?_ ?_ | refine getD_fixed ?_ ?_ | refine ite_elim_fixed ?_ ?_ | refine (some_elim_fixed ..).trans ?_ | refine (none_elim_fixed ..).trans ?_ | refine ite_fst_elim_fixed ?_ ?_ | refine map_elim_fixed ?_ ?_ | refine bind_elim_fixed ?_ ?_ | refine foldl_elim_fixed _ _ _ ?_ ?_ | refine (serveTarget_fixed ..).trans ?_ | refine serveTarget_fixed_elim (hc := ?_) .. | refine snd_fixed (by assumption) ?_ | refine snd2_fixed (by assumption) ?_ | refine fst_elim_fixed (by assumption) ?_ | refine of_some_fixed (by assumption) ?_ | split | refine (foldl_fixed _ _ _ ?_).trans ?_ | refine (foldl_fixed_snd _ _ _ ?_).trans ?_ | refine (foldl_fixed_snd2 _ _ _ ?_).trans ?_ | simp only [↓State.fixed_mk, ↓State.fixed_def, State.fixed_def])

theorem replicaEnd_fixed (i : ℕ) (s : State) :
    (replicaEnd i s).fixed = s.fixed := by
  unfold replicaEnd
  repeat' with_reducible (first | rfl | refine ite_fixed ?_ ?_ | refine (finishPkt_fixed ..).trans ?_ | split)

theorem serveFirst_fixed (d : Nat) (l : List (Nat × Target)) (s : State) : (serveFirst d l s).2.fixed = s.fixed := by
  induction l generalizing s with
  | nil => rfl
  | cons x r ih =>
    obtain ⟨i, t⟩ := x
    unfold serveFirst
    repeat' with_reducible (first | rfl | refine (ih ..).trans ?_ | refine (serveTarget_fixed ..).trans ?_ | refine snd_fixed (by assumption) ?_ | split | dsimp only)

theorem serveFirst_some {d : Nat} {l : List (Nat × Target)} {s s1 o : State} {i : Nat}
    (h : serveFirst d l s = (some (i, s1), o)) : s1.fixed = s.fixed := by
  induction l generalizing s with
  | nil => unfold serveFirst at h; cases h
  | cons x r ih =>
    obtain ⟨j, t⟩ := x
    have k := serveTarget_fixed d j t s
    have ke := serveTarget_fixed_elim d j t s rfl
    simp only [serveFirst] at h
    generalize serveTarget d j t s = p at h k ke
    obtain ⟨_ | a, b⟩ := p
    · exact (ih h).trans k
    · cases h; exact ke

theorem residueOther_fixed (d : Nat) (s : State) : (residueOther d s).2.fixed = s.fixed := by
  unfold residueOther; exact serveFirst_fixed ..

theorem residueOther_some {d : Nat} {s s1 o : State} {i : Nat} (h : residueOther d s = (some (i, s1), o)) : s1.fixed = s.fixed := by
  unfold residueOther at h; exact serveFirst_some h

theorem putResidue_fixed (d : ℕ) (i : ℕ) (r : Residue) (s : State) :
    (putResidue d i r s).fixed = s.fixed := by
  unfold putResidue
  repeat' with_reducible (first | rfl | refine ite_fixed ?_ ?_ | refine (State.dset_fixed ..).trans ?_ | refine (State.onDie_fixed ..).trans ?_ | split)

theorem replication_fixed (d : ℕ) (s : State) :
    (replication d s).fixed = s.fixed := by
  unfold replication
  (try dsimp only)
  repeat' with_reducible (first | rfl | assumption | intro _ | refine ite_fixed ?_ ?_ | refine ite_snd_fixed ?_ ?_ | refine ite_snd2_fixed ?_ ?_ | refine getD_fixed ?_ ?_ | refine ite_elim_fixed ?_ ?_ | refine (some_elim_fixed ..).trans ?_ | refine (none_elim_fixed ..).trans ?_ | refine ite_fst_elim_fixed ?_ ?_ | refine map_elim_fixed ?_ ?_ | refine bind_elim_fixed ?_ ?_ | refine foldl_elim_fixed _ _ _ ?_ ?_ | refine (State.dinc_fixed ..).trans ?_ | refine (State.each_fixed _ _ _ ?_).trans ?_ | refine (State.onDie_fixed ..).trans ?_ | refine (dropPkt_fixed ..).trans ?_ | refine (finishPkt_fixed ..).trans ?_ | refine (onEgq_fixed ..).trans ?_ | refine (putResidue_fixed ..).trans ?_ | refine (replicaEnd_fixed ..).trans ?_ | refine (residueOther_fixed ..).trans ?_ | refine (residueOther_some (by assumption)).trans ?_ | refine (serveAll_fixed ..).trans ?_ | refine snd_fixed (by assumption) ?_ | refine snd2_fixed (by assumption) ?_ | refine fst_elim_fixed (by assumption) ?_ | refine of_some_fixed (by assumption) ?_ | split | refine (foldl_fixed _ _ _ ?_).trans ?_ | refine (foldl_fixed_snd _ _ _ ?_).trans ?_ | refine (foldl_fixed_snd2 _ _ _ ?_).trans ?_ | simp only [↓State.fixed_mk, ↓State.fixed_def, State.fixed_def])

theorem residueServed_fixed (d : ℕ) (i : ℕ) (t : Target) (s : State) :
    (residueServed d i t s).fixed = s.fixed := by
  unfold residueServed
  repeat' with_reducible (first | rfl | refine ite_fixed ?_ ?_ | refine (putResidue_fixed ..).trans ?_ | refine (replicaEnd_fixed ..).trans ?_ | split)

theorem residueEnter_fixed (d : ℕ) (slot : ℕ) (tc : ℕ) (s : State) :
    (residueEnter d slot tc s).fixed = s.fixed := by
  unfold residueEnter
  (try dsimp only)
  repeat' with_reducible (first | rfl | assumption | intro _ | refine ite_fixed ?_ ?_ | refine ite_snd_fixed ?_ ?_ | refine ite_snd2_fixed ?_ ?_ | refine getD_fixed ?_ ?_ | refine ite_elim_fixed ?_ ?_ | refine (some_elim_fixed ..).trans ?_ | refine (none_elim_fixed ..).trans ?_ | refine ite_fst_elim_fixed ?_ ?_ | refine map_elim_fixed ?_ ?_ | refine bind_elim_fixed ?_ ?_ | refine foldl_elim_fixed _ _ _ ?_ ?_ | refine (egEnqueue_fixed ..).trans ?_ | refine (onEgq_fixed ..).trans ?_ | refine (replicaPut_fixed ..).trans ?_ | refine (replicaUnits_fixed ..).trans ?_ | refine (replicaUnits_some (by assumption)).trans ?_ | refine (residueServed_fixed ..).trans ?_ | refine snd_fixed (by assumption) ?_ | refine snd2_fixed (by assumption) ?_ | refine fst_elim_fixed (by assumption) ?_ | refine of_some_fixed (by assumption) ?_ | split | refine (foldl_fixed _ _ _ ?_).trans ?_ | refine (foldl_fixed_snd _ _ _ ?_).trans ?_ | refine (foldl_fixed_snd2 _ _ _ ?_).trans ?_ | simp only [↓State.fixed_mk, ↓State.fixed_def, State.fixed_def])

theorem residueTimeout_fixed (d : ℕ) (i : ℕ) (s : State) :
    (residueTimeout d i s).fixed = s.fixed := by
  unfold residueTimeout
  repeat' with_reducible (first | rfl | refine ite_fixed ?_ ?_ | intro _ | refine (State.dinc_fixed ..).trans ?_ | refine (State.each_fixed _ _ _ ?_).trans ?_ | refine (finishPkt_fixed ..).trans ?_ | refine (onEgq_fixed ..).trans ?_ | refine (putResidue_fixed ..).trans ?_ | split | refine (foldl_fixed _ _ _ ?_).trans ?_ | simp only [↓State.fixed_mk, ↓State.fixed_def, State.fixed_def])

theorem flushQueues_fixed (d : ℕ) (slot : ℕ) (s : State) :
    (flushQueues d slot s).fixed = s.fixed := by
  unfold flushQueues
  repeat' with_reducible (first | rfl | refine ite_fixed ?_ ?_ | intro _ | refine (State.dinc_fixed ..).trans ?_ | refine (State.each_fixed _ _ _ ?_).trans ?_ | refine (dropPkt_fixed ..).trans ?_ | refine (onEgq_fixed ..).trans ?_ | refine (residueServed_fixed ..).trans ?_ | split | refine (foldl_fixed _ _ _ ?_).trans ?_ | simp only [↓State.fixed_mk, ↓State.fixed_def, State.fixed_def])

theorem flushVoqs_fixed (d : ℕ) (slot : ℕ) (s : State) :
    (flushVoqs d slot s).fixed = s.fixed := by
  unfold flushVoqs
  repeat' with_reducible (first | rfl | refine ite_fixed ?_ ?_ | intro _ | refine (State.dinc_fixed ..).trans ?_ | refine (State.each_fixed _ _ _ ?_).trans ?_ | refine (dropPkt_fixed ..).trans ?_ | split | refine (foldl_fixed _ _ _ ?_).trans ?_ | simp only [↓State.fixed_mk, ↓State.fixed_def, State.fixed_def])

theorem onMac_fixed (d : ℕ) (slot : ℕ) (f : Mac → Mac) (s : State) :
    (onMac d slot f s).fixed = s.fixed := by
  unfold onMac
  repeat' with_reducible (first | rfl | refine ite_fixed ?_ ?_ | refine (State.onDie_fixed ..).trans ?_ | split)

theorem abortTx_fixed (d : ℕ) (slot : ℕ) (s : State) :
    (abortTx d slot s).fixed = s.fixed := by
  unfold abortTx
  repeat' with_reducible (first | rfl | refine ite_fixed ?_ ?_ | intro _ | refine (State.dinc_fixed ..).trans ?_ | refine (State.each_fixed _ _ _ ?_).trans ?_ | refine (dropPkt_fixed ..).trans ?_ | refine (finishPkt_fixed ..).trans ?_ | refine (onMac_fixed ..).trans ?_ | split | refine (foldl_fixed _ _ _ ?_).trans ?_ | simp only [↓State.fixed_mk, ↓State.fixed_def, State.fixed_def])

theorem portFlush_fixed (d : ℕ) (slot : ℕ) (s : State) :
    (portFlush d slot s).fixed = s.fixed := by
  unfold portFlush
  repeat' with_reducible (first | rfl | refine ite_fixed ?_ ?_ | refine (State.dinc_fixed ..).trans ?_ | refine (flushQueues_fixed ..).trans ?_ | refine (flushVoqs_fixed ..).trans ?_ | refine (onMac_fixed ..).trans ?_ | split)

theorem flushDone_fixed (d : ℕ) (slot : ℕ) (s : State) :
    (flushDone d slot s).fixed = s.fixed := by
  unfold flushDone
  repeat' with_reducible (first | rfl | refine ite_fixed ?_ ?_ | refine (State.dinc_fixed ..).trans ?_ | refine (State.dset_fixed ..).trans ?_ | refine (State.report_fixed ..).trans ?_ | refine (onMac_fixed ..).trans ?_ | split)

theorem execReseqRelease_fixed (d : DieId) (eg : Bool) (out : ℕ) (s : State) {s' : State}
    (h : execReseqRelease d eg out s = .next s') : s'.fixed = s.fixed := by
  unfold execReseqRelease at h
  refine onLive_fixed (fun s => ?_) h
  repeat' with_reducible (first | rfl | refine ite_fixed ?_ ?_ | refine (reseqRelease_fixed ..).trans ?_ | split)

theorem execPoolRelease_fixed (d : DieId) (p : Fin 3) (s : State) {s' : State}
    (h : execPoolRelease d p s = .next s') : s'.fixed = s.fixed := by
  unfold execPoolRelease at h
  refine onLive_fixed (fun s => ?_) h
  repeat' with_reducible (first | rfl | refine ite_fixed ?_ ?_ | refine (poolReleaseStep_fixed ..).trans ?_ | refine (rxDrainAll_fixed ..).trans ?_ | split)

theorem execAllocatorRefill_fixed (d : DieId) (p : Fin 3) (s : State) {s' : State}
    (h : execAllocatorRefill d p s = .next s') : s'.fixed = s.fixed := by
  unfold execAllocatorRefill at h
  refine onLive_fixed (fun s => ?_) h
  repeat' with_reducible (first | rfl | refine ite_fixed ?_ ?_ | refine (refillStep_fixed ..).trans ?_ | split)

theorem execWaitListHeadRetry_fixed (d : DieId) (s : State) {s' : State}
    (h : execWaitListHeadRetry d s = .next s') : s'.fixed = s.fixed := by
  unfold execWaitListHeadRetry at h
  refine onLive_fixed (fun s => ?_) h
  repeat' with_reducible (first | rfl | refine ite_fixed ?_ ?_ | refine (waitRetry_fixed ..).trans ?_ | split)

theorem execVoqDepart_fixed (d : DieId) (v : Fin 65536) (s : State) {s' : State}
    (h : execVoqDepart d v s = .next s') : s'.fixed = s.fixed := by
  unfold execVoqDepart at h
  refine onLive_fixed (fun s => ?_) h
  repeat' with_reducible (first | rfl | refine ite_fixed ?_ ?_ | refine (voqDepart_fixed ..).trans ?_ | split)

theorem execStacksReady_fixed (d : DieId) (s : State) {s' : State}
    (h : execStacksReady d s = .next s') : s'.fixed = s.fixed := by
  unfold execStacksReady at h
  refine onLive_fixed (fun s => ?_) h
  repeat' with_reducible (first | rfl | refine ite_fixed ?_ ?_ | refine (stacksReady_fixed ..).trans ?_ | split)

theorem execReplication_fixed (d : DieId) (s : State) {s' : State}
    (h : execReplication d s = .next s') : s'.fixed = s.fixed := by
  unfold execReplication at h
  refine onLive_fixed (fun s => ?_) h
  repeat' with_reducible (first | rfl | refine ite_fixed ?_ ?_ | refine (replication_fixed ..).trans ?_ | split)

theorem execResidueEnter_fixed (d : DieId) (slot : Slot) (tc : Fin 8) (s : State) {s' : State}
    (h : execResidueEnter d slot tc s = .next s') : s'.fixed = s.fixed := by
  unfold execResidueEnter at h
  refine onLive_fixed (fun s => ?_) h
  repeat' with_reducible (first | rfl | refine ite_fixed ?_ ?_ | refine (residueEnter_fixed ..).trans ?_ | split)

theorem execResidueTimeout_fixed (d : DieId) (i : ℕ) (s : State) {s' : State}
    (h : execResidueTimeout d i s = .next s') : s'.fixed = s.fixed := by
  unfold execResidueTimeout at h
  refine onLive_fixed (fun s => ?_) h
  repeat' with_reducible (first | rfl | refine ite_fixed ?_ ?_ | refine (residueTimeout_fixed ..).trans ?_ | split)

theorem execPortFlushDone_fixed (d : DieId) (slot : Slot) (s : State) {s' : State}
    (h : execPortFlushDone d slot s = .next s') : s'.fixed = s.fixed := by
  unfold execPortFlushDone at h
  refine onLive_fixed (fun s => ?_) h
  repeat' with_reducible (first | rfl | refine ite_fixed ?_ ?_ | refine (flushDone_fixed ..).trans ?_ | split)

end Sys2Proof.Machine
end

