-- ==== Sys2Proof/Laws/Fixed/Dram.lean ====
section
/-! SUPPORT. What the operations of Machine/Dram.lean leave as it is: the part, the queue, the clock, the anti-rollback
counter and the revocation bits. -/

set_option linter.all false
set_option maxRecDepth 4000

namespace Sys2Proof.Machine

theorem onStack_fixed (d : ℕ) (k : ℕ) (f : Stack → Stack) (s : State) :
    (onStack d k f s).fixed = s.fixed := by
  unfold onStack
  repeat' with_reducible (first | rfl | refine ite_fixed ?_ ?_ | refine (State.onDie_fixed ..).trans ?_ | split)

theorem onChan_fixed (d : ℕ) (k : ℕ) (pc : ℕ) (f : DramChan → DramChan) (s : State) :
    (onChan d k pc f s).fixed = s.fixed := by
  unfold onChan
  repeat' with_reducible (first | rfl | refine ite_fixed ?_ ?_ | refine (onStack_fixed ..).trans ?_ | split)

theorem dramPut_fixed (d : ℕ) (k : ℕ) (pc : ℕ) (r : DramReq) (s : State) {cc : Part × List Instr × Nat × Nat × BitVec 4}
    (hc : s.fixed = cc) : (dramPut d k pc r s).elim cc State.fixed = cc := by
  subst hc
  unfold dramPut
  (try dsimp only)
  repeat' with_reducible (first | rfl | assumption | intro _ | refine ite_fixed ?_ ?_ | refine ite_snd_fixed ?_ ?_ | refine ite_snd2_fixed ?_ ?_ | refine getD_fixed ?_ ?_ | refine ite_elim_fixed ?_ ?_ | refine (some_elim_fixed ..).trans ?_ | refine (none_elim_fixed ..).trans ?_ | refine ite_fst_elim_fixed ?_ ?_ | refine map_elim_fixed ?_ ?_ | refine bind_elim_fixed ?_ ?_ | refine foldl_elim_fixed _ _ _ ?_ ?_ | refine (State.dinc_fixed ..).trans ?_ | refine (State.onDie_fixed ..).trans ?_ | refine (State.when_fixed _ _ _ ?_).trans ?_ | refine (onChan_fixed ..).trans ?_ | refine (onStack_fixed ..).trans ?_ | refine snd_fixed (by assumption) ?_ | refine snd2_fixed (by assumption) ?_ | refine fst_elim_fixed (by assumption) ?_ | refine of_some_fixed (by assumption) ?_ | split | refine (foldl_fixed _ _ _ ?_).trans ?_ | refine (foldl_fixed_snd _ _ _ ?_).trans ?_ | refine (foldl_fixed_snd2 _ _ _ ?_).trans ?_ | simp only [↓State.fixed_mk, ↓State.fixed_def, State.fixed_def])

theorem dramOffer_fixed (d : ℕ) (k : ℕ) (who : ℕ) (v : ℕ) (s : State) {cc : Part × List Instr × Nat × Nat × BitVec 4}
    (hc : s.fixed = cc) : (dramOffer d k who v s).elim cc State.fixed = cc := by
  subst hc
  unfold dramOffer
  (try dsimp only)
  repeat' with_reducible (first | rfl | assumption | intro _ | refine ite_fixed ?_ ?_ | refine ite_snd_fixed ?_ ?_ | refine ite_snd2_fixed ?_ ?_ | refine getD_fixed ?_ ?_ | refine ite_elim_fixed ?_ ?_ | refine (some_elim_fixed ..).trans ?_ | refine (none_elim_fixed ..).trans ?_ | refine ite_fst_elim_fixed ?_ ?_ | refine map_elim_fixed ?_ ?_ | refine bind_elim_fixed ?_ ?_ | refine foldl_elim_fixed _ _ _ ?_ ?_ | refine (State.fresh_fixed ..).trans ?_ | refine (State.onPkt_fixed ..).trans ?_ | refine dramPut_fixed (hc := ?_) .. | refine (onStack_fixed ..).trans ?_ | refine snd_fixed (by assumption) ?_ | refine snd2_fixed (by assumption) ?_ | refine fst_elim_fixed (by assumption) ?_ | refine of_some_fixed (by assumption) ?_ | split | refine (foldl_fixed _ _ _ ?_).trans ?_ | refine (foldl_fixed_snd _ _ _ ?_).trans ?_ | refine (foldl_fixed_snd2 _ _ _ ?_).trans ?_ | simp only [↓State.fixed_mk, ↓State.fixed_def, State.fixed_def])

theorem dramRequest_fixed (d k : ℕ) (asks : List (ℕ × ℕ)) (s : State) :
    (dramRequest d k asks s).fixed = s.fixed := by
  unfold dramRequest
  dsimp only
  cases h : List.findSome? (fun w => (asks.find? (fun a => a.1 == w)).bind (fun a => dramOffer d k w a.2 s))
      ((List.range 3).map (fun i => ((stack s d k).reqPtr + i) % 3)) with
  | none => rfl
  | some t =>
    obtain ⟨w, -, hw⟩ := List.exists_of_findSome?_eq_some h
    obtain ⟨a, -, ha⟩ := Option.bind_eq_some_iff.mp hw
    have hf := dramOffer_fixed d k w a.2 s (hc := rfl)
    rwa [ha] at hf

theorem writeDone_fixed (i : ℕ) (s : State) :
    (writeDone i s).fixed = s.fixed := by
  unfold writeDone
  repeat' with_reducible (first | rfl | refine ite_fixed ?_ ?_ | refine (State.onPkt_fixed ..).trans ?_ | refine (poolFreeUnits_fixed ..).trans ?_ | split)

theorem dramServe_fixed (d : ℕ) (k : ℕ) (pc : ℕ) (r : DramReq) (s : State) :
    (dramServe d k pc r s).fixed = s.fixed := by
  unfold dramServe
  repeat' with_reducible (first | rfl | refine ite_fixed ?_ ?_ | refine (State.onPkt_fixed ..).trans ?_ | refine (onChan_fixed ..).trans ?_ | refine (onStack_fixed ..).trans ?_ | refine (writeDone_fixed ..).trans ?_ | split)

theorem commandSlot_fixed (d : ℕ) (k : ℕ) (pc : ℕ) (s : State) :
    (commandSlot d k pc s).fixed = s.fixed := by
  unfold commandSlot
  repeat' with_reducible (first | rfl | refine ite_fixed ?_ ?_ | refine (dramServe_fixed ..).trans ?_ | refine (onChan_fixed ..).trans ?_ | split)

theorem stackFenced_fixed (d : ℕ) (k : ℕ) (cause : ℕ) (s : State) :
    (stackFenced d k cause s).fixed = s.fixed := by
  unfold stackFenced
  repeat' with_reducible (first | rfl | refine ite_fixed ?_ ?_ | refine (State.dset_fixed ..).trans ?_ | refine (noteFree_fixed ..).trans ?_ | refine (onPool_fixed ..).trans ?_ | refine (onStack_fixed ..).trans ?_ | split)

theorem stackFence_fixed (d : ℕ) (k : ℕ) (cause : ℕ) (page : ℕ) (s : State) :
    (stackFence d k cause page s).fixed = s.fixed := by
  unfold stackFence
  repeat' with_reducible (first | rfl | refine ite_fixed ?_ ?_ | refine (State.report_fixed ..).trans ?_ | refine (stackFenced_fixed ..).trans ?_ | split)

theorem quarantine_fixed (d : ℕ) (k : ℕ) (g : ℕ) (s : State) :
    (quarantine d k g s).fixed = s.fixed := by
  unfold quarantine
  repeat' with_reducible (first | rfl | refine ite_fixed ?_ ?_ | refine (State.dset_fixed ..).trans ?_ | refine (noteFree_fixed ..).trans ?_ | refine (onPool_fixed ..).trans ?_ | refine (onStack_fixed ..).trans ?_ | refine (stackFence_fixed ..).trans ?_ | split)

theorem readComplete_fixed (d : ℕ) (k : ℕ) (fails : ℕ) (s : State) :
    (readComplete d k fails s).fixed = s.fixed := by
  unfold readComplete
  repeat' with_reducible (first | rfl | refine ite_fixed ?_ ?_ | refine (State.dinc_fixed ..).trans ?_ | refine (State.onPkt_fixed ..).trans ?_ | refine (State.report_fixed ..).trans ?_ | refine (creditCheck_fixed ..).trans ?_ | refine (dropPkt_fixed ..).trans ?_ | refine (onStack_fixed ..).trans ?_ | refine (quarantine_fixed ..).trans ?_ | refine (spendFlip_fixed ..).trans ?_ | split)

theorem retrainStart_fixed (d : ℕ) (k : ℕ) (s : State) :
    (retrainStart d k s).fixed = s.fixed := by
  unfold retrainStart
  repeat' with_reducible (first | rfl | refine ite_fixed ?_ ?_ | refine (State.dset_fixed ..).trans ?_ | refine (onStack_fixed ..).trans ?_ | split)

theorem retrainTrigger_fixed (d : ℕ) (k : ℕ) (cause : ℕ) (s : State) :
    (retrainTrigger d k cause s).fixed = s.fixed := by
  unfold retrainTrigger
  repeat' with_reducible (first | rfl | refine ite_fixed ?_ ?_ | refine (State.report_fixed ..).trans ?_ | refine (retrainStart_fixed ..).trans ?_ | split)

theorem dramRefresh_fixed (d : ℕ) (k : ℕ) (pc : ℕ) (lo : Bool) (hi : Bool) (margin : ℕ) (s : State) :
    (dramRefresh d k pc lo hi margin s).fixed = s.fixed := by
  unfold dramRefresh
  repeat' with_reducible (first | rfl | refine ite_fixed ?_ ?_ | refine (State.dset_fixed ..).trans ?_ | refine (onChan_fixed ..).trans ?_ | refine (onStack_fixed ..).trans ?_ | refine (retrainTrigger_fixed ..).trans ?_ | split)

theorem tempRead_fixed (d : ℕ) (k : ℕ) (temp : ℕ) (load : ℕ) (s : State) :
    (tempRead d k temp load s).fixed = s.fixed := by
  unfold tempRead
  repeat' with_reducible (first | rfl | refine ite_fixed ?_ ?_ | refine (State.dset_fixed ..).trans ?_ | refine (retrainTrigger_fixed ..).trans ?_ | split)

theorem windowOpen_fixed (d : ℕ) (k : ℕ) (s : State) :
    (windowOpen d k s).fixed = s.fixed := by
  unfold windowOpen
  repeat' with_reducible (first | rfl | refine ite_fixed ?_ ?_ | refine (onChan_fixed ..).trans ?_ | split)

theorem windowClose_fixed (d : ℕ) (k : ℕ) (meas : ℕ) (s : State) :
    (windowClose d k meas s).fixed = s.fixed := by
  unfold windowClose
  repeat' with_reducible (first | rfl | refine ite_fixed ?_ ?_ | refine (State.dinc_fixed ..).trans ?_ | refine (State.dset_fixed ..).trans ?_ | refine (State.reportOpen_fixed ..).trans ?_ | refine (onChan_fixed ..).trans ?_ | refine (onStack_fixed ..).trans ?_ | split)

theorem retrainNow_fixed (d : ℕ) (v : ℕ) (s : State) :
    (retrainNow d v s).2.fixed = s.fixed := by
  unfold retrainNow
  repeat' with_reducible (first | rfl | refine ite_fixed ?_ ?_ | intro _ | refine (State.each_fixed _ _ _ ?_).trans ?_ | refine (retrainStart_fixed ..).trans ?_ | split | refine (foldl_fixed _ _ _ ?_).trans ?_ | simp only [↓State.fixed_mk, ↓State.fixed_def, State.fixed_def])

theorem windowsEnd_fixed (d : ℕ) (k : ℕ) (s : State) :
    (windowsEnd d k s).fixed = s.fixed := by
  unfold windowsEnd
  repeat' with_reducible (first | rfl | refine ite_fixed ?_ ?_ | refine (onStack_fixed ..).trans ?_ | split)

theorem fullTrain_fixed (d : ℕ) (v : ℕ) (s : State) :
    (fullTrain d v s).2.fixed = s.fixed := by
  unfold fullTrain
  repeat' with_reducible (first | rfl | refine ite_fixed ?_ ?_ | intro _ | refine (State.dset_fixed ..).trans ?_ | refine (State.each_fixed _ _ _ ?_).trans ?_ | refine (noteFree_fixed ..).trans ?_ | refine (windowsEnd_fixed ..).trans ?_ | split | refine (foldl_fixed _ _ _ ?_).trans ?_ | simp only [↓State.fixed_mk, ↓State.fixed_def, State.fixed_def])

theorem trainStart_fixed (d : ℕ) (k : ℕ) (s : State) :
    (trainStart d k s).fixed = s.fixed := by
  unfold trainStart
  repeat' with_reducible (first | rfl | refine ite_fixed ?_ ?_ | refine (State.dset_fixed ..).trans ?_ | split)

theorem trainingComplete_fixed (d : ℕ) (k : ℕ) (step : ℕ) (failed : Bool) (meas : List (BitVec 128)) (s : State) :
    (trainingComplete d k step failed meas s).fixed = s.fixed := by
  unfold trainingComplete
  repeat' with_reducible (first | rfl | refine ite_fixed ?_ ?_ | intro _ | refine (State.dset_fixed ..).trans ?_ | refine (State.each_fixed _ _ _ ?_).trans ?_ | refine (onChan_fixed ..).trans ?_ | refine (stackFence_fixed ..).trans ?_ | refine (windowsEnd_fixed ..).trans ?_ | split | refine (foldl_fixed _ _ _ ?_).trans ?_ | simp only [↓State.fixed_mk, ↓State.fixed_def, State.fixed_def])

theorem patternCommand_fixed (d : ℕ) (k : ℕ) (v : ℕ) (s : State) :
    (patternCommand d k v s).2.fixed = s.fixed := by
  unfold patternCommand
  repeat' with_reducible (first | rfl | refine ite_fixed ?_ ?_ | intro _ | refine (State.dset_fixed ..).trans ?_ | refine (State.each_fixed _ _ _ ?_).trans ?_ | refine (onStack_fixed ..).trans ?_ | split | refine (foldl_fixed _ _ _ ?_).trans ?_ | simp only [↓State.fixed_mk, ↓State.fixed_def, State.fixed_def])

theorem patternDone_fixed (d : ℕ) (k : ℕ) (res : List (ℕ × ℕ)) (s : State) :
    (patternDone d k res s).fixed = s.fixed := by
  unfold patternDone
  repeat' with_reducible (first | rfl | refine ite_fixed ?_ ?_ | intro _ | refine (State.dset_fixed ..).trans ?_ | refine (State.each_fixed _ _ _ ?_).trans ?_ | refine (onChan_fixed ..).trans ?_ | split | refine (foldl_fixed _ _ _ ?_).trans ?_ | simp only [↓State.fixed_mk, ↓State.fixed_def, State.fixed_def])

theorem eccPoll_fixed (d : ℕ) (k : ℕ) (n : ℕ) (s : State) :
    (eccPoll d k n s).fixed = s.fixed := by
  unfold eccPoll
  repeat' with_reducible (first | rfl | refine ite_fixed ?_ ?_ | refine (State.dinc_fixed ..).trans ?_ | split)

theorem execDramRequest_fixed (d : DieId) (k : Fin 2) (asks : List (Fin 3 × Fin 65536)) (s : State) {s' : State}
    (h : execDramRequest d k asks s = .next s') : s'.fixed = s.fixed := by
  unfold execDramRequest at h
  refine onLive_fixed (fun s => ?_) h
  repeat' with_reducible (first | rfl | refine ite_fixed ?_ ?_ | refine (dramRequest_fixed ..).trans ?_ | split)

theorem execDramCommandSlot_fixed (d : DieId) (k : Fin 2) (pc : Fin 32) (s : State) {s' : State}
    (h : execDramCommandSlot d k pc s = .next s') : s'.fixed = s.fixed := by
  unfold execDramCommandSlot at h
  refine onLive_fixed (fun s => ?_) h
  repeat' with_reducible (first | rfl | refine ite_fixed ?_ ?_ | refine (commandSlot_fixed ..).trans ?_ | split)

theorem execDramReadComplete_fixed (d : DieId) (k : Fin 2) (fails : Fin 4) (s : State) {s' : State}
    (h : execDramReadComplete d k fails s = .next s') : s'.fixed = s.fixed := by
  unfold execDramReadComplete at h
  refine onLive_fixed (fun s => ?_) h
  repeat' with_reducible (first | rfl | refine ite_fixed ?_ ?_ | refine (readComplete_fixed ..).trans ?_ | split)

theorem execDramRefresh_fixed (d : DieId) (k : Fin 2) (pc : Fin 32) (lo : Bool) (hi : Bool) (margin : Fin 64) (s : State) {s' : State}
    (h : execDramRefresh d k pc lo hi margin s = .next s') : s'.fixed = s.fixed := by
  unfold execDramRefresh at h
  refine onLive_fixed (fun s => ?_) h
  repeat' with_reducible (first | rfl | refine ite_fixed ?_ ?_ | refine (dramRefresh_fixed ..).trans ?_ | split)

theorem execDramTempRead_fixed (d : DieId) (k : Fin 2) (temp : BitVec 8) (load : Fin 101) (s : State) {s' : State}
    (h : execDramTempRead d k temp load s = .next s') : s'.fixed = s.fixed := by
  unfold execDramTempRead at h
  refine onLive_fixed (fun s => ?_) h
  repeat' with_reducible (first | rfl | refine ite_fixed ?_ ?_ | refine (tempRead_fixed ..).trans ?_ | split)

theorem execRetrainWindowOpen_fixed (d : DieId) (k : Fin 2) (s : State) {s' : State}
    (h : execRetrainWindowOpen d k s = .next s') : s'.fixed = s.fixed := by
  unfold execRetrainWindowOpen at h
  refine onLive_fixed (fun s => ?_) h
  repeat' with_reducible (first | rfl | refine ite_fixed ?_ ?_ | refine (windowOpen_fixed ..).trans ?_ | split)

theorem execRetrainWindowClose_fixed (d : DieId) (k : Fin 2) (meas : BitVec 128) (s : State) {s' : State}
    (h : execRetrainWindowClose d k meas s = .next s') : s'.fixed = s.fixed := by
  unfold execRetrainWindowClose at h
  refine onLive_fixed (fun s => ?_) h
  repeat' with_reducible (first | rfl | refine ite_fixed ?_ ?_ | refine (windowClose_fixed ..).trans ?_ | split)

theorem execPatternDone_fixed (d : DieId) (k : Fin 2) (res : List (ℕ × ℕ)) (s : State) {s' : State}
    (h : execPatternDone d k res s = .next s') : s'.fixed = s.fixed := by
  unfold execPatternDone at h
  refine onLive_fixed (fun s => ?_) h
  repeat' with_reducible (first | rfl | refine ite_fixed ?_ ?_ | refine (patternDone_fixed ..).trans ?_ | split)

theorem execTrainingComplete_fixed (d : DieId) (k : Fin 2) (step : Fin 9) (failed : Bool) (meas : List (BitVec 128)) (s : State) {s' : State}
    (h : execTrainingComplete d k step failed meas s = .next s') : s'.fixed = s.fixed := by
  unfold execTrainingComplete at h
  refine onLive_fixed (fun s => ?_) h
  repeat' with_reducible (first | rfl | refine ite_fixed ?_ ?_ | refine (trainingComplete_fixed ..).trans ?_ | split)

theorem execEccPoll_fixed (d : DieId) (k : Fin 2) (n : ℕ) (s : State) {s' : State}
    (h : execEccPoll d k n s = .next s') : s'.fixed = s.fixed := by
  unfold execEccPoll at h
  refine onLive_fixed (fun s => ?_) h
  repeat' with_reducible (first | rfl | refine ite_fixed ?_ ?_ | refine (eccPoll_fixed ..).trans ?_ | split)

theorem execDramPhyLaneLoss_fixed (d : DieId) (k : Fin 2) (s : State) {s' : State}
    (h : execDramPhyLaneLoss d k s = .next s') : s'.fixed = s.fixed := by
  unfold execDramPhyLaneLoss at h
  refine onLive_fixed (fun s => ?_) h
  repeat' with_reducible (first | rfl | refine ite_fixed ?_ ?_ | refine (stackFence_fixed ..).trans ?_ | split)

theorem execDramCatastrophicTemp_fixed (d : DieId) (k : Fin 2) (s : State) {s' : State}
    (h : execDramCatastrophicTemp d k s = .next s') : s'.fixed = s.fixed := by
  unfold execDramCatastrophicTemp at h
  refine onLive_fixed (fun s => ?_) h
  repeat' with_reducible (first | rfl | refine ite_fixed ?_ ?_ | refine (stackFence_fixed ..).trans ?_ | split)

end Sys2Proof.Machine
end

