-- ==== Sys2Proof/Laws/Fixed/Sched.lean ====
section
/-! SUPPORT. What the operations of Machine/Sched.lean leave as it is: the part, the queue, the clock, the anti-rollback
counter and the revocation bits. -/

set_option linter.all false
set_option maxRecDepth 4000

namespace Sys2Proof.Machine

theorem onNode_fixed (d : ℕ) (slot : ℕ) (n : ℕ) (f : Node → Node) (s : State) :
    (onNode d slot n f s).fixed = s.fixed := by
  unfold onNode
  repeat' with_reducible (first | rfl | refine ite_fixed ?_ ?_ | refine (State.onDie_fixed ..).trans ?_ | split)

theorem settle_fixed (d : ℕ) (slot : ℕ) (n : ℕ) (s : State) :
    (settle d slot n s).fixed = s.fixed := by
  unfold settle
  repeat' with_reducible (first | rfl | refine ite_fixed ?_ ?_ | refine (onNode_fixed ..).trans ?_ | split)

theorem shaperCharge_fixed (d : ℕ) (slot : ℕ) (n : ℕ) (bytes : ℤ) (s : State) :
    (shaperCharge d slot n bytes s).fixed = s.fixed := by
  unfold shaperCharge
  repeat' with_reducible (first | rfl | refine ite_fixed ?_ ?_ | refine (onNode_fixed ..).trans ?_ | refine (settle_fixed ..).trans ?_ | split)

theorem shaperRateWrite_fixed (d : ℕ) (slot : ℕ) (n : ℕ) (v : ℕ) (s : State) :
    (shaperRateWrite d slot n v s).2.fixed = s.fixed := by
  unfold shaperRateWrite
  repeat' with_reducible (first | rfl | refine ite_fixed ?_ ?_ | refine (State.dset_fixed ..).trans ?_ | refine (onNode_fixed ..).trans ?_ | refine (settle_fixed ..).trans ?_ | split)

theorem shaperBurstWrite_fixed (d : ℕ) (slot : ℕ) (n : ℕ) (v : ℕ) (s : State) :
    (shaperBurstWrite d slot n v s).2.fixed = s.fixed := by
  unfold shaperBurstWrite
  repeat' with_reducible (first | rfl | refine ite_fixed ?_ ?_ | refine (State.dset_fixed ..).trans ?_ | refine (onNode_fixed ..).trans ?_ | refine (settle_fixed ..).trans ?_ | split)

theorem shaperReset_fixed (d : ℕ) (slot : ℕ) (n : ℕ) (s : State) :
    (shaperReset d slot n s).2.fixed = s.fixed := by
  unfold shaperReset
  repeat' with_reducible (first | rfl | refine ite_fixed ?_ ?_ | refine (onNode_fixed ..).trans ?_ | refine (settle_fixed ..).trans ?_ | split)

theorem shapersUp_fixed (d : ℕ) (s : State) :
    (shapersUp d s).fixed = s.fixed := by
  unfold shapersUp
  repeat' with_reducible (first | rfl | refine ite_fixed ?_ ?_ | intro _ | refine (State.each_fixed _ _ _ ?_).trans ?_ | refine (onNode_fixed ..).trans ?_ | split | refine (foldl_fixed _ _ _ ?_).trans ?_ | simp only [↓State.fixed_mk, ↓State.fixed_def, State.fixed_def])

theorem rewake_fixed (d : ℕ) (slot : ℕ) (s : State) :
    (rewake d slot s).fixed = s.fixed := by
  unfold rewake
  repeat' with_reducible (first | rfl | refine ite_fixed ?_ ?_ | intro _ | refine (State.each_fixed _ _ _ ?_).trans ?_ | refine (onNode_fixed ..).trans ?_ | split | refine (foldl_fixed _ _ _ ?_).trans ?_ | simp only [↓State.fixed_mk, ↓State.fixed_def, State.fixed_def])

theorem applyTemplate_fixed (d : ℕ) (slot : ℕ) (t : ℕ) (s : State) :
    (applyTemplate d slot t s).2.fixed = s.fixed := by
  unfold applyTemplate
  repeat' with_reducible (first | rfl | refine ite_fixed ?_ ?_ | intro _ | refine (State.dset_fixed ..).trans ?_ | refine (State.each_fixed _ _ _ ?_).trans ?_ | refine (rewake_fixed ..).trans ?_ | split | refine (foldl_fixed _ _ _ ?_).trans ?_ | simp only [↓State.fixed_mk, ↓State.fixed_def, State.fixed_def])

theorem onGate_fixed (d : ℕ) (slot : ℕ) (f : Gate → Gate) (s : State) :
    (onGate d slot f s).fixed = s.fixed := by
  unfold onGate
  repeat' with_reducible (first | rfl | refine ite_fixed ?_ ?_ | refine (State.onDie_fixed ..).trans ?_ | split)

theorem gatesChange_fixed (d : ℕ) (slot : ℕ) (old : ℕ) (s : State) :
    (gatesChange d slot old s).fixed = s.fixed := by
  unfold gatesChange
  dsimp only
  repeat' with_reducible (first | rfl | refine ite_fixed ?_ ?_ | refine (State.dinc_fixed ..).trans ?_ | refine (onGate_fixed ..).trans ?_ | split)

theorem gateWrite_fixed (d : ℕ) (slot : ℕ) (sub : ℕ) (v : ℕ) (s : State) :
    (gateWrite d slot sub v s).2.fixed = s.fixed := by
  unfold gateWrite
  repeat' with_reducible (first | rfl | refine ite_fixed ?_ ?_ | refine (State.dset_fixed ..).trans ?_ | refine (gatesChange_fixed ..).trans ?_ | split)

theorem configTake_fixed (d : ℕ) (slot : ℕ) (s : State) :
    (configTake d slot s).fixed = s.fixed := by
  unfold configTake
  repeat' with_reducible (first | rfl | refine ite_fixed ?_ ?_ | intro _ | refine (State.dinc_fixed ..).trans ?_ | refine (State.dset_fixed ..).trans ?_ | refine (State.when_fixed _ _ _ ?_).trans ?_ | refine (gatesChange_fixed ..).trans ?_ | refine (onGate_fixed ..).trans ?_ | split | refine (foldl_fixed _ _ _ ?_).trans ?_ | simp only [↓State.fixed_mk, ↓State.fixed_def, State.fixed_def])

theorem gateStep_fixed (d : ℕ) (slot : ℕ) (s : State) :
    (gateStep d slot s).fixed = s.fixed := by
  unfold gateStep
  repeat' with_reducible (first | rfl | refine ite_fixed ?_ ?_ | refine (gatesChange_fixed ..).trans ?_ | refine (onGate_fixed ..).trans ?_ | split)

theorem configChange_fixed (d : ℕ) (slot : ℕ) (s : State) :
    (configChange d slot s).2.fixed = s.fixed := by
  unfold configChange
  repeat' with_reducible (first | rfl | refine ite_fixed ?_ ?_ | intro _ | refine (State.dinc_fixed ..).trans ?_ | refine (State.dset_fixed ..).trans ?_ | refine (State.when_fixed _ _ _ ?_).trans ?_ | refine (onGate_fixed ..).trans ?_ | split | refine (foldl_fixed _ _ _ ?_).trans ?_ | simp only [↓State.fixed_mk, ↓State.fixed_def, State.fixed_def])

theorem gateListInsert_fixed (d : ℕ) (rec : ℕ) (s : State) :
    (gateListInsert d rec s).2.fixed = s.fixed := by
  unfold gateListInsert
  dsimp only
  repeat' with_reducible (first | rfl | refine ite_fixed ?_ ?_ | refine (onGate_fixed ..).trans ?_ | split)

theorem refresh_fixed (d : ℕ) (slot : ℕ) (n : ℕ) (s : State) :
    (refresh d slot n s).fixed = s.fixed := by
  unfold refresh
  repeat' with_reducible (first | rfl | refine ite_fixed ?_ ?_ | refine (onNode_fixed ..).trans ?_ | split)

theorem payTag_fixed (d : ℕ) (slot : ℕ) (n : ℕ) (wire : ℕ) (s : State) :
    (payTag d slot n wire s).fixed = s.fixed := by
  unfold payTag
  repeat' with_reducible (first | rfl | refine ite_fixed ?_ ?_ | refine (State.onDie_fixed ..).trans ?_ | refine (onNode_fixed ..).trans ?_ | split)

theorem macStart_fixed (d : ℕ) (slot : ℕ) (s : State) :
    (macStart d slot s).fixed = s.fixed := by
  unfold macStart
  dsimp only
  repeat' with_reducible (first | rfl | refine ite_fixed ?_ ?_ | refine (State.onPkt_fixed ..).trans ?_ | refine (onMac_fixed ..).trans ?_ | split)

theorem startFrame_fixed (d : ℕ) (slot : ℕ) (i : ℕ) (s : State) :
    (startFrame d slot i s).fixed = s.fixed := by
  unfold startFrame
  repeat' with_reducible (first | rfl | refine ite_fixed ?_ ?_ | refine (State.onPkt_fixed ..).trans ?_ | refine (macStart_fixed ..).trans ?_ | refine (onMac_fixed ..).trans ?_ | split)

theorem schedSelect_fixed (d : ℕ) (g : ℕ) (s : State) :
    (schedSelect d g s).fixed = s.fixed := by
  unfold schedSelect
  repeat' with_reducible (first | rfl | refine ite_fixed ?_ ?_ | intro _ | refine (State.dinc_fixed ..).trans ?_ | refine (State.each_fixed _ _ _ ?_).trans ?_ | refine (State.onPkt_fixed ..).trans ?_ | refine (State.when_fixed _ _ _ ?_).trans ?_ | refine (bodyRead_fixed ..).trans ?_ | refine (dropPkt_fixed ..).trans ?_ | refine (onEgq_fixed ..).trans ?_ | refine (payTag_fixed ..).trans ?_ | refine (refresh_fixed ..).trans ?_ | refine (shaperCharge_fixed ..).trans ?_ | refine (startFrame_fixed ..).trans ?_ | split | refine (foldl_fixed _ _ _ ?_).trans ?_ | simp only [↓State.fixed_mk, ↓State.fixed_def, State.fixed_def])

theorem meridianSet_fixed (t : ℕ) (s : State) :
    (meridianSet t s).2.fixed = s.fixed := by
  unfold meridianSet
  repeat' with_reducible (first | rfl | refine ite_fixed ?_ ?_ | intro _ | split | refine (foldl_fixed _ _ _ ?_).trans ?_ | simp only [↓State.fixed_mk, ↓State.fixed_def, State.fixed_def])

theorem meridianStep_fixed (v : ℕ) (s : State) :
    (meridianStep v s).2.fixed = s.fixed := by
  unfold meridianStep
  repeat' with_reducible (first | rfl | refine ite_fixed ?_ ?_ | intro _ | split | refine (foldl_fixed _ _ _ ?_).trans ?_ | simp only [↓State.fixed_mk, ↓State.fixed_def, State.fixed_def])

theorem meridianApply_fixed (s : State) :
    (meridianApply s).fixed = s.fixed := by
  unfold meridianApply
  repeat' with_reducible (first | rfl | refine ite_fixed ?_ ?_ | intro _ | refine (State.each_fixed _ _ _ ?_).trans ?_ | refine (State.onDie_fixed ..).trans ?_ | refine (State.pinc_fixed ..).trans ?_ | refine (configTake_fixed ..).trans ?_ | refine (gateStep_fixed ..).trans ?_ | split | refine (foldl_fixed _ _ _ ?_).trans ?_ | simp only [↓State.fixed_mk, ↓State.fixed_def, State.fixed_def])

theorem ppsIn_fixed (s : State) :
    (ppsIn s).fixed = s.fixed := by
  unfold ppsIn
  repeat' with_reducible (first | rfl | refine ite_fixed ?_ ?_ | refine (State.pinc_fixed ..).trans ?_ | refine (State.pset_fixed ..).trans ?_ | split)

theorem ppsOutRise_fixed (s : State) :
    (ppsOutRise s).fixed = s.fixed := by
  unfold ppsOutRise
  repeat' with_reducible (first | rfl | refine ite_fixed ?_ ?_ | intro _ | split | refine (foldl_fixed _ _ _ ?_).trans ?_ | simp only [↓State.fixed_mk, ↓State.fixed_def, State.fixed_def])

theorem samplerVisit_fixed (d : ℕ) (isVoq : Bool) (s : State) :
    (samplerVisit d isVoq s).fixed = s.fixed := by
  unfold samplerVisit
  repeat' with_reducible (first | rfl | refine ite_fixed ?_ ?_ | refine (State.onDie_fixed ..).trans ?_ | refine (recordPost_fixed ..).trans ?_ | split)

theorem execSchedSelect_fixed (d : DieId) (g : Fin 4) (s : State) {s' : State}
    (h : execSchedSelect d g s = .next s') : s'.fixed = s.fixed := by
  unfold execSchedSelect at h
  refine onLive_fixed (fun s => ?_) h
  repeat' with_reducible (first | rfl | refine ite_fixed ?_ ?_ | refine (schedSelect_fixed ..).trans ?_ | split)

theorem creditPositive_fixed (d : ℕ) (slot : ℕ) (n : ℕ) (s : State) :
    (creditPositive d slot n s).fixed = s.fixed := by
  unfold creditPositive
  repeat' with_reducible (first | rfl | refine ite_fixed ?_ ?_ | refine (refresh_fixed ..).trans ?_ | refine (settle_fixed ..).trans ?_ | split)

theorem execShaperCreditPositive_fixed (d : DieId) (slot : Slot) (n : Fin 13) (s : State) {s' : State}
    (h : execShaperCreditPositive d slot n s = .next s') : s'.fixed = s.fixed := by
  unfold execShaperCreditPositive at h
  refine onLive_fixed (fun s => ?_) h
  repeat' with_reducible (first | rfl | refine ite_fixed ?_ ?_ | refine (creditPositive_fixed ..).trans ?_ | split)

theorem execConfigChangeTime_fixed (d : DieId) (slot : Slot) (s : State) {s' : State}
    (h : execConfigChangeTime d slot s = .next s') : s'.fixed = s.fixed := by
  unfold execConfigChangeTime at h
  refine onLive_fixed (fun s => ?_) h
  repeat' with_reducible (first | rfl | refine ite_fixed ?_ ?_ | refine (configTake_fixed ..).trans ?_ | split)

theorem execGateEntryEnd_fixed (d : DieId) (slot : Slot) (s : State) {s' : State}
    (h : execGateEntryEnd d slot s = .next s') : s'.fixed = s.fixed := by
  unfold execGateEntryEnd at h
  refine onLive_fixed (fun s => ?_) h
  repeat' with_reducible (first | rfl | refine ite_fixed ?_ ?_ | refine (gateStep_fixed ..).trans ?_ | split)

theorem execMeridianAdjustApply_fixed (s : State) {s' : State}
    (h : execMeridianAdjustApply s = .next s') : s'.fixed = s.fixed := by
  unfold execMeridianAdjustApply at h
  cases h
  repeat' with_reducible (first | rfl | refine ite_fixed ?_ ?_ | refine (meridianApply_fixed ..).trans ?_ | split)

theorem execPpsInEdge_fixed (s : State) {s' : State}
    (h : execPpsInEdge s = .next s') : s'.fixed = s.fixed := by
  unfold execPpsInEdge at h
  cases h
  repeat' with_reducible (first | rfl | refine ite_fixed ?_ ?_ | refine (ppsIn_fixed ..).trans ?_ | split)

theorem execPpsOutSecond_fixed (s : State) {s' : State}
    (h : execPpsOutSecond s = .next s') : s'.fixed = s.fixed := by
  unfold execPpsOutSecond at h
  cases h
  repeat' with_reducible (first | rfl | refine ite_fixed ?_ ?_ | refine (ppsOutRise_fixed ..).trans ?_ | split)

theorem execSamplerVisit_fixed (d : DieId) (isVoq : Bool) (s : State) {s' : State}
    (h : execSamplerVisit d isVoq s = .next s') : s'.fixed = s.fixed := by
  unfold execSamplerVisit at h
  refine onLive_fixed (fun s => ?_) h
  repeat' with_reducible (first | rfl | refine ite_fixed ?_ ?_ | refine (samplerVisit_fixed ..).trans ?_ | split)

end Sys2Proof.Machine
end

