-- ==== Sys2Proof/Laws/Fixed/Ports.lean ====
section
/-! SUPPORT. What the operations of Machine/Ports.lean leave as it is: the part, the queue, the clock, the anti-rollback
counter and the revocation bits. -/

set_option linter.all false
set_option maxRecDepth 4000

namespace Sys2Proof.Machine

theorem laneModeWrite_fixed (d : ℕ) (g : ℕ) (m : ℕ) (s : State) :
    (laneModeWrite d g m s).2.fixed = s.fixed := by
  unfold laneModeWrite
  repeat' with_reducible (first | rfl | refine ite_fixed ?_ ?_ | intro _ | refine (State.dset_fixed ..).trans ?_ | refine (State.each_fixed _ _ _ ?_).trans ?_ | refine (State.onDie_fixed ..).trans ?_ | split | refine (foldl_fixed _ _ _ ?_).trans ?_ | simp only [↓State.fixed_mk, ↓State.fixed_def, State.fixed_def])

theorem linkChange_fixed (d : ℕ) (slot : ℕ) (st : ℕ) (s : State) :
    (linkChange d slot st s).fixed = s.fixed := by
  unfold linkChange
  repeat' with_reducible (first | rfl | refine ite_fixed ?_ ?_ | refine (State.dinc_fixed ..).trans ?_ | refine (State.dset_fixed ..).trans ?_ | refine (State.report_fixed ..).trans ?_ | split)

theorem portLeave_fixed (d : ℕ) (slot : ℕ) (st : ℕ) (s : State) :
    (portLeave d slot st s).fixed = s.fixed := by
  unfold portLeave
  repeat' with_reducible (first | rfl | refine ite_fixed ?_ ?_ | refine (abortTx_fixed ..).trans ?_ | refine (flushCut_fixed ..).trans ?_ | refine (linkChange_fixed ..).trans ?_ | refine (onMac_fixed ..).trans ?_ | refine (portFlush_fixed ..).trans ?_ | refine (truncateRx_fixed ..).trans ?_ | split)

theorem portStop_fixed (d : ℕ) (slot : ℕ) (s : State) :
    (portStop d slot s).fixed = s.fixed := by
  unfold portStop
  repeat' with_reducible (first | rfl | refine ite_fixed ?_ ?_ | refine (portLeave_fixed ..).trans ?_ | split)

theorem trained_fixed (d : ℕ) (slot : ℕ) (st : ℕ) (s : State) :
    (trained d slot st s).fixed = s.fixed := by
  unfold trained
  (try dsimp only)
  repeat' with_reducible (first | rfl | assumption | intro _ | refine ite_fixed ?_ ?_ | refine ite_snd_fixed ?_ ?_ | refine ite_snd2_fixed ?_ ?_ | refine getD_fixed ?_ ?_ | refine ite_elim_fixed ?_ ?_ | refine (some_elim_fixed ..).trans ?_ | refine (none_elim_fixed ..).trans ?_ | refine ite_fst_elim_fixed ?_ ?_ | refine map_elim_fixed ?_ ?_ | refine bind_elim_fixed ?_ ?_ | refine foldl_elim_fixed _ _ _ ?_ ?_ | refine (State.dset_fixed ..).trans ?_ | refine (linkChange_fixed ..).trans ?_ | refine (onMac_fixed ..).trans ?_ | refine (portStop_fixed ..).trans ?_ | refine snd_fixed (by assumption) ?_ | refine snd2_fixed (by assumption) ?_ | refine fst_elim_fixed (by assumption) ?_ | refine of_some_fixed (by assumption) ?_ | split | refine (foldl_fixed _ _ _ ?_).trans ?_ | refine (foldl_fixed_snd _ _ _ ?_).trans ?_ | refine (foldl_fixed_snd2 _ _ _ ?_).trans ?_ | simp only [↓State.fixed_mk, ↓State.fixed_def, State.fixed_def])

theorem portEnable_fixed (d : ℕ) (slot : ℕ) (v : ℕ) (s : State) :
    (portEnable d slot v s).2.fixed = s.fixed := by
  unfold portEnable
  dsimp only
  repeat' with_reducible (first | rfl | refine ite_fixed ?_ ?_ | refine (State.dset_fixed ..).trans ?_ | refine (linkChange_fixed ..).trans ?_ | refine (onMac_fixed ..).trans ?_ | refine (portStop_fixed ..).trans ?_ | split)

theorem autonegAttempt_fixed (d : ℕ) (slot : ℕ) (s : State) :
    (autonegAttempt d slot s).fixed = s.fixed := by
  unfold autonegAttempt
  repeat' with_reducible (first | rfl | refine ite_fixed ?_ ?_ | refine (State.dinc_fixed ..).trans ?_ | split)

theorem linkLoss_fixed (d : ℕ) (slot : ℕ) (fault : Bool) (s : State) :
    (linkLoss d slot fault s).fixed = s.fixed := by
  unfold linkLoss
  repeat' with_reducible (first | rfl | refine ite_fixed ?_ ?_ | refine (State.dset_fixed ..).trans ?_ | refine (onMac_fixed ..).trans ?_ | refine (portLeave_fixed ..).trans ?_ | refine (portStop_fixed ..).trans ?_ | refine (trained_fixed ..).trans ?_ | split)

theorem remoteFault_fixed (d : ℕ) (slot : ℕ) (s : State) :
    (remoteFault d slot s).fixed = s.fixed := by
  unfold remoteFault
  repeat' with_reducible (first | rfl | refine ite_fixed ?_ ?_ | refine (State.dset_fixed ..).trans ?_ | refine (onMac_fixed ..).trans ?_ | refine (portLeave_fixed ..).trans ?_ | refine (portStop_fixed ..).trans ?_ | refine (trained_fixed ..).trans ?_ | split)

theorem linkUp_fixed (d : ℕ) (slot : ℕ) (odd : Bool) (s : State) :
    (linkUp d slot odd s).fixed = s.fixed := by
  unfold linkUp
  repeat' with_reducible (first | rfl | refine ite_fixed ?_ ?_ | refine (State.dset_fixed ..).trans ?_ | refine (onMac_fixed ..).trans ?_ | refine (trained_fixed ..).trans ?_ | split)

theorem txOversize_fixed (d : ℕ) (slot : ℕ) (s : State) :
    (txOversize d slot s).fixed = s.fixed := by
  unfold txOversize
  dsimp only
  repeat' with_reducible (first | rfl | refine ite_fixed ?_ ?_ | refine (State.dinc_fixed ..).trans ?_ | refine (onMac_fixed ..).trans ?_ | split)

theorem txUnderrun_fixed (d : ℕ) (slot : ℕ) (s : State) :
    (txUnderrun d slot s).fixed = s.fixed := by
  unfold txUnderrun
  dsimp only
  repeat' with_reducible (first | rfl | refine ite_fixed ?_ ?_ | refine (State.dinc_fixed ..).trans ?_ | refine (onMac_fixed ..).trans ?_ | split)

theorem txComplete_fixed (d : ℕ) (slot : ℕ) (s : State) :
    (txComplete d slot s).fixed = s.fixed := by
  unfold txComplete
  repeat' with_reducible (first | rfl | refine ite_fixed ?_ ?_ | intro _ | refine (State.dinc_fixed ..).trans ?_ | refine (State.onPkt_fixed ..).trans ?_ | refine (State.when_fixed _ _ _ ?_).trans ?_ | refine (bodyRead_fixed ..).trans ?_ | refine (dropPkt_fixed ..).trans ?_ | refine (finishPkt_fixed ..).trans ?_ | refine (macStart_fixed ..).trans ?_ | refine (onMac_fixed ..).trans ?_ | refine (portStop_fixed ..).trans ?_ | refine (recordPost_fixed ..).trans ?_ | refine (shaperCharge_fixed ..).trans ?_ | split | refine (foldl_fixed _ _ _ ?_).trans ?_ | simp only [↓State.fixed_mk, ↓State.fixed_def, State.fixed_def])

theorem loadTimer_fixed (d : ℕ) (slot : ℕ) (cls : ℕ) (q : ℕ) (s : State) :
    (loadTimer d slot cls q s).fixed = s.fixed := by
  unfold loadTimer
  repeat' with_reducible (first | rfl | refine ite_fixed ?_ ?_ | refine (State.dset_fixed ..).trans ?_ | refine (onMac_fixed ..).trans ?_ | split)

theorem pauseReceive_fixed (d : ℕ) (slot : ℕ) (f : Bytes) (cw : Cw) (s : State) :
    (pauseReceive d slot f cw s).fixed = s.fixed := by
  unfold pauseReceive
  repeat' with_reducible (first | rfl | refine ite_fixed ?_ ?_ | intro _ | refine (State.dinc_fixed ..).trans ?_ | refine (State.each_fixed _ _ _ ?_).trans ?_ | refine (loadTimer_fixed ..).trans ?_ | refine (macRxCount_fixed ..).trans ?_ | refine (macStart_fixed ..).trans ?_ | split | refine (foldl_fixed _ _ _ ?_).trans ?_ | simp only [↓State.fixed_mk, ↓State.fixed_def, State.fixed_def])

theorem pauseExpire_fixed (d : ℕ) (slot : ℕ) (cls : ℕ) (s : State) :
    (pauseExpire d slot cls s).fixed = s.fixed := by
  unfold pauseExpire
  repeat' with_reducible (first | rfl | refine ite_fixed ?_ ?_ | refine (loadTimer_fixed ..).trans ?_ | refine (macStart_fixed ..).trans ?_ | split)

theorem pauseSend_fixed (d : ℕ) (slot : ℕ) (s : State) :
    (pauseSend d slot s).fixed = s.fixed := by
  unfold pauseSend
  repeat' with_reducible (first | rfl | refine ite_fixed ?_ ?_ | intro _ | refine (State.dinc_fixed ..).trans ?_ | refine (State.each_fixed _ _ _ ?_).trans ?_ | refine (onMac_fixed ..).trans ?_ | split | refine (foldl_fixed _ _ _ ?_).trans ?_ | simp only [↓State.fixed_mk, ↓State.fixed_def, State.fixed_def])

theorem pauseFrameSend_fixed (d : ℕ) (slot : ℕ) (s : State) :
    (pauseFrameSend d slot s).fixed = s.fixed := by
  unfold pauseFrameSend
  repeat' with_reducible (first | rfl | refine ite_fixed ?_ ?_ | refine (macStart_fixed ..).trans ?_ | refine (onMac_fixed ..).trans ?_ | refine (pauseSend_fixed ..).trans ?_ | split)

theorem pauseRefresh_fixed (d : ℕ) (slot : ℕ) (s : State) :
    (pauseRefresh d slot s).fixed = s.fixed := by
  unfold pauseRefresh
  repeat' with_reducible (first | rfl | refine ite_fixed ?_ ?_ | refine (macStart_fixed ..).trans ?_ | refine (onMac_fixed ..).trans ?_ | refine (pauseSend_fixed ..).trans ?_ | split)

theorem freeze_fixed (d : ℕ) (s : State) :
    (freeze d s).fixed = s.fixed := by
  unfold freeze
  repeat' with_reducible (first | rfl | refine ite_fixed ?_ ?_ | refine (State.dset_fixed ..).trans ?_ | refine (State.onDie_fixed ..).trans ?_ | split)

theorem snapshotWrite_fixed (d : ℕ) (s : State) :
    (snapshotWrite d s).2.fixed = s.fixed := by
  unfold snapshotWrite
  repeat' with_reducible (first | rfl | refine ite_fixed ?_ ?_ | refine (freeze_fixed ..).trans ?_ | split)

theorem snapshotDone_fixed (d : ℕ) (s : State) :
    (snapshotDone d s).fixed = s.fixed := by
  unfold snapshotDone
  repeat' with_reducible (first | rfl | refine ite_fixed ?_ ?_ | refine (State.dset_fixed ..).trans ?_ | refine (State.onDie_fixed ..).trans ?_ | split)

theorem snapshotAwait_fixed (d : ℕ) (t : ℕ) (s : State) :
    (snapshotAwait d t s).2.fixed = s.fixed := by
  unfold snapshotAwait
  repeat' with_reducible (first | rfl | refine ite_fixed ?_ ?_ | refine (State.onDie_fixed ..).trans ?_ | split)

theorem snapshotApply_fixed (d : ℕ) (s : State) :
    (snapshotApply d s).fixed = s.fixed := by
  unfold snapshotApply
  repeat' with_reducible (first | rfl | refine ite_fixed ?_ ?_ | refine (State.onDie_fixed ..).trans ?_ | refine (freeze_fixed ..).trans ?_ | split)

theorem execAutonegAttempt_fixed (d : DieId) (slot : Slot) (s : State) {s' : State}
    (h : execAutonegAttempt d slot s = .next s') : s'.fixed = s.fixed := by
  unfold execAutonegAttempt at h
  refine onLive_fixed (fun s => ?_) h
  repeat' with_reducible (first | rfl | refine ite_fixed ?_ ?_ | refine (autonegAttempt_fixed ..).trans ?_ | split)

theorem execLinkLoss_fixed (d : DieId) (slot : Slot) (fault : Bool) (s : State) {s' : State}
    (h : execLinkLoss d slot fault s = .next s') : s'.fixed = s.fixed := by
  unfold execLinkLoss at h
  refine onLive_fixed (fun s => ?_) h
  repeat' with_reducible (first | rfl | refine ite_fixed ?_ ?_ | refine (linkLoss_fixed ..).trans ?_ | split)

theorem execRemoteFault_fixed (d : DieId) (slot : Slot) (s : State) {s' : State}
    (h : execRemoteFault d slot s = .next s') : s'.fixed = s.fixed := by
  unfold execRemoteFault at h
  refine onLive_fixed (fun s => ?_) h
  repeat' with_reducible (first | rfl | refine ite_fixed ?_ ?_ | refine (remoteFault_fixed ..).trans ?_ | split)

theorem execLinkUp_fixed (d : DieId) (slot : Slot) (odd : Bool) (s : State) {s' : State}
    (h : execLinkUp d slot odd s = .next s') : s'.fixed = s.fixed := by
  unfold execLinkUp at h
  refine onLive_fixed (fun s => ?_) h
  repeat' with_reducible (first | rfl | refine ite_fixed ?_ ?_ | refine (linkUp_fixed ..).trans ?_ | split)

theorem execTxOversizeCut_fixed (d : DieId) (slot : Slot) (s : State) {s' : State}
    (h : execTxOversizeCut d slot s = .next s') : s'.fixed = s.fixed := by
  unfold execTxOversizeCut at h
  refine onLive_fixed (fun s => ?_) h
  repeat' with_reducible (first | rfl | refine ite_fixed ?_ ?_ | refine (txOversize_fixed ..).trans ?_ | split)

theorem execTxUnderrun_fixed (d : DieId) (slot : Slot) (s : State) {s' : State}
    (h : execTxUnderrun d slot s = .next s') : s'.fixed = s.fixed := by
  unfold execTxUnderrun at h
  refine onLive_fixed (fun s => ?_) h
  repeat' with_reducible (first | rfl | refine ite_fixed ?_ ?_ | refine (txUnderrun_fixed ..).trans ?_ | split)

theorem execFrameTxComplete_fixed (d : DieId) (slot : Slot) (s : State) {s' : State}
    (h : execFrameTxComplete d slot s = .next s') : s'.fixed = s.fixed := by
  unfold execFrameTxComplete at h
  refine onLive_fixed (fun s => ?_) h
  repeat' with_reducible (first | rfl | refine ite_fixed ?_ ?_ | refine (txComplete_fixed ..).trans ?_ | split)

theorem execPauseFrameReceive_fixed (d : DieId) (slot : Slot) (f : Bytes) (cw : Cw) (s : State) {s' : State}
    (h : execPauseFrameReceive d slot f cw s = .next s') : s'.fixed = s.fixed := by
  unfold execPauseFrameReceive at h
  refine onLive_fixed (fun s => ?_) h
  repeat' with_reducible (first | rfl | refine ite_fixed ?_ ?_ | refine (pauseReceive_fixed ..).trans ?_ | split)

theorem execPauseTimerExpire_fixed (d : DieId) (slot : Slot) (cls : Fin 9) (s : State) {s' : State}
    (h : execPauseTimerExpire d slot cls s = .next s') : s'.fixed = s.fixed := by
  unfold execPauseTimerExpire at h
  refine onLive_fixed (fun s => ?_) h
  repeat' with_reducible (first | rfl | refine ite_fixed ?_ ?_ | refine (pauseExpire_fixed ..).trans ?_ | split)

theorem execPauseFrameSend_fixed (d : DieId) (slot : Slot) (s : State) {s' : State}
    (h : execPauseFrameSend d slot s = .next s') : s'.fixed = s.fixed := by
  unfold execPauseFrameSend at h
  refine onLive_fixed (fun s => ?_) h
  repeat' with_reducible (first | rfl | refine ite_fixed ?_ ?_ | refine (pauseFrameSend_fixed ..).trans ?_ | split)

theorem execPauseRefresh_fixed (d : DieId) (slot : Slot) (s : State) {s' : State}
    (h : execPauseRefresh d slot s = .next s') : s'.fixed = s.fixed := by
  unfold execPauseRefresh at h
  refine onLive_fixed (fun s => ?_) h
  repeat' with_reducible (first | rfl | refine ite_fixed ?_ ?_ | refine (pauseRefresh_fixed ..).trans ?_ | split)

theorem execSnapshotCopyDone_fixed (d : DieId) (s : State) {s' : State}
    (h : execSnapshotCopyDone d s = .next s') : s'.fixed = s.fixed := by
  unfold execSnapshotCopyDone at h
  refine onLive_fixed (fun s => ?_) h
  repeat' with_reducible (first | rfl | refine ite_fixed ?_ ?_ | refine (snapshotDone_fixed ..).trans ?_ | split)

theorem execSnapshotAllApply_fixed (d : DieId) (s : State) {s' : State}
    (h : execSnapshotAllApply d s = .next s') : s'.fixed = s.fixed := by
  unfold execSnapshotAllApply at h
  refine onLive_fixed (fun s => ?_) h
  repeat' with_reducible (first | rfl | refine ite_fixed ?_ ?_ | refine (snapshotApply_fixed ..).trans ?_ | split)

end Sys2Proof.Machine
end

