-- ==== Sys2Proof/Laws/Fixed/Tables.lean ====
section
/-! SUPPORT. What the operations of Machine/Tables.lean leave as it is: the part, the queue, the clock, the anti-rollback
counter and the revocation bits. -/

set_option linter.all false
set_option maxRecDepth 4000

namespace Sys2Proof.Machine

theorem shadowSet_fixed (d : ℕ) (w : ShWrite) (s : State) :
    (shadowSet d w s).fixed = s.fixed := by
  unfold shadowSet
  repeat' with_reducible (first | rfl | refine ite_fixed ?_ ?_ | refine (State.onDie_fixed ..).trans ?_ | split)

theorem shadowWrite_fixed (d : ℕ) (w : ShWrite) (s : State) :
    (shadowWrite d w s).fixed = s.fixed := by
  unfold shadowWrite
  repeat' with_reducible (first | rfl | refine ite_fixed ?_ ?_ | intro _ | refine (State.dinc_fixed ..).trans ?_ | refine (State.each_fixed _ _ _ ?_).trans ?_ | refine (State.onDie_fixed ..).trans ?_ | refine (access_fixed ..).trans ?_ | refine (cureLine_fixed ..).trans ?_ | refine (shadowSet_fixed ..).trans ?_ | split | refine (foldl_fixed _ _ _ ?_).trans ?_ | simp only [↓State.fixed_mk, ↓State.fixed_def, State.fixed_def])

theorem keptAgain_fixed (d : ℕ) (s : State) :
    (keptAgain d s).fixed = s.fixed := by
  unfold keptAgain
  repeat' with_reducible (first | rfl | refine ite_fixed ?_ ?_ | intro _ | refine (State.each_fixed _ _ _ ?_).trans ?_ | refine (State.onDie_fixed ..).trans ?_ | refine (shadowWrite_fixed ..).trans ?_ | split | refine (foldl_fixed _ _ _ ?_).trans ?_ | simp only [↓State.fixed_mk, ↓State.fixed_def, State.fixed_def])

theorem shadowPut_fixed (d : ℕ) (code : ℕ) (b : ℕ) (all : Bool) (v : Bucket) (s : State) :
    (shadowPut d code b all v s).fixed = s.fixed := by
  unfold shadowPut
  repeat' with_reducible (first | rfl | refine ite_fixed ?_ ?_ | refine (shadowWrite_fixed ..).trans ?_ | split)

theorem deepWritten_fixed (h : ℕ) (code : ℕ) (b : ℕ) (s : State) :
    (deepWritten h code b s).fixed = s.fixed := by
  unfold deepWritten
  repeat' with_reducible (first | rfl | refine ite_fixed ?_ ?_ | intro _ | refine (State.dinc_fixed ..).trans ?_ | refine (State.each_fixed _ _ _ ?_).trans ?_ | refine (cureLine_fixed ..).trans ?_ | refine (translate_fixed ..).trans ?_ | split | refine (foldl_fixed _ _ _ ?_).trans ?_ | simp only [↓State.fixed_mk, ↓State.fixed_def, State.fixed_def])

theorem storeBucket_fixed (q : ℕ) (d : ℕ) (code : ℕ) (b : ℕ) (v : Bucket) (s : State) :
    (storeBucket q d code b v s).fixed = s.fixed := by
  unfold storeBucket
  repeat' with_reducible (first | rfl | refine ite_fixed ?_ ?_ | refine (State.onDie_fixed ..).trans ?_ | refine (bankWrite_fixed ..).trans ?_ | split)

theorem fencedWrite_fixed (d : ℕ) (code : ℕ) (b : ℕ) (all : Bool) (f : Bucket → Bucket) (s : State) :
    (fencedWrite d code b all f s).fixed = s.fixed := by
  unfold fencedWrite
  repeat' with_reducible (first | rfl | refine ite_fixed ?_ ?_ | refine (shadowPut_fixed ..).trans ?_ | split)

theorem onBucketBy_fixed (q : ℕ) (d : ℕ) (code : ℕ) (b : ℕ) (all : Bool) (f : Bucket → Bucket) (s : State) :
    (onBucketBy q d code b all f s).fixed = s.fixed := by
  unfold onBucketBy
  repeat' with_reducible (first | rfl | refine ite_fixed ?_ ?_ | refine (deepWritten_fixed ..).trans ?_ | refine (fencedWrite_fixed ..).trans ?_ | refine (shadowPut_fixed ..).trans ?_ | refine (storeBucket_fixed ..).trans ?_ | split)

theorem onBucket_fixed (d : ℕ) (code : ℕ) (b : ℕ) (all : Bool) (f : Bucket → Bucket) (s : State) :
    (onBucket d code b all f s).fixed = s.fixed := by
  unfold onBucket
  repeat' with_reducible (first | rfl | refine ite_fixed ?_ ?_ | refine (onBucketBy_fixed ..).trans ?_ | split)

theorem readGrant_fixed (q : ℕ) (d : ℕ) (code : ℕ) (b : ℕ) (s : State) :
    (readGrant q d code b s).fixed = s.fixed := by
  unfold readGrant
  (try dsimp only)
  repeat' with_reducible (first | rfl | assumption | intro _ | refine ite_fixed ?_ ?_ | refine ite_snd_fixed ?_ ?_ | refine ite_snd2_fixed ?_ ?_ | refine getD_fixed ?_ ?_ | refine ite_elim_fixed ?_ ?_ | refine (some_elim_fixed ..).trans ?_ | refine (none_elim_fixed ..).trans ?_ | refine ite_fst_elim_fixed ?_ ?_ | refine map_elim_fixed ?_ ?_ | refine bind_elim_fixed ?_ ?_ | refine foldl_elim_fixed _ _ _ ?_ ?_ | refine (bankGrant_fixed ..).trans ?_ | refine (bucketParity_fixed ..).trans ?_ | refine snd_fixed (by assumption) ?_ | refine snd2_fixed (by assumption) ?_ | refine fst_elim_fixed (by assumption) ?_ | refine of_some_fixed (by assumption) ?_ | split | refine (foldl_fixed _ _ _ ?_).trans ?_ | refine (foldl_fixed_snd _ _ _ ?_).trans ?_ | refine (foldl_fixed_snd2 _ _ _ ?_).trans ?_ | simp only [↓State.fixed_mk, ↓State.fixed_def, State.fixed_def])

theorem engReads_fixed (d : ℕ) (code : ℕ) (key : ℕ) (s : State) :
    (engReads d code key s).fixed = s.fixed := by
  unfold engReads
  (try dsimp only)
  repeat' with_reducible (first | rfl | assumption | intro _ | refine ite_fixed ?_ ?_ | refine ite_snd_fixed ?_ ?_ | refine ite_snd2_fixed ?_ ?_ | refine getD_fixed ?_ ?_ | refine ite_elim_fixed ?_ ?_ | refine (some_elim_fixed ..).trans ?_ | refine (none_elim_fixed ..).trans ?_ | refine ite_fst_elim_fixed ?_ ?_ | refine map_elim_fixed ?_ ?_ | refine bind_elim_fixed ?_ ?_ | refine foldl_elim_fixed _ _ _ ?_ ?_ | refine (readGrant_fixed ..).trans ?_ | refine snd_fixed (by assumption) ?_ | refine snd2_fixed (by assumption) ?_ | refine fst_elim_fixed (by assumption) ?_ | refine of_some_fixed (by assumption) ?_ | split | refine (foldl_fixed _ _ _ ?_).trans ?_ | refine (foldl_fixed_snd _ _ _ ?_).trans ?_ | refine (foldl_fixed_snd2 _ _ _ ?_).trans ?_ | simp only [↓State.fixed_mk, ↓State.fixed_def, State.fixed_def])

theorem shadowForget_fixed (d : ℕ) (code : ℕ) (key : ℕ) (all : Bool) (s : State) :
    (shadowForget d code key all s).fixed = s.fixed := by
  unfold shadowForget
  repeat' with_reducible (first | rfl | refine ite_fixed ?_ ?_ | intro _ | refine (State.each_fixed _ _ _ ?_).trans ?_ | refine (shadowPut_fixed ..).trans ?_ | split | refine (foldl_fixed _ _ _ ?_).trans ?_ | simp only [↓State.fixed_mk, ↓State.fixed_def, State.fixed_def])

theorem moveEntry_fixed (d : ℕ) (code : ℕ) (all : Bool) (m : Move) (s : State) :
    (moveEntry d code all m s).fixed = s.fixed := by
  unfold moveEntry
  repeat' with_reducible (first | rfl | refine ite_fixed ?_ ?_ | refine (State.onDie_fixed ..).trans ?_ | refine (onBucket_fixed ..).trans ?_ | split)

theorem lookAhead_fixed (h : ℕ) (code : ℕ) (key : ℕ) (s : State) :
    (lookAhead h code key s).fixed = s.fixed := by
  unfold lookAhead
  repeat' with_reducible (first | rfl | refine ite_fixed ?_ ?_ | intro _ | refine (State.each_fixed _ _ _ ?_).trans ?_ | refine (access_fixed ..).trans ?_ | split | refine (foldl_fixed _ _ _ ?_).trans ?_ | simp only [↓State.fixed_mk, ↓State.fixed_def, State.fixed_def])

theorem place_fixed (d : ℕ) (code : ℕ) (all : Bool) (e : TEntry) (s : State) :
    (place d code all e s).2.fixed = s.fixed := by
  unfold place
  repeat' with_reducible (first | rfl | refine ite_fixed ?_ ?_ | intro _ | refine (State.each_fixed _ _ _ ?_).trans ?_ | refine (lookAhead_fixed ..).trans ?_ | refine (moveEntry_fixed ..).trans ?_ | refine (onBucket_fixed ..).trans ?_ | refine (readGrant_fixed ..).trans ?_ | refine (shadowForget_fixed ..).trans ?_ | split | refine (foldl_fixed _ _ _ ?_).trans ?_ | simp only [↓State.fixed_mk, ↓State.fixed_def, State.fixed_def])

theorem rewriteSlot_fixed (d : ℕ) (code : ℕ) (all : Bool) (b : ℕ) (i : ℕ) (f : TEntry → TEntry) (s : State) :
    (rewriteSlot d code all b i f s).fixed = s.fixed := by
  unfold rewriteSlot
  repeat' with_reducible (first | rfl | refine ite_fixed ?_ ?_ | refine (onBucket_fixed ..).trans ?_ | split)

theorem deleteSlot_fixed (d : ℕ) (code : ℕ) (all : Bool) (b : ℕ) (i : ℕ) (s : State) :
    (deleteSlot d code all b i s).fixed = s.fixed := by
  unfold deleteSlot
  repeat' with_reducible (first | rfl | refine ite_fixed ?_ ?_ | refine (onBucket_fixed ..).trans ?_ | split)

theorem learnNote_fixed (d : ℕ) (ty : ℕ) (code : ℕ) (e : TEntry) (result : ℕ) (old : ℕ) (s : State) :
    (learnNote d ty code e result old s).fixed = s.fixed := by
  unfold learnNote
  repeat' with_reducible (first | rfl | refine ite_fixed ?_ ?_ | refine (recordPost_fixed ..).trans ?_ | split)

theorem refreshSlot_fixed (q : ℕ) (d : ℕ) (code : ℕ) (b : ℕ) (i : ℕ) (e : TEntry) (s : State) :
    (refreshSlot q d code b i e s).fixed = s.fixed := by
  unfold refreshSlot
  repeat' with_reducible (first | rfl | refine ite_fixed ?_ ?_ | refine (onBucketBy_fixed ..).trans ?_ | split)

theorem onSunit_fixed (d : ℕ) (u : ℕ) (f : SUnit → SUnit) (s : State) :
    (onSunit d u f s).fixed = s.fixed := by
  unfold onSunit
  repeat' with_reducible (first | rfl | refine ite_fixed ?_ ?_ | refine (State.onDie_fixed ..).trans ?_ | split)

theorem unitEvent_fixed (d : ℕ) (u : ℕ) (code : ℕ) (n : ℕ) (q : SReq) (s : State) :
    (unitEvent d u code n q s).fixed = s.fixed := by
  unfold unitEvent
  repeat' with_reducible (first | rfl | refine ite_fixed ?_ ?_ | refine (perfEvent_fixed ..).trans ?_ | split)

theorem unitOpens_fixed (d : ℕ) (u : ℕ) (code : ℕ) (q : SReq) (s : State) :
    (unitOpens d u code q s).fixed = s.fixed := by
  unfold unitOpens
  (try dsimp only)
  repeat' with_reducible (first | rfl | assumption | intro _ | refine ite_fixed ?_ ?_ | refine ite_snd_fixed ?_ ?_ | refine ite_snd2_fixed ?_ ?_ | refine getD_fixed ?_ ?_ | refine ite_elim_fixed ?_ ?_ | refine (some_elim_fixed ..).trans ?_ | refine (none_elim_fixed ..).trans ?_ | refine ite_fst_elim_fixed ?_ ?_ | refine map_elim_fixed ?_ ?_ | refine bind_elim_fixed ?_ ?_ | refine foldl_elim_fixed _ _ _ ?_ ?_ | refine (perfNote_fixed ..).trans ?_ | refine snd_fixed (by assumption) ?_ | refine snd2_fixed (by assumption) ?_ | refine fst_elim_fixed (by assumption) ?_ | refine of_some_fixed (by assumption) ?_ | split | refine (foldl_fixed _ _ _ ?_).trans ?_ | refine (foldl_fixed_snd _ _ _ ?_).trans ?_ | refine (foldl_fixed_snd2 _ _ _ ?_).trans ?_ | simp only [↓State.fixed_mk, ↓State.fixed_def, State.fixed_def])

theorem serveHead_fixed (d u : Nat) (mine : Nat → Bool) (f : SReq → State → State) (s : State)
    (h : ∀ m a, (f m a).fixed = a.fixed) : (serveHead d u mine f s).fixed = s.fixed := by
  unfold serveHead; dsimp only; split
  · rfl
  · split
    · rfl
    · rw [h, onSunit_fixed]

theorem answer_fixed (q : SReq) (r : RSlot) (s : State) :
    (answer q r s).fixed = s.fixed := by
  unfold answer
  repeat' with_reducible (first | rfl | refine ite_fixed ?_ ?_ | refine (respond_fixed ..).trans ?_ | split)

theorem probeGrants_fixed (d : ℕ) (u : ℕ) (code : ℕ) (key : ℕ) (p : Probe) (s : State) :
    (probeGrants d u code key p s).fixed = s.fixed := by
  unfold probeGrants
  repeat' with_reducible (first | rfl | refine ite_fixed ?_ ?_ | refine (bankGrant_fixed ..).trans ?_ | split)

theorem countProbe_fixed (d : ℕ) (u : ℕ) (code : ℕ) (key : ℕ) (q : SReq) (p : Probe) (s : State) :
    (countProbe d u code key q p s).fixed = s.fixed := by
  unfold countProbe
  repeat' with_reducible (first | rfl | refine ite_fixed ?_ ?_ | refine (State.dinc_fixed ..).trans ?_ | refine (State.report_fixed ..).trans ?_ | refine (probeGrants_fixed ..).trans ?_ | refine (unitEvent_fixed ..).trans ?_ | split)

theorem exactSearch_fixed (d : ℕ) (u : ℕ) (grants : List ReadAt) (q : SReq) (s : State) :
    (exactSearch d u grants q s).fixed = s.fixed := by
  unfold exactSearch
  repeat' with_reducible (first | rfl | refine ite_fixed ?_ ?_ | intro _ | refine (State.dinc_fixed ..).trans ?_ | refine (State.when_fixed _ _ _ ?_).trans ?_ | refine (answer_fixed ..).trans ?_ | refine (bankGrant_fixed ..).trans ?_ | refine (countProbe_fixed ..).trans ?_ | refine (keyParity_fixed ..).trans ?_ | refine (refreshSlot_fixed ..).trans ?_ | refine (resolveParity_fixed ..).trans ?_ | refine (unitEvent_fixed ..).trans ?_ | split | refine (foldl_fixed _ _ _ ?_).trans ?_ | simp only [↓State.fixed_mk, ↓State.fixed_def, State.fixed_def])

theorem engAsks_fixed (d : ℕ) (i : ℕ) (t : ℕ) (s : State) :
    (engAsks d i t s).fixed = s.fixed := by
  unfold engAsks
  repeat' with_reducible (first | rfl | refine ite_fixed ?_ ?_ | refine (State.onDie_fixed ..).trans ?_ | split)

theorem engGrant_fixed (d : ℕ) (i : ℕ) (s : State) :
    (engGrant d i s).fixed = s.fixed := by
  unfold engGrant
  repeat' with_reducible (first | rfl | refine ite_fixed ?_ ?_ | refine (State.onDie_fixed ..).trans ?_ | split)

theorem learnDo_fixed (d : ℕ) (s : State) :
    (learnDo d s).fixed = s.fixed := by
  unfold learnDo
  (try dsimp only)
  repeat' with_reducible (first | rfl | assumption | intro _ | refine ite_fixed ?_ ?_ | refine ite_snd_fixed ?_ ?_ | refine ite_snd2_fixed ?_ ?_ | refine getD_fixed ?_ ?_ | refine ite_elim_fixed ?_ ?_ | refine (some_elim_fixed ..).trans ?_ | refine (none_elim_fixed ..).trans ?_ | refine ite_fst_elim_fixed ?_ ?_ | refine map_elim_fixed ?_ ?_ | refine bind_elim_fixed ?_ ?_ | refine foldl_elim_fixed _ _ _ ?_ ?_ | refine (State.dinc_fixed ..).trans ?_ | refine (State.onDie_fixed ..).trans ?_ | refine (State.when_fixed _ _ _ ?_).trans ?_ | refine (engGrant_fixed ..).trans ?_ | refine (engReads_fixed ..).trans ?_ | refine (learnNote_fixed ..).trans ?_ | refine (place_fixed ..).trans ?_ | refine (refreshSlot_fixed ..).trans ?_ | refine (rewriteSlot_fixed ..).trans ?_ | refine snd_fixed (by assumption) ?_ | refine snd2_fixed (by assumption) ?_ | refine fst_elim_fixed (by assumption) ?_ | refine of_some_fixed (by assumption) ?_ | split | refine (foldl_fixed _ _ _ ?_).trans ?_ | refine (foldl_fixed_snd _ _ _ ?_).trans ?_ | refine (foldl_fixed_snd2 _ _ _ ?_).trans ?_ | simp only [↓State.fixed_mk, ↓State.fixed_def, State.fixed_def])

theorem learnStep_fixed (d : ℕ) (s : State) :
    (learnStep d s).fixed = s.fixed := by
  unfold learnStep
  repeat' with_reducible (first | rfl | refine ite_fixed ?_ ?_ | intro _ | refine (State.when_fixed _ _ _ ?_).trans ?_ | refine (engAsks_fixed ..).trans ?_ | refine (learnDo_fixed ..).trans ?_ | split | refine (foldl_fixed _ _ _ ?_).trans ?_ | simp only [↓State.fixed_mk, ↓State.fixed_def, State.fixed_def])

theorem ageSlot_fixed (d : ℕ) (t : ℕ) (b : ℕ) (i : ℕ) (all : Bool) (rule : Aging) (s : State) :
    (ageSlot d t b i all rule s).fixed = s.fixed := by
  unfold ageSlot
  repeat' with_reducible (first | rfl | refine ite_fixed ?_ ?_ | refine (State.dinc_fixed ..).trans ?_ | refine (deleteSlot_fixed ..).trans ?_ | refine (rewriteSlot_fixed ..).trans ?_ | split)

theorem sweepDo_fixed (d : ℕ) (t : ℕ) (s : State) :
    (sweepDo d t s).fixed = s.fixed := by
  unfold sweepDo
  repeat' with_reducible (first | rfl | refine ite_fixed ?_ ?_ | intro _ | refine (State.dinc_fixed ..).trans ?_ | refine (State.each_fixed _ _ _ ?_).trans ?_ | refine (State.onDie_fixed ..).trans ?_ | refine (State.when_fixed _ _ _ ?_).trans ?_ | refine (ageSlot_fixed ..).trans ?_ | refine (engGrant_fixed ..).trans ?_ | refine (learnNote_fixed ..).trans ?_ | refine (readGrant_fixed ..).trans ?_ | split | refine (foldl_fixed _ _ _ ?_).trans ?_ | simp only [↓State.fixed_mk, ↓State.fixed_def, State.fixed_def])

theorem sweepVisit_fixed (d : ℕ) (t : ℕ) (s : State) :
    (sweepVisit d t s).fixed = s.fixed := by
  unfold sweepVisit
  repeat' with_reducible (first | rfl | refine ite_fixed ?_ ?_ | refine (engAsks_fixed ..).trans ?_ | refine (sweepDo_fixed ..).trans ?_ | split)

theorem exactInsert_fixed (d : ℕ) (code : ℕ) (all : Bool) (static : Bool) (rec : ℕ) (s : State) :
    (exactInsert d code all static rec s).2.fixed = s.fixed := by
  unfold exactInsert
  (try dsimp only)
  repeat' with_reducible (first | rfl | assumption | intro _ | refine ite_fixed ?_ ?_ | refine ite_snd_fixed ?_ ?_ | refine ite_snd2_fixed ?_ ?_ | refine getD_fixed ?_ ?_ | refine ite_elim_fixed ?_ ?_ | refine (some_elim_fixed ..).trans ?_ | refine (none_elim_fixed ..).trans ?_ | refine ite_fst_elim_fixed ?_ ?_ | refine map_elim_fixed ?_ ?_ | refine bind_elim_fixed ?_ ?_ | refine foldl_elim_fixed _ _ _ ?_ ?_ | refine (engReads_fixed ..).trans ?_ | refine (place_fixed ..).trans ?_ | refine (rewriteSlot_fixed ..).trans ?_ | refine snd_fixed (by assumption) ?_ | refine snd2_fixed (by assumption) ?_ | refine fst_elim_fixed (by assumption) ?_ | refine of_some_fixed (by assumption) ?_ | split | refine (foldl_fixed _ _ _ ?_).trans ?_ | refine (foldl_fixed_snd _ _ _ ?_).trans ?_ | refine (foldl_fixed_snd2 _ _ _ ?_).trans ?_ | simp only [↓State.fixed_mk, ↓State.fixed_def, State.fixed_def])

theorem exactDelete_fixed (d : ℕ) (code : ℕ) (all : Bool) (rec : ℕ) (s : State) :
    (exactDelete d code all rec s).2.fixed = s.fixed := by
  unfold exactDelete
  repeat' with_reducible (first | rfl | refine ite_fixed ?_ ?_ | intro _ | refine (deleteSlot_fixed ..).trans ?_ | refine (engReads_fixed ..).trans ?_ | split | refine (foldl_fixed _ _ _ ?_).trans ?_ | simp only [↓State.fixed_mk, ↓State.fixed_def, State.fixed_def])

theorem exactFind_fixed (d : ℕ) (code : ℕ) (rec : ℕ) (s : State) :
    (exactFind d code rec s).2.fixed = s.fixed := by
  unfold exactFind
  (try dsimp only)
  repeat' with_reducible (first | rfl | assumption | intro _ | refine ite_fixed ?_ ?_ | refine ite_snd_fixed ?_ ?_ | refine ite_snd2_fixed ?_ ?_ | refine getD_fixed ?_ ?_ | refine ite_elim_fixed ?_ ?_ | refine (some_elim_fixed ..).trans ?_ | refine (none_elim_fixed ..).trans ?_ | refine ite_fst_elim_fixed ?_ ?_ | refine map_elim_fixed ?_ ?_ | refine bind_elim_fixed ?_ ?_ | refine foldl_elim_fixed _ _ _ ?_ ?_ | refine (engReads_fixed ..).trans ?_ | refine snd_fixed (by assumption) ?_ | refine snd2_fixed (by assumption) ?_ | refine fst_elim_fixed (by assumption) ?_ | refine of_some_fixed (by assumption) ?_ | split | refine (foldl_fixed _ _ _ ?_).trans ?_ | refine (foldl_fixed_snd _ _ _ ?_).trans ?_ | refine (foldl_fixed_snd2 _ _ _ ?_).trans ?_ | simp only [↓State.fixed_mk, ↓State.fixed_def, State.fixed_def])

theorem spanGrant_fixed (d : ℕ) (line : ℕ) (n : ℕ) (s : State) :
    (spanGrant d line n s).fixed = s.fixed := by
  unfold spanGrant
  (try dsimp only)
  repeat' with_reducible (first | rfl | assumption | intro _ | refine ite_fixed ?_ ?_ | refine ite_snd_fixed ?_ ?_ | refine ite_snd2_fixed ?_ ?_ | refine getD_fixed ?_ ?_ | refine ite_elim_fixed ?_ ?_ | refine (some_elim_fixed ..).trans ?_ | refine (none_elim_fixed ..).trans ?_ | refine ite_fst_elim_fixed ?_ ?_ | refine map_elim_fixed ?_ ?_ | refine bind_elim_fixed ?_ ?_ | refine foldl_elim_fixed _ _ _ ?_ ?_ | refine (bankGrant_fixed ..).trans ?_ | refine (spanParity_fixed ..).trans ?_ | refine snd_fixed (by assumption) ?_ | refine snd2_fixed (by assumption) ?_ | refine fst_elim_fixed (by assumption) ?_ | refine of_some_fixed (by assumption) ?_ | split | refine (foldl_fixed _ _ _ ?_).trans ?_ | refine (foldl_fixed_snd _ _ _ ?_).trans ?_ | refine (foldl_fixed_snd2 _ _ _ ?_).trans ?_ | simp only [↓State.fixed_mk, ↓State.fixed_def, State.fixed_def])

theorem exactNext_fixed (d : ℕ) (code : ℕ) (cursor : ℕ) (s : State) :
    (exactNext d code cursor s).2.fixed = s.fixed := by
  unfold exactNext
  (try dsimp only)
  repeat' with_reducible (first | rfl | assumption | intro _ | refine ite_fixed ?_ ?_ | refine ite_snd_fixed ?_ ?_ | refine ite_snd2_fixed ?_ ?_ | refine getD_fixed ?_ ?_ | refine ite_elim_fixed ?_ ?_ | refine (some_elim_fixed ..).trans ?_ | refine (none_elim_fixed ..).trans ?_ | refine ite_fst_elim_fixed ?_ ?_ | refine map_elim_fixed ?_ ?_ | refine bind_elim_fixed ?_ ?_ | refine foldl_elim_fixed _ _ _ ?_ ?_ | refine (spanGrant_fixed ..).trans ?_ | refine snd_fixed (by assumption) ?_ | refine snd2_fixed (by assumption) ?_ | refine fst_elim_fixed (by assumption) ?_ | refine of_some_fixed (by assumption) ?_ | split | refine (foldl_fixed _ _ _ ?_).trans ?_ | refine (foldl_fixed_snd _ _ _ ?_).trans ?_ | refine (foldl_fixed_snd2 _ _ _ ?_).trans ?_ | simp only [↓State.fixed_mk, ↓State.fixed_def, State.fixed_def])

theorem shadowIdxPut_fixed (d : ℕ) (sub : ℕ) (i : ℕ) (v : ℕ) (all : Bool) (s : State) :
    (shadowIdxPut d sub i v all s).fixed = s.fixed := by
  unfold shadowIdxPut
  repeat' with_reducible (first | rfl | refine ite_fixed ?_ ?_ | refine (shadowWrite_fixed ..).trans ?_ | split)

theorem nextHopWrite_fixed (d : ℕ) (all : Bool) (del : Bool) (rec : ℕ) (s : State) :
    (nextHopWrite d all del rec s).2.fixed = s.fixed := by
  unfold nextHopWrite
  dsimp only
  repeat' with_reducible (first | rfl | refine ite_fixed ?_ ?_ | refine (State.onDie_fixed ..).trans ?_ | refine (bankWrite_fixed ..).trans ?_ | refine (shadowIdxPut_fixed ..).trans ?_ | split)

theorem ecmpWrite_fixed (d : ℕ) (all : Bool) (del : Bool) (rec : ℕ) (s : State) :
    (ecmpWrite d all del rec s).2.fixed = s.fixed := by
  unfold ecmpWrite
  dsimp only
  repeat' with_reducible (first | rfl | refine ite_fixed ?_ ?_ | refine (State.onDie_fixed ..).trans ?_ | refine (bankWrite_fixed ..).trans ?_ | refine (shadowIdxPut_fixed ..).trans ?_ | split)

theorem flushStart_fixed (d : ℕ) (code : ℕ) (port : ℕ) (all : Bool) (statics : Bool) (filter : Option ℕ) (s : State) :
    (flushStart d code port all statics filter s).2.fixed = s.fixed := by
  unfold flushStart
  repeat' with_reducible (first | rfl | refine ite_fixed ?_ ?_ | refine (State.dset_fixed ..).trans ?_ | refine (State.onDie_fixed ..).trans ?_ | split)

theorem flushCount_fixed (d : ℕ) (n : ℕ) (s : State) :
    (flushCount d n s).fixed = s.fixed := by
  unfold flushCount
  repeat' with_reducible (first | rfl | refine ite_fixed ?_ ?_ | refine (State.dset_fixed ..).trans ?_ | split)

theorem flushEnd_fixed (d : ℕ) (kept : Bool) (s : State) :
    (flushEnd d kept s).fixed = s.fixed := by
  unfold flushEnd
  repeat' with_reducible (first | rfl | refine ite_fixed ?_ ?_ | refine (State.dset_fixed ..).trans ?_ | refine (State.onDie_fixed ..).trans ?_ | split)

theorem macFlushStep_fixed (d : ℕ) (f : Flush) (s : State) :
    (macFlushStep d f s).fixed = s.fixed := by
  unfold macFlushStep
  repeat' with_reducible (first | rfl | refine ite_fixed ?_ ?_ | intro _ | refine (State.each_fixed _ _ _ ?_).trans ?_ | refine (State.onDie_fixed ..).trans ?_ | refine (deleteSlot_fixed ..).trans ?_ | refine (flushCount_fixed ..).trans ?_ | refine (flushEnd_fixed ..).trans ?_ | refine (spanGrant_fixed ..).trans ?_ | split | refine (foldl_fixed _ _ _ ?_).trans ?_ | simp only [↓State.fixed_mk, ↓State.fixed_def, State.fixed_def])

theorem copyShadow_fixed (d : ℕ) (sub : ℕ) (s : State) :
    (copyShadow d sub s).fixed = s.fixed := by
  unfold copyShadow
  repeat' with_reducible (first | rfl | refine ite_fixed ?_ ?_ | intro _ | refine (State.each_fixed _ _ _ ?_).trans ?_ | refine (shadowWrite_fixed ..).trans ?_ | split | refine (foldl_fixed _ _ _ ?_).trans ?_ | simp only [↓State.fixed_mk, ↓State.fixed_def, State.fixed_def])

theorem shadowModeWrite_fixed (sub : ℕ) (v : ℕ) (s : State) :
    (shadowModeWrite sub v s).2.fixed = s.fixed := by
  unfold shadowModeWrite
  repeat' with_reducible (first | rfl | refine ite_fixed ?_ ?_ | intro _ | refine (State.each_fixed _ _ _ ?_).trans ?_ | refine (State.onDie_fixed ..).trans ?_ | refine (State.pset_fixed ..).trans ?_ | refine (copyShadow_fixed ..).trans ?_ | split | refine (foldl_fixed _ _ _ ?_).trans ?_ | simp only [↓State.fixed_mk, ↓State.fixed_def, State.fixed_def])

theorem shadowCopyDone_fixed (sub : ℕ) (s : State) :
    (shadowCopyDone sub s).fixed = s.fixed := by
  unfold shadowCopyDone
  repeat' with_reducible (first | rfl | refine ite_fixed ?_ ?_ | intro _ | refine (State.each_fixed _ _ _ ?_).trans ?_ | refine (State.onDie_fixed ..).trans ?_ | split | refine (foldl_fixed _ _ _ ?_).trans ?_ | simp only [↓State.fixed_mk, ↓State.fixed_def, State.fixed_def])

theorem shadowRead_fixed (d : ℕ) (h : ℕ) (sub : ℕ) (n : ℕ) (poison : Bool) (s : State) :
    (shadowRead d h sub n poison s).2.fixed = s.fixed := by
  unfold shadowRead
  (try dsimp only)
  repeat' with_reducible (first | rfl | assumption | intro _ | refine ite_fixed ?_ ?_ | refine ite_snd_fixed ?_ ?_ | refine ite_snd2_fixed ?_ ?_ | refine getD_fixed ?_ ?_ | refine ite_elim_fixed ?_ ?_ | refine (some_elim_fixed ..).trans ?_ | refine (none_elim_fixed ..).trans ?_ | refine ite_fst_elim_fixed ?_ ?_ | refine map_elim_fixed ?_ ?_ | refine bind_elim_fixed ?_ ?_ | refine foldl_elim_fixed _ _ _ ?_ ?_ | refine (State.dinc_fixed ..).trans ?_ | refine (access_fixed ..).trans ?_ | refine (poisonLine_fixed ..).trans ?_ | refine snd_fixed (by assumption) ?_ | refine snd2_fixed (by assumption) ?_ | refine fst_elim_fixed (by assumption) ?_ | refine of_some_fixed (by assumption) ?_ | split | refine (foldl_fixed _ _ _ ?_).trans ?_ | refine (foldl_fixed_snd _ _ _ ?_).trans ?_ | refine (foldl_fixed_snd2 _ _ _ ?_).trans ?_ | simp only [↓State.fixed_mk, ↓State.fixed_def, State.fixed_def])

theorem scrubSettle_fixed (d : ℕ) (s : State) :
    (scrubSettle d s).fixed = s.fixed := by
  unfold scrubSettle
  repeat' with_reducible (first | rfl | refine ite_fixed ?_ ?_ | refine (State.dinc_fixed ..).trans ?_ | refine (State.onDie_fixed ..).trans ?_ | split)

theorem scrubGrant_fixed (q : ℕ) (d : ℕ) (sub : ℕ) (n : ℕ) (s : State) :
    (scrubGrant q d sub n s).fixed = s.fixed := by
  unfold scrubGrant
  (try dsimp only)
  repeat' with_reducible (first | rfl | assumption | intro _ | refine ite_fixed ?_ ?_ | refine ite_snd_fixed ?_ ?_ | refine ite_snd2_fixed ?_ ?_ | refine getD_fixed ?_ ?_ | refine ite_elim_fixed ?_ ?_ | refine (some_elim_fixed ..).trans ?_ | refine (none_elim_fixed ..).trans ?_ | refine ite_fst_elim_fixed ?_ ?_ | refine map_elim_fixed ?_ ?_ | refine bind_elim_fixed ?_ ?_ | refine foldl_elim_fixed _ _ _ ?_ ?_ | refine (bankGrant_fixed ..).trans ?_ | refine (spanParity_fixed ..).trans ?_ | refine snd_fixed (by assumption) ?_ | refine snd2_fixed (by assumption) ?_ | refine fst_elim_fixed (by assumption) ?_ | refine of_some_fixed (by assumption) ?_ | split | refine (foldl_fixed _ _ _ ?_).trans ?_ | refine (foldl_fixed_snd _ _ _ ?_).trans ?_ | refine (foldl_fixed_snd2 _ _ _ ?_).trans ?_ | simp only [↓State.fixed_mk, ↓State.fixed_def, State.fixed_def])

theorem scrubBucket_fixed (d : ℕ) (poison : Bool) (s : State) :
    (scrubBucket d poison s).fixed = s.fixed := by
  unfold scrubBucket
  dsimp only
  repeat' with_reducible (first | rfl | refine ite_fixed ?_ ?_ | refine (State.dinc_fixed ..).trans ?_ | refine (State.onDie_fixed ..).trans ?_ | refine (scrubGrant_fixed ..).trans ?_ | refine (scrubSettle_fixed ..).trans ?_ | refine (shadowRead_fixed ..).trans ?_ | split)

theorem scrubRepair_fixed (g : BitVec 8) (d : ℕ) (h : ℕ) (sub : ℕ) (n : ℕ) (s : State) :
    (scrubRepair g d h sub n s).fixed = s.fixed := by
  unfold scrubRepair
  repeat' with_reducible (first | rfl | refine ite_fixed ?_ ?_ | intro _ | refine (State.each_fixed _ _ _ ?_).trans ?_ | refine (State.onDie_fixed ..).trans ?_ | refine (bankWrite_fixed ..).trans ?_ | refine (shadowWrite_fixed ..).trans ?_ | refine (storeBucket_fixed ..).trans ?_ | split | refine (foldl_fixed _ _ _ ?_).trans ?_ | simp only [↓State.fixed_mk, ↓State.fixed_def, State.fixed_def])

theorem recheckDo_fixed (d : ℕ) (poison : Bool) (s : State) :
    (recheckDo d poison s).fixed = s.fixed := by
  unfold recheckDo
  dsimp only
  repeat' with_reducible (first | rfl | refine ite_fixed ?_ ?_ | refine (State.dinc_fixed ..).trans ?_ | refine (State.dset_fixed ..).trans ?_ | refine (State.onDie_fixed ..).trans ?_ | refine (State.reportOpen_fixed ..).trans ?_ | refine (engGrant_fixed ..).trans ?_ | refine (scrubGrant_fixed ..).trans ?_ | refine (scrubRepair_fixed ..).trans ?_ | refine (shadowRead_fixed ..).trans ?_ | split)

theorem scrubRecheck_fixed (d : ℕ) (poison : Bool) (s : State) :
    (scrubRecheck d poison s).fixed = s.fixed := by
  unfold scrubRecheck
  repeat' with_reducible (first | rfl | refine ite_fixed ?_ ?_ | refine (engAsks_fixed ..).trans ?_ | refine (recheckDo_fixed ..).trans ?_ | split)

theorem execExactSearch_fixed (d : DieId) (u : Fin 4) (grants : List ReadAt) (s : State) {s' : State}
    (h : execExactSearch d u grants s = .next s') : s'.fixed = s.fixed := by
  unfold execExactSearch at h
  refine onLive_fixed (fun s => ?_) h
  repeat' with_reducible (first | rfl | refine ite_fixed ?_ ?_ | intro _ | refine (exactSearch_fixed ..).trans ?_ | refine (serveHead_fixed _ _ _ _ _ ?_).trans ?_ | split | refine (foldl_fixed _ _ _ ?_).trans ?_ | simp only [↓State.fixed_mk, ↓State.fixed_def, State.fixed_def])

theorem execLearnEventProcess_fixed (d : DieId) (s : State) {s' : State}
    (h : execLearnEventProcess d s = .next s') : s'.fixed = s.fixed := by
  unfold execLearnEventProcess at h
  refine onLive_fixed (fun s => ?_) h
  repeat' with_reducible (first | rfl | refine ite_fixed ?_ ?_ | refine (learnStep_fixed ..).trans ?_ | split)

theorem execAgeingSweepVisit_fixed (d : DieId) (t : Fin 3) (s : State) {s' : State}
    (h : execAgeingSweepVisit d t s = .next s') : s'.fixed = s.fixed := by
  unfold execAgeingSweepVisit at h
  refine onLive_fixed (fun s => ?_) h
  repeat' with_reducible (first | rfl | refine ite_fixed ?_ ?_ | refine (sweepVisit_fixed ..).trans ?_ | split)

theorem execShadowCopyDone_fixed (sub : Fin 256) (s : State) {s' : State}
    (h : execShadowCopyDone sub s = .next s') : s'.fixed = s.fixed := by
  unfold execShadowCopyDone at h
  cases h
  repeat' with_reducible (first | rfl | refine ite_fixed ?_ ?_ | refine (shadowCopyDone_fixed ..).trans ?_ | split)

theorem execScrubBucket_fixed (d : DieId) (poison : Bool) (s : State) {s' : State}
    (h : execScrubBucket d poison s = .next s') : s'.fixed = s.fixed := by
  unfold execScrubBucket at h
  refine onLive_fixed (fun s => ?_) h
  repeat' with_reducible (first | rfl | refine ite_fixed ?_ ?_ | refine (scrubBucket_fixed ..).trans ?_ | split)

theorem execScrubRecheck_fixed (d : DieId) (poison : Bool) (s : State) {s' : State}
    (h : execScrubRecheck d poison s = .next s') : s'.fixed = s.fixed := by
  unfold execScrubRecheck at h
  refine onLive_fixed (fun s => ?_) h
  repeat' with_reducible (first | rfl | refine ite_fixed ?_ ?_ | refine (scrubRecheck_fixed ..).trans ?_ | split)

end Sys2Proof.Machine
end

