-- ==== Sys2Proof/Laws/Fixed/Context.lean ====
section
/-! SUPPORT. What the operations of Machine/Context.lean leave as it is: the part, the queue, the clock, the anti-rollback
counter and the revocation bits. -/

set_option linter.all false
set_option maxRecDepth 4000

namespace Sys2Proof.Machine

theorem holdSettle_fixed (d : ℕ) (s : State) :
    (holdSettle d s).fixed = s.fixed := by
  unfold holdSettle
  repeat' with_reducible (first | rfl | refine ite_fixed ?_ ?_ | refine (State.dinc_fixed ..).trans ?_ | refine (State.onDie_fixed ..).trans ?_ | split)

theorem setDeepQ_fixed (d : ℕ) (q : List DeepReq) (s : State) :
    (setDeepQ d q s).fixed = s.fixed := by
  unfold setDeepQ
  repeat' with_reducible (first | rfl | refine ite_fixed ?_ ?_ | refine (State.dset_fixed ..).trans ?_ | refine (State.onDie_fixed ..).trans ?_ | refine (holdSettle_fixed ..).trans ?_ | split)

theorem stagingSettle_fixed (d : ℕ) (u : ℕ) (s : State) :
    (stagingSettle d u s).fixed = s.fixed := by
  unfold stagingSettle
  repeat' with_reducible (first | rfl | refine ite_fixed ?_ ?_ | refine (State.dinc_fixed ..).trans ?_ | refine (onSunit_fixed ..).trans ?_ | split)

theorem setStaging_fixed (d : ℕ) (u : ℕ) (l : List DeepReq) (s : State) :
    (setStaging d u l s).fixed = s.fixed := by
  unfold setStaging
  repeat' with_reducible (first | rfl | refine ite_fixed ?_ ?_ | refine (onSunit_fixed ..).trans ?_ | refine (stagingSettle_fixed ..).trans ?_ | split)

theorem fibSettle_fixed (d : ℕ) (s : State) :
    (fibSettle d s).fixed = s.fixed := by
  unfold fibSettle
  repeat' with_reducible (first | rfl | refine ite_fixed ?_ ?_ | intro _ | refine (State.each_fixed _ _ _ ?_).trans ?_ | refine (holdSettle_fixed ..).trans ?_ | refine (stagingSettle_fixed ..).trans ?_ | split | refine (foldl_fixed _ _ _ ?_).trans ?_ | simp only [↓State.fixed_mk, ↓State.fixed_def, State.fixed_def])

theorem atPort_fixed (h : ℕ) (m : HomeReq) (s : State) :
    (atPort h m s).fixed = s.fixed := by
  unfold atPort
  repeat' with_reducible (first | rfl | refine ite_fixed ?_ ?_ | refine (State.onDie_fixed ..).trans ?_ | split)

theorem onDeep_fixed (d : ℕ) (r : DeepReq) (s : State) :
    (onDeep d r s).fixed = s.fixed := by
  unfold onDeep
  repeat' with_reducible (first | rfl | refine ite_fixed ?_ ?_ | refine (State.onDie_fixed ..).trans ?_ | split)

theorem countAsked_fixed (d : ℕ) (n : ℕ) (r : DeepReq) (s : State) :
    (countAsked d n r s).fixed = s.fixed := by
  unfold countAsked
  repeat' with_reducible (first | rfl | refine ite_fixed ?_ ?_ | intro _ | refine (State.dinc_fixed ..).trans ?_ | refine (State.when_fixed _ _ _ ?_).trans ?_ | refine (onDeep_fixed ..).trans ?_ | split | refine (foldl_fixed _ _ _ ?_).trans ?_ | simp only [↓State.fixed_mk, ↓State.fixed_def, State.fixed_def])

theorem fillAt_fixed (h : ℕ) (a : ℕ) (no : ℕ) (c : ℕ) (tag : ℕ) (s : State) :
    (fillAt h a no c tag s).fixed = s.fixed := by
  unfold fillAt
  (try dsimp only)
  repeat' with_reducible (first | rfl | assumption | intro _ | refine ite_fixed ?_ ?_ | refine ite_snd_fixed ?_ ?_ | refine ite_snd2_fixed ?_ ?_ | refine getD_fixed ?_ ?_ | refine ite_elim_fixed ?_ ?_ | refine (some_elim_fixed ..).trans ?_ | refine (none_elim_fixed ..).trans ?_ | refine ite_fst_elim_fixed ?_ ?_ | refine map_elim_fixed ?_ ?_ | refine bind_elim_fixed ?_ ?_ | refine foldl_elim_fixed _ _ _ ?_ ?_ | refine (State.onDie_fixed ..).trans ?_ | refine (atPort_fixed ..).trans ?_ | refine snd_fixed (by assumption) ?_ | refine snd2_fixed (by assumption) ?_ | refine fst_elim_fixed (by assumption) ?_ | refine of_some_fixed (by assumption) ?_ | split | refine (foldl_fixed _ _ _ ?_).trans ?_ | refine (foldl_fixed_snd _ _ _ ?_).trans ?_ | refine (foldl_fixed_snd2 _ _ _ ?_).trans ?_ | simp only [↓State.fixed_mk, ↓State.fixed_def, State.fixed_def])

theorem askHome_fixed (d : ℕ) (r : DeepReq) (s : State) :
    (askHome d r s).fixed = s.fixed := by
  unfold askHome
  repeat' with_reducible (first | rfl | refine ite_fixed ?_ ?_ | refine (State.send_fixed ..).trans ?_ | refine (atPort_fixed ..).trans ?_ | refine (countAsked_fixed ..).trans ?_ | refine (fillAt_fixed ..).trans ?_ | split)

theorem pushDeep_fixed (d : ℕ) (r : DeepReq) (s : State) :
    (pushDeep d r s).fixed = s.fixed := by
  unfold pushDeep
  repeat' with_reducible (first | rfl | refine ite_fixed ?_ ?_ | refine (State.onDie_fixed ..).trans ?_ | refine (askHome_fixed ..).trans ?_ | refine (deferSlot_fixed ..).trans ?_ | refine (setDeepQ_fixed ..).trans ?_ | refine (unitOpens_fixed ..).trans ?_ | split)

theorem enterDeep_fixed (d : ℕ) (r : DeepReq) (s : State) :
    (enterDeep d r s).fixed = s.fixed := by
  unfold enterDeep
  repeat' with_reducible (first | rfl | refine ite_fixed ?_ ?_ | refine (pushDeep_fixed ..).trans ?_ | refine (setStaging_fixed ..).trans ?_ | split)

theorem leaveDeep_fixed (d : ℕ) (no : ℕ) (s : State) :
    (leaveDeep d no s).fixed = s.fixed := by
  unfold leaveDeep
  repeat' with_reducible (first | rfl | refine ite_fixed ?_ ?_ | refine (setDeepQ_fixed ..).trans ?_ | split)

theorem faultAnswer_fixed (q : SReq) (code : ℕ) (page : ℕ) (s : State) :
    (faultAnswer q code page s).fixed = s.fixed := by
  unfold faultAnswer
  repeat' with_reducible (first | rfl | refine ite_fixed ?_ ?_ | refine (respond_fixed ..).trans ?_ | split)

theorem deepAnswered_fixed (d : ℕ) (no : Option ℕ) (r : SResp) (s : State) :
    (deepAnswered d no r s).fixed = s.fixed := by
  unfold deepAnswered
  repeat' with_reducible (first | rfl | refine ite_fixed ?_ ?_ | refine (leaveDeep_fixed ..).trans ?_ | refine (respond_fixed ..).trans ?_ | split)

theorem homeReply_fixed (h : ℕ) (q : SReq) (no : Option ℕ) (r : SResp) (s : State) :
    (homeReply h q no r s).fixed = s.fixed := by
  unfold homeReply
  repeat' with_reducible (first | rfl | refine ite_fixed ?_ ?_ | refine (State.send_fixed ..).trans ?_ | refine (deepAnswered_fixed ..).trans ?_ | split)

theorem writeBack_fixed (h : ℕ) (c : ℕ) (s : State) :
    (writeBack h c s).fixed = s.fixed := by
  unfold writeBack
  repeat' with_reducible (first | rfl | refine ite_fixed ?_ ?_ | refine (State.dinc_fixed ..).trans ?_ | refine (State.onDie_fixed ..).trans ?_ | refine (cureLine_fixed ..).trans ?_ | refine (translate_fixed ..).trans ?_ | split)

theorem ctxAnswer_fixed (h : ℕ) (q : SReq) (skipped : Bool) (source : ℕ) (no : Option ℕ) (s : State) :
    (ctxAnswer h q skipped source no s).fixed = s.fixed := by
  unfold ctxAnswer
  repeat' with_reducible (first | rfl | refine ite_fixed ?_ ?_ | refine (State.onDie_fixed ..).trans ?_ | refine (homeReply_fixed ..).trans ?_ | refine (onRun_fixed ..).trans ?_ | split)

theorem toAsker_fixed (h : ℕ) (r : DeepReq) (s : State) :
    (toAsker h r s).fixed = s.fixed := by
  unfold toAsker
  (try dsimp only)
  repeat' with_reducible (first | rfl | assumption | intro _ | refine ite_fixed ?_ ?_ | refine ite_snd_fixed ?_ ?_ | refine ite_snd2_fixed ?_ ?_ | refine getD_fixed ?_ ?_ | refine ite_elim_fixed ?_ ?_ | refine (some_elim_fixed ..).trans ?_ | refine (none_elim_fixed ..).trans ?_ | refine ite_fst_elim_fixed ?_ ?_ | refine map_elim_fixed ?_ ?_ | refine bind_elim_fixed ?_ ?_ | refine foldl_elim_fixed _ _ _ ?_ ?_ | refine (State.send_fixed ..).trans ?_ | refine (enterDeep_fixed ..).trans ?_ | refine (setStaging_fixed ..).trans ?_ | refine snd_fixed (by assumption) ?_ | refine snd2_fixed (by assumption) ?_ | refine fst_elim_fixed (by assumption) ?_ | refine of_some_fixed (by assumption) ?_ | split | refine (foldl_fixed _ _ _ ?_).trans ?_ | refine (foldl_fixed_snd _ _ _ ?_).trans ?_ | refine (foldl_fixed_snd2 _ _ _ ?_).trans ?_ | simp only [↓State.fixed_mk, ↓State.fixed_def, State.fixed_def])

theorem missEnter_fixed (a : ℕ) (q : SReq) (skipped : Bool) (pinWait : Bool) (lockWait : Bool) (s : State) {cc : Part × List Instr × Nat × Nat × BitVec 4}
    (hc : s.fixed = cc) : (missEnter a q skipped pinWait lockWait s).elim cc State.fixed = cc := by
  subst hc
  unfold missEnter
  (try dsimp only)
  repeat' with_reducible (first | rfl | assumption | intro _ | refine ite_fixed ?_ ?_ | refine ite_snd_fixed ?_ ?_ | refine ite_snd2_fixed ?_ ?_ | refine getD_fixed ?_ ?_ | refine ite_elim_fixed ?_ ?_ | refine (some_elim_fixed ..).trans ?_ | refine (none_elim_fixed ..).trans ?_ | refine ite_fst_elim_fixed ?_ ?_ | refine map_elim_fixed ?_ ?_ | refine bind_elim_fixed ?_ ?_ | refine foldl_elim_fixed _ _ _ ?_ ?_ | refine (enterDeep_fixed ..).trans ?_ | refine (setStaging_fixed ..).trans ?_ | refine snd_fixed (by assumption) ?_ | refine snd2_fixed (by assumption) ?_ | refine fst_elim_fixed (by assumption) ?_ | refine of_some_fixed (by assumption) ?_ | split | refine (foldl_fixed _ _ _ ?_).trans ?_ | refine (foldl_fixed_snd _ _ _ ?_).trans ?_ | refine (foldl_fixed_snd2 _ _ _ ?_).trans ?_ | simp only [↓State.fixed_mk, ↓State.fixed_def, State.fixed_def])

theorem ctxServe_fixed (h : ℕ) (q : SReq) (skipped : Bool) (s : State) :
    (ctxServe h q skipped s).fixed = s.fixed := by
  unfold ctxServe
  repeat' with_reducible (first | rfl | refine ite_fixed ?_ ?_ | refine (State.dinc_fixed ..).trans ?_ | refine (ctxAnswer_fixed ..).trans ?_ | refine (homeReply_fixed ..).trans ?_ | refine (mapFault_fixed ..).trans ?_ | refine (toAsker_fixed ..).trans ?_ | refine (unitEvent_fixed ..).trans ?_ | split)

theorem goneAnswer_fixed (d : ℕ) (h : ℕ) (c : ℕ) (q : SReq) (s : State) :
    (goneAnswer d h c q s).fixed = s.fixed := by
  unfold goneAnswer
  repeat' with_reducible (first | rfl | refine ite_fixed ?_ ?_ | refine (State.dinc_fixed ..).trans ?_ | refine (faultAnswer_fixed ..).trans ?_ | split)

theorem contextAt_fixed (h : ℕ) (q : SReq) (s : State) :
    (contextAt h q s).fixed = s.fixed := by
  unfold contextAt
  repeat' with_reducible (first | rfl | refine ite_fixed ?_ ?_ | refine (State.dinc_fixed ..).trans ?_ | refine (ctxServe_fixed ..).trans ?_ | split)

theorem contextHead_fixed (d u p : Nat) (serve : SReq → State → State) (s : State)
    (hs : ∀ q a, (serve q a).fixed = a.fixed) : (contextHead d u p serve s).fixed = s.fixed := by
  unfold contextHead; dsimp only
  repeat' with_reducible (first | rfl | intro _ | refine ite_fixed ?_ ?_ | refine (serveHead_fixed _ _ _ _ _ ?_).trans ?_ | refine (goneAnswer_fixed ..).trans ?_ | refine (leaveBuffer_fixed ..).trans ?_ | refine (State.send_fixed ..).trans ?_ | refine (hs ..).trans ?_ | split | simp only [↓State.fixed_mk, ↓State.fixed_def, State.fixed_def])

theorem contextSide_fixed (h k p : Nat) (serve : SReq → State → State) (s : State)
    (hs : ∀ q a, (serve q a).fixed = a.fixed) : (contextSide h k p serve s).fixed = s.fixed := by
  unfold contextSide; dsimp only
  repeat' with_reducible (first | rfl | intro _ | refine ite_fixed ?_ ?_ | refine (serveHead_fixed _ _ _ _ _ ?_).trans ?_ | refine (goneAnswer_fixed ..).trans ?_ | refine (leaveBuffer_fixed ..).trans ?_ | refine (State.send_fixed ..).trans ?_ | refine (hs ..).trans ?_ | split | simp only [↓State.fixed_mk, ↓State.fixed_def, State.fixed_def])

theorem contextServe_fixed (d : Nat) (u : Fin 8) (p : Nat) (serve : SReq → State → State) (s : State)
    (hs : ∀ q a, (serve q a).fixed = a.fixed) : (contextServe d u p serve s).fixed = s.fixed := by
  unfold contextServe; dsimp only; split
  · exact contextHead_fixed _ _ _ _ _ (fun q a => (hs _ _).trans (State.onDie_fixed ..))
  · exact contextSide_fixed _ _ _ _ _ (fun q a => (hs _ _).trans (State.onDie_fixed ..))

theorem takeLock_fixed (h : ℕ) (c : ℕ) (q : SReq) (s : State) :
    (takeLock h c q s).fixed = s.fixed := by
  unfold takeLock
  repeat' with_reducible (first | rfl | refine ite_fixed ?_ ?_ | refine (State.dinc_fixed ..).trans ?_ | refine (State.onDie_fixed ..).trans ?_ | refine (onRun_fixed ..).trans ?_ | split)

theorem lockRead_fixed (h : ℕ) (q : SReq) (s : State) :
    (lockRead h q s).fixed = s.fixed := by
  unfold lockRead
  repeat' with_reducible (first | rfl | refine ite_fixed ?_ ?_ | refine (State.dinc_fixed ..).trans ?_ | refine (State.onDie_fixed ..).trans ?_ | refine (State.send_fixed ..).trans ?_ | refine (ctxServe_fixed ..).trans ?_ | refine (deferSlot_fixed ..).trans ?_ | refine (takeLock_fixed ..).trans ?_ | split)

theorem contextUpdateAt_fixed (h : ℕ) (q : SReq) (s : State) :
    (contextUpdateAt h q s).fixed = s.fixed := by
  unfold contextUpdateAt
  repeat' with_reducible (first | rfl | refine ite_fixed ?_ ?_ | refine (State.dinc_fixed ..).trans ?_ | refine (lockRead_fixed ..).trans ?_ | refine (toAsker_fixed ..).trans ?_ | split)

theorem lockGrant_fixed (c : ℕ) (s : State) :
    (lockGrant c s).fixed = s.fixed := by
  unfold lockGrant
  repeat' with_reducible (first | rfl | refine ite_fixed ?_ ?_ | refine (State.dinc_fixed ..).trans ?_ | refine (State.onDie_fixed ..).trans ?_ | refine (ctxServe_fixed ..).trans ?_ | refine (takeLock_fixed ..).trans ?_ | split)

theorem stagedGo_fixed (d : ℕ) (r : DeepReq) (s : State) :
    (stagedGo d r s).fixed = s.fixed := by
  unfold stagedGo
  repeat' with_reducible (first | rfl | refine ite_fixed ?_ ?_ | refine (State.dinc_fixed ..).trans ?_ | refine (State.send_fixed ..).trans ?_ | refine (faultAnswer_fixed ..).trans ?_ | refine (lockRead_fixed ..).trans ?_ | refine (pushDeep_fixed ..).trans ?_ | split)

theorem stagedHead_fixed (d : ℕ) (u : ℕ) (s : State) :
    (stagedHead d u s).fixed = s.fixed := by
  unfold stagedHead
  (try dsimp only)
  repeat' with_reducible (first | rfl | assumption | intro _ | refine ite_fixed ?_ ?_ | refine ite_snd_fixed ?_ ?_ | refine ite_snd2_fixed ?_ ?_ | refine getD_fixed ?_ ?_ | refine ite_elim_fixed ?_ ?_ | refine (some_elim_fixed ..).trans ?_ | refine (none_elim_fixed ..).trans ?_ | refine ite_fst_elim_fixed ?_ ?_ | refine map_elim_fixed ?_ ?_ | refine bind_elim_fixed ?_ ?_ | refine foldl_elim_fixed _ _ _ ?_ ?_ | refine (setStaging_fixed ..).trans ?_ | refine (stagedGo_fixed ..).trans ?_ | refine snd_fixed (by assumption) ?_ | refine snd2_fixed (by assumption) ?_ | refine fst_elim_fixed (by assumption) ?_ | refine of_some_fixed (by assumption) ?_ | split | refine (foldl_fixed _ _ _ ?_).trans ?_ | refine (foldl_fixed_snd _ _ _ ?_).trans ?_ | refine (foldl_fixed_snd2 _ _ _ ?_).trans ?_ | simp only [↓State.fixed_mk, ↓State.fixed_def, State.fixed_def])

theorem missTake_fixed (d : ℕ) (s : State) :
    (missTake d s).fixed = s.fixed := by
  unfold missTake
  (try dsimp only)
  repeat' with_reducible (first | rfl | assumption | intro _ | refine ite_fixed ?_ ?_ | refine ite_snd_fixed ?_ ?_ | refine ite_snd2_fixed ?_ ?_ | refine getD_fixed ?_ ?_ | refine ite_elim_fixed ?_ ?_ | refine (some_elim_fixed ..).trans ?_ | refine (none_elim_fixed ..).trans ?_ | refine ite_fst_elim_fixed ?_ ?_ | refine map_elim_fixed ?_ ?_ | refine bind_elim_fixed ?_ ?_ | refine foldl_elim_fixed _ _ _ ?_ ?_ | refine (State.receive_fixed _ _ _ _ ?_).trans ?_ | refine missEnter_fixed (hc := ?_) .. | refine snd_fixed (by assumption) ?_ | refine snd2_fixed (by assumption) ?_ | refine fst_elim_fixed (by assumption) ?_ | refine of_some_fixed (by assumption) ?_ | split | refine (foldl_fixed _ _ _ ?_).trans ?_ | refine (foldl_fixed_snd _ _ _ ?_).trans ?_ | refine (foldl_fixed_snd2 _ _ _ ?_).trans ?_ | simp only [↓State.fixed_mk, ↓State.fixed_def, State.fixed_def])

theorem stagingAdmit_fixed (d : ℕ) (s : State) :
    (stagingAdmit d s).fixed = s.fixed := by
  unfold stagingAdmit
  repeat' with_reducible (first | rfl | refine ite_fixed ?_ ?_ | intro _ | refine (State.each_fixed _ _ _ ?_).trans ?_ | refine (missTake_fixed ..).trans ?_ | refine (stagedHead_fixed ..).trans ?_ | split | refine (foldl_fixed _ _ _ ?_).trans ?_ | simp only [↓State.fixed_mk, ↓State.fixed_def, State.fixed_def])

theorem fillLine_fixed (h : ℕ) (c : ℕ) (s : State) {cc : Part × List Instr × Nat × Nat × BitVec 4}
    (hc : s.fixed = cc) : (fillLine h c s).elim cc State.fixed = cc := by
  subst hc
  unfold fillLine
  (try dsimp only)
  repeat' with_reducible (first | rfl | assumption | intro _ | refine ite_fixed ?_ ?_ | refine ite_snd_fixed ?_ ?_ | refine ite_snd2_fixed ?_ ?_ | refine getD_fixed ?_ ?_ | refine ite_elim_fixed ?_ ?_ | refine (some_elim_fixed ..).trans ?_ | refine (none_elim_fixed ..).trans ?_ | refine ite_fst_elim_fixed ?_ ?_ | refine map_elim_fixed ?_ ?_ | refine bind_elim_fixed ?_ ?_ | refine foldl_elim_fixed _ _ _ ?_ ?_ | refine (State.dinc_fixed ..).trans ?_ | refine (State.fresh_fixed ..).trans ?_ | refine (State.onDie_fixed ..).trans ?_ | refine (writeBack_fixed ..).trans ?_ | refine snd_fixed (by assumption) ?_ | refine snd2_fixed (by assumption) ?_ | refine fst_elim_fixed (by assumption) ?_ | refine of_some_fixed (by assumption) ?_ | split | refine (foldl_fixed _ _ _ ?_).trans ?_ | refine (foldl_fixed_snd _ _ _ ?_).trans ?_ | refine (foldl_fixed_snd2 _ _ _ ?_).trans ?_ | simp only [↓State.fixed_mk, ↓State.fixed_def, State.fixed_def])

theorem tryFill_fixed (h : ℕ) (a : ℕ) (no : ℕ) (c : ℕ) (tag : ℕ) (s : State) :
    (tryFill h a no c tag s).fixed = s.fixed := by
  unfold tryFill
  (try dsimp only)
  repeat' with_reducible (first | rfl | assumption | intro _ | refine ite_fixed ?_ ?_ | refine ite_snd_fixed ?_ ?_ | refine ite_snd2_fixed ?_ ?_ | refine getD_fixed ?_ ?_ | refine ite_elim_fixed ?_ ?_ | refine (some_elim_fixed ..).trans ?_ | refine (none_elim_fixed ..).trans ?_ | refine ite_fst_elim_fixed ?_ ?_ | refine map_elim_fixed ?_ ?_ | refine bind_elim_fixed ?_ ?_ | refine foldl_elim_fixed _ _ _ ?_ ?_ | refine (State.dinc_fixed ..).trans ?_ | refine (State.onDie_fixed ..).trans ?_ | refine (ctxAnswer_fixed ..).trans ?_ | refine fillLine_fixed (hc := ?_) .. | refine snd_fixed (by assumption) ?_ | refine snd2_fixed (by assumption) ?_ | refine fst_elim_fixed (by assumption) ?_ | refine of_some_fixed (by assumption) ?_ | split | refine (foldl_fixed _ _ _ ?_).trans ?_ | refine (foldl_fixed_snd _ _ _ ?_).trans ?_ | refine (foldl_fixed_snd2 _ _ _ ?_).trans ?_ | simp only [↓State.fixed_mk, ↓State.fixed_def, State.fixed_def])

theorem ctxAccess_fixed (h : ℕ) (c : ℕ) (s : State) :
    (ctxAccess h c s).2.fixed = s.fixed := by
  unfold ctxAccess
  dsimp only
  repeat' with_reducible (first | rfl | refine ite_fixed ?_ ?_ | refine (access_fixed ..).trans ?_ | split)

theorem fillRead_fixed (h : ℕ) (a : ℕ) (no : ℕ) (c : ℕ) (tag : ℕ) (poison : ℕ) (s : State) :
    (fillRead h a no c tag poison s).fixed = s.fixed := by
  unfold fillRead
  repeat' with_reducible (first | rfl | refine ite_fixed ?_ ?_ | refine (State.dinc_fixed ..).trans ?_ | refine (ctxAccess_fixed ..).trans ?_ | refine (homeReply_fixed ..).trans ?_ | refine (poisonLine_fixed ..).trans ?_ | refine (tryFill_fixed ..).trans ?_ | split)

theorem endStray_fixed (d : ℕ) (x : ℕ × ℕ × ℕ × ℕ) (s : State) :
    (endStray d x s).fixed = s.fixed := by
  unfold endStray
  repeat' with_reducible (first | rfl | refine ite_fixed ?_ ?_ | refine (State.dinc_fixed ..).trans ?_ | refine (State.dropMsgs_fixed ..).trans ?_ | refine (State.onDie_fixed ..).trans ?_ | refine (respond_fixed ..).trans ?_ | split)

theorem endGone_fixed (d : ℕ) (r : DeepReq) (s : State) :
    (endGone d r s).fixed = s.fixed := by
  unfold endGone
  repeat' with_reducible (first | rfl | refine ite_fixed ?_ ?_ | refine (State.dinc_fixed ..).trans ?_ | refine (faultAnswer_fixed ..).trans ?_ | refine (leaveDeep_fixed ..).trans ?_ | split)

theorem homeLost_fixed (h : ℕ) (s : State) :
    (homeLost h s).fixed = s.fixed := by
  unfold homeLost
  repeat' with_reducible (first | rfl | refine ite_fixed ?_ ?_ | intro _ | refine (State.each_fixed _ _ _ ?_).trans ?_ | refine (endGone_fixed ..).trans ?_ | refine (endStray_fixed ..).trans ?_ | split | refine (foldl_fixed _ _ _ ?_).trans ?_ | simp only [↓State.fixed_mk, ↓State.fixed_def, State.fixed_def])

theorem fillComplete_fixed (d : ℕ) (poison : Fin 4) (s : State) :
    (fillComplete d poison s).fixed = s.fixed := by
  unfold fillComplete
  repeat' with_reducible (first | rfl | refine ite_fixed ?_ ?_ | refine (State.onDie_fixed ..).trans ?_ | refine (endGone_fixed ..).trans ?_ | refine (endStray_fixed ..).trans ?_ | refine (fillRead_fixed ..).trans ?_ | split)

theorem fillPinWait_fixed (d : ℕ) (i : ℕ) (s : State) :
    (fillPinWait d i s).fixed = s.fixed := by
  unfold fillPinWait
  repeat' with_reducible (first | rfl | refine ite_fixed ?_ ?_ | refine (State.dinc_fixed ..).trans ?_ | refine (State.onDie_fixed ..).trans ?_ | refine (ctxAccess_fixed ..).trans ?_ | refine (homeReply_fixed ..).trans ?_ | refine (tryFill_fixed ..).trans ?_ | split)

theorem pageEventReceive_fixed (d : ℕ) (s : State) :
    (pageEventReceive d s).fixed = s.fixed := by
  unfold pageEventReceive
  repeat' with_reducible (first | rfl | refine ite_fixed ?_ ?_ | intro _ | refine (State.onDie_fixed ..).trans ?_ | refine (State.receive_fixed _ _ _ _ ?_).trans ?_ | split | refine (foldl_fixed _ _ _ ?_).trans ?_ | simp only [↓State.fixed_mk, ↓State.fixed_def, State.fixed_def])

theorem zeroPage_fixed (h : ℕ) (hpa : ℕ) (s : State) :
    (zeroPage h hpa s).fixed = s.fixed := by
  unfold zeroPage
  repeat' with_reducible (first | rfl | refine ite_fixed ?_ ?_ | refine (State.onDie_fixed ..).trans ?_ | split)

theorem zeroRegion_fixed (h : ℕ) (r : ℕ) (at_ : ℕ) (size : ℕ) (s : State) :
    (zeroRegion h r at_ size s).fixed = s.fixed := by
  unfold zeroRegion
  repeat' with_reducible (first | rfl | refine ite_fixed ?_ ?_ | refine (State.onDie_fixed ..).trans ?_ | split)

theorem dumpAway_fixed (h : ℕ) (n : ℕ) (s : State) :
    (dumpAway h n s).fixed = s.fixed := by
  unfold dumpAway
  repeat' with_reducible (first | rfl | refine ite_fixed ?_ ?_ | refine (State.onDie_fixed ..).trans ?_ | split)

theorem dumpBack_fixed (h : ℕ) (s : State) :
    (dumpBack h s).fixed = s.fixed := by
  unfold dumpBack
  repeat' with_reducible (first | rfl | refine ite_fixed ?_ ?_ | refine (State.onDie_fixed ..).trans ?_ | split)

theorem storePage_fixed (h : ℕ) (n : ℕ) (s : State) :
    (storePage h n s).fixed = s.fixed := by
  unfold storePage
  repeat' with_reducible (first | rfl | refine ite_fixed ?_ ?_ | refine (State.onDie_fixed ..).trans ?_ | refine (dumpAway_fixed ..).trans ?_ | refine (zeroRegion_fixed ..).trans ?_ | split)

theorem loadPage_fixed (h : ℕ) (n : ℕ) (hpa : ℕ) (s : State) :
    (loadPage h n hpa s).fixed = s.fixed := by
  unfold loadPage
  repeat' with_reducible (first | rfl | refine ite_fixed ?_ ?_ | intro _ | refine (State.each_fixed _ _ _ ?_).trans ?_ | refine (State.onDie_fixed ..).trans ?_ | refine (zeroPage_fixed ..).trans ?_ | split | refine (foldl_fixed _ _ _ ?_).trans ?_ | simp only [↓State.fixed_mk, ↓State.fixed_def, State.fixed_def])

theorem layPage_fixed (h : ℕ) (n : ℕ) (hpa : ℕ) (s : State) :
    (layPage h n hpa s).fixed = s.fixed := by
  unfold layPage
  repeat' with_reducible (first | rfl | refine ite_fixed ?_ ?_ | intro _ | refine (State.each_fixed _ _ _ ?_).trans ?_ | refine (State.onDie_fixed ..).trans ?_ | refine (dumpBack_fixed ..).trans ?_ | refine (loadPage_fixed ..).trans ?_ | refine (storePage_fixed ..).trans ?_ | split | refine (foldl_fixed _ _ _ ?_).trans ?_ | simp only [↓State.fixed_mk, ↓State.fixed_def, State.fixed_def])

theorem copyPage_fixed (h : ℕ) (n : ℕ) (hpa : ℕ) (s : State) :
    (copyPage h n hpa s).fixed = s.fixed := by
  unfold copyPage
  repeat' with_reducible (first | rfl | refine ite_fixed ?_ ?_ | intro _ | refine (State.each_fixed _ _ _ ?_).trans ?_ | refine (State.onDie_fixed ..).trans ?_ | refine (storePage_fixed ..).trans ?_ | refine (zeroPage_fixed ..).trans ?_ | split | refine (foldl_fixed _ _ _ ?_).trans ?_ | simp only [↓State.fixed_mk, ↓State.fixed_def, State.fixed_def])

theorem zeroFill_fixed (h : ℕ) (n : ℕ) (hpa : ℕ) (s : State) :
    (zeroFill h n hpa s).fixed = s.fixed := by
  unfold zeroFill
  repeat' with_reducible (first | rfl | refine ite_fixed ?_ ?_ | intro _ | refine (State.dinc_fixed ..).trans ?_ | refine (State.each_fixed _ _ _ ?_).trans ?_ | refine (State.onDie_fixed ..).trans ?_ | refine (curePage_fixed ..).trans ?_ | refine (storePage_fixed ..).trans ?_ | refine (zeroPage_fixed ..).trans ?_ | refine (zeroRegion_fixed ..).trans ?_ | split | refine (foldl_fixed _ _ _ ?_).trans ?_ | simp only [↓State.fixed_mk, ↓State.fixed_def, State.fixed_def])

theorem relayPages_fixed (h : ℕ) (s : State) :
    (relayPages h s).fixed = s.fixed := by
  unfold relayPages
  (try dsimp only)
  repeat' with_reducible (first | rfl | assumption | intro _ | refine ite_fixed ?_ ?_ | refine ite_snd_fixed ?_ ?_ | refine ite_snd2_fixed ?_ ?_ | refine getD_fixed ?_ ?_ | refine ite_elim_fixed ?_ ?_ | refine (some_elim_fixed ..).trans ?_ | refine (none_elim_fixed ..).trans ?_ | refine ite_fst_elim_fixed ?_ ?_ | refine map_elim_fixed ?_ ?_ | refine bind_elim_fixed ?_ ?_ | refine foldl_elim_fixed _ _ _ ?_ ?_ | refine (State.each_fixed _ _ _ ?_).trans ?_ | refine (layPage_fixed ..).trans ?_ | refine (storePage_fixed ..).trans ?_ | refine snd_fixed (by assumption) ?_ | refine snd2_fixed (by assumption) ?_ | refine fst_elim_fixed (by assumption) ?_ | refine of_some_fixed (by assumption) ?_ | split | refine (foldl_fixed _ _ _ ?_).trans ?_ | refine (foldl_fixed_snd _ _ _ ?_).trans ?_ | refine (foldl_fixed_snd2 _ _ _ ?_).trans ?_ | simp only [↓State.fixed_mk, ↓State.fixed_def, State.fixed_def])

theorem moveMap_fixed (h : ℕ) (base : ℕ) (s : State) :
    (moveMap h base s).fixed = s.fixed := by
  unfold moveMap
  (try dsimp only)
  repeat' with_reducible (first | rfl | assumption | intro _ | refine ite_fixed ?_ ?_ | refine ite_snd_fixed ?_ ?_ | refine ite_snd2_fixed ?_ ?_ | refine getD_fixed ?_ ?_ | refine ite_elim_fixed ?_ ?_ | refine (some_elim_fixed ..).trans ?_ | refine (none_elim_fixed ..).trans ?_ | refine ite_fst_elim_fixed ?_ ?_ | refine map_elim_fixed ?_ ?_ | refine bind_elim_fixed ?_ ?_ | refine foldl_elim_fixed _ _ _ ?_ ?_ | refine (State.onDie_fixed ..).trans ?_ | refine (storePage_fixed ..).trans ?_ | refine (zeroPage_fixed ..).trans ?_ | refine snd_fixed (by assumption) ?_ | refine snd2_fixed (by assumption) ?_ | refine fst_elim_fixed (by assumption) ?_ | refine of_some_fixed (by assumption) ?_ | split | refine (foldl_fixed _ _ _ ?_).trans ?_ | refine (foldl_fixed_snd _ _ _ ?_).trans ?_ | refine (foldl_fixed_snd2 _ _ _ ?_).trans ?_ | simp only [↓State.fixed_mk, ↓State.fixed_def, State.fixed_def])

theorem mapWrite_fixed (h : ℕ) (sub : ℕ) (v : ℕ) (s : State) :
    (mapWrite h sub v s).fixed = s.fixed := by
  unfold mapWrite
  (try dsimp only)
  repeat' with_reducible (first | rfl | assumption | intro _ | refine ite_fixed ?_ ?_ | refine ite_snd_fixed ?_ ?_ | refine ite_snd2_fixed ?_ ?_ | refine getD_fixed ?_ ?_ | refine ite_elim_fixed ?_ ?_ | refine (some_elim_fixed ..).trans ?_ | refine (none_elim_fixed ..).trans ?_ | refine ite_fst_elim_fixed ?_ ?_ | refine map_elim_fixed ?_ ?_ | refine bind_elim_fixed ?_ ?_ | refine foldl_elim_fixed _ _ _ ?_ ?_ | refine (State.dset_fixed ..).trans ?_ | refine (moveMap_fixed ..).trans ?_ | refine (relayPages_fixed ..).trans ?_ | refine snd_fixed (by assumption) ?_ | refine snd2_fixed (by assumption) ?_ | refine fst_elim_fixed (by assumption) ?_ | refine of_some_fixed (by assumption) ?_ | split | refine (foldl_fixed _ _ _ ?_).trans ?_ | refine (foldl_fixed_snd _ _ _ ?_).trans ?_ | refine (foldl_fixed_snd2 _ _ _ ?_).trans ?_ | simp only [↓State.fixed_mk, ↓State.fixed_def, State.fixed_def])

theorem pageProgress_fixed (h : ℕ) (op : ℕ) (st : ℕ) (lines : ℕ) (s : State) :
    (pageProgress h op st lines s).fixed = s.fixed := by
  unfold pageProgress
  repeat' with_reducible (first | rfl | refine ite_fixed ?_ ?_ | refine (State.dset_fixed ..).trans ?_ | split)

theorem pageCommand_fixed (h : ℕ) (v : ℕ) (s : State) :
    (pageCommand h v s).2.2.fixed = s.fixed := by
  unfold pageCommand
  repeat' with_reducible (first | rfl | refine ite_fixed ?_ ?_ | intro _ | refine (State.each_fixed _ _ _ ?_).trans ?_ | refine (State.onDie_fixed ..).trans ?_ | refine (State.when_fixed _ _ _ ?_).trans ?_ | refine (curePage_fixed ..).trans ?_ | refine (layPage_fixed ..).trans ?_ | refine (pageProgress_fixed ..).trans ?_ | refine (poisonPage_fixed ..).trans ?_ | refine (setPage_fixed ..).trans ?_ | refine (writeBack_fixed ..).trans ?_ | refine (zeroFill_fixed ..).trans ?_ | split | refine (foldl_fixed _ _ _ ?_).trans ?_ | simp only [↓State.fixed_mk, ↓State.fixed_def, State.fixed_def])

theorem unmapComplete_fixed (h : ℕ) (s : State) :
    (unmapComplete h s).fixed = s.fixed := by
  unfold unmapComplete
  repeat' with_reducible (first | rfl | refine ite_fixed ?_ ?_ | intro _ | refine (State.each_fixed _ _ _ ?_).trans ?_ | refine (State.onDie_fixed ..).trans ?_ | refine (pageProgress_fixed ..).trans ?_ | refine (setPage_fixed ..).trans ?_ | refine (writeBack_fixed ..).trans ?_ | split | refine (foldl_fixed _ _ _ ?_).trans ?_ | simp only [↓State.fixed_mk, ↓State.fixed_def, State.fixed_def])

theorem migrateDone_fixed (h : ℕ) (poisoned : List (Fin 32768)) (s : State) :
    (migrateDone h poisoned s).fixed = s.fixed := by
  unfold migrateDone
  repeat' with_reducible (first | rfl | refine ite_fixed ?_ ?_ | intro _ | refine (State.dinc_fixed ..).trans ?_ | refine (State.each_fixed _ _ _ ?_).trans ?_ | refine (State.onDie_fixed ..).trans ?_ | refine (copyPage_fixed ..).trans ?_ | refine (keptAgain_fixed ..).trans ?_ | refine (pageProgress_fixed ..).trans ?_ | refine (poisonLine_fixed ..).trans ?_ | refine (setPage_fixed ..).trans ?_ | refine (zeroRegion_fixed ..).trans ?_ | split | refine (foldl_fixed _ _ _ ?_).trans ?_ | simp only [↓State.fixed_mk, ↓State.fixed_def, State.fixed_def])

theorem execContextRead_fixed (d : DieId) (u : Fin 8) (s : State) {s' : State}
    (h : execContextRead d u s = .next s') : s'.fixed = s.fixed := by
  unfold execContextRead at h
  refine onLive_fixed (fun s => ?_) h
  repeat' with_reducible (first | rfl | refine ite_fixed ?_ ?_ | intro _ | refine (contextAt_fixed ..).trans ?_ | refine (contextServe_fixed _ _ _ _ _ ?_).trans ?_ | split | refine (foldl_fixed _ _ _ ?_).trans ?_ | simp only [↓State.fixed_mk, ↓State.fixed_def, State.fixed_def])

theorem execContextReadUpdate_fixed (d : DieId) (u : Fin 8) (s : State) {s' : State}
    (h : execContextReadUpdate d u s = .next s') : s'.fixed = s.fixed := by
  unfold execContextReadUpdate at h
  refine onLive_fixed (fun s => ?_) h
  repeat' with_reducible (first | rfl | refine ite_fixed ?_ ?_ | intro _ | refine (contextServe_fixed _ _ _ _ _ ?_).trans ?_ | refine (contextUpdateAt_fixed ..).trans ?_ | split | refine (foldl_fixed _ _ _ ?_).trans ?_ | simp only [↓State.fixed_mk, ↓State.fixed_def, State.fixed_def])

theorem execLockGrant_fixed (c : Fin 16777216) (s : State) {s' : State}
    (h : execLockGrant c s = .next s') : s'.fixed = s.fixed := by
  unfold execLockGrant at h
  cases h
  repeat' with_reducible (first | rfl | refine ite_fixed ?_ ?_ | refine (lockGrant_fixed ..).trans ?_ | split)

theorem execContextFillComplete_fixed (d : DieId) (poison : Fin 4) (s : State) {s' : State}
    (h : execContextFillComplete d poison s = .next s') : s'.fixed = s.fixed := by
  unfold execContextFillComplete at h
  refine onLive_fixed (fun s => ?_) h
  repeat' with_reducible (first | rfl | refine ite_fixed ?_ ?_ | refine (fillComplete_fixed ..).trans ?_ | split)

theorem execFillPinWait_fixed (d : DieId) (i : Fin 16384) (s : State) {s' : State}
    (h : execFillPinWait d i s = .next s') : s'.fixed = s.fixed := by
  unfold execFillPinWait at h
  refine onLive_fixed (fun s => ?_) h
  repeat' with_reducible (first | rfl | refine ite_fixed ?_ ?_ | refine (fillPinWait_fixed ..).trans ?_ | split)

theorem execPageEventReceive_fixed (d : DieId) (s : State) {s' : State}
    (h : execPageEventReceive d s = .next s') : s'.fixed = s.fixed := by
  unfold execPageEventReceive at h
  refine onLive_fixed (fun s => ?_) h
  repeat' with_reducible (first | rfl | refine ite_fixed ?_ ?_ | refine (pageEventReceive_fixed ..).trans ?_ | split)

theorem execUnmapComplete_fixed (d : DieId) (s : State) {s' : State}
    (h : execUnmapComplete d s = .next s') : s'.fixed = s.fixed := by
  unfold execUnmapComplete at h
  refine onLive_fixed (fun s => ?_) h
  repeat' with_reducible (first | rfl | refine ite_fixed ?_ ?_ | refine (unmapComplete_fixed ..).trans ?_ | split)

theorem execDeepStagingAdmit_fixed (d : DieId) (s : State) {s' : State}
    (h : execDeepStagingAdmit d s = .next s') : s'.fixed = s.fixed := by
  unfold execDeepStagingAdmit at h
  refine onLive_fixed (fun s => ?_) h
  repeat' with_reducible (first | rfl | refine ite_fixed ?_ ?_ | refine (stagingAdmit_fixed ..).trans ?_ | split)

end Sys2Proof.Machine
end

