-- ==== Sys2Proof/Laws/Fixed/Fib.lean ====
section
/-! SUPPORT. What the operations of Machine/Fib.lean leave as it is: the part, the queue, the clock, the anti-rollback
counter and the revocation bits. -/

set_option linter.all false
set_option maxRecDepth 4000

namespace Sys2Proof.Machine

theorem fibAnswer_fixed (d : ℕ) (q : SReq) (best : Option (ℕ × ℕ × ℕ)) (probes : ℕ) (reads : ℕ) (s : State) :
    (fibAnswer d q best probes reads s).fixed = s.fixed := by
  unfold fibAnswer
  repeat' with_reducible (first | rfl | refine ite_fixed ?_ ?_ | intro _ | refine (State.dinc_fixed ..).trans ?_ | refine (State.when_fixed _ _ _ ?_).trans ?_ | refine (answer_fixed ..).trans ?_ | refine (bankGrant_fixed ..).trans ?_ | refine (resolveParity_fixed ..).trans ?_ | split | refine (foldl_fixed _ _ _ ?_).trans ?_ | simp only [↓State.fixed_mk, ↓State.fixed_def, State.fixed_def])

theorem fibHot_fixed (d : ℕ) (u : ℕ) (q : SReq) (since : ℕ) (grants : Grants) (root : Option (ℕ × ℕ × ℕ)) (e : TEntry) (s : State) :
    (fibHot d u q since grants root e s).2.2.2.fixed = s.fixed := by
  unfold fibHot
  repeat' with_reducible (first | rfl | refine ite_fixed ?_ ?_ | intro _ | refine (State.dinc_fixed ..).trans ?_ | refine (State.each_fixed _ _ _ ?_).trans ?_ | refine (State.when_fixed _ _ _ ?_).trans ?_ | refine (countProbe_fixed ..).trans ?_ | refine (keyParity_fixed ..).trans ?_ | refine (unitEvent_fixed ..).trans ?_ | split | refine (foldl_fixed _ _ _ ?_).trans ?_ | simp only [↓State.fixed_mk, ↓State.fixed_def, State.fixed_def])

theorem fibShallow_fixed (d : ℕ) (u : ℕ) (q : SReq) (grants : Grants) (root : Option (ℕ × ℕ × ℕ)) (s : State) :
    (fibShallow d u q grants root s).2.2.2.fixed = s.fixed := by
  unfold fibShallow
  dsimp only
  repeat' with_reducible (first | rfl | refine ite_fixed ?_ ?_ | refine (State.dinc_fixed ..).trans ?_ | refine (countProbe_fixed ..).trans ?_ | refine (fibHot_fixed ..).trans ?_ | refine (keyParity_fixed ..).trans ?_ | refine (unitEvent_fixed ..).trans ?_ | split)

theorem rootParity_fixed (d : ℕ) (i : ℕ) (s : State) :
    (rootParity d i s).fixed = s.fixed := by
  unfold rootParity
  (try dsimp only)
  repeat' with_reducible (first | rfl | assumption | intro _ | refine ite_fixed ?_ ?_ | refine ite_snd_fixed ?_ ?_ | refine ite_snd2_fixed ?_ ?_ | refine getD_fixed ?_ ?_ | refine ite_elim_fixed ?_ ?_ | refine (some_elim_fixed ..).trans ?_ | refine (none_elim_fixed ..).trans ?_ | refine ite_fst_elim_fixed ?_ ?_ | refine map_elim_fixed ?_ ?_ | refine bind_elim_fixed ?_ ?_ | refine foldl_elim_fixed _ _ _ ?_ ?_ | refine (lineParity_fixed ..).trans ?_ | refine snd_fixed (by assumption) ?_ | refine snd2_fixed (by assumption) ?_ | refine fst_elim_fixed (by assumption) ?_ | refine of_some_fixed (by assumption) ?_ | split | refine (foldl_fixed _ _ _ ?_).trans ?_ | refine (foldl_fixed_snd _ _ _ ?_).trans ?_ | refine (foldl_fixed_snd2 _ _ _ ?_).trans ?_ | simp only [↓State.fixed_mk, ↓State.fixed_def, State.fixed_def])

theorem fibLookup_fixed (d : ℕ) (u : ℕ) (grants : Grants) (q : SReq) (s : State) :
    (fibLookup d u grants q s).fixed = s.fixed := by
  unfold fibLookup
  repeat' with_reducible (first | rfl | refine ite_fixed ?_ ?_ | refine (State.dinc_fixed ..).trans ?_ | refine (bankGrant_fixed ..).trans ?_ | refine (enterDeep_fixed ..).trans ?_ | refine (faultAnswer_fixed ..).trans ?_ | refine (fibAnswer_fixed ..).trans ?_ | refine (fibShallow_fixed ..).trans ?_ | refine (rootParity_fixed ..).trans ?_ | split)

theorem fibResolve_fixed (d : ℕ) (q : SReq) (s : State) :
    (fibResolve d q s).fixed = s.fixed := by
  unfold fibResolve
  repeat' with_reducible (first | rfl | refine ite_fixed ?_ ?_ | intro _ | refine (State.dinc_fixed ..).trans ?_ | refine (State.when_fixed _ _ _ ?_).trans ?_ | refine (answer_fixed ..).trans ?_ | refine (bankGrant_fixed ..).trans ?_ | refine (resolveParity_fixed ..).trans ?_ | split | refine (foldl_fixed _ _ _ ?_).trans ?_ | simp only [↓State.fixed_mk, ↓State.fixed_def, State.fixed_def])

theorem deepResult_fixed (d : ℕ) (no : ℕ) (v : Bucket) (code : ℕ) (reads : ℕ) (s : State) :
    (deepResult d no v code reads s).fixed = s.fixed := by
  unfold deepResult
  repeat' with_reducible (first | rfl | refine ite_fixed ?_ ?_ | refine (State.dinc_fixed ..).trans ?_ | refine (State.report_fixed ..).trans ?_ | refine (askHome_fixed ..).trans ?_ | refine (faultAnswer_fixed ..).trans ?_ | refine (fibAnswer_fixed ..).trans ?_ | refine (leaveDeep_fixed ..).trans ?_ | refine (onDeep_fixed ..).trans ?_ | refine (unitEvent_fixed ..).trans ?_ | split)

theorem homeAnswer_fixed (d : ℕ) (a : HomeAns) (s : State) :
    (homeAnswer d a s).fixed = s.fixed := by
  unfold homeAnswer
  (try dsimp only)
  repeat' with_reducible (first | rfl | assumption | intro _ | refine ite_fixed ?_ ?_ | refine ite_snd_fixed ?_ ?_ | refine ite_snd2_fixed ?_ ?_ | refine getD_fixed ?_ ?_ | refine ite_elim_fixed ?_ ?_ | refine (some_elim_fixed ..).trans ?_ | refine (none_elim_fixed ..).trans ?_ | refine ite_fst_elim_fixed ?_ ?_ | refine map_elim_fixed ?_ ?_ | refine bind_elim_fixed ?_ ?_ | refine foldl_elim_fixed _ _ _ ?_ ?_ | refine (deepAnswered_fixed ..).trans ?_ | refine (deepResult_fixed ..).trans ?_ | refine (deferSlot_fixed ..).trans ?_ | refine missEnter_fixed (hc := ?_) .. | refine snd_fixed (by assumption) ?_ | refine snd2_fixed (by assumption) ?_ | refine fst_elim_fixed (by assumption) ?_ | refine of_some_fixed (by assumption) ?_ | split | refine (foldl_fixed _ _ _ ?_).trans ?_ | refine (foldl_fixed_snd _ _ _ ?_).trans ?_ | refine (foldl_fixed_snd2 _ _ _ ?_).trans ?_ | simp only [↓State.fixed_mk, ↓State.fixed_def, State.fixed_def])

theorem bucketRead_fixed (h : ℕ) (a : ℕ) (no : ℕ) (code : ℕ) (b : ℕ) (lines : ℕ) (tag : ℕ) (poison : ℕ) (s : State) :
    (bucketRead h a no code b lines tag poison s).fixed = s.fixed := by
  unfold bucketRead
  (try dsimp only)
  repeat' with_reducible (first | rfl | assumption | intro _ | refine ite_fixed ?_ ?_ | refine ite_snd_fixed ?_ ?_ | refine ite_snd2_fixed ?_ ?_ | refine getD_fixed ?_ ?_ | refine ite_elim_fixed ?_ ?_ | refine (some_elim_fixed ..).trans ?_ | refine (none_elim_fixed ..).trans ?_ | refine ite_fst_elim_fixed ?_ ?_ | refine map_elim_fixed ?_ ?_ | refine bind_elim_fixed ?_ ?_ | refine foldl_elim_fixed _ _ _ ?_ ?_ | refine (State.dinc_fixed ..).trans ?_ | refine (State.each_fixed _ _ _ ?_).trans ?_ | refine (State.send_fixed ..).trans ?_ | refine (State.when_fixed _ _ _ ?_).trans ?_ | refine (access_fixed ..).trans ?_ | refine (homeAnswer_fixed ..).trans ?_ | refine (poisonLine_fixed ..).trans ?_ | refine snd_fixed (by assumption) ?_ | refine snd2_fixed (by assumption) ?_ | refine fst_elim_fixed (by assumption) ?_ | refine of_some_fixed (by assumption) ?_ | split | refine (foldl_fixed _ _ _ ?_).trans ?_ | refine (foldl_fixed_snd _ _ _ ?_).trans ?_ | refine (foldl_fixed_snd2 _ _ _ ?_).trans ?_ | simp only [↓State.fixed_mk, ↓State.fixed_def, State.fixed_def])

theorem deepReadDone_fixed (d : ℕ) (poison : Fin 4) (s : State) :
    (deepReadDone d poison s).fixed = s.fixed := by
  unfold deepReadDone
  repeat' with_reducible (first | rfl | refine ite_fixed ?_ ?_ | refine (State.onDie_fixed ..).trans ?_ | refine (bucketRead_fixed ..).trans ?_ | refine (endGone_fixed ..).trans ?_ | split)

theorem readLines_fixed (h : ℕ) (ls : List (ℕ × ℕ)) (s : State) :
    (readLines h ls s).2.fixed = s.fixed := by
  unfold readLines
  (try dsimp only)
  repeat' with_reducible (first | rfl | assumption | intro _ | refine ite_fixed ?_ ?_ | refine ite_snd_fixed ?_ ?_ | refine ite_snd2_fixed ?_ ?_ | refine getD_fixed ?_ ?_ | refine ite_elim_fixed ?_ ?_ | refine (some_elim_fixed ..).trans ?_ | refine (none_elim_fixed ..).trans ?_ | refine ite_fst_elim_fixed ?_ ?_ | refine map_elim_fixed ?_ ?_ | refine bind_elim_fixed ?_ ?_ | refine foldl_elim_fixed _ _ _ ?_ ?_ | refine (State.dinc_fixed ..).trans ?_ | refine (State.fresh_fixed ..).trans ?_ | refine (access_fixed ..).trans ?_ | refine (poisonLine_fixed ..).trans ?_ | refine snd_fixed (by assumption) ?_ | refine snd2_fixed (by assumption) ?_ | refine fst_elim_fixed (by assumption) ?_ | refine of_some_fixed (by assumption) ?_ | split | refine (foldl_fixed _ _ _ ?_).trans ?_ | refine (foldl_fixed_snd _ _ _ ?_).trans ?_ | refine (foldl_fixed_snd2 _ _ _ ?_).trans ?_ | simp only [↓State.fixed_mk, ↓State.fixed_def, State.fixed_def])

theorem readDeep_fixed (h : ℕ) (p : Pfx) (s : State) :
    (readDeep h p s).2.fixed = s.fixed := by
  unfold readDeep
  (try dsimp only)
  repeat' with_reducible (first | rfl | assumption | intro _ | refine ite_fixed ?_ ?_ | refine ite_snd_fixed ?_ ?_ | refine ite_snd2_fixed ?_ ?_ | refine getD_fixed ?_ ?_ | refine ite_elim_fixed ?_ ?_ | refine (some_elim_fixed ..).trans ?_ | refine (none_elim_fixed ..).trans ?_ | refine ite_fst_elim_fixed ?_ ?_ | refine map_elim_fixed ?_ ?_ | refine bind_elim_fixed ?_ ?_ | refine foldl_elim_fixed _ _ _ ?_ ?_ | refine (readLines_fixed ..).trans ?_ | refine snd_fixed (by assumption) ?_ | refine snd2_fixed (by assumption) ?_ | refine fst_elim_fixed (by assumption) ?_ | refine of_some_fixed (by assumption) ?_ | split | refine (foldl_fixed _ _ _ ?_).trans ?_ | refine (foldl_fixed_snd _ _ _ ?_).trans ?_ | refine (foldl_fixed_snd2 _ _ _ ?_).trans ?_ | simp only [↓State.fixed_mk, ↓State.fixed_def, State.fixed_def])

theorem readStem_fixed (d : ℕ) (fam : ℕ) (vrf : ℕ) (stem : ℕ) (s : State) :
    (readStem d fam vrf stem s).2.fixed = s.fixed := by
  unfold readStem
  (try dsimp only)
  repeat' with_reducible (first | rfl | assumption | intro _ | refine ite_fixed ?_ ?_ | refine ite_snd_fixed ?_ ?_ | refine ite_snd2_fixed ?_ ?_ | refine getD_fixed ?_ ?_ | refine ite_elim_fixed ?_ ?_ | refine (some_elim_fixed ..).trans ?_ | refine (none_elim_fixed ..).trans ?_ | refine ite_fst_elim_fixed ?_ ?_ | refine map_elim_fixed ?_ ?_ | refine bind_elim_fixed ?_ ?_ | refine foldl_elim_fixed _ _ _ ?_ ?_ | refine (readLines_fixed ..).trans ?_ | refine snd_fixed (by assumption) ?_ | refine snd2_fixed (by assumption) ?_ | refine fst_elim_fixed (by assumption) ?_ | refine of_some_fixed (by assumption) ?_ | split | refine (foldl_fixed _ _ _ ?_).trans ?_ | refine (foldl_fixed_snd _ _ _ ?_).trans ?_ | refine (foldl_fixed_snd2 _ _ _ ?_).trans ?_ | simp only [↓State.fixed_mk, ↓State.fixed_def, State.fixed_def])

theorem toRebuild_fixed (d : ℕ) (k : ℕ) (s : State) :
    (toRebuild d k s).fixed = s.fixed := by
  unfold toRebuild
  (try dsimp only)
  repeat' with_reducible (first | rfl | assumption | intro _ | refine ite_fixed ?_ ?_ | refine ite_snd_fixed ?_ ?_ | refine ite_snd2_fixed ?_ ?_ | refine getD_fixed ?_ ?_ | refine ite_elim_fixed ?_ ?_ | refine (some_elim_fixed ..).trans ?_ | refine (none_elim_fixed ..).trans ?_ | refine ite_fst_elim_fixed ?_ ?_ | refine map_elim_fixed ?_ ?_ | refine bind_elim_fixed ?_ ?_ | refine foldl_elim_fixed _ _ _ ?_ ?_ | refine (State.onDie_fixed ..).trans ?_ | refine snd_fixed (by assumption) ?_ | refine snd2_fixed (by assumption) ?_ | refine fst_elim_fixed (by assumption) ?_ | refine of_some_fixed (by assumption) ?_ | split | refine (foldl_fixed _ _ _ ?_).trans ?_ | refine (foldl_fixed_snd _ _ _ ?_).trans ?_ | refine (foldl_fixed_snd2 _ _ _ ?_).trans ?_ | simp only [↓State.fixed_mk, ↓State.fixed_def, State.fixed_def])

theorem newStem_fixed (d : ℕ) (n : TEntry) (s : State) :
    (newStem d n s).2.fixed = s.fixed := by
  unfold newStem
  (try dsimp only)
  repeat' with_reducible (first | rfl | assumption | intro _ | refine ite_fixed ?_ ?_ | refine ite_snd_fixed ?_ ?_ | refine ite_snd2_fixed ?_ ?_ | refine getD_fixed ?_ ?_ | refine ite_elim_fixed ?_ ?_ | refine (some_elim_fixed ..).trans ?_ | refine (none_elim_fixed ..).trans ?_ | refine ite_fst_elim_fixed ?_ ?_ | refine map_elim_fixed ?_ ?_ | refine bind_elim_fixed ?_ ?_ | refine foldl_elim_fixed _ _ _ ?_ ?_ | refine (place_fixed ..).trans ?_ | refine snd_fixed (by assumption) ?_ | refine snd2_fixed (by assumption) ?_ | refine fst_elim_fixed (by assumption) ?_ | refine of_some_fixed (by assumption) ?_ | split | refine (foldl_fixed _ _ _ ?_).trans ?_ | refine (foldl_fixed_snd _ _ _ ?_).trans ?_ | refine (foldl_fixed_snd2 _ _ _ ?_).trans ?_ | simp only [↓State.fixed_mk, ↓State.fixed_def, State.fixed_def])

theorem putStemNow_fixed (d : ℕ) (fam : ℕ) (vrf : ℕ) (stem : ℕ) (f : TEntry → TEntry) (s : State) :
    (putStemNow d fam vrf stem f s).2.fixed = s.fixed := by
  unfold putStemNow
  (try dsimp only)
  repeat' with_reducible (first | rfl | assumption | intro _ | refine ite_fixed ?_ ?_ | refine ite_snd_fixed ?_ ?_ | refine ite_snd2_fixed ?_ ?_ | refine getD_fixed ?_ ?_ | refine ite_elim_fixed ?_ ?_ | refine (some_elim_fixed ..).trans ?_ | refine (none_elim_fixed ..).trans ?_ | refine ite_fst_elim_fixed ?_ ?_ | refine map_elim_fixed ?_ ?_ | refine bind_elim_fixed ?_ ?_ | refine foldl_elim_fixed _ _ _ ?_ ?_ | refine (deleteSlot_fixed ..).trans ?_ | refine (engReads_fixed ..).trans ?_ | refine (newStem_fixed ..).trans ?_ | refine (readStem_fixed ..).trans ?_ | refine (rewriteSlot_fixed ..).trans ?_ | refine (toRebuild_fixed ..).trans ?_ | refine snd_fixed (by assumption) ?_ | refine snd2_fixed (by assumption) ?_ | refine fst_elim_fixed (by assumption) ?_ | refine of_some_fixed (by assumption) ?_ | split | refine (foldl_fixed _ _ _ ?_).trans ?_ | refine (foldl_fixed_snd _ _ _ ?_).trans ?_ | refine (foldl_fixed_snd2 _ _ _ ?_).trans ?_ | simp only [↓State.fixed_mk, ↓State.fixed_def, State.fixed_def])

theorem putStem_fixed (d : ℕ) (fam : ℕ) (vrf : ℕ) (stem : ℕ) (f : TEntry → TEntry) (s : State) :
    (putStem d fam vrf stem f s).2.fixed = s.fixed := by
  unfold putStem
  (try dsimp only)
  repeat' with_reducible (first | rfl | assumption | intro _ | refine ite_fixed ?_ ?_ | refine ite_snd_fixed ?_ ?_ | refine ite_snd2_fixed ?_ ?_ | refine getD_fixed ?_ ?_ | refine ite_elim_fixed ?_ ?_ | refine (some_elim_fixed ..).trans ?_ | refine (none_elim_fixed ..).trans ?_ | refine ite_fst_elim_fixed ?_ ?_ | refine map_elim_fixed ?_ ?_ | refine bind_elim_fixed ?_ ?_ | refine foldl_elim_fixed _ _ _ ?_ ?_ | refine (putStemNow_fixed ..).trans ?_ | refine (shadowForget_fixed ..).trans ?_ | refine snd_fixed (by assumption) ?_ | refine snd2_fixed (by assumption) ?_ | refine fst_elim_fixed (by assumption) ?_ | refine of_some_fixed (by assumption) ?_ | split | refine (foldl_fixed _ _ _ ?_).trans ?_ | refine (foldl_fixed_snd _ _ _ ?_).trans ?_ | refine (foldl_fixed_snd2 _ _ _ ?_).trans ?_ | simp only [↓State.fixed_mk, ↓State.fixed_def, State.fixed_def])

theorem rewriteCovers_fixed (d : ℕ) (p : Pfx) (but : Option Pfx) (s : State) :
    (rewriteCovers d p but s).2.fixed = s.fixed := by
  unfold rewriteCovers
  (try dsimp only)
  repeat' with_reducible (first | rfl | assumption | intro _ | refine ite_fixed ?_ ?_ | refine ite_snd_fixed ?_ ?_ | refine ite_snd2_fixed ?_ ?_ | refine getD_fixed ?_ ?_ | refine ite_elim_fixed ?_ ?_ | refine (some_elim_fixed ..).trans ?_ | refine (none_elim_fixed ..).trans ?_ | refine ite_fst_elim_fixed ?_ ?_ | refine map_elim_fixed ?_ ?_ | refine bind_elim_fixed ?_ ?_ | refine foldl_elim_fixed _ _ _ ?_ ?_ | refine (putStem_fixed ..).trans ?_ | refine snd_fixed (by assumption) ?_ | refine snd2_fixed (by assumption) ?_ | refine fst_elim_fixed (by assumption) ?_ | refine of_some_fixed (by assumption) ?_ | split | refine (foldl_fixed _ _ _ ?_).trans ?_ | refine (foldl_fixed_snd _ _ _ ?_).trans ?_ | refine (foldl_fixed_snd2 _ _ _ ?_).trans ?_ | simp only [↓State.fixed_mk, ↓State.fixed_def, State.fixed_def])

theorem hotPlace_fixed (d : ℕ) (p : Pfx) (result : ℕ) (s : State) {cc : Part × List Instr × Nat × Nat × BitVec 4}
    (hc : s.fixed = cc) : (hotPlace d p result s).elim cc State.fixed = cc := by
  subst hc
  unfold hotPlace
  (try dsimp only)
  repeat' with_reducible (first | rfl | assumption | intro _ | refine ite_fixed ?_ ?_ | refine ite_snd_fixed ?_ ?_ | refine ite_snd2_fixed ?_ ?_ | refine getD_fixed ?_ ?_ | refine ite_elim_fixed ?_ ?_ | refine (some_elim_fixed ..).trans ?_ | refine (none_elim_fixed ..).trans ?_ | refine ite_fst_elim_fixed ?_ ?_ | refine map_elim_fixed ?_ ?_ | refine bind_elim_fixed ?_ ?_ | refine foldl_elim_fixed _ _ _ ?_ ?_ | refine (engReads_fixed ..).trans ?_ | refine (place_fixed ..).trans ?_ | refine (rewriteSlot_fixed ..).trans ?_ | refine snd_fixed (by assumption) ?_ | refine snd2_fixed (by assumption) ?_ | refine fst_elim_fixed (by assumption) ?_ | refine of_some_fixed (by assumption) ?_ | split | refine (foldl_fixed _ _ _ ?_).trans ?_ | refine (foldl_fixed_snd _ _ _ ?_).trans ?_ | refine (foldl_fixed_snd2 _ _ _ ?_).trans ?_ | simp only [↓State.fixed_mk, ↓State.fixed_def, State.fixed_def])

theorem hotDrop_fixed (d : ℕ) (p : Pfx) (s : State) :
    (hotDrop d p s).fixed = s.fixed := by
  unfold hotDrop
  repeat' with_reducible (first | rfl | refine ite_fixed ?_ ?_ | intro _ | refine (deleteSlot_fixed ..).trans ?_ | refine (engReads_fixed ..).trans ?_ | refine (shadowForget_fixed ..).trans ?_ | split | refine (foldl_fixed _ _ _ ?_).trans ?_ | simp only [↓State.fixed_mk, ↓State.fixed_def, State.fixed_def])

theorem putRoot_fixed (d : ℕ) (p : Pfx) (del : Bool) (result : ℕ) (s : State) :
    (putRoot d p del result s).2.fixed = s.fixed := by
  unfold putRoot
  dsimp only
  repeat' with_reducible (first | rfl | refine ite_fixed ?_ ?_ | refine (State.onDie_fixed ..).trans ?_ | refine (bankGrant_fixed ..).trans ?_ | refine (bankWrite_fixed ..).trans ?_ | refine (rootParity_fixed ..).trans ?_ | refine (shadowIdxPut_fixed ..).trans ?_ | split)

theorem insertLocal_fixed (d : ℕ) (p : Pfx) (want : Bool) (result : ℕ) (s : State) :
    (insertLocal d p want result s).2.fixed = s.fixed := by
  unfold insertLocal
  (try dsimp only)
  repeat' with_reducible (first | rfl | assumption | intro _ | refine ite_fixed ?_ ?_ | refine ite_snd_fixed ?_ ?_ | refine ite_snd2_fixed ?_ ?_ | refine getD_fixed ?_ ?_ | refine ite_elim_fixed ?_ ?_ | refine (some_elim_fixed ..).trans ?_ | refine (none_elim_fixed ..).trans ?_ | refine ite_fst_elim_fixed ?_ ?_ | refine map_elim_fixed ?_ ?_ | refine bind_elim_fixed ?_ ?_ | refine foldl_elim_fixed _ _ _ ?_ ?_ | refine (State.onDie_fixed ..).trans ?_ | refine (hotDrop_fixed ..).trans ?_ | refine hotPlace_fixed (hc := ?_) .. | refine (putStem_fixed ..).trans ?_ | refine snd_fixed (by assumption) ?_ | refine snd2_fixed (by assumption) ?_ | refine fst_elim_fixed (by assumption) ?_ | refine of_some_fixed (by assumption) ?_ | split | refine (foldl_fixed _ _ _ ?_).trans ?_ | refine (foldl_fixed_snd _ _ _ ?_).trans ?_ | refine (foldl_fixed_snd2 _ _ _ ?_).trans ?_ | simp only [↓State.fixed_mk, ↓State.fixed_def, State.fixed_def])

theorem fibLocal_fixed (d : ℕ) (p : Pfx) (del : Bool) (want : Bool) (result : ℕ) (s : State) :
    (fibLocal d p del want result s).2.fixed = s.fixed := by
  unfold fibLocal
  repeat' with_reducible (first | rfl | refine ite_fixed ?_ ?_ | refine (hotDrop_fixed ..).trans ?_ | refine (insertLocal_fixed ..).trans ?_ | refine (putRoot_fixed ..).trans ?_ | refine (putStem_fixed ..).trans ?_ | refine (rewriteCovers_fixed ..).trans ?_ | split)

theorem renewDeep_fixed (h : ℕ) (p : Pfx) (s : State) :
    (renewDeep h p s).fixed = s.fixed := by
  unfold renewDeep
  (try dsimp only)
  repeat' with_reducible (first | rfl | assumption | intro _ | refine ite_fixed ?_ ?_ | refine ite_snd_fixed ?_ ?_ | refine ite_snd2_fixed ?_ ?_ | refine getD_fixed ?_ ?_ | refine ite_elim_fixed ?_ ?_ | refine (some_elim_fixed ..).trans ?_ | refine (none_elim_fixed ..).trans ?_ | refine ite_fst_elim_fixed ?_ ?_ | refine map_elim_fixed ?_ ?_ | refine bind_elim_fixed ?_ ?_ | refine foldl_elim_fixed _ _ _ ?_ ?_ | refine (State.each_fixed _ _ _ ?_).trans ?_ | refine (access_fixed ..).trans ?_ | refine (onBucket_fixed ..).trans ?_ | refine snd_fixed (by assumption) ?_ | refine snd2_fixed (by assumption) ?_ | refine fst_elim_fixed (by assumption) ?_ | refine of_some_fixed (by assumption) ?_ | split | refine (foldl_fixed _ _ _ ?_).trans ?_ | refine (foldl_fixed_snd _ _ _ ?_).trans ?_ | refine (foldl_fixed_snd2 _ _ _ ?_).trans ?_ | simp only [↓State.fixed_mk, ↓State.fixed_def, State.fixed_def])

theorem putDeep_fixed (h : ℕ) (p : Pfx) (del : Bool) (hot : Bool) (result : ℕ) (s : State) :
    (putDeep h p del hot result s).2.fixed = s.fixed := by
  unfold putDeep
  (try dsimp only)
  repeat' with_reducible (first | rfl | assumption | intro _ | refine ite_fixed ?_ ?_ | refine ite_snd_fixed ?_ ?_ | refine ite_snd2_fixed ?_ ?_ | refine getD_fixed ?_ ?_ | refine ite_elim_fixed ?_ ?_ | refine (some_elim_fixed ..).trans ?_ | refine (none_elim_fixed ..).trans ?_ | refine ite_fst_elim_fixed ?_ ?_ | refine map_elim_fixed ?_ ?_ | refine bind_elim_fixed ?_ ?_ | refine foldl_elim_fixed _ _ _ ?_ ?_ | refine (deleteSlot_fixed ..).trans ?_ | refine (place_fixed ..).trans ?_ | refine (readDeep_fixed ..).trans ?_ | refine (renewDeep_fixed ..).trans ?_ | refine (rewriteSlot_fixed ..).trans ?_ | refine snd_fixed (by assumption) ?_ | refine snd2_fixed (by assumption) ?_ | refine fst_elim_fixed (by assumption) ?_ | refine of_some_fixed (by assumption) ?_ | split | refine (foldl_fixed _ _ _ ?_).trans ?_ | refine (foldl_fixed_snd _ _ _ ?_).trans ?_ | refine (foldl_fixed_snd2 _ _ _ ?_).trans ?_ | simp only [↓State.fixed_mk, ↓State.fixed_def, State.fixed_def])

theorem readCovers_fixed (p : Pfx) (s : State) :
    (readCovers p s).2.fixed = s.fixed := by
  unfold readCovers
  (try dsimp only)
  repeat' with_reducible (first | rfl | assumption | intro _ | refine ite_fixed ?_ ?_ | refine ite_snd_fixed ?_ ?_ | refine ite_snd2_fixed ?_ ?_ | refine getD_fixed ?_ ?_ | refine ite_elim_fixed ?_ ?_ | refine (some_elim_fixed ..).trans ?_ | refine (none_elim_fixed ..).trans ?_ | refine ite_fst_elim_fixed ?_ ?_ | refine map_elim_fixed ?_ ?_ | refine bind_elim_fixed ?_ ?_ | refine foldl_elim_fixed _ _ _ ?_ ?_ | refine (readLines_fixed ..).trans ?_ | refine snd_fixed (by assumption) ?_ | refine snd2_fixed (by assumption) ?_ | refine fst_elim_fixed (by assumption) ?_ | refine of_some_fixed (by assumption) ?_ | split | refine (foldl_fixed _ _ _ ?_).trans ?_ | refine (foldl_fixed_snd _ _ _ ?_).trans ?_ | refine (foldl_fixed_snd2 _ _ _ ?_).trans ?_ | simp only [↓State.fixed_mk, ↓State.fixed_def, State.fixed_def])

theorem countRefused_fixed (d : ℕ) (p : Pfx) (ins : Bool) (s : State) :
    (countRefused d p ins s).fixed = s.fixed := by
  unfold countRefused
  repeat' with_reducible (first | rfl | refine ite_fixed ?_ ?_ | intro _ | refine (State.each_fixed _ _ _ ?_).trans ?_ | refine (access_fixed ..).trans ?_ | split | refine (foldl_fixed _ _ _ ?_).trans ?_ | simp only [↓State.fixed_mk, ↓State.fixed_def, State.fixed_def])

theorem fibDeep_fixed (d : ℕ) (p : Pfx) (want : Bool) (result : ℕ) (s : State) :
    (fibDeep d p want result s).2.fixed = s.fixed := by
  unfold fibDeep
  (try dsimp only)
  repeat' with_reducible (first | rfl | assumption | intro _ | refine ite_fixed ?_ ?_ | refine ite_snd_fixed ?_ ?_ | refine ite_snd2_fixed ?_ ?_ | refine getD_fixed ?_ ?_ | refine ite_elim_fixed ?_ ?_ | refine (some_elim_fixed ..).trans ?_ | refine (none_elim_fixed ..).trans ?_ | refine ite_fst_elim_fixed ?_ ?_ | refine map_elim_fixed ?_ ?_ | refine bind_elim_fixed ?_ ?_ | refine foldl_elim_fixed _ _ _ ?_ ?_ | refine (countRefused_fixed ..).trans ?_ | refine hotPlace_fixed (hc := ?_) .. | refine (putDeep_fixed ..).trans ?_ | refine snd_fixed (by assumption) ?_ | refine snd2_fixed (by assumption) ?_ | refine fst_elim_fixed (by assumption) ?_ | refine of_some_fixed (by assumption) ?_ | split | refine (foldl_fixed _ _ _ ?_).trans ?_ | refine (foldl_fixed_snd _ _ _ ?_).trans ?_ | refine (foldl_fixed_snd2 _ _ _ ?_).trans ?_ | simp only [↓State.fixed_mk, ↓State.fixed_def, State.fixed_def])

theorem fibHeld_fixed (d : ℕ) (p : Pfx) (s : State) :
    (fibHeld d p s).2.fixed = s.fixed := by
  unfold fibHeld
  dsimp only
  repeat' with_reducible (first | rfl | refine ite_fixed ?_ ?_ | refine (countRefused_fixed ..).trans ?_ | refine (readCovers_fixed ..).trans ?_ | split)

theorem fibErase_fixed (p : Pfx) (s : State) :
    (fibErase p s).fixed = s.fixed := by
  unfold fibErase
  repeat' with_reducible (first | rfl | refine ite_fixed ?_ ?_ | intro _ | refine (State.each_fixed _ _ _ ?_).trans ?_ | refine (putDeep_fixed ..).trans ?_ | split | refine (foldl_fixed _ _ _ ?_).trans ?_ | simp only [↓State.fixed_mk, ↓State.fixed_def, State.fixed_def])

theorem fibFirst_fixed (d : ℕ) (p : Pfx) (del : Bool) (want : Bool) (result : ℕ) (s : State) :
    (fibFirst d p del want result s).2.2.2.fixed = s.fixed := by
  unfold fibFirst
  (try dsimp only)
  repeat' with_reducible (first | rfl | assumption | intro _ | refine ite_fixed ?_ ?_ | refine ite_snd_fixed ?_ ?_ | refine ite_snd2_fixed ?_ ?_ | refine getD_fixed ?_ ?_ | refine ite_elim_fixed ?_ ?_ | refine (some_elim_fixed ..).trans ?_ | refine (none_elim_fixed ..).trans ?_ | refine ite_fst_elim_fixed ?_ ?_ | refine map_elim_fixed ?_ ?_ | refine bind_elim_fixed ?_ ?_ | refine foldl_elim_fixed _ _ _ ?_ ?_ | refine (fibDeep_fixed ..).trans ?_ | refine (fibHeld_fixed ..).trans ?_ | refine (fibLocal_fixed ..).trans ?_ | refine snd_fixed (by assumption) ?_ | refine snd2_fixed (by assumption) ?_ | refine fst_elim_fixed (by assumption) ?_ | refine of_some_fixed (by assumption) ?_ | split | refine (foldl_fixed _ _ _ ?_).trans ?_ | refine (foldl_fixed_snd _ _ _ ?_).trans ?_ | refine (foldl_fixed_snd2 _ _ _ ?_).trans ?_ | simp only [↓State.fixed_mk, ↓State.fixed_def, State.fixed_def])

theorem fibCommand_fixed (d : ℕ) (del : Bool) (rec : ℕ) (s : State) :
    (fibCommand d del rec s).2.fixed = s.fixed := by
  unfold fibCommand
  dsimp only
  repeat' with_reducible (first | rfl | refine ite_fixed ?_ ?_ | refine (fibErase_fixed ..).trans ?_ | refine (fibFirst_fixed ..).trans ?_ | refine (putRoot_fixed ..).trans ?_ | split)

theorem fibDelete_fixed (d : ℕ) (p : Pfx) (s : State) :
    (fibDelete d p s).2.fixed = s.fixed := by
  unfold fibDelete
  (try dsimp only)
  repeat' with_reducible (first | rfl | assumption | intro _ | refine ite_fixed ?_ ?_ | refine ite_snd_fixed ?_ ?_ | refine ite_snd2_fixed ?_ ?_ | refine getD_fixed ?_ ?_ | refine ite_elim_fixed ?_ ?_ | refine (some_elim_fixed ..).trans ?_ | refine (none_elim_fixed ..).trans ?_ | refine ite_fst_elim_fixed ?_ ?_ | refine map_elim_fixed ?_ ?_ | refine bind_elim_fixed ?_ ?_ | refine foldl_elim_fixed _ _ _ ?_ ?_ | refine (State.each_fixed _ _ _ ?_).trans ?_ | refine (fibErase_fixed ..).trans ?_ | refine (fibHeld_fixed ..).trans ?_ | refine (fibLocal_fixed ..).trans ?_ | refine (putRoot_fixed ..).trans ?_ | refine snd_fixed (by assumption) ?_ | refine snd2_fixed (by assumption) ?_ | refine fst_elim_fixed (by assumption) ?_ | refine of_some_fixed (by assumption) ?_ | split | refine (foldl_fixed _ _ _ ?_).trans ?_ | refine (foldl_fixed_snd _ _ _ ?_).trans ?_ | refine (foldl_fixed_snd2 _ _ _ ?_).trans ?_ | simp only [↓State.fixed_mk, ↓State.fixed_def, State.fixed_def])

theorem countDeepOnly_fixed (st : ℕ) (s : State) :
    (countDeepOnly st s).fixed = s.fixed := by
  unfold countDeepOnly
  repeat' with_reducible (first | rfl | refine ite_fixed ?_ ?_ | intro _ | refine (State.pinc_fixed ..).trans ?_ | refine (State.when_fixed _ _ _ ?_).trans ?_ | split | refine (foldl_fixed _ _ _ ?_).trans ?_ | simp only [↓State.fixed_mk, ↓State.fixed_def, State.fixed_def])

theorem deepFind_fixed (d : ℕ) (h : ℕ) (p : Pfx) (s : State) :
    (deepFind d h p s).2.fixed = s.fixed := by
  unfold deepFind
  (try dsimp only)
  repeat' with_reducible (first | rfl | assumption | intro _ | refine ite_fixed ?_ ?_ | refine ite_snd_fixed ?_ ?_ | refine ite_snd2_fixed ?_ ?_ | refine getD_fixed ?_ ?_ | refine ite_elim_fixed ?_ ?_ | refine (some_elim_fixed ..).trans ?_ | refine (none_elim_fixed ..).trans ?_ | refine ite_fst_elim_fixed ?_ ?_ | refine map_elim_fixed ?_ ?_ | refine bind_elim_fixed ?_ ?_ | refine foldl_elim_fixed _ _ _ ?_ ?_ | refine (readDeep_fixed ..).trans ?_ | refine snd_fixed (by assumption) ?_ | refine snd2_fixed (by assumption) ?_ | refine fst_elim_fixed (by assumption) ?_ | refine of_some_fixed (by assumption) ?_ | split | refine (foldl_fixed _ _ _ ?_).trans ?_ | refine (foldl_fixed_snd _ _ _ ?_).trans ?_ | refine (foldl_fixed_snd2 _ _ _ ?_).trans ?_ | simp only [↓State.fixed_mk, ↓State.fixed_def, State.fixed_def])

theorem fibFind_fixed (d : ℕ) (rec : ℕ) (s : State) :
    (fibFind d rec s).2.fixed = s.fixed := by
  unfold fibFind
  (try dsimp only)
  repeat' with_reducible (first | rfl | assumption | intro _ | refine ite_fixed ?_ ?_ | refine ite_snd_fixed ?_ ?_ | refine ite_snd2_fixed ?_ ?_ | refine getD_fixed ?_ ?_ | refine ite_elim_fixed ?_ ?_ | refine (some_elim_fixed ..).trans ?_ | refine (none_elim_fixed ..).trans ?_ | refine ite_fst_elim_fixed ?_ ?_ | refine map_elim_fixed ?_ ?_ | refine bind_elim_fixed ?_ ?_ | refine foldl_elim_fixed _ _ _ ?_ ?_ | refine (bankGrant_fixed ..).trans ?_ | refine (deepFind_fixed ..).trans ?_ | refine (engReads_fixed ..).trans ?_ | refine (rootParity_fixed ..).trans ?_ | refine snd_fixed (by assumption) ?_ | refine snd2_fixed (by assumption) ?_ | refine fst_elim_fixed (by assumption) ?_ | refine of_some_fixed (by assumption) ?_ | split | refine (foldl_fixed _ _ _ ?_).trans ?_ | refine (foldl_fixed_snd _ _ _ ?_).trans ?_ | refine (foldl_fixed_snd2 _ _ _ ?_).trans ?_ | simp only [↓State.fixed_mk, ↓State.fixed_def, State.fixed_def])

theorem fibNext_fixed (d : ℕ) (cursor : ℕ) (s : State) :
    (fibNext d cursor s).2.fixed = s.fixed := by
  unfold fibNext
  (try dsimp only)
  repeat' with_reducible (first | rfl | assumption | intro _ | refine ite_fixed ?_ ?_ | refine ite_snd_fixed ?_ ?_ | refine ite_snd2_fixed ?_ ?_ | refine getD_fixed ?_ ?_ | refine ite_elim_fixed ?_ ?_ | refine (some_elim_fixed ..).trans ?_ | refine (none_elim_fixed ..).trans ?_ | refine ite_fst_elim_fixed ?_ ?_ | refine map_elim_fixed ?_ ?_ | refine bind_elim_fixed ?_ ?_ | refine foldl_elim_fixed _ _ _ ?_ ?_ | refine (deepFind_fixed ..).trans ?_ | refine snd_fixed (by assumption) ?_ | refine snd2_fixed (by assumption) ?_ | refine fst_elim_fixed (by assumption) ?_ | refine of_some_fixed (by assumption) ?_ | split | refine (foldl_fixed _ _ _ ?_).trans ?_ | refine (foldl_fixed_snd _ _ _ ?_).trans ?_ | refine (foldl_fixed_snd2 _ _ _ ?_).trans ?_ | simp only [↓State.fixed_mk, ↓State.fixed_def, State.fixed_def])

theorem flushReads_fixed (d : ℕ) (f : Flush) (s : State) :
    (flushReads d f s).2.fixed = s.fixed := by
  unfold flushReads
  (try dsimp only)
  repeat' with_reducible (first | rfl | assumption | intro _ | refine ite_fixed ?_ ?_ | refine ite_snd_fixed ?_ ?_ | refine ite_snd2_fixed ?_ ?_ | refine getD_fixed ?_ ?_ | refine ite_elim_fixed ?_ ?_ | refine (some_elim_fixed ..).trans ?_ | refine (none_elim_fixed ..).trans ?_ | refine ite_fst_elim_fixed ?_ ?_ | refine map_elim_fixed ?_ ?_ | refine bind_elim_fixed ?_ ?_ | refine foldl_elim_fixed _ _ _ ?_ ?_ | refine (readLines_fixed ..).trans ?_ | refine snd_fixed (by assumption) ?_ | refine snd2_fixed (by assumption) ?_ | refine fst_elim_fixed (by assumption) ?_ | refine of_some_fixed (by assumption) ?_ | split | refine (foldl_fixed _ _ _ ?_).trans ?_ | refine (foldl_fixed_snd _ _ _ ?_).trans ?_ | refine (foldl_fixed_snd2 _ _ _ ?_).trans ?_ | simp only [↓State.fixed_mk, ↓State.fixed_def, State.fixed_def])

theorem fibFlushStep_fixed (d : ℕ) (f : Flush) (s : State) :
    (fibFlushStep d f s).fixed = s.fixed := by
  unfold fibFlushStep
  (try dsimp only)
  repeat' with_reducible (first | rfl | assumption | intro _ | refine ite_fixed ?_ ?_ | refine ite_snd_fixed ?_ ?_ | refine ite_snd2_fixed ?_ ?_ | refine getD_fixed ?_ ?_ | refine ite_elim_fixed ?_ ?_ | refine (some_elim_fixed ..).trans ?_ | refine (none_elim_fixed ..).trans ?_ | refine ite_fst_elim_fixed ?_ ?_ | refine map_elim_fixed ?_ ?_ | refine bind_elim_fixed ?_ ?_ | refine foldl_elim_fixed _ _ _ ?_ ?_ | refine (State.onDie_fixed ..).trans ?_ | refine (fibDelete_fixed ..).trans ?_ | refine (flushCount_fixed ..).trans ?_ | refine (flushEnd_fixed ..).trans ?_ | refine (flushReads_fixed ..).trans ?_ | refine snd_fixed (by assumption) ?_ | refine snd2_fixed (by assumption) ?_ | refine fst_elim_fixed (by assumption) ?_ | refine of_some_fixed (by assumption) ?_ | split | refine (foldl_fixed _ _ _ ?_).trans ?_ | refine (foldl_fixed_snd _ _ _ ?_).trans ?_ | refine (foldl_fixed_snd2 _ _ _ ?_).trans ?_ | simp only [↓State.fixed_mk, ↓State.fixed_def, State.fixed_def])

theorem flushStep_fixed (d : ℕ) (s : State) :
    (flushStep d s).fixed = s.fixed := by
  unfold flushStep
  repeat' with_reducible (first | rfl | refine ite_fixed ?_ ?_ | refine (engGrant_fixed ..).trans ?_ | refine (fibFlushStep_fixed ..).trans ?_ | refine (macFlushStep_fixed ..).trans ?_ | split)

theorem stemRebuild_fixed (d : ℕ) (s : State) :
    (stemRebuild d s).fixed = s.fixed := by
  unfold stemRebuild
  repeat' with_reducible (first | rfl | refine ite_fixed ?_ ?_ | intro _ | refine (State.onDie_fixed ..).trans ?_ | refine (engReads_fixed ..).trans ?_ | refine (onBucket_fixed ..).trans ?_ | refine (readStem_fixed ..).trans ?_ | split | refine (foldl_fixed _ _ _ ?_).trans ?_ | simp only [↓State.fixed_mk, ↓State.fixed_def, State.fixed_def])

theorem moveDeep_fixed (idx : ℕ) (old : ℕ) (new : ℕ) (s : State) {cc : Part × List Instr × Nat × Nat × BitVec 4}
    (hc : s.fixed = cc) : (moveDeep idx old new s).elim cc State.fixed = cc := by
  subst hc
  unfold moveDeep
  (try dsimp only)
  repeat' with_reducible (first | rfl | assumption | intro _ | refine ite_fixed ?_ ?_ | refine ite_snd_fixed ?_ ?_ | refine ite_snd2_fixed ?_ ?_ | refine getD_fixed ?_ ?_ | refine ite_elim_fixed ?_ ?_ | refine (some_elim_fixed ..).trans ?_ | refine (none_elim_fixed ..).trans ?_ | refine ite_fst_elim_fixed ?_ ?_ | refine map_elim_fixed ?_ ?_ | refine bind_elim_fixed ?_ ?_ | refine foldl_elim_fixed _ _ _ ?_ ?_ | refine (State.pset_fixed ..).trans ?_ | refine (putDeep_fixed ..).trans ?_ | refine snd_fixed (by assumption) ?_ | refine snd2_fixed (by assumption) ?_ | refine fst_elim_fixed (by assumption) ?_ | refine of_some_fixed (by assumption) ?_ | split | refine (foldl_fixed _ _ _ ?_).trans ?_ | refine (foldl_fixed_snd _ _ _ ?_).trans ?_ | refine (foldl_fixed_snd2 _ _ _ ?_).trans ?_ | simp only [↓State.fixed_mk, ↓State.fixed_def, State.fixed_def])

theorem movePage_fixed (old : ℕ) (new : ℕ) (p : ℕ) (s : State) :
    (movePage old new p s).fixed = s.fixed := by
  unfold movePage
  repeat' with_reducible (first | rfl | refine ite_fixed ?_ ?_ | intro _ | refine (State.each_fixed _ _ _ ?_).trans ?_ | refine (State.onDie_fixed ..).trans ?_ | refine (curePage_fixed ..).trans ?_ | refine (poisonLine_fixed ..).trans ?_ | refine (setPage_fixed ..).trans ?_ | refine (writeBack_fixed ..).trans ?_ | refine (zeroPage_fixed ..).trans ?_ | split | refine (foldl_fixed _ _ _ ?_).trans ?_ | simp only [↓State.fixed_mk, ↓State.fixed_def, State.fixed_def])

theorem makeRoom_fixed (new : ℕ) (lines : List (ℕ × CtxLine)) (s : State) :
    (makeRoom new lines s).fixed = s.fixed := by
  unfold makeRoom
  repeat' with_reducible (first | rfl | refine ite_fixed ?_ ?_ | intro _ | refine (State.each_fixed _ _ _ ?_).trans ?_ | refine (State.onDie_fixed ..).trans ?_ | refine (writeBack_fixed ..).trans ?_ | split | refine (foldl_fixed _ _ _ ?_).trans ?_ | simp only [↓State.fixed_mk, ↓State.fixed_def, State.fixed_def])

theorem moveContexts_fixed (idx : ℕ) (old : ℕ) (new : ℕ) (s : State) {cc : Part × List Instr × Nat × Nat × BitVec 4}
    (hc : s.fixed = cc) : (moveContexts idx old new s).elim cc State.fixed = cc := by
  subst hc
  unfold moveContexts
  (try dsimp only)
  repeat' with_reducible (first | rfl | assumption | intro _ | refine ite_fixed ?_ ?_ | refine ite_snd_fixed ?_ ?_ | refine ite_snd2_fixed ?_ ?_ | refine getD_fixed ?_ ?_ | refine ite_elim_fixed ?_ ?_ | refine (some_elim_fixed ..).trans ?_ | refine (none_elim_fixed ..).trans ?_ | refine ite_fst_elim_fixed ?_ ?_ | refine map_elim_fixed ?_ ?_ | refine bind_elim_fixed ?_ ?_ | refine foldl_elim_fixed _ _ _ ?_ ?_ | refine (State.each_fixed _ _ _ ?_).trans ?_ | refine (State.onDie_fixed ..).trans ?_ | refine (makeRoom_fixed ..).trans ?_ | refine (movePage_fixed ..).trans ?_ | refine snd_fixed (by assumption) ?_ | refine snd2_fixed (by assumption) ?_ | refine fst_elim_fixed (by assumption) ?_ | refine of_some_fixed (by assumption) ?_ | split | refine (foldl_fixed _ _ _ ?_).trans ?_ | refine (foldl_fixed_snd _ _ _ ?_).trans ?_ | refine (foldl_fixed_snd2 _ _ _ ?_).trans ?_ | simp only [↓State.fixed_mk, ↓State.fixed_def, State.fixed_def])

theorem reaim_fixed (d : ℕ) (r : DeepReq) (s : State) :
    (reaim d r s).fixed = s.fixed := by
  unfold reaim
  repeat' with_reducible (first | rfl | refine ite_fixed ?_ ?_ | refine (State.dropMsgs_fixed ..).trans ?_ | refine (State.onDies_fixed ..).trans ?_ | refine (askHome_fixed ..).trans ?_ | refine (onDeep_fixed ..).trans ?_ | split)

theorem reaimAll_fixed (s : State) :
    (reaimAll s).fixed = s.fixed := by
  unfold reaimAll
  repeat' with_reducible (first | rfl | refine ite_fixed ?_ ?_ | intro _ | refine (State.each_fixed _ _ _ ?_).trans ?_ | refine (State.onDie_fixed ..).trans ?_ | refine (reaim_fixed ..).trans ?_ | split | refine (foldl_fixed _ _ _ ?_).trans ?_ | simp only [↓State.fixed_mk, ↓State.fixed_def, State.fixed_def])

theorem homeMapWrite_fixed (idx : ℕ) (new : ℕ) (s : State) :
    (homeMapWrite idx new s).2.fixed = s.fixed := by
  unfold homeMapWrite
  (try dsimp only)
  repeat' with_reducible (first | rfl | assumption | intro _ | refine ite_fixed ?_ ?_ | refine ite_snd_fixed ?_ ?_ | refine ite_snd2_fixed ?_ ?_ | refine getD_fixed ?_ ?_ | refine ite_elim_fixed ?_ ?_ | refine (some_elim_fixed ..).trans ?_ | refine (none_elim_fixed ..).trans ?_ | refine ite_fst_elim_fixed ?_ ?_ | refine map_elim_fixed ?_ ?_ | refine bind_elim_fixed ?_ ?_ | refine foldl_elim_fixed _ _ _ ?_ ?_ | refine moveContexts_fixed (hc := ?_) .. | refine moveDeep_fixed (hc := ?_) .. | refine (reaimAll_fixed ..).trans ?_ | refine snd_fixed (by assumption) ?_ | refine snd2_fixed (by assumption) ?_ | refine fst_elim_fixed (by assumption) ?_ | refine of_some_fixed (by assumption) ?_ | split | refine (foldl_fixed _ _ _ ?_).trans ?_ | refine (foldl_fixed_snd _ _ _ ?_).trans ?_ | refine (foldl_fixed_snd2 _ _ _ ?_).trans ?_ | simp only [↓State.fixed_mk, ↓State.fixed_def, State.fixed_def])

theorem execFibLookup_fixed (d : DieId) (u : Fin 4) (grants : List (Fin 129 × List ReadAt)) (s : State) {s' : State}
    (h : execFibLookup d u grants s = .next s') : s'.fixed = s.fixed := by
  unfold execFibLookup at h
  refine onLive_fixed (fun s => ?_) h
  repeat' with_reducible (first | rfl | refine ite_fixed ?_ ?_ | intro _ | refine (fibLookup_fixed ..).trans ?_ | refine (serveHead_fixed _ _ _ _ _ ?_).trans ?_ | split | refine (foldl_fixed _ _ _ ?_).trans ?_ | simp only [↓State.fixed_mk, ↓State.fixed_def, State.fixed_def])

theorem execFibResolve_fixed (d : DieId) (u : Fin 4) (s : State) {s' : State}
    (h : execFibResolve d u s = .next s') : s'.fixed = s.fixed := by
  unfold execFibResolve at h
  refine onLive_fixed (fun s => ?_) h
  repeat' with_reducible (first | rfl | refine ite_fixed ?_ ?_ | intro _ | refine (fibResolve_fixed ..).trans ?_ | refine (serveHead_fixed _ _ _ _ _ ?_).trans ?_ | split | refine (foldl_fixed _ _ _ ?_).trans ?_ | simp only [↓State.fixed_mk, ↓State.fixed_def, State.fixed_def])

theorem execDeepReadComplete_fixed (d : DieId) (poison : Fin 4) (s : State) {s' : State}
    (h : execDeepReadComplete d poison s = .next s') : s'.fixed = s.fixed := by
  unfold execDeepReadComplete at h
  refine onLive_fixed (fun s => ?_) h
  repeat' with_reducible (first | rfl | refine ite_fixed ?_ ?_ | refine (deepReadDone_fixed ..).trans ?_ | split)

theorem execStemRebuild_fixed (d : DieId) (s : State) {s' : State}
    (h : execStemRebuild d s = .next s') : s'.fixed = s.fixed := by
  unfold execStemRebuild at h
  refine onLive_fixed (fun s => ?_) h
  repeat' with_reducible (first | rfl | refine ite_fixed ?_ ?_ | refine (stemRebuild_fixed ..).trans ?_ | split)

theorem execFlushStep_fixed (d : DieId) (s : State) {s' : State}
    (h : execFlushStep d s = .next s') : s'.fixed = s.fixed := by
  unfold execFlushStep at h
  refine onLive_fixed (fun s => ?_) h
  repeat' with_reducible (first | rfl | refine ite_fixed ?_ ?_ | refine (flushStep_fixed ..).trans ?_ | split)

end Sys2Proof.Machine
end

