-- ==== Sys2Proof/Laws/Fixed/Rules.lean ====
section
/-! SUPPORT. What the operations of Machine/Rules.lean leave as it is: the part, the queue, the clock, the anti-rollback
counter and the revocation bits. -/

set_option linter.all false
set_option maxRecDepth 4000

namespace Sys2Proof.Machine

theorem classParity_fixed (d : ℕ) (s : State) :
    (classParity d s).fixed = s.fixed := by
  unfold classParity
  (try dsimp only)
  repeat' with_reducible (first | rfl | assumption | intro _ | refine ite_fixed ?_ ?_ | refine ite_snd_fixed ?_ ?_ | refine ite_snd2_fixed ?_ ?_ | refine getD_fixed ?_ ?_ | refine ite_elim_fixed ?_ ?_ | refine (some_elim_fixed ..).trans ?_ | refine (none_elim_fixed ..).trans ?_ | refine ite_fst_elim_fixed ?_ ?_ | refine map_elim_fixed ?_ ?_ | refine bind_elim_fixed ?_ ?_ | refine foldl_elim_fixed _ _ _ ?_ ?_ | refine (State.fresh_fixed ..).trans ?_ | refine (State.onDie_fixed ..).trans ?_ | refine (State.report_fixed ..).trans ?_ | refine (spendFlip_fixed ..).trans ?_ | refine snd_fixed (by assumption) ?_ | refine snd2_fixed (by assumption) ?_ | refine fst_elim_fixed (by assumption) ?_ | refine of_some_fixed (by assumption) ?_ | split | refine (foldl_fixed _ _ _ ?_).trans ?_ | refine (foldl_fixed_snd _ _ _ ?_).trans ?_ | refine (foldl_fixed_snd2 _ _ _ ?_).trans ?_ | simp only [↓State.fixed_mk, ↓State.fixed_def, State.fixed_def])

theorem ternarySearch_fixed (d : ℕ) (u : ℕ) (q : SReq) (s : State) :
    (ternarySearch d u q s).fixed = s.fixed := by
  unfold ternarySearch
  dsimp only
  repeat' with_reducible (first | rfl | refine ite_fixed ?_ ?_ | refine (State.dinc_fixed ..).trans ?_ | refine (answer_fixed ..).trans ?_ | refine (classParity_fixed ..).trans ?_ | refine (unitEvent_fixed ..).trans ?_ | split)

theorem setEpoch_fixed (d : ℕ) (e : ℕ) (on : Bool) (p : TernEntry → Bool) (s : State) :
    (setEpoch d e on p s).fixed = s.fixed := by
  unfold setEpoch
  repeat' with_reducible (first | rfl | refine ite_fixed ?_ ?_ | refine (State.onDie_fixed ..).trans ?_ | split)

theorem ruleInsert_fixed (d : ℕ) (t : ℕ) (rec : ℕ) (s : State) :
    (ruleInsert d t rec s).2.fixed = s.fixed := by
  unfold ruleInsert
  dsimp only
  repeat' with_reducible (first | rfl | refine ite_fixed ?_ ?_ | refine (State.onDie_fixed ..).trans ?_ | refine (setEpoch_fixed ..).trans ?_ | split)

theorem ruleDelete_fixed (d : ℕ) (t : ℕ) (rec : ℕ) (s : State) :
    (ruleDelete d t rec s).2.fixed = s.fixed := by
  unfold ruleDelete
  dsimp only
  repeat' with_reducible (first | rfl | refine ite_fixed ?_ ?_ | refine (setEpoch_fixed ..).trans ?_ | split)

theorem actionWrite_fixed (d : ℕ) (del : Bool) (rec : ℕ) (s : State) :
    (actionWrite d del rec s).2.fixed = s.fixed := by
  unfold actionWrite
  dsimp only
  repeat' with_reducible (first | rfl | refine ite_fixed ?_ ?_ | refine (State.onDie_fixed ..).trans ?_ | split)

theorem rewriteWrite_fixed (d : ℕ) (del : Bool) (rec : ℕ) (s : State) :
    (rewriteWrite d del rec s).2.fixed = s.fixed := by
  unfold rewriteWrite
  dsimp only
  repeat' with_reducible (first | rfl | refine ite_fixed ?_ ?_ | refine (State.onDie_fixed ..).trans ?_ | split)

theorem voqMapWrite_fixed (d : ℕ) (del : Bool) (rec : ℕ) (s : State) :
    (voqMapWrite d del rec s).2.fixed = s.fixed := by
  unfold voqMapWrite
  dsimp only
  repeat' with_reducible (first | rfl | refine ite_fixed ?_ ?_ | refine (State.onDie_fixed ..).trans ?_ | split)

theorem groupWrite_fixed (d : ℕ) (del : Bool) (rec : ℕ) (s : State) :
    (groupWrite d del rec s).2.fixed = s.fixed := by
  unfold groupWrite
  repeat' with_reducible (first | rfl | refine ite_fixed ?_ ?_ | refine (State.onDie_fixed ..).trans ?_ | split)

theorem meterWrite_fixed (d : ℕ) (del : Bool) (rec : ℕ) (s : State) :
    (meterWrite d del rec s).2.fixed = s.fixed := by
  unfold meterWrite
  dsimp only
  repeat' with_reducible (first | rfl | refine ite_fixed ?_ ?_ | refine (State.onDie_fixed ..).trans ?_ | split)

theorem gateDelete_fixed (d : ℕ) (rec : ℕ) (s : State) :
    (gateDelete d rec s).2.fixed = s.fixed := by
  unfold gateDelete
  dsimp only
  repeat' with_reducible (first | rfl | refine ite_fixed ?_ ?_ | refine (onGate_fixed ..).trans ?_ | split)

theorem tableWrite_fixed (d : ℕ) (t : ℕ) (all : Bool) (del : Bool) (static : Bool) (rec : ℕ) (s : State) :
    (tableWrite d t all del static rec s).2.fixed = s.fixed := by
  unfold tableWrite
  repeat' with_reducible (first | rfl | refine ite_fixed ?_ ?_ | refine (actionWrite_fixed ..).trans ?_ | refine (ecmpWrite_fixed ..).trans ?_ | refine (exactDelete_fixed ..).trans ?_ | refine (exactInsert_fixed ..).trans ?_ | refine (gateDelete_fixed ..).trans ?_ | refine (gateListInsert_fixed ..).trans ?_ | refine (groupWrite_fixed ..).trans ?_ | refine (meterWrite_fixed ..).trans ?_ | refine (nextHopWrite_fixed ..).trans ?_ | refine (rewriteWrite_fixed ..).trans ?_ | refine (ruleDelete_fixed ..).trans ?_ | refine (ruleInsert_fixed ..).trans ?_ | refine (voqMapWrite_fixed ..).trans ?_ | split)

theorem tableFind_fixed (d : ℕ) (t : ℕ) (rec : ℕ) (s : State) :
    (tableFind d t rec s).2.fixed = s.fixed := by
  unfold tableFind
  (try dsimp only)
  repeat' with_reducible (first | rfl | assumption | intro _ | refine ite_fixed ?_ ?_ | refine ite_snd_fixed ?_ ?_ | refine ite_snd2_fixed ?_ ?_ | refine getD_fixed ?_ ?_ | refine ite_elim_fixed ?_ ?_ | refine (some_elim_fixed ..).trans ?_ | refine (none_elim_fixed ..).trans ?_ | refine ite_fst_elim_fixed ?_ ?_ | refine map_elim_fixed ?_ ?_ | refine bind_elim_fixed ?_ ?_ | refine foldl_elim_fixed _ _ _ ?_ ?_ | refine (bankGrant_fixed ..).trans ?_ | refine (exactFind_fixed ..).trans ?_ | refine (fibFind_fixed ..).trans ?_ | refine (lineParity_fixed ..).trans ?_ | refine snd_fixed (by assumption) ?_ | refine snd2_fixed (by assumption) ?_ | refine fst_elim_fixed (by assumption) ?_ | refine of_some_fixed (by assumption) ?_ | split | refine (foldl_fixed _ _ _ ?_).trans ?_ | refine (foldl_fixed_snd _ _ _ ?_).trans ?_ | refine (foldl_fixed_snd2 _ _ _ ?_).trans ?_ | simp only [↓State.fixed_mk, ↓State.fixed_def, State.fixed_def])

theorem tableNext_fixed (d : ℕ) (t : ℕ) (cursor : ℕ) (s : State) :
    (tableNext d t cursor s).2.fixed = s.fixed := by
  unfold tableNext
  (try dsimp only)
  repeat' with_reducible (first | rfl | assumption | intro _ | refine ite_fixed ?_ ?_ | refine ite_snd_fixed ?_ ?_ | refine ite_snd2_fixed ?_ ?_ | refine getD_fixed ?_ ?_ | refine ite_elim_fixed ?_ ?_ | refine (some_elim_fixed ..).trans ?_ | refine (none_elim_fixed ..).trans ?_ | refine ite_fst_elim_fixed ?_ ?_ | refine map_elim_fixed ?_ ?_ | refine bind_elim_fixed ?_ ?_ | refine foldl_elim_fixed _ _ _ ?_ ?_ | refine (exactNext_fixed ..).trans ?_ | refine (fibNext_fixed ..).trans ?_ | refine snd_fixed (by assumption) ?_ | refine snd2_fixed (by assumption) ?_ | refine fst_elim_fixed (by assumption) ?_ | refine of_some_fixed (by assumption) ?_ | split | refine (foldl_fixed _ _ _ ?_).trans ?_ | refine (foldl_fixed_snd _ _ _ ?_).trans ?_ | refine (foldl_fixed_snd2 _ _ _ ?_).trans ?_ | simp only [↓State.fixed_mk, ↓State.fixed_def, State.fixed_def])

theorem tableCmd_fixed (d : ℕ) (all : Bool) (v : ℕ) (s : State) :
    (tableCmd d all v s).2.fixed = s.fixed := by
  unfold tableCmd
  repeat' with_reducible (first | rfl | refine ite_fixed ?_ ?_ | intro _ | refine (State.dinc_fixed ..).trans ?_ | refine (State.when_fixed _ _ _ ?_).trans ?_ | refine (fibCommand_fixed ..).trans ?_ | refine (flushStart_fixed ..).trans ?_ | refine (tableFind_fixed ..).trans ?_ | refine (tableNext_fixed ..).trans ?_ | refine (tableWrite_fixed ..).trans ?_ | split | refine (foldl_fixed _ _ _ ?_).trans ?_ | simp only [↓State.fixed_mk, ↓State.fixed_def, State.fixed_def])

theorem epochInherit_fixed (d : ℕ) (s : State) :
    (epochInherit d s).2.fixed = s.fixed := by
  unfold epochInherit
  repeat' with_reducible (first | rfl | refine ite_fixed ?_ ?_ | refine (setEpoch_fixed ..).trans ?_ | split)

theorem epochDiscard_fixed (d : ℕ) (s : State) :
    (epochDiscard d s).2.fixed = s.fixed := by
  unfold epochDiscard
  repeat' with_reducible (first | rfl | refine ite_fixed ?_ ?_ | refine (setEpoch_fixed ..).trans ?_ | split)

theorem epochSwap_fixed (s : State) :
    (epochSwap s).2.fixed = s.fixed := by
  unfold epochSwap
  repeat' with_reducible (first | rfl | refine ite_fixed ?_ ?_ | intro _ | refine (State.each_fixed _ _ _ ?_).trans ?_ | refine (State.pinc_fixed ..).trans ?_ | refine (State.pset_fixed ..).trans ?_ | refine (State.send_fixed ..).trans ?_ | split | refine (foldl_fixed _ _ _ ?_).trans ?_ | simp only [↓State.fixed_mk, ↓State.fixed_def, State.fixed_def])

theorem switchApply_fixed (d : ℕ) (s : State) :
    (switchApply d s).fixed = s.fixed := by
  unfold switchApply
  repeat' with_reducible (first | rfl | refine ite_fixed ?_ ?_ | intro _ | refine (State.onDie_fixed ..).trans ?_ | refine (State.receive_fixed _ _ _ _ ?_).trans ?_ | refine (State.send_fixed ..).trans ?_ | split | refine (foldl_fixed _ _ _ ?_).trans ?_ | simp only [↓State.fixed_mk, ↓State.fixed_def, State.fixed_def])

theorem endHolderNow_fixed (i : ℕ) (s : State) :
    (endHolderNow i s).fixed = s.fixed := by
  unfold endHolderNow
  repeat' with_reducible (first | rfl | refine ite_fixed ?_ ?_ | refine (dropPkt_fixed ..).trans ?_ | refine (onThread_fixed ..).trans ?_ | refine (wasted_fixed ..).trans ?_ | split)

theorem expire_fixed (s : State) :
    (expire s).fixed = s.fixed := by
  unfold expire
  repeat' with_reducible (first | rfl | refine ite_fixed ?_ ?_ | intro _ | refine (State.each_fixed _ _ _ ?_).trans ?_ | refine (State.pset_fixed ..).trans ?_ | refine (endHolderNow_fixed ..).trans ?_ | split | refine (foldl_fixed _ _ _ ?_).trans ?_ | simp only [↓State.fixed_mk, ↓State.fixed_def, State.fixed_def])

theorem switchAck_fixed (s : State) :
    (switchAck s).fixed = s.fixed := by
  unfold switchAck
  repeat' with_reducible (first | rfl | refine ite_fixed ?_ ?_ | intro _ | refine (State.dropMsgs_fixed ..).trans ?_ | refine (expire_fixed ..).trans ?_ | split | refine (foldl_fixed _ _ _ ?_).trans ?_ | simp only [↓State.fixed_mk, ↓State.fixed_def, State.fixed_def])

theorem forceRetire_fixed (s : State) :
    (forceRetire s).2.fixed = s.fixed := by
  unfold forceRetire
  repeat' with_reducible (first | rfl | refine ite_fixed ?_ ?_ | intro _ | refine (expire_fixed ..).trans ?_ | split | refine (foldl_fixed _ _ _ ?_).trans ?_ | simp only [↓State.fixed_mk, ↓State.fixed_def, State.fixed_def])

theorem retireTimeout_fixed (s : State) :
    (retireTimeout s).fixed = s.fixed := by
  unfold retireTimeout
  repeat' with_reducible (first | rfl | refine ite_fixed ?_ ?_ | refine (State.pset_fixed ..).trans ?_ | refine (expire_fixed ..).trans ?_ | split)

theorem holdersZero_fixed (s : State) :
    (holdersZero s).fixed = s.fixed := by
  unfold holdersZero
  repeat' with_reducible (first | rfl | refine ite_fixed ?_ ?_ | refine (State.pset_fixed ..).trans ?_ | split)

theorem clearDone_fixed (s : State) :
    (clearDone s).fixed = s.fixed := by
  unfold clearDone
  repeat' with_reducible (first | rfl | refine ite_fixed ?_ ?_ | intro _ | refine (State.each_fixed _ _ _ ?_).trans ?_ | refine (State.onDies_fixed ..).trans ?_ | refine (State.pset_fixed ..).trans ?_ | refine (setEpoch_fixed ..).trans ?_ | split | refine (foldl_fixed _ _ _ ?_).trans ?_ | simp only [↓State.fixed_mk, ↓State.fixed_def, State.fixed_def])

theorem execTernarySearch_fixed (d : DieId) (u : Fin 4) (s : State) {s' : State}
    (h : execTernarySearch d u s = .next s') : s'.fixed = s.fixed := by
  unfold execTernarySearch at h
  refine onLive_fixed (fun s => ?_) h
  repeat' with_reducible (first | rfl | refine ite_fixed ?_ ?_ | intro _ | refine (serveHead_fixed _ _ _ _ _ ?_).trans ?_ | refine (ternarySearch_fixed ..).trans ?_ | split | refine (foldl_fixed _ _ _ ?_).trans ?_ | simp only [↓State.fixed_mk, ↓State.fixed_def, State.fixed_def])

theorem execEpochSwitchApply_fixed (d : DieId) (s : State) {s' : State}
    (h : execEpochSwitchApply d s = .next s') : s'.fixed = s.fixed := by
  unfold execEpochSwitchApply at h
  refine onLive_fixed (fun s => ?_) h
  repeat' with_reducible (first | rfl | refine ite_fixed ?_ ?_ | refine (switchApply_fixed ..).trans ?_ | split)

theorem execEpochSwitchAck_fixed (s : State) {s' : State}
    (h : execEpochSwitchAck s = .next s') : s'.fixed = s.fixed := by
  unfold execEpochSwitchAck at h
  cases h
  repeat' with_reducible (first | rfl | refine ite_fixed ?_ ?_ | refine (switchAck_fixed ..).trans ?_ | split)

theorem execRetireTimeout_fixed (s : State) {s' : State}
    (h : execRetireTimeout s = .next s') : s'.fixed = s.fixed := by
  unfold execRetireTimeout at h
  cases h
  repeat' with_reducible (first | rfl | refine ite_fixed ?_ ?_ | refine (retireTimeout_fixed ..).trans ?_ | split)

theorem execHoldersZero_fixed (s : State) {s' : State}
    (h : execHoldersZero s = .next s') : s'.fixed = s.fixed := by
  unfold execHoldersZero at h
  cases h
  repeat' with_reducible (first | rfl | refine ite_fixed ?_ ?_ | refine (holdersZero_fixed ..).trans ?_ | split)

theorem execEpochClearDone_fixed (s : State) {s' : State}
    (h : execEpochClearDone s = .next s') : s'.fixed = s.fixed := by
  unfold execEpochClearDone at h
  cases h
  repeat' with_reducible (first | rfl | refine ite_fixed ?_ ?_ | refine (clearDone_fixed ..).trans ?_ | split)

end Sys2Proof.Machine
end

