-- ==== Sys2Proof/Laws/Fixed/Settings.lean ====
section
/-! SUPPORT. What the operations of Machine/Settings.lean leave as it is: the part, the queue, the clock, the anti-rollback
counter and the revocation bits. -/

set_option linter.all false
set_option maxRecDepth 4000

namespace Sys2Proof.Machine

theorem noteSave_fixed (d : Option ℕ) (idx : ℕ) (sub : ℕ) (s : State) :
    (noteSave d idx sub s).fixed = s.fixed := by
  unfold noteSave
  repeat' with_reducible (first | rfl | refine ite_fixed ?_ ?_ | intro _ | split | refine (foldl_fixed _ _ _ ?_).trans ?_ | simp only [↓State.fixed_mk, ↓State.fixed_def, State.fixed_def])

theorem flashAccess_fixed (s : State) :
    (flashAccess s).fixed = s.fixed := by
  unfold flashAccess
  repeat' with_reducible (first | rfl | refine ite_fixed ?_ ?_ | refine (State.send_fixed ..).trans ?_ | split)

theorem settingsSave_fixed (s : State) :
    (settingsSave s).fixed = s.fixed := by
  unfold settingsSave
  repeat' with_reducible (first | rfl | refine ite_fixed ?_ ?_ | intro _ | refine (flashAccess_fixed ..).trans ?_ | split | refine (foldl_fixed _ _ _ ?_).trans ?_ | simp only [↓State.fixed_mk, ↓State.fixed_def, State.fixed_def])

end Sys2Proof.Machine
end

