-- ==== Sys2Proof/Laws/Fixed/Modes.lean ====
section
/-! SUPPORT. What the operations of Machine/Modes.lean leave as it is: the part, the queue, the clock, the anti-rollback
counter and the revocation bits. -/

set_option linter.all false
set_option maxRecDepth 4000

namespace Sys2Proof.Machine

theorem portsDown_fixed (d : ℕ) (s : State) :
    (portsDown d s).fixed = s.fixed := by
  unfold portsDown
  repeat' with_reducible (first | rfl | refine ite_fixed ?_ ?_ | intro _ | refine (State.dset_fixed ..).trans ?_ | refine (State.each_fixed _ _ _ ?_).trans ?_ | refine (onMac_fixed ..).trans ?_ | refine (portLeave_fixed ..).trans ?_ | refine (portStop_fixed ..).trans ?_ | split | refine (foldl_fixed _ _ _ ?_).trans ?_ | simp only [↓State.fixed_mk, ↓State.fixed_def, State.fixed_def])

theorem linksDown_fixed (d : ℕ) (s : State) :
    (linksDown d s).fixed = s.fixed := by
  unfold linksDown
  repeat' with_reducible (first | rfl | refine ite_fixed ?_ ?_ | intro _ | refine (State.dset_fixed ..).trans ?_ | refine (State.each_fixed _ _ _ ?_).trans ?_ | refine (linkVoid_fixed ..).trans ?_ | split | refine (foldl_fixed _ _ _ ?_).trans ?_ | simp only [↓State.fixed_mk, ↓State.fixed_def, State.fixed_def])

theorem heldDown_fixed (d : ℕ) (s : State) :
    (heldDown d s).fixed = s.fixed := by
  unfold heldDown
  repeat' with_reducible (first | rfl | refine ite_fixed ?_ ?_ | intro _ | refine (State.dset_fixed ..).trans ?_ | refine (State.each_fixed _ _ _ ?_).trans ?_ | split | refine (foldl_fixed _ _ _ ?_).trans ?_ | simp only [↓State.fixed_mk, ↓State.fixed_def, State.fixed_def])

theorem stopNext_fixed (d : ℕ) (s : State) :
    (stopNext d s).fixed = s.fixed := by
  unfold stopNext
  (try dsimp only)
  repeat' with_reducible (first | rfl | assumption | intro _ | refine ite_fixed ?_ ?_ | refine ite_snd_fixed ?_ ?_ | refine ite_snd2_fixed ?_ ?_ | refine getD_fixed ?_ ?_ | refine ite_elim_fixed ?_ ?_ | refine (some_elim_fixed ..).trans ?_ | refine (none_elim_fixed ..).trans ?_ | refine ite_fst_elim_fixed ?_ ?_ | refine map_elim_fixed ?_ ?_ | refine bind_elim_fixed ?_ ?_ | refine foldl_elim_fixed _ _ _ ?_ ?_ | refine (State.pset_fixed ..).trans ?_ | refine snd_fixed (by assumption) ?_ | refine snd2_fixed (by assumption) ?_ | refine fst_elim_fixed (by assumption) ?_ | refine of_some_fixed (by assumption) ?_ | split | refine (foldl_fixed _ _ _ ?_).trans ?_ | refine (foldl_fixed_snd _ _ _ ?_).trans ?_ | refine (foldl_fixed_snd2 _ _ _ ?_).trans ?_ | simp only [↓State.fixed_mk, ↓State.fixed_def, State.fixed_def])

theorem stopUp_fixed (d : ℕ) (s : State) :
    (stopUp d s).fixed = s.fixed := by
  unfold stopUp
  (try dsimp only)
  repeat' with_reducible (first | rfl | assumption | intro _ | refine ite_fixed ?_ ?_ | refine ite_snd_fixed ?_ ?_ | refine ite_snd2_fixed ?_ ?_ | refine getD_fixed ?_ ?_ | refine ite_elim_fixed ?_ ?_ | refine (some_elim_fixed ..).trans ?_ | refine (none_elim_fixed ..).trans ?_ | refine ite_fst_elim_fixed ?_ ?_ | refine map_elim_fixed ?_ ?_ | refine bind_elim_fixed ?_ ?_ | refine foldl_elim_fixed _ _ _ ?_ ?_ | refine (stopNext_fixed ..).trans ?_ | refine snd_fixed (by assumption) ?_ | refine snd2_fixed (by assumption) ?_ | refine fst_elim_fixed (by assumption) ?_ | refine of_some_fixed (by assumption) ?_ | split | refine (foldl_fixed _ _ _ ?_).trans ?_ | refine (foldl_fixed_snd _ _ _ ?_).trans ?_ | refine (foldl_fixed_snd2 _ _ _ ?_).trans ?_ | simp only [↓State.fixed_mk, ↓State.fixed_def, State.fixed_def])

theorem powerNext_fixed (d : ℕ) (s : State) :
    (powerNext d s).fixed = s.fixed := by
  unfold powerNext
  repeat' with_reducible (first | rfl | refine ite_fixed ?_ ?_ | refine (State.pinc_fixed ..).trans ?_ | refine (State.pset_fixed ..).trans ?_ | split)

theorem powerUp_fixed (d : ℕ) (s : State) :
    (powerUp d s).fixed = s.fixed := by
  unfold powerUp
  repeat' with_reducible (first | rfl | refine ite_fixed ?_ ?_ | refine (powerNext_fixed ..).trans ?_ | split)

theorem domReview_fixed (d : ℕ) (s : State) :
    (domReview d s).fixed = s.fixed := by
  unfold domReview
  repeat' with_reducible (first | rfl | refine ite_fixed ?_ ?_ | intro _ | refine (State.each_fixed _ _ _ ?_).trans ?_ | refine (State.pset_fixed ..).trans ?_ | refine (powerUp_fixed ..).trans ?_ | refine (stopUp_fixed ..).trans ?_ | split | refine (foldl_fixed _ _ _ ?_).trans ?_ | simp only [↓State.fixed_mk, ↓State.fixed_def, State.fixed_def])

theorem loadStore_fixed (d : ℕ) (c : ℕ) (s : State) :
    (loadStore d c s).fixed = s.fixed := by
  unfold loadStore
  repeat' with_reducible (first | rfl | refine ite_fixed ?_ ?_ | refine (State.pset_fixed ..).trans ?_ | refine (writeStore_fixed ..).trans ?_ | split)

theorem functionStart_fixed (d : ℕ) (n : ℕ) (s : State) :
    (functionStart d n s).fixed = s.fixed := by
  unfold functionStart
  repeat' with_reducible (first | rfl | refine ite_fixed ?_ ?_ | intro _ | refine (State.dset_fixed ..).trans ?_ | refine (State.each_fixed _ _ _ ?_).trans ?_ | refine (State.onDie_fixed ..).trans ?_ | refine (State.pset_fixed ..).trans ?_ | refine (linkStart_fixed ..).trans ?_ | refine (loadStore_fixed ..).trans ?_ | refine (shapersUp_fixed ..).trans ?_ | refine (topology_fixed ..).trans ?_ | refine (trainStart_fixed ..).trans ?_ | split | refine (foldl_fixed _ _ _ ?_).trans ?_ | simp only [↓State.fixed_mk, ↓State.fixed_def, State.fixed_def])

theorem parkAsk_fixed (d : ℕ) (c : ℕ) (s : State) :
    (parkAsk d c s).fixed = s.fixed := by
  unfold parkAsk
  repeat' with_reducible (first | rfl | refine ite_fixed ?_ ?_ | refine (moveUnstarted_fixed ..).trans ?_ | refine (onCluster_fixed ..).trans ?_ | split)

theorem parkForced_fixed (d : ℕ) (s : State) :
    (parkForced d s).fixed = s.fixed := by
  unfold parkForced
  repeat' with_reducible (first | rfl | refine ite_fixed ?_ ?_ | intro _ | refine (State.dset_fixed ..).trans ?_ | refine (State.each_fixed _ _ _ ?_).trans ?_ | split | refine (foldl_fixed _ _ _ ?_).trans ?_ | simp only [↓State.fixed_mk, ↓State.fixed_def, State.fixed_def])

theorem tapDomain_fixed (d : ℕ) (on : Bool) (s : State) :
    (tapDomain d on s).fixed = s.fixed := by
  unfold tapDomain
  (try dsimp only)
  repeat' with_reducible (first | rfl | assumption | intro _ | refine ite_fixed ?_ ?_ | refine ite_snd_fixed ?_ ?_ | refine ite_snd2_fixed ?_ ?_ | refine getD_fixed ?_ ?_ | refine ite_elim_fixed ?_ ?_ | refine (some_elim_fixed ..).trans ?_ | refine (none_elim_fixed ..).trans ?_ | refine ite_fst_elim_fixed ?_ ?_ | refine map_elim_fixed ?_ ?_ | refine bind_elim_fixed ?_ ?_ | refine foldl_elim_fixed _ _ _ ?_ ?_ | refine (State.onDie_fixed ..).trans ?_ | refine snd_fixed (by assumption) ?_ | refine snd2_fixed (by assumption) ?_ | refine fst_elim_fixed (by assumption) ?_ | refine of_some_fixed (by assumption) ?_ | split | refine (foldl_fixed _ _ _ ?_).trans ?_ | refine (foldl_fixed_snd _ _ _ ?_).trans ?_ | refine (foldl_fixed_snd2 _ _ _ ?_).trans ?_ | simp only [↓State.fixed_mk, ↓State.fixed_def, State.fixed_def])

theorem domainOn_fixed (d : ℕ) (n : ℕ) (s : State) :
    (domainOn d n s).fixed = s.fixed := by
  unfold domainOn
  repeat' with_reducible (first | rfl | refine ite_fixed ?_ ?_ | refine (State.onDie_fixed ..).trans ?_ | refine (State.pset_fixed ..).trans ?_ | refine (functionStart_fixed ..).trans ?_ | refine (parkAsk_fixed ..).trans ?_ | refine (powerUp_fixed ..).trans ?_ | refine (tapDomain_fixed ..).trans ?_ | split)

theorem epochTake_fixed (d : ℕ) (s : State) :
    (epochTake d s).fixed = s.fixed := by
  unfold epochTake
  repeat' with_reducible (first | rfl | refine ite_fixed ?_ ?_ | refine (State.onDie_fixed ..).trans ?_ | split)

theorem noAck_fixed (d : ℕ) (s : State) :
    (noAck d s).fixed = s.fixed := by
  unfold noAck
  (try dsimp only)
  repeat' with_reducible (first | rfl | assumption | intro _ | refine ite_fixed ?_ ?_ | refine ite_snd_fixed ?_ ?_ | refine ite_snd2_fixed ?_ ?_ | refine getD_fixed ?_ ?_ | refine ite_elim_fixed ?_ ?_ | refine (some_elim_fixed ..).trans ?_ | refine (none_elim_fixed ..).trans ?_ | refine ite_fst_elim_fixed ?_ ?_ | refine map_elim_fixed ?_ ?_ | refine bind_elim_fixed ?_ ?_ | refine foldl_elim_fixed _ _ _ ?_ ?_ | refine snd_fixed (by assumption) ?_ | refine snd2_fixed (by assumption) ?_ | refine fst_elim_fixed (by assumption) ?_ | refine of_some_fixed (by assumption) ?_ | split | refine (foldl_fixed _ _ _ ?_).trans ?_ | refine (foldl_fixed_snd _ _ _ ?_).trans ?_ | refine (foldl_fixed_snd2 _ _ _ ?_).trans ?_ | simp only [↓State.fixed_mk, ↓State.fixed_def, State.fixed_def])

theorem dropDie_fixed (d : ℕ) (s : State) :
    (dropDie d s).fixed = s.fixed := by
  unfold dropDie
  (try dsimp only)
  repeat' with_reducible (first | rfl | assumption | intro _ | refine ite_fixed ?_ ?_ | refine ite_snd_fixed ?_ ?_ | refine ite_snd2_fixed ?_ ?_ | refine getD_fixed ?_ ?_ | refine ite_elim_fixed ?_ ?_ | refine (some_elim_fixed ..).trans ?_ | refine (none_elim_fixed ..).trans ?_ | refine ite_fst_elim_fixed ?_ ?_ | refine map_elim_fixed ?_ ?_ | refine bind_elim_fixed ?_ ?_ | refine foldl_elim_fixed _ _ _ ?_ ?_ | refine (State.dropMsgs_fixed ..).trans ?_ | refine snd_fixed (by assumption) ?_ | refine snd2_fixed (by assumption) ?_ | refine fst_elim_fixed (by assumption) ?_ | refine of_some_fixed (by assumption) ?_ | split | refine (foldl_fixed _ _ _ ?_).trans ?_ | refine (foldl_fixed_snd _ _ _ ?_).trans ?_ | refine (foldl_fixed_snd2 _ _ _ ?_).trans ?_ | simp only [↓State.fixed_mk, ↓State.fixed_def, State.fixed_def])

theorem leaveOffice_fixed (d : ℕ) (s : State) :
    (leaveOffice d s).fixed = s.fixed := by
  unfold leaveOffice
  (try dsimp only)
  repeat' with_reducible (first | rfl | assumption | intro _ | refine ite_fixed ?_ ?_ | refine ite_snd_fixed ?_ ?_ | refine ite_snd2_fixed ?_ ?_ | refine getD_fixed ?_ ?_ | refine ite_elim_fixed ?_ ?_ | refine (some_elim_fixed ..).trans ?_ | refine (none_elim_fixed ..).trans ?_ | refine ite_fst_elim_fixed ?_ ?_ | refine map_elim_fixed ?_ ?_ | refine bind_elim_fixed ?_ ?_ | refine foldl_elim_fixed _ _ _ ?_ ?_ | refine snd_fixed (by assumption) ?_ | refine snd2_fixed (by assumption) ?_ | refine fst_elim_fixed (by assumption) ?_ | refine of_some_fixed (by assumption) ?_ | split | refine (foldl_fixed _ _ _ ?_).trans ?_ | refine (foldl_fixed_snd _ _ _ ?_).trans ?_ | refine (foldl_fixed_snd2 _ _ _ ?_).trans ?_ | simp only [↓State.fixed_mk, ↓State.fixed_def, State.fixed_def])

theorem dieOff_fixed (d : ℕ) (s : State) :
    (dieOff d s).fixed = s.fixed := by
  unfold dieOff
  repeat' with_reducible (first | rfl | refine ite_fixed ?_ ?_ | intro _ | refine (State.onDie_fixed ..).trans ?_ | refine (dropDie_fixed ..).trans ?_ | refine (epochTake_fixed ..).trans ?_ | refine (noAck_fixed ..).trans ?_ | split | refine (foldl_fixed _ _ _ ?_).trans ?_ | simp only [↓State.fixed_mk, ↓State.fixed_def, State.fixed_def])

theorem standbyDone_fixed (s : State) :
    (standbyDone s).fixed = s.fixed := by
  unfold standbyDone
  repeat' with_reducible (first | rfl | refine ite_fixed ?_ ?_ | intro _ | refine (State.each_fixed _ _ _ ?_).trans ?_ | refine (State.pset_fixed ..).trans ?_ | refine (dieOff_fixed ..).trans ?_ | refine (setMode_fixed ..).trans ?_ | split | refine (foldl_fixed _ _ _ ?_).trans ?_ | simp only [↓State.fixed_mk, ↓State.fixed_def, State.fixed_def])

theorem domainStopped_fixed (d : ℕ) (n : ℕ) (s : State) :
    (domainStopped d n s).fixed = s.fixed := by
  unfold domainStopped
  repeat' with_reducible (first | rfl | refine ite_fixed ?_ ?_ | refine (State.onDie_fixed ..).trans ?_ | refine (State.pinc_fixed ..).trans ?_ | refine (State.pset_fixed ..).trans ?_ | refine (powerUp_fixed ..).trans ?_ | refine (standbyDone_fixed ..).trans ?_ | refine (stopUp_fixed ..).trans ?_ | refine (tapDomain_fixed ..).trans ?_ | split)

theorem wakeCluster_fixed (d : ℕ) (c : ℕ) (s : State) :
    (wakeCluster d c s).fixed = s.fixed := by
  unfold wakeCluster
  repeat' with_reducible (first | rfl | refine ite_fixed ?_ ?_ | refine (State.pinc_fixed ..).trans ?_ | refine (State.pset_fixed ..).trans ?_ | refine (onCluster_fixed ..).trans ?_ | split)

theorem wakeAll_fixed (s : State) :
    (wakeAll s).fixed = s.fixed := by
  unfold wakeAll
  repeat' with_reducible (first | rfl | refine ite_fixed ?_ ?_ | intro _ | refine (State.each_fixed _ _ _ ?_).trans ?_ | refine (wakeCluster_fixed ..).trans ?_ | split | refine (foldl_fixed _ _ _ ?_).trans ?_ | simp only [↓State.fixed_mk, ↓State.fixed_def, State.fixed_def])

theorem beginTransition_fixed (m : Mode) (s : State) :
    (beginTransition m s).fixed = s.fixed := by
  unfold beginTransition
  repeat' with_reducible (first | rfl | refine ite_fixed ?_ ?_ | refine (State.pset_fixed ..).trans ?_ | split)

theorem leanPark_fixed (s : State) :
    (leanPark s).fixed = s.fixed := by
  unfold leanPark
  repeat' with_reducible (first | rfl | refine ite_fixed ?_ ?_ | intro _ | refine (State.each_fixed _ _ _ ?_).trans ?_ | refine (parkAsk_fixed ..).trans ?_ | split | refine (foldl_fixed _ _ _ ?_).trans ?_ | simp only [↓State.fixed_mk, ↓State.fixed_def, State.fixed_def])

theorem leanEnter_fixed (s : State) :
    (leanEnter s).fixed = s.fixed := by
  unfold leanEnter
  repeat' with_reducible (first | rfl | refine ite_fixed ?_ ?_ | refine (beginTransition_fixed ..).trans ?_ | refine (leanPark_fixed ..).trans ?_ | refine (setMode_fixed ..).trans ?_ | split)

theorem leanExit_fixed (s : State) :
    (leanExit s).fixed = s.fixed := by
  unfold leanExit
  repeat' with_reducible (first | rfl | refine ite_fixed ?_ ?_ | refine (beginTransition_fixed ..).trans ?_ | refine (setMode_fixed ..).trans ?_ | refine (wakeAll_fixed ..).trans ?_ | split)

theorem leanOff_fixed (s : State) :
    (leanOff s).fixed = s.fixed := by
  unfold leanOff
  (try dsimp only)
  repeat' with_reducible (first | rfl | assumption | intro _ | refine ite_fixed ?_ ?_ | refine ite_snd_fixed ?_ ?_ | refine ite_snd2_fixed ?_ ?_ | refine getD_fixed ?_ ?_ | refine ite_elim_fixed ?_ ?_ | refine (some_elim_fixed ..).trans ?_ | refine (none_elim_fixed ..).trans ?_ | refine ite_fst_elim_fixed ?_ ?_ | refine map_elim_fixed ?_ ?_ | refine bind_elim_fixed ?_ ?_ | refine foldl_elim_fixed _ _ _ ?_ ?_ | refine (leanExit_fixed ..).trans ?_ | refine (setMode_fixed ..).trans ?_ | refine (wakeAll_fixed ..).trans ?_ | refine snd_fixed (by assumption) ?_ | refine snd2_fixed (by assumption) ?_ | refine fst_elim_fixed (by assumption) ?_ | refine of_some_fixed (by assumption) ?_ | split | refine (foldl_fixed _ _ _ ?_).trans ?_ | refine (foldl_fixed_snd _ _ _ ?_).trans ?_ | refine (foldl_fixed_snd2 _ _ _ ?_).trans ?_ | simp only [↓State.fixed_mk, ↓State.fixed_def, State.fixed_def])

theorem leanEnable_fixed (v : ℕ) (s : State) :
    (leanEnable v s).fixed = s.fixed := by
  unfold leanEnable
  (try dsimp only)
  repeat' with_reducible (first | rfl | assumption | intro _ | refine ite_fixed ?_ ?_ | refine ite_snd_fixed ?_ ?_ | refine ite_snd2_fixed ?_ ?_ | refine getD_fixed ?_ ?_ | refine ite_elim_fixed ?_ ?_ | refine (some_elim_fixed ..).trans ?_ | refine (none_elim_fixed ..).trans ?_ | refine ite_fst_elim_fixed ?_ ?_ | refine map_elim_fixed ?_ ?_ | refine bind_elim_fixed ?_ ?_ | refine foldl_elim_fixed _ _ _ ?_ ?_ | refine (State.pset_fixed ..).trans ?_ | refine (leanOff_fixed ..).trans ?_ | refine snd_fixed (by assumption) ?_ | refine snd2_fixed (by assumption) ?_ | refine fst_elim_fixed (by assumption) ?_ | refine of_some_fixed (by assumption) ?_ | split | refine (foldl_fixed _ _ _ ?_).trans ?_ | refine (foldl_fixed_snd _ _ _ ?_).trans ?_ | refine (foldl_fixed_snd2 _ _ _ ?_).trans ?_ | simp only [↓State.fixed_mk, ↓State.fixed_def, State.fixed_def])

theorem leanWindow_fixed (s : State) :
    (leanWindow s).fixed = s.fixed := by
  unfold leanWindow
  repeat' with_reducible (first | rfl | refine ite_fixed ?_ ?_ | intro _ | refine (State.onDies_fixed ..).trans ?_ | refine (leanEnter_fixed ..).trans ?_ | refine (leanExit_fixed ..).trans ?_ | split | refine (foldl_fixed _ _ _ ?_).trans ?_ | simp only [↓State.fixed_mk, ↓State.fixed_def, State.fixed_def])

theorem parkDone_fixed (d : ℕ) (c : ℕ) (s : State) :
    (parkDone d c s).fixed = s.fixed := by
  unfold parkDone
  repeat' with_reducible (first | rfl | refine ite_fixed ?_ ?_ | refine (State.dset_fixed ..).trans ?_ | refine (State.pinc_fixed ..).trans ?_ | refine (State.pset_fixed ..).trans ?_ | refine (onCluster_fixed ..).trans ?_ | refine (setMode_fixed ..).trans ?_ | refine (wakeCluster_fixed ..).trans ?_ | split)

theorem wakeDone_fixed (d : ℕ) (c : ℕ) (s : State) :
    (wakeDone d c s).fixed = s.fixed := by
  unfold wakeDone
  repeat' with_reducible (first | rfl | refine ite_fixed ?_ ?_ | refine (State.dset_fixed ..).trans ?_ | refine (State.pset_fixed ..).trans ?_ | refine (onCluster_fixed ..).trans ?_ | refine (parkAsk_fixed ..).trans ?_ | refine (setMode_fixed ..).trans ?_ | split)

theorem domainRequest_fixed (d : ℕ) (n : ℕ) (v : ℕ) (s : State) :
    (domainRequest d n v s).2.fixed = s.fixed := by
  unfold domainRequest
  repeat' with_reducible (first | rfl | refine ite_fixed ?_ ?_ | intro _ | refine (State.pset_fixed ..).trans ?_ | refine (State.when_fixed _ _ _ ?_).trans ?_ | refine (domReview_fixed ..).trans ?_ | refine (parkAsk_fixed ..).trans ?_ | refine (stopSlices_fixed ..).trans ?_ | refine (wakeCluster_fixed ..).trans ?_ | split | refine (foldl_fixed _ _ _ ?_).trans ?_ | simp only [↓State.fixed_mk, ↓State.fixed_def, State.fixed_def])

theorem loopsOff_fixed (s : State) :
    (loopsOff s).fixed = s.fixed := by
  unfold loopsOff
  repeat' with_reducible (first | rfl | refine ite_fixed ?_ ?_ | refine (State.onDies_fixed ..).trans ?_ | split)

theorem faultMode_fixed (m : Mode) (s : State) :
    (faultMode m s).fixed = s.fixed := by
  unfold faultMode
  repeat' with_reducible (first | rfl | refine ite_fixed ?_ ?_ | refine (State.pset_fixed ..).trans ?_ | refine (loopsOff_fixed ..).trans ?_ | refine (setMode_fixed ..).trans ?_ | split)

theorem enterFaultHold_fixed (s : State) :
    (enterFaultHold s).fixed = s.fixed := by
  unfold enterFaultHold
  repeat' with_reducible (first | rfl | refine ite_fixed ?_ ?_ | intro _ | refine (State.each_fixed _ _ _ ?_).trans ?_ | refine (faultMode_fixed ..).trans ?_ | refine (heldDown_fixed ..).trans ?_ | split | refine (foldl_fixed _ _ _ ?_).trans ?_ | simp only [↓State.fixed_mk, ↓State.fixed_def, State.fixed_def])

theorem enterLocked_fixed (kind : ℕ) (s : State) :
    (enterLocked kind s).fixed = s.fixed := by
  unfold enterLocked
  repeat' with_reducible (first | rfl | refine ite_fixed ?_ ?_ | intro _ | refine (State.each_fixed _ _ _ ?_).trans ?_ | refine (State.pinc_fixed ..).trans ?_ | refine (State.pset_fixed ..).trans ?_ | refine (dieOff_fixed ..).trans ?_ | refine (faultMode_fixed ..).trans ?_ | refine (heldDown_fixed ..).trans ?_ | split | refine (foldl_fixed _ _ _ ?_).trans ?_ | simp only [↓State.fixed_mk, ↓State.fixed_def, State.fixed_def])

theorem degradeMode_fixed (s : State) :
    (degradeMode s).fixed = s.fixed := by
  unfold degradeMode
  repeat' with_reducible (first | rfl | refine ite_fixed ?_ ?_ | intro _ | refine (State.each_fixed _ _ _ ?_).trans ?_ | refine (domReview_fixed ..).trans ?_ | refine (setMode_fixed ..).trans ?_ | refine (wakeAll_fixed ..).trans ?_ | split | refine (foldl_fixed _ _ _ ?_).trans ?_ | simp only [↓State.fixed_mk, ↓State.fixed_def, State.fixed_def])

theorem repause_fixed (s : State) :
    (repause s).fixed = s.fixed := by
  unfold repause
  repeat' with_reducible (first | rfl | refine ite_fixed ?_ ?_ | intro _ | refine (State.each_fixed _ _ _ ?_).trans ?_ | refine (pauseCheckPort_fixed ..).trans ?_ | split | refine (foldl_fixed _ _ _ ?_).trans ?_ | simp only [↓State.fixed_mk, ↓State.fixed_def, State.fixed_def])

theorem drainStart_fixed (s : State) :
    (drainStart s).fixed = s.fixed := by
  unfold drainStart
  repeat' with_reducible (first | rfl | refine ite_fixed ?_ ?_ | refine (State.pset_fixed ..).trans ?_ | refine (repause_fixed ..).trans ?_ | split)

theorem quiesceDone_fixed (s : State) :
    (quiesceDone s).fixed = s.fixed := by
  unfold quiesceDone
  repeat' with_reducible (first | rfl | refine ite_fixed ?_ ?_ | refine (setMode_fixed ..).trans ?_ | refine (wakeAll_fixed ..).trans ?_ | split)

theorem drainEmpty_fixed (s : State) :
    (drainEmpty s).fixed = s.fixed := by
  unfold drainEmpty
  repeat' with_reducible (first | rfl | refine ite_fixed ?_ ?_ | refine (State.pset_fixed ..).trans ?_ | refine (quiesceDone_fixed ..).trans ?_ | split)

theorem quiesceStart_fixed (s : State) :
    (quiesceStart s).fixed = s.fixed := by
  unfold quiesceStart
  repeat' with_reducible (first | rfl | refine ite_fixed ?_ ?_ | intro _ | refine (beginTransition_fixed ..).trans ?_ | refine (drainStart_fixed ..).trans ?_ | refine (quiesceDone_fixed ..).trans ?_ | refine (wakeAll_fixed ..).trans ?_ | split | refine (foldl_fixed _ _ _ ?_).trans ?_ | simp only [↓State.fixed_mk, ↓State.fixed_def, State.fixed_def])

theorem forwardAgain_fixed (s : State) :
    (forwardAgain s).fixed = s.fixed := by
  unfold forwardAgain
  repeat' with_reducible (first | rfl | refine ite_fixed ?_ ?_ | intro _ | refine (State.each_fixed _ _ _ ?_).trans ?_ | refine (domReview_fixed ..).trans ?_ | refine (setMode_fixed ..).trans ?_ | split | refine (foldl_fixed _ _ _ ?_).trans ?_ | simp only [↓State.fixed_mk, ↓State.fixed_def, State.fixed_def])

theorem quiesceTimeout_fixed (s : State) :
    (quiesceTimeout s).fixed = s.fixed := by
  unfold quiesceTimeout
  repeat' with_reducible (first | rfl | refine ite_fixed ?_ ?_ | intro _ | refine (State.pset_fixed ..).trans ?_ | refine (State.report_fixed ..).trans ?_ | refine (degradeMode_fixed ..).trans ?_ | refine (leanExit_fixed ..).trans ?_ | refine (leanPark_fixed ..).trans ?_ | refine (repause_fixed ..).trans ?_ | refine (reviewMode_fixed ..).trans ?_ | split | refine (foldl_fixed _ _ _ ?_).trans ?_ | simp only [↓State.fixed_mk, ↓State.fixed_def, State.fixed_def])

theorem testsOff_fixed (s : State) :
    (testsOff s).fixed = s.fixed := by
  unfold testsOff
  repeat' with_reducible (first | rfl | refine ite_fixed ?_ ?_ | intro _ | refine (State.dset_fixed ..).trans ?_ | refine (State.each_fixed _ _ _ ?_).trans ?_ | refine (loopsOff_fixed ..).trans ?_ | split | refine (foldl_fixed _ _ _ ?_).trans ?_ | simp only [↓State.fixed_mk, ↓State.fixed_def, State.fixed_def])

theorem dieBringup_fixed (d : ℕ) (s : State) :
    (dieBringup d s).fixed = s.fixed := by
  unfold dieBringup
  repeat' with_reducible (first | rfl | refine ite_fixed ?_ ?_ | intro _ | refine (State.each_fixed _ _ _ ?_).trans ?_ | refine (State.pset_fixed ..).trans ?_ | refine (domReview_fixed ..).trans ?_ | refine (functionStart_fixed ..).trans ?_ | refine (parkForced_fixed ..).trans ?_ | split | refine (foldl_fixed _ _ _ ?_).trans ?_ | simp only [↓State.fixed_mk, ↓State.fixed_def, State.fixed_def])

theorem enterBringup_fixed (s : State) :
    (enterBringup s).fixed = s.fixed := by
  unfold enterBringup
  repeat' with_reducible (first | rfl | refine ite_fixed ?_ ?_ | intro _ | refine (State.each_fixed _ _ _ ?_).trans ?_ | refine (dieBringup_fixed ..).trans ?_ | refine (setMode_fixed ..).trans ?_ | split | refine (foldl_fixed _ _ _ ?_).trans ?_ | simp only [↓State.fixed_mk, ↓State.fixed_def, State.fixed_def])

theorem reinit_fixed (s : State) :
    (reinit s).fixed = s.fixed := by
  unfold reinit
  repeat' with_reducible (first | rfl | refine ite_fixed ?_ ?_ | intro _ | refine (State.each_fixed _ _ _ ?_).trans ?_ | refine (State.onDie_fixed ..).trans ?_ | refine (enterBringup_fixed ..).trans ?_ | refine (testsOff_fixed ..).trans ?_ | split | refine (foldl_fixed _ _ _ ?_).trans ?_ | simp only [↓State.fixed_mk, ↓State.fixed_def, State.fixed_def])

theorem reinitStart_fixed (s : State) :
    (reinitStart s).fixed = s.fixed := by
  unfold reinitStart
  (try dsimp only)
  repeat' with_reducible (first | rfl | assumption | intro _ | refine ite_fixed ?_ ?_ | refine ite_snd_fixed ?_ ?_ | refine ite_snd2_fixed ?_ ?_ | refine getD_fixed ?_ ?_ | refine ite_elim_fixed ?_ ?_ | refine (some_elim_fixed ..).trans ?_ | refine (none_elim_fixed ..).trans ?_ | refine ite_fst_elim_fixed ?_ ?_ | refine map_elim_fixed ?_ ?_ | refine bind_elim_fixed ?_ ?_ | refine foldl_elim_fixed _ _ _ ?_ ?_ | refine (beginTransition_fixed ..).trans ?_ | refine (reinit_fixed ..).trans ?_ | refine (settingsSave_fixed ..).trans ?_ | refine snd_fixed (by assumption) ?_ | refine snd2_fixed (by assumption) ?_ | refine fst_elim_fixed (by assumption) ?_ | refine of_some_fixed (by assumption) ?_ | split | refine (foldl_fixed _ _ _ ?_).trans ?_ | refine (foldl_fixed_snd _ _ _ ?_).trans ?_ | refine (foldl_fixed_snd2 _ _ _ ?_).trans ?_ | simp only [↓State.fixed_mk, ↓State.fixed_def, State.fixed_def])

theorem saved_fixed (s : State) :
    (saved s).fixed = s.fixed := by
  unfold saved
  (try dsimp only)
  repeat' with_reducible (first | rfl | assumption | intro _ | refine ite_fixed ?_ ?_ | refine ite_snd_fixed ?_ ?_ | refine ite_snd2_fixed ?_ ?_ | refine getD_fixed ?_ ?_ | refine ite_elim_fixed ?_ ?_ | refine (some_elim_fixed ..).trans ?_ | refine (none_elim_fixed ..).trans ?_ | refine ite_fst_elim_fixed ?_ ?_ | refine map_elim_fixed ?_ ?_ | refine bind_elim_fixed ?_ ?_ | refine foldl_elim_fixed _ _ _ ?_ ?_ | refine (reinit_fixed ..).trans ?_ | refine (settingsSave_fixed ..).trans ?_ | refine snd_fixed (by assumption) ?_ | refine snd2_fixed (by assumption) ?_ | refine fst_elim_fixed (by assumption) ?_ | refine of_some_fixed (by assumption) ?_ | split | refine (foldl_fixed _ _ _ ?_).trans ?_ | refine (foldl_fixed_snd _ _ _ ?_).trans ?_ | refine (foldl_fixed_snd2 _ _ _ ?_).trans ?_ | simp only [↓State.fixed_mk, ↓State.fixed_def, State.fixed_def])

theorem standbyStart_fixed (s : State) :
    (standbyStart s).fixed = s.fixed := by
  unfold standbyStart
  repeat' with_reducible (first | rfl | refine ite_fixed ?_ ?_ | intro _ | refine (State.each_fixed _ _ _ ?_).trans ?_ | refine (beginTransition_fixed ..).trans ?_ | refine (domReview_fixed ..).trans ?_ | refine (linksDown_fixed ..).trans ?_ | refine (portsDown_fixed ..).trans ?_ | refine (standbyDone_fixed ..).trans ?_ | refine (testsOff_fixed ..).trans ?_ | split | refine (foldl_fixed _ _ _ ?_).trans ?_ | simp only [↓State.fixed_mk, ↓State.fixed_def, State.fixed_def])

theorem closeSession_fixed (i : ℕ) (s : State) :
    (closeSession i s).fixed = s.fixed := by
  unfold closeSession
  repeat' with_reducible (first | rfl | refine ite_fixed ?_ ?_ | intro _ | refine (State.each_fixed _ _ _ ?_).trans ?_ | refine (State.pset_fixed ..).trans ?_ | split | refine (foldl_fixed _ _ _ ?_).trans ?_ | simp only [↓State.fixed_mk, ↓State.fixed_def, State.fixed_def])

theorem zeroise_fixed (s : State) :
    (zeroise s).fixed = s.fixed := by
  unfold zeroise
  repeat' with_reducible (first | rfl | refine ite_fixed ?_ ?_ | intro _ | refine (State.each_fixed _ _ _ ?_).trans ?_ | refine (closeSession_fixed ..).trans ?_ | split | refine (foldl_fixed _ _ _ ?_).trans ?_ | simp only [↓State.fixed_mk, ↓State.fixed_def, State.fixed_def])

theorem requestApply_fixed (code : ℕ) (s : State) :
    (requestApply code s).fixed = s.fixed := by
  unfold requestApply
  repeat' with_reducible (first | rfl | refine ite_fixed ?_ ?_ | intro _ | refine (State.each_fixed _ _ _ ?_).trans ?_ | refine (domReview_fixed ..).trans ?_ | refine (drainStart_fixed ..).trans ?_ | refine (enterBringup_fixed ..).trans ?_ | refine (forwardAgain_fixed ..).trans ?_ | refine (linksDown_fixed ..).trans ?_ | refine (parkForced_fixed ..).trans ?_ | refine (portsDown_fixed ..).trans ?_ | refine (powerUp_fixed ..).trans ?_ | refine (quiesceStart_fixed ..).trans ?_ | refine (reinitStart_fixed ..).trans ?_ | refine (repause_fixed ..).trans ?_ | refine (setMode_fixed ..).trans ?_ | refine (standbyStart_fixed ..).trans ?_ | refine (testsOff_fixed ..).trans ?_ | refine (wakeAll_fixed ..).trans ?_ | refine (zeroise_fixed ..).trans ?_ | split | refine (foldl_fixed _ _ _ ?_).trans ?_ | simp only [↓State.fixed_mk, ↓State.fixed_def, State.fixed_def])

theorem modeRequest_fixed (code : ℕ) (s : State) :
    (modeRequest code s).2.fixed = s.fixed := by
  unfold modeRequest
  repeat' with_reducible (first | rfl | refine ite_fixed ?_ ?_ | refine (requestApply_fixed ..).trans ?_ | split)

theorem loadStores_fixed (d : ℕ) (s : State) :
    (loadStores d s).fixed = s.fixed := by
  unfold loadStores
  repeat' with_reducible (first | rfl | refine ite_fixed ?_ ?_ | intro _ | refine (State.each_fixed _ _ _ ?_).trans ?_ | refine (loadStore_fixed ..).trans ?_ | split | refine (foldl_fixed _ _ _ ?_).trans ?_ | simp only [↓State.fixed_mk, ↓State.fixed_def, State.fixed_def])

theorem receiveReplicas_fixed (d : ℕ) (f : ℕ) (s : State) :
    (receiveReplicas d f s).fixed = s.fixed := by
  unfold receiveReplicas
  repeat' with_reducible (first | rfl | refine ite_fixed ?_ ?_ | refine (State.onDie_fixed ..).trans ?_ | refine (epochTake_fixed ..).trans ?_ | split)

theorem rejoined_fixed (d : ℕ) (s : State) :
    (rejoined d s).fixed = s.fixed := by
  unfold rejoined
  repeat' with_reducible (first | rfl | refine ite_fixed ?_ ?_ | refine (State.onDie_fixed ..).trans ?_ | refine (State.pset_fixed ..).trans ?_ | refine (clearLost_fixed ..).trans ?_ | split)

theorem functionReady_fixed (d : ℕ) (f : ℕ) (s : State) :
    (functionReady d f s).fixed = s.fixed := by
  unfold functionReady
  repeat' with_reducible (first | rfl | refine ite_fixed ?_ ?_ | intro _ | refine (State.each_fixed _ _ _ ?_).trans ?_ | refine (State.pset_fixed ..).trans ?_ | refine (clearLost_fixed ..).trans ?_ | refine (domReview_fixed ..).trans ?_ | refine (loadStores_fixed ..).trans ?_ | refine (receiveReplicas_fixed ..).trans ?_ | refine (rejoined_fixed ..).trans ?_ | refine (reviewMode_fixed ..).trans ?_ | split | refine (foldl_fixed _ _ _ ?_).trans ?_ | simp only [↓State.fixed_mk, ↓State.fixed_def, State.fixed_def])

theorem bringupTimeout_fixed (s : State) :
    (bringupTimeout s).fixed = s.fixed := by
  unfold bringupTimeout
  repeat' with_reducible (first | rfl | refine ite_fixed ?_ ?_ | intro _ | refine (State.each_fixed _ _ _ ?_).trans ?_ | refine (State.pset_fixed ..).trans ?_ | refine (State.report_fixed ..).trans ?_ | refine (domReview_fixed ..).trans ?_ | refine (setLost_fixed ..).trans ?_ | refine (setMode_fixed ..).trans ?_ | split | refine (foldl_fixed _ _ _ ?_).trans ?_ | simp only [↓State.fixed_mk, ↓State.fixed_def, State.fixed_def])

theorem execDrainEmpty_fixed (s : State) {s' : State}
    (h : execDrainEmpty s = .next s') : s'.fixed = s.fixed := by
  unfold execDrainEmpty at h
  cases h
  repeat' with_reducible (first | rfl | refine ite_fixed ?_ ?_ | refine (drainEmpty_fixed ..).trans ?_ | split)

theorem execQuiesceTimeout_fixed (s : State) {s' : State}
    (h : execQuiesceTimeout s = .next s') : s'.fixed = s.fixed := by
  unfold execQuiesceTimeout at h
  cases h
  repeat' with_reducible (first | rfl | refine ite_fixed ?_ ?_ | refine (quiesceTimeout_fixed ..).trans ?_ | split)

theorem execFunctionReady_fixed (d : DieId) (f : Fin 12) (s : State) {s' : State}
    (h : execFunctionReady d f s = .next s') : s'.fixed = s.fixed := by
  unfold execFunctionReady at h
  refine onPresent_fixed (fun s => ?_) h
  repeat' with_reducible (first | rfl | refine ite_fixed ?_ ?_ | refine (functionReady_fixed ..).trans ?_ | split)

theorem execBringupTimeout_fixed (s : State) {s' : State}
    (h : execBringupTimeout s = .next s') : s'.fixed = s.fixed := by
  unfold execBringupTimeout at h
  cases h
  repeat' with_reducible (first | rfl | refine ite_fixed ?_ ?_ | refine (bringupTimeout_fixed ..).trans ?_ | split)

theorem execLeanWindow_fixed (s : State) {s' : State}
    (h : execLeanWindow s = .next s') : s'.fixed = s.fixed := by
  unfold execLeanWindow at h
  cases h
  repeat' with_reducible (first | rfl | refine ite_fixed ?_ ?_ | refine (leanWindow_fixed ..).trans ?_ | split)

theorem execClusterParkDone_fixed (d : DieId) (c : ClusterId) (s : State) {s' : State}
    (h : execClusterParkDone d c s = .next s') : s'.fixed = s.fixed := by
  unfold execClusterParkDone at h
  refine onLive_fixed (fun s => ?_) h
  repeat' with_reducible (first | rfl | refine ite_fixed ?_ ?_ | refine (parkDone_fixed ..).trans ?_ | split)

theorem execClusterWakeDone_fixed (d : DieId) (c : ClusterId) (s : State) {s' : State}
    (h : execClusterWakeDone d c s = .next s') : s'.fixed = s.fixed := by
  unfold execClusterWakeDone at h
  refine onLive_fixed (fun s => ?_) h
  repeat' with_reducible (first | rfl | refine ite_fixed ?_ ?_ | refine (wakeDone_fixed ..).trans ?_ | split)

theorem execDomainOnDone_fixed (d : DieId) (n : Fin 80) (s : State) {s' : State}
    (h : execDomainOnDone d n s = .next s') : s'.fixed = s.fixed := by
  unfold execDomainOnDone at h
  refine onPresent_fixed (fun s => ?_) h
  repeat' with_reducible (first | rfl | refine ite_fixed ?_ ?_ | refine (domainOn_fixed ..).trans ?_ | split)

theorem execDomainStopDone_fixed (d : DieId) (n : Fin 80) (s : State) {s' : State}
    (h : execDomainStopDone d n s = .next s') : s'.fixed = s.fixed := by
  unfold execDomainStopDone at h
  refine onPresent_fixed (fun s => ?_) h
  repeat' with_reducible (first | rfl | refine ite_fixed ?_ ?_ | refine (domainStopped_fixed ..).trans ?_ | split)

end Sys2Proof.Machine
end

