-- ==== Sys2Proof/Laws/Fixed/Saddles.lean ====
section
/-! SUPPORT. What the operations of Machine/Saddles.lean leave as it is: the part, the queue, the clock, the anti-rollback
counter and the revocation bits. -/

set_option linter.all false
set_option maxRecDepth 4000

namespace Sys2Proof.Machine

theorem routeReceive_fixed (d : ℕ) (s : State) :
    (routeReceive d s).fixed = s.fixed := by
  unfold routeReceive
  repeat' with_reducible (first | rfl | refine ite_fixed ?_ ?_ | intro _ | refine (State.onDie_fixed ..).trans ?_ | refine (State.receive_fixed _ _ _ _ ?_).trans ?_ | refine (relaunch_fixed ..).trans ?_ | refine (ringsCheck_fixed ..).trans ?_ | split | refine (foldl_fixed _ _ _ ?_).trans ?_ | simp only [↓State.fixed_mk, ↓State.fixed_def, State.fixed_def])

theorem lastLost_fixed (d : ℕ) (before : State) (s : State) :
    (lastLost d before s).fixed = s.fixed := by
  unfold lastLost
  repeat' with_reducible (first | rfl | refine ite_fixed ?_ ?_ | refine (State.report_fixed ..).trans ?_ | split)

theorem isolate_fixed (d : ℕ) (rule : ℕ) (s : State) :
    (isolate d rule s).fixed = s.fixed := by
  unfold isolate
  repeat' with_reducible (first | rfl | refine ite_fixed ?_ ?_ | intro _ | refine (State.onDie_fixed ..).trans ?_ | refine (State.pset_fixed ..).trans ?_ | refine (heldDown_fixed ..).trans ?_ | refine (lastLost_fixed ..).trans ?_ | refine (ringsCheck_fixed ..).trans ?_ | refine (setLost_fixed ..).trans ?_ | split | refine (foldl_fixed _ _ _ ?_).trans ?_ | simp only [↓State.fixed_mk, ↓State.fixed_def, State.fixed_def])

theorem majority_fixed (d : ℕ) (s : State) :
    (majority d s).fixed = s.fixed := by
  unfold majority
  repeat' with_reducible (first | rfl | refine ite_fixed ?_ ?_ | intro _ | refine (State.each_fixed _ _ _ ?_).trans ?_ | refine (State.pset_fixed ..).trans ?_ | refine (degradeMode_fixed ..).trans ?_ | refine (isolate_fixed ..).trans ?_ | refine (ownRecord_fixed ..).trans ?_ | refine (topology_fixed ..).trans ?_ | split | refine (foldl_fixed _ _ _ ?_).trans ?_ | simp only [↓State.fixed_mk, ↓State.fixed_def, State.fixed_def])

theorem saddleSet_fixed (d : ℕ) (k : ℕ) (st : ℕ) (lanes : ℕ) (s : State) :
    (saddleSet d k st lanes s).fixed = s.fixed := by
  unfold saddleSet
  dsimp only
  repeat' with_reducible (first | rfl | refine ite_fixed ?_ ?_ | refine (State.dset_fixed ..).trans ?_ | split)

theorem fenceEnds_fixed (d : ℕ) (k : ℕ) (cause : ℕ) (s : State) :
    (fenceEnds d k cause s).fixed = s.fixed := by
  unfold fenceEnds
  dsimp only
  repeat' with_reducible (first | rfl | refine ite_fixed ?_ ?_ | refine (State.dset_fixed ..).trans ?_ | refine (majority_fixed ..).trans ?_ | refine (ringsCheck_fixed ..).trans ?_ | refine (saddleClear_fixed ..).trans ?_ | refine (saddleSet_fixed ..).trans ?_ | refine (topology_fixed ..).trans ?_ | split)

theorem fenceSaddle_fixed (d : ℕ) (k : ℕ) (cause : ℕ) (s : State) :
    (fenceSaddle d k cause s).fixed = s.fixed := by
  unfold fenceSaddle
  repeat' with_reducible (first | rfl | refine ite_fixed ?_ ?_ | refine (State.report_fixed ..).trans ?_ | refine (fenceEnds_fixed ..).trans ?_ | split)

theorem saddleAck_fixed (d : ℕ) (k : ℕ) (seq : ℕ) (s : State) :
    (saddleAck d k seq s).fixed = s.fixed := by
  unfold saddleAck
  repeat' with_reducible (first | rfl | refine ite_fixed ?_ ?_ | refine (onSaddle_fixed ..).trans ?_ | split)

theorem saddleNak_fixed (d : ℕ) (k : ℕ) (seq : ℕ) (s : State) :
    (saddleNak d k seq s).fixed = s.fixed := by
  unfold saddleNak
  repeat' with_reducible (first | rfl | refine ite_fixed ?_ ?_ | refine (onSaddle_fixed ..).trans ?_ | refine (saddleAck_fixed ..).trans ?_ | split)

theorem headerBack_fixed (d : ℕ) (k : ℕ) (h : ℕ) (s : State) :
    (headerBack d k h s).fixed = s.fixed := by
  unfold headerBack
  repeat' with_reducible (first | rfl | refine ite_fixed ?_ ?_ | refine (onSaddle_fixed ..).trans ?_ | refine (saddleAck_fixed ..).trans ?_ | refine (saddleNak_fixed ..).trans ?_ | split)

theorem flitBad_fixed (d : ℕ) (k : ℕ) (bare : Bool) (s : State) :
    (flitBad d k bare s).fixed = s.fixed := by
  unfold flitBad
  repeat' with_reducible (first | rfl | refine ite_fixed ?_ ?_ | refine (fenceSaddle_fixed ..).trans ?_ | refine (onSaddle_fixed ..).trans ?_ | refine (pump_fixed ..).trans ?_ | split)

theorem arriveAt_fixed (d : ℕ) (k : ℕ) (id : ℕ) (fs : List Flit) (s : State) :
    (arriveAt d k id fs s).fixed = s.fixed := by
  unfold arriveAt
  (try dsimp only)
  repeat' with_reducible (first | rfl | assumption | intro _ | refine ite_fixed ?_ ?_ | refine ite_snd_fixed ?_ ?_ | refine ite_snd2_fixed ?_ ?_ | refine getD_fixed ?_ ?_ | refine ite_elim_fixed ?_ ?_ | refine (some_elim_fixed ..).trans ?_ | refine (none_elim_fixed ..).trans ?_ | refine ite_fst_elim_fixed ?_ ?_ | refine map_elim_fixed ?_ ?_ | refine bind_elim_fixed ?_ ?_ | refine foldl_elim_fixed _ _ _ ?_ ?_ | refine (atPort_fixed ..).trans ?_ | refine (enqueue_fixed ..).trans ?_ | refine (fillAt_fixed ..).trans ?_ | refine (homeAnswer_fixed ..).trans ?_ | refine missEnter_fixed (hc := ?_) .. | refine (oweRoom_fixed ..).trans ?_ | refine (shipGroup_fixed ..).trans ?_ | refine (shipRelease_fixed ..).trans ?_ | refine (strand_fixed ..).trans ?_ | refine snd_fixed (by assumption) ?_ | refine snd2_fixed (by assumption) ?_ | refine fst_elim_fixed (by assumption) ?_ | refine of_some_fixed (by assumption) ?_ | split | refine (foldl_fixed _ _ _ ?_).trans ?_ | refine (foldl_fixed_snd _ _ _ ?_).trans ?_ | refine (foldl_fixed_snd2 _ _ _ ?_).trans ?_ | simp only [↓State.fixed_mk, ↓State.fixed_def, State.fixed_def])

theorem flitTake_fixed (d : ℕ) (k : ℕ) (f : Flit) (s : State) :
    (flitTake d k f s).fixed = s.fixed := by
  unfold flitTake
  repeat' with_reducible (first | rfl | refine ite_fixed ?_ ?_ | refine (arriveAt_fixed ..).trans ?_ | refine (headerBack_fixed ..).trans ?_ | refine (onSaddle_fixed ..).trans ?_ | split)

theorem flitGone_fixed (d : ℕ) (k : ℕ) (s : State) :
    (flitGone d k s).fixed = s.fixed := by
  unfold flitGone
  repeat' with_reducible (first | rfl | refine ite_fixed ?_ ?_ | refine (onSaddle_fixed ..).trans ?_ | split)

theorem takeFlip_fixed (d : ℕ) (block : ℕ) (inst : ℕ) (s : State) :
    (takeFlip d block inst s).2.fixed = s.fixed := by
  unfold takeFlip
  dsimp only
  repeat' with_reducible (first | rfl | refine ite_fixed ?_ ?_ | refine (State.onDie_fixed ..).trans ?_ | split)

theorem flitReceive_fixed (d : ℕ) (k : ℕ) (ok : Bool) (s : State) :
    (flitReceive d k ok s).fixed = s.fixed := by
  unfold flitReceive
  repeat' with_reducible (first | rfl | refine ite_fixed ?_ ?_ | refine (State.dinc_fixed ..).trans ?_ | refine (State.report_fixed ..).trans ?_ | refine (flitBad_fixed ..).trans ?_ | refine (flitGone_fixed ..).trans ?_ | refine (flitTake_fixed ..).trans ?_ | refine (headerBack_fixed ..).trans ?_ | refine (onSaddle_fixed ..).trans ?_ | refine (pump_fixed ..).trans ?_ | refine (takeFlip_fixed ..).trans ?_ | split)

theorem bareReceive_fixed (nak : Bool) (d : ℕ) (k : ℕ) (s : State) :
    (bareReceive nak d k s).fixed = s.fixed := by
  unfold bareReceive
  repeat' with_reducible (first | rfl | refine ite_fixed ?_ ?_ | refine (flitReceive_fixed ..).trans ?_ | split)

theorem cellsTake_fixed (d : ℕ) (k : ℕ) (j : ℕ) (s : State) :
    (cellsTake d k j s).2.fixed = s.fixed := by
  unfold cellsTake
  (try dsimp only)
  repeat' with_reducible (first | rfl | assumption | intro _ | refine ite_fixed ?_ ?_ | refine ite_snd_fixed ?_ ?_ | refine ite_snd2_fixed ?_ ?_ | refine getD_fixed ?_ ?_ | refine ite_elim_fixed ?_ ?_ | refine (some_elim_fixed ..).trans ?_ | refine (none_elim_fixed ..).trans ?_ | refine ite_fst_elim_fixed ?_ ?_ | refine map_elim_fixed ?_ ?_ | refine bind_elim_fixed ?_ ?_ | refine foldl_elim_fixed _ _ _ ?_ ?_ | refine (egressTake_fixed ..).trans ?_ | refine egressTake_fixed_elim (hc := ?_) .. | refine (puntTo_fixed ..).trans ?_ | refine snd_fixed (by assumption) ?_ | refine snd2_fixed (by assumption) ?_ | refine fst_elim_fixed (by assumption) ?_ | refine of_some_fixed (by assumption) ?_ | split | refine (foldl_fixed _ _ _ ?_).trans ?_ | refine (foldl_fixed_snd _ _ _ ?_).trans ?_ | refine (foldl_fixed_snd2 _ _ _ ?_).trans ?_ | simp only [↓State.fixed_mk, ↓State.fixed_def, State.fixed_def])

theorem cellsTake_fixed_elim (d : ℕ) (k : ℕ) (j : ℕ) (s : State) {cc : Part × List Instr × Nat × Nat × BitVec 4}
    (hc : s.fixed = cc) : (cellsTake d k j s).1.elim cc State.fixed = cc := by
  subst hc
  unfold cellsTake
  (try dsimp only)
  repeat' with_reducible (first | rfl | assumption | intro _ | refine ite_fixed ?_ ?_ | refine ite_snd_fixed ?_ ?_ | refine ite_snd2_fixed ?_ ?_ | refine getD_fixed ?_ ?_ | refine ite_elim_fixed ?_ ?_ | refine (some_elim_fixed ..).trans ?_ | refine (none_elim_fixed ..).trans ?_ | refine ite_fst_elim_fixed ?_ ?_ | refine map_elim_fixed ?_ ?_ | refine bind_elim_fixed ?_ ?_ | refine foldl_elim_fixed _ _ _ ?_ ?_ | refine (egressTake_fixed ..).trans ?_ | refine egressTake_fixed_elim (hc := ?_) .. | refine (puntTo_fixed ..).trans ?_ | refine snd_fixed (by assumption) ?_ | refine snd2_fixed (by assumption) ?_ | refine fst_elim_fixed (by assumption) ?_ | refine of_some_fixed (by assumption) ?_ | split | refine (foldl_fixed _ _ _ ?_).trans ?_ | refine (foldl_fixed_snd _ _ _ ?_).trans ?_ | refine (foldl_fixed_snd2 _ _ _ ?_).trans ?_ | simp only [↓State.fixed_mk, ↓State.fixed_def, State.fixed_def])

theorem transferAt_fixed (d : ℕ) (k : ℕ) (id : ℕ) (fs : List Flit) (s : State) :
    (transferAt d k id fs s).2.fixed = s.fixed := by
  unfold transferAt
  (try dsimp only)
  repeat' with_reducible (first | rfl | assumption | intro _ | refine ite_fixed ?_ ?_ | refine ite_snd_fixed ?_ ?_ | refine ite_snd2_fixed ?_ ?_ | refine getD_fixed ?_ ?_ | refine ite_elim_fixed ?_ ?_ | refine (some_elim_fixed ..).trans ?_ | refine (none_elim_fixed ..).trans ?_ | refine ite_fst_elim_fixed ?_ ?_ | refine map_elim_fixed ?_ ?_ | refine bind_elim_fixed ?_ ?_ | refine foldl_elim_fixed _ _ _ ?_ ?_ | refine (arriveAt_fixed ..).trans ?_ | refine (cellsTake_fixed ..).trans ?_ | refine cellsTake_fixed_elim (hc := ?_) .. | refine snd_fixed (by assumption) ?_ | refine snd2_fixed (by assumption) ?_ | refine fst_elim_fixed (by assumption) ?_ | refine of_some_fixed (by assumption) ?_ | split | refine (foldl_fixed _ _ _ ?_).trans ?_ | refine (foldl_fixed_snd _ _ _ ?_).trans ?_ | refine (foldl_fixed_snd2 _ _ _ ?_).trans ?_ | simp only [↓State.fixed_mk, ↓State.fixed_def, State.fixed_def])

theorem transferAt_fixed_elim (d : ℕ) (k : ℕ) (id : ℕ) (fs : List Flit) (s : State) {cc : Part × List Instr × Nat × Nat × BitVec 4}
    (hc : s.fixed = cc) : (transferAt d k id fs s).1.elim cc State.fixed = cc := by
  subst hc
  unfold transferAt
  (try dsimp only)
  repeat' with_reducible (first | rfl | assumption | intro _ | refine ite_fixed ?_ ?_ | refine ite_snd_fixed ?_ ?_ | refine ite_snd2_fixed ?_ ?_ | refine getD_fixed ?_ ?_ | refine ite_elim_fixed ?_ ?_ | refine (some_elim_fixed ..).trans ?_ | refine (none_elim_fixed ..).trans ?_ | refine ite_fst_elim_fixed ?_ ?_ | refine map_elim_fixed ?_ ?_ | refine bind_elim_fixed ?_ ?_ | refine foldl_elim_fixed _ _ _ ?_ ?_ | refine (arriveAt_fixed ..).trans ?_ | refine (cellsTake_fixed ..).trans ?_ | refine cellsTake_fixed_elim (hc := ?_) .. | refine snd_fixed (by assumption) ?_ | refine snd2_fixed (by assumption) ?_ | refine fst_elim_fixed (by assumption) ?_ | refine of_some_fixed (by assumption) ?_ | split | refine (foldl_fixed _ _ _ ?_).trans ?_ | refine (foldl_fixed_snd _ _ _ ?_).trans ?_ | refine (foldl_fixed_snd2 _ _ _ ?_).trans ?_ | simp only [↓State.fixed_mk, ↓State.fixed_def, State.fixed_def])

theorem transferComplete_fixed (d : ℕ) (k : ℕ) (s : State) :
    (transferComplete d k s).fixed = s.fixed := by
  unfold transferComplete
  (try dsimp only)
  repeat' with_reducible (first | rfl | assumption | intro _ | refine ite_fixed ?_ ?_ | refine ite_snd_fixed ?_ ?_ | refine ite_snd2_fixed ?_ ?_ | refine getD_fixed ?_ ?_ | refine ite_elim_fixed ?_ ?_ | refine (some_elim_fixed ..).trans ?_ | refine (none_elim_fixed ..).trans ?_ | refine ite_fst_elim_fixed ?_ ?_ | refine map_elim_fixed ?_ ?_ | refine bind_elim_fixed ?_ ?_ | refine foldl_elim_fixed _ _ _ ?_ ?_ | refine (onSaddle_fixed ..).trans ?_ | refine (pump_fixed ..).trans ?_ | refine (transferAt_fixed ..).trans ?_ | refine transferAt_fixed_elim (hc := ?_) .. | refine snd_fixed (by assumption) ?_ | refine snd2_fixed (by assumption) ?_ | refine fst_elim_fixed (by assumption) ?_ | refine of_some_fixed (by assumption) ?_ | split | refine (foldl_fixed _ _ _ ?_).trans ?_ | refine (foldl_fixed_snd _ _ _ ?_).trans ?_ | refine (foldl_fixed_snd2 _ _ _ ?_).trans ?_ | simp only [↓State.fixed_mk, ↓State.fixed_def, State.fixed_def])

theorem stepBegin_fixed (d : ℕ) (k : ℕ) (r : ℕ) (s : State) :
    (stepBegin d k r s).fixed = s.fixed := by
  unfold stepBegin
  repeat' with_reducible (first | rfl | refine ite_fixed ?_ ?_ | refine (State.dset_fixed ..).trans ?_ | refine (State.sendSide_fixed ..).trans ?_ | refine (onSaddle_fixed ..).trans ?_ | refine (topology_fixed ..).trans ?_ | split)

theorem utilWindow_fixed (d : ℕ) (k : ℕ) (util : ℕ) (s : State) :
    (utilWindow d k util s).fixed = s.fixed := by
  unfold utilWindow
  repeat' with_reducible (first | rfl | refine ite_fixed ?_ ?_ | refine (State.dset_fixed ..).trans ?_ | refine (onSaddle_fixed ..).trans ?_ | refine (stepBegin_fixed ..).trans ?_ | split)

theorem laneReq_fixed (d : ℕ) (k : ℕ) (s : State) :
    (laneReq d k s).fixed = s.fixed := by
  unfold laneReq
  repeat' with_reducible (first | rfl | refine ite_fixed ?_ ?_ | intro _ | refine (State.receive_fixed _ _ _ _ ?_).trans ?_ | refine (State.sendSide_fixed ..).trans ?_ | refine (onSaddle_fixed ..).trans ?_ | split | refine (foldl_fixed _ _ _ ?_).trans ?_ | simp only [↓State.fixed_mk, ↓State.fixed_def, State.fixed_def])

theorem laneReturn_fixed (d : ℕ) (k : ℕ) (s : State) :
    (laneReturn d k s).fixed = s.fixed := by
  unfold laneReturn
  repeat' with_reducible (first | rfl | refine ite_fixed ?_ ?_ | refine (State.dset_fixed ..).trans ?_ | refine (onSaddle_fixed ..).trans ?_ | refine (topology_fixed ..).trans ?_ | split)

theorem laneAck_fixed (d : ℕ) (k : ℕ) (s : State) :
    (laneAck d k s).fixed = s.fixed := by
  unfold laneAck
  repeat' with_reducible (first | rfl | refine ite_fixed ?_ ?_ | intro _ | refine (State.dinc_fixed ..).trans ?_ | refine (State.dset_fixed ..).trans ?_ | refine (State.receive_fixed _ _ _ _ ?_).trans ?_ | refine (laneReturn_fixed ..).trans ?_ | refine (onSaddle_fixed ..).trans ?_ | refine (topology_fixed ..).trans ?_ | split | refine (foldl_fixed _ _ _ ?_).trans ?_ | simp only [↓State.fixed_mk, ↓State.fixed_def, State.fixed_def])

theorem laneWake_fixed (d : ℕ) (k : ℕ) (s : State) :
    (laneWake d k s).fixed = s.fixed := by
  unfold laneWake
  repeat' with_reducible (first | rfl | refine ite_fixed ?_ ?_ | refine (laneReturn_fixed ..).trans ?_ | refine (onSaddle_fixed ..).trans ?_ | split)

theorem trainingDone_fixed (d : ℕ) (k : ℕ) (ok : Bool) (s : State) :
    (trainingDone d k ok s).fixed = s.fixed := by
  unfold trainingDone
  repeat' with_reducible (first | rfl | refine ite_fixed ?_ ?_ | refine (fenceSaddle_fixed ..).trans ?_ | refine (saddleClear_fixed ..).trans ?_ | refine (saddleSet_fixed ..).trans ?_ | refine (topology_fixed ..).trans ?_ | split)

theorem execSaddleFlitReceive_fixed (d : DieId) (k : Side) (ok : Bool) (s : State) {s' : State}
    (h : execSaddleFlitReceive d k ok s = .next s') : s'.fixed = s.fixed := by
  unfold execSaddleFlitReceive at h
  refine onPresent_fixed (fun s => ?_) h
  repeat' with_reducible (first | rfl | refine ite_fixed ?_ ?_ | refine (flitReceive_fixed ..).trans ?_ | split)

theorem execSaddleNakReceive_fixed (d : DieId) (k : Side) (s : State) {s' : State}
    (h : execSaddleNakReceive d k s = .next s') : s'.fixed = s.fixed := by
  unfold execSaddleNakReceive at h
  refine onPresent_fixed (fun s => ?_) h
  repeat' with_reducible (first | rfl | refine ite_fixed ?_ ?_ | refine (bareReceive_fixed ..).trans ?_ | split)

theorem execSaddleAckReceive_fixed (d : DieId) (k : Side) (s : State) {s' : State}
    (h : execSaddleAckReceive d k s = .next s') : s'.fixed = s.fixed := by
  unfold execSaddleAckReceive at h
  refine onPresent_fixed (fun s => ?_) h
  repeat' with_reducible (first | rfl | refine ite_fixed ?_ ?_ | refine (bareReceive_fixed ..).trans ?_ | split)

theorem execSaddleTransferComplete_fixed (d : DieId) (k : Side) (s : State) {s' : State}
    (h : execSaddleTransferComplete d k s = .next s') : s'.fixed = s.fixed := by
  unfold execSaddleTransferComplete at h
  refine onPresent_fixed (fun s => ?_) h
  repeat' with_reducible (first | rfl | refine ite_fixed ?_ ?_ | refine (transferComplete_fixed ..).trans ?_ | split)

theorem execRouteTableReceive_fixed (d : DieId) (s : State) {s' : State}
    (h : execRouteTableReceive d s = .next s') : s'.fixed = s.fixed := by
  unfold execRouteTableReceive at h
  refine onPresent_fixed (fun s => ?_) h
  repeat' with_reducible (first | rfl | refine ite_fixed ?_ ?_ | refine (routeReceive_fixed ..).trans ?_ | split)

theorem execSaddleUtilWindowEnd_fixed (d : DieId) (k : Side) (util : Fin 10001) (s : State) {s' : State}
    (h : execSaddleUtilWindowEnd d k util s = .next s') : s'.fixed = s.fixed := by
  unfold execSaddleUtilWindowEnd at h
  refine onPresent_fixed (fun s => ?_) h
  repeat' with_reducible (first | rfl | refine ite_fixed ?_ ?_ | refine (utilWindow_fixed ..).trans ?_ | split)

theorem execLaneReq_fixed (d : DieId) (k : Side) (s : State) {s' : State}
    (h : execLaneReq d k s = .next s') : s'.fixed = s.fixed := by
  unfold execLaneReq at h
  refine onPresent_fixed (fun s => ?_) h
  repeat' with_reducible (first | rfl | refine ite_fixed ?_ ?_ | refine (laneReq_fixed ..).trans ?_ | split)

theorem execLaneAck_fixed (d : DieId) (k : Side) (s : State) {s' : State}
    (h : execLaneAck d k s = .next s') : s'.fixed = s.fixed := by
  unfold execLaneAck at h
  refine onPresent_fixed (fun s => ?_) h
  repeat' with_reducible (first | rfl | refine ite_fixed ?_ ?_ | refine (laneAck_fixed ..).trans ?_ | split)

theorem execSaddleLaneWakeDone_fixed (d : DieId) (k : Side) (s : State) {s' : State}
    (h : execSaddleLaneWakeDone d k s = .next s') : s'.fixed = s.fixed := by
  unfold execSaddleLaneWakeDone at h
  refine onPresent_fixed (fun s => ?_) h
  repeat' with_reducible (first | rfl | refine ite_fixed ?_ ?_ | refine (laneWake_fixed ..).trans ?_ | split)

theorem execSaddleTrainingDone_fixed (d : DieId) (k : Side) (ok : Bool) (s : State) {s' : State}
    (h : execSaddleTrainingDone d k ok s = .next s') : s'.fixed = s.fixed := by
  unfold execSaddleTrainingDone at h
  refine onPresent_fixed (fun s => ?_) h
  repeat' with_reducible (first | rfl | refine ite_fixed ?_ ?_ | refine (trainingDone_fixed ..).trans ?_ | split)

theorem execSaddleLaneLoss_fixed (d : DieId) (k : Side) (s : State) {s' : State}
    (h : execSaddleLaneLoss d k s = .next s') : s'.fixed = s.fixed := by
  unfold execSaddleLaneLoss at h
  refine onPresent_fixed (fun s => ?_) h
  repeat' with_reducible (first | rfl | refine ite_fixed ?_ ?_ | refine (fenceSaddle_fixed ..).trans ?_ | split)

end Sys2Proof.Machine
end

