-- ==== Sys2Proof/Laws/Fixed/Summit.lean ====
section
/-! SUPPORT. What the operations of Machine/Summit.lean leave as it is: the part, the queue, the clock, the anti-rollback
counter and the revocation bits. -/

set_option linter.all false
set_option maxRecDepth 4000

namespace Sys2Proof.Machine

theorem onBeacon_fixed (d : ℕ) (f : Beacon → Beacon) (s : State) :
    (onBeacon d f s).fixed = s.fixed := by
  unfold onBeacon
  repeat' with_reducible (first | rfl | refine ite_fixed ?_ ?_ | refine (State.onDie_fixed ..).trans ?_ | split)

theorem joinElection_fixed (d : ℕ) (s : State) :
    (joinElection d s).fixed = s.fixed := by
  unfold joinElection
  repeat' with_reducible (first | rfl | refine ite_fixed ?_ ?_ | refine (onBeacon_fixed ..).trans ?_ | split)

theorem heartbeat_fixed (s : State) :
    (heartbeat s).fixed = s.fixed := by
  unfold heartbeat
  repeat' with_reducible (first | rfl | refine ite_fixed ?_ ?_ | refine (State.onDies_fixed ..).trans ?_ | split)

theorem heartbeatTimeout_fixed (d : ℕ) (s : State) :
    (heartbeatTimeout d s).fixed = s.fixed := by
  unfold heartbeatTimeout
  repeat' with_reducible (first | rfl | refine ite_fixed ?_ ?_ | refine (State.pinc_fixed ..).trans ?_ | refine (joinElection_fixed ..).trans ?_ | split)

theorem startPulse_fixed (d : ℕ) (s : State) :
    (startPulse d s).fixed = s.fixed := by
  unfold startPulse
  repeat' with_reducible (first | rfl | refine ite_fixed ?_ ?_ | refine (joinElection_fixed ..).trans ?_ | split)

theorem takeSummit_fixed (d : ℕ) (s : State) :
    (takeSummit d s).fixed = s.fixed := by
  unfold takeSummit
  repeat' with_reducible (first | rfl | refine ite_fixed ?_ ?_ | intro _ | refine (State.pinc_fixed ..).trans ?_ | refine (State.pset_fixed ..).trans ?_ | refine (onBeacon_fixed ..).trans ?_ | refine (ownRecord_fixed ..).trans ?_ | refine (topology_fixed ..).trans ?_ | split | refine (foldl_fixed _ _ _ ?_).trans ?_ | simp only [↓State.fixed_mk, ↓State.fixed_def, State.fixed_def])

theorem electionSample_fixed (d : ℕ) (s : State) :
    (electionSample d s).fixed = s.fixed := by
  unfold electionSample
  repeat' with_reducible (first | rfl | refine ite_fixed ?_ ?_ | refine (onBeacon_fixed ..).trans ?_ | refine (takeSummit_fixed ..).trans ?_ | split)

theorem noSummit_fixed (s : State) :
    (noSummit s).fixed = s.fixed := by
  unfold noSummit
  repeat' with_reducible (first | rfl | refine ite_fixed ?_ ?_ | intro _ | refine (State.report_fixed ..).trans ?_ | split | refine (foldl_fixed _ _ _ ?_).trans ?_ | simp only [↓State.fixed_mk, ↓State.fixed_def, State.fixed_def])

theorem beaconStuck_fixed (d : ℕ) (st : ℕ) (s : State) :
    (beaconStuck d st s).fixed = s.fixed := by
  unfold beaconStuck
  repeat' with_reducible (first | rfl | refine ite_fixed ?_ ?_ | intro _ | refine (State.each_fixed _ _ _ ?_).trans ?_ | refine (State.pset_fixed ..).trans ?_ | refine (State.report_fixed ..).trans ?_ | refine (State.sendSide_fixed ..).trans ?_ | refine (onBeacon_fixed ..).trans ?_ | refine (setLost_fixed ..).trans ?_ | split | refine (foldl_fixed _ _ _ ?_).trans ?_ | simp only [↓State.fixed_mk, ↓State.fixed_def, State.fixed_def])

theorem stuckHigh_fixed (d : ℕ) (s : State) :
    (stuckHigh d s).fixed = s.fixed := by
  unfold stuckHigh
  repeat' with_reducible (first | rfl | refine ite_fixed ?_ ?_ | refine (beaconStuck_fixed ..).trans ?_ | split)

theorem beaconNotice_fixed (d : ℕ) (s : State) :
    (beaconNotice d s).fixed = s.fixed := by
  unfold beaconNotice
  repeat' with_reducible (first | rfl | refine ite_fixed ?_ ?_ | intro _ | refine (State.receive_fixed _ _ _ _ ?_).trans ?_ | refine (onBeacon_fixed ..).trans ?_ | split | refine (foldl_fixed _ _ _ ?_).trans ?_ | simp only [↓State.fixed_mk, ↓State.fixed_def, State.fixed_def])

theorem tokenTick_fixed (s : State) :
    (tokenTick s).fixed = s.fixed := by
  unfold tokenTick
  repeat' with_reducible (first | rfl | refine ite_fixed ?_ ?_ | intro _ | refine (State.each_fixed _ _ _ ?_).trans ?_ | refine (State.sendSide_fixed ..).trans ?_ | split | refine (foldl_fixed _ _ _ ?_).trans ?_ | simp only [↓State.fixed_mk, ↓State.fixed_def, State.fixed_def])

theorem tokenReceive_fixed (d : ℕ) (s : State) :
    (tokenReceive d s).fixed = s.fixed := by
  unfold tokenReceive
  repeat' with_reducible (first | rfl | refine ite_fixed ?_ ?_ | intro _ | refine (State.each_fixed _ _ _ ?_).trans ?_ | refine (State.receive_fixed _ _ _ _ ?_).trans ?_ | refine (State.sendSide_fixed ..).trans ?_ | refine (onBeacon_fixed ..).trans ?_ | split | refine (foldl_fixed _ _ _ ?_).trans ?_ | simp only [↓State.fixed_mk, ↓State.fixed_def, State.fixed_def])

theorem tokenTimeout_fixed (d : ℕ) (s : State) :
    (tokenTimeout d s).fixed = s.fixed := by
  unfold tokenTimeout
  repeat' with_reducible (first | rfl | refine ite_fixed ?_ ?_ | refine (degradeMode_fixed ..).trans ?_ | refine (isolate_fixed ..).trans ?_ | refine (majority_fixed ..).trans ?_ | split)

theorem execHeartbeatTick_fixed (s : State) {s' : State}
    (h : execHeartbeatTick s = .next s') : s'.fixed = s.fixed := by
  unfold execHeartbeatTick at h
  cases h
  repeat' with_reducible (first | rfl | refine ite_fixed ?_ ?_ | refine (heartbeat_fixed ..).trans ?_ | split)

theorem execHeartbeatTimeout_fixed (d : DieId) (s : State) {s' : State}
    (h : execHeartbeatTimeout d s = .next s') : s'.fixed = s.fixed := by
  unfold execHeartbeatTimeout at h
  refine onPresent_fixed (fun s => ?_) h
  repeat' with_reducible (first | rfl | refine ite_fixed ?_ ?_ | refine (heartbeatTimeout_fixed ..).trans ?_ | split)

theorem execStartPulseSeen_fixed (d : DieId) (s : State) {s' : State}
    (h : execStartPulseSeen d s = .next s') : s'.fixed = s.fixed := by
  unfold execStartPulseSeen at h
  refine onPresent_fixed (fun s => ?_) h
  repeat' with_reducible (first | rfl | refine ite_fixed ?_ ?_ | refine (startPulse_fixed ..).trans ?_ | split)

theorem execElectionBitSample_fixed (d : DieId) (s : State) {s' : State}
    (h : execElectionBitSample d s = .next s') : s'.fixed = s.fixed := by
  unfold execElectionBitSample at h
  refine onPresent_fixed (fun s => ?_) h
  repeat' with_reducible (first | rfl | refine ite_fixed ?_ ?_ | refine (electionSample_fixed ..).trans ?_ | split)

theorem execElectionNoSummit_fixed (s : State) {s' : State}
    (h : execElectionNoSummit s = .next s') : s'.fixed = s.fixed := by
  unfold execElectionNoSummit at h
  cases h
  repeat' with_reducible (first | rfl | refine ite_fixed ?_ ?_ | refine (noSummit_fixed ..).trans ?_ | split)

theorem execBeaconStuckLow_fixed (d : DieId) (s : State) {s' : State}
    (h : execBeaconStuckLow d s = .next s') : s'.fixed = s.fixed := by
  unfold execBeaconStuckLow at h
  refine onPresent_fixed (fun s => ?_) h
  repeat' with_reducible (first | rfl | refine ite_fixed ?_ ?_ | refine (beaconStuck_fixed ..).trans ?_ | split)

theorem execBeaconStuckHigh_fixed (d : DieId) (s : State) {s' : State}
    (h : execBeaconStuckHigh d s = .next s') : s'.fixed = s.fixed := by
  unfold execBeaconStuckHigh at h
  refine onPresent_fixed (fun s => ?_) h
  repeat' with_reducible (first | rfl | refine ite_fixed ?_ ?_ | refine (stuckHigh_fixed ..).trans ?_ | split)

theorem execBeaconFaultyNotice_fixed (d : DieId) (s : State) {s' : State}
    (h : execBeaconFaultyNotice d s = .next s') : s'.fixed = s.fixed := by
  unfold execBeaconFaultyNotice at h
  refine onPresent_fixed (fun s => ?_) h
  repeat' with_reducible (first | rfl | refine ite_fixed ?_ ?_ | refine (beaconNotice_fixed ..).trans ?_ | split)

theorem execSummitTokenTick_fixed (s : State) {s' : State}
    (h : execSummitTokenTick s = .next s') : s'.fixed = s.fixed := by
  unfold execSummitTokenTick at h
  cases h
  repeat' with_reducible (first | rfl | refine ite_fixed ?_ ?_ | refine (tokenTick_fixed ..).trans ?_ | split)

theorem execSummitTokenReceive_fixed (d : DieId) (s : State) {s' : State}
    (h : execSummitTokenReceive d s = .next s') : s'.fixed = s.fixed := by
  unfold execSummitTokenReceive at h
  refine onPresent_fixed (fun s => ?_) h
  repeat' with_reducible (first | rfl | refine ite_fixed ?_ ?_ | refine (tokenReceive_fixed ..).trans ?_ | split)

theorem execTokenTimeout_fixed (d : DieId) (s : State) {s' : State}
    (h : execTokenTimeout d s = .next s') : s'.fixed = s.fixed := by
  unfold execTokenTimeout at h
  refine onPresent_fixed (fun s => ?_) h
  repeat' with_reducible (first | rfl | refine ite_fixed ?_ ?_ | refine (tokenTimeout_fixed ..).trans ?_ | split)

end Sys2Proof.Machine
end

