-- ==== Sys2Proof/Laws/Fixed/FaultLog.lean ====
section
/-! SUPPORT. What the operations of Machine/FaultLog.lean leave as it is: the part, the queue, the clock, the anti-rollback
counter and the revocation bits. -/

set_option linter.all false
set_option maxRecDepth 4000

namespace Sys2Proof.Machine

theorem oneCopy_fixed (d : ℕ) (sub : ℕ) (n : ℕ) (s : State) :
    (oneCopy d sub n s).fixed = s.fixed := by
  unfold oneCopy
  repeat' with_reducible (first | rfl | refine ite_fixed ?_ ?_ | intro _ | refine (State.each_fixed _ _ _ ?_).trans ?_ | refine (onBucket_fixed ..).trans ?_ | split | refine (foldl_fixed _ _ _ ?_).trans ?_ | simp only [↓State.fixed_mk, ↓State.fixed_def, State.fixed_def])

theorem spareRebuilt_fixed (d : ℕ) (sub : ℕ) (s : State) :
    (spareRebuilt d sub s).fixed = s.fixed := by
  unfold spareRebuilt
  (try dsimp only)
  repeat' with_reducible (first | rfl | assumption | intro _ | refine ite_fixed ?_ ?_ | refine ite_snd_fixed ?_ ?_ | refine ite_snd2_fixed ?_ ?_ | refine getD_fixed ?_ ?_ | refine ite_elim_fixed ?_ ?_ | refine (some_elim_fixed ..).trans ?_ | refine (none_elim_fixed ..).trans ?_ | refine ite_fst_elim_fixed ?_ ?_ | refine map_elim_fixed ?_ ?_ | refine bind_elim_fixed ?_ ?_ | refine foldl_elim_fixed _ _ _ ?_ ?_ | refine (State.each_fixed _ _ _ ?_).trans ?_ | refine (State.onDie_fixed ..).trans ?_ | refine (oneCopy_fixed ..).trans ?_ | refine (scrubRepair_fixed ..).trans ?_ | refine (shadowRead_fixed ..).trans ?_ | refine snd_fixed (by assumption) ?_ | refine snd2_fixed (by assumption) ?_ | refine fst_elim_fixed (by assumption) ?_ | refine of_some_fixed (by assumption) ?_ | split | refine (foldl_fixed _ _ _ ?_).trans ?_ | refine (foldl_fixed_snd _ _ _ ?_).trans ?_ | refine (foldl_fixed_snd2 _ _ _ ?_).trans ?_ | simp only [↓State.fixed_mk, ↓State.fixed_def, State.fixed_def])

theorem dumpWrite_fixed (d : ℕ) (c : Cairn) (s : State) :
    (dumpWrite d c s).fixed = s.fixed := by
  unfold dumpWrite
  repeat' with_reducible (first | rfl | refine ite_fixed ?_ ?_ | refine (State.onDie_fixed ..).trans ?_ | refine (State.pinc_fixed ..).trans ?_ | refine (State.pset_fixed ..).trans ?_ | split)

theorem startDump_fixed (d : ℕ) (trigger : FaultRec) (pkg : Mode) (die : Mode) (s : State) :
    (startDump d trigger pkg die s).fixed = s.fixed := by
  unfold startDump
  repeat' with_reducible (first | rfl | refine ite_fixed ?_ ?_ | refine (State.pset_fixed ..).trans ?_ | refine (dumpWrite_fixed ..).trans ?_ | split)

theorem recordStands_fixed (d : ℕ) (c : Cairn) (s : State) :
    (recordStands d c s).fixed = s.fixed := by
  unfold recordStands
  (try dsimp only)
  repeat' with_reducible (first | rfl | assumption | intro _ | refine ite_fixed ?_ ?_ | refine ite_snd_fixed ?_ ?_ | refine ite_snd2_fixed ?_ ?_ | refine getD_fixed ?_ ?_ | refine ite_elim_fixed ?_ ?_ | refine (some_elim_fixed ..).trans ?_ | refine (none_elim_fixed ..).trans ?_ | refine ite_fst_elim_fixed ?_ ?_ | refine map_elim_fixed ?_ ?_ | refine bind_elim_fixed ?_ ?_ | refine foldl_elim_fixed _ _ _ ?_ ?_ | refine (State.onDie_fixed ..).trans ?_ | refine (State.pinc_fixed ..).trans ?_ | refine (State.pset_fixed ..).trans ?_ | refine snd_fixed (by assumption) ?_ | refine snd2_fixed (by assumption) ?_ | refine fst_elim_fixed (by assumption) ?_ | refine of_some_fixed (by assumption) ?_ | split | refine (foldl_fixed _ _ _ ?_).trans ?_ | refine (foldl_fixed_snd _ _ _ ?_).trans ?_ | refine (foldl_fixed_snd2 _ _ _ ?_).trans ?_ | simp only [↓State.fixed_mk, ↓State.fixed_def, State.fixed_def])

theorem stopDumps_fixed (s : State) :
    (stopDumps s).fixed = s.fixed := by
  unfold stopDumps
  repeat' with_reducible (first | rfl | refine ite_fixed ?_ ?_ | intro _ | refine (State.each_fixed _ _ _ ?_).trans ?_ | refine (recordStands_fixed ..).trans ?_ | split | refine (foldl_fixed _ _ _ ?_).trans ?_ | simp only [↓State.fixed_mk, ↓State.fixed_def, State.fixed_def])

theorem fenceInjected_fixed (d : ℕ) (r : FaultRec) (s : State) :
    (fenceInjected d r s).fixed = s.fixed := by
  unfold fenceInjected
  repeat' with_reducible (first | rfl | refine ite_fixed ?_ ?_ | refine (State.dinc_fixed ..).trans ?_ | refine (State.dset_fixed ..).trans ?_ | refine (State.fresh_fixed ..).trans ?_ | refine (State.onDie_fixed ..).trans ?_ | refine (fenceBank_fixed ..).trans ?_ | refine (fenceCluster_fixed ..).trans ?_ | refine (fenceEnds_fixed ..).trans ?_ | refine (linkFenced_fixed ..).trans ?_ | refine (linkVoid_fixed ..).trans ?_ | refine (setPage_fixed ..).trans ?_ | refine (stackFenced_fixed ..).trans ?_ | refine (wakeSet_fixed ..).trans ?_ | split)

theorem react_fixed (d : ℕ) (r : FaultRec) (s : State) :
    (react d r s).fixed = s.fixed := by
  unfold react
  repeat' with_reducible (first | rfl | refine ite_fixed ?_ ?_ | intro _ | refine (State.each_fixed _ _ _ ?_).trans ?_ | refine (enterFaultHold_fixed ..).trans ?_ | refine (enterLocked_fixed ..).trans ?_ | refine (fenceInjected_fixed ..).trans ?_ | refine (setLost_fixed ..).trans ?_ | refine (startDump_fixed ..).trans ?_ | refine (stopDumps_fixed ..).trans ?_ | split | refine (foldl_fixed _ _ _ ?_).trans ?_ | simp only [↓State.fixed_mk, ↓State.fixed_def, State.fixed_def])

theorem queueSend_fixed (d : ℕ) (update : Bool) (r : FaultRec) (s : State) :
    (queueSend d update r s).fixed = s.fixed := by
  unfold queueSend
  repeat' with_reducible (first | rfl | refine ite_fixed ?_ ?_ | refine (State.onDie_fixed ..).trans ?_ | refine (State.pinc_fixed ..).trans ?_ | split)

theorem sendRecordsN_fixed (d : ℕ) (m : ℕ) (a2 : List (Bool × FaultRec)) (a3 : State) :
    (sendRecordsN d m a2 a3).fixed = a3.fixed := by
  induction a2 generalizing a3 with
  | nil => rfl
  | cons x l ih =>
    unfold sendRecordsN
    (try dsimp only)
    repeat' with_reducible (first | rfl | refine (ih ..).trans ?_ | assumption | intro _ | refine ite_fixed ?_ ?_ | refine ite_snd_fixed ?_ ?_ | refine ite_snd2_fixed ?_ ?_ | refine getD_fixed ?_ ?_ | refine ite_elim_fixed ?_ ?_ | refine (some_elim_fixed ..).trans ?_ | refine (none_elim_fixed ..).trans ?_ | refine ite_fst_elim_fixed ?_ ?_ | refine map_elim_fixed ?_ ?_ | refine bind_elim_fixed ?_ ?_ | refine foldl_elim_fixed _ _ _ ?_ ?_ | refine (State.onDie_fixed ..).trans ?_ | refine (State.send_fixed ..).trans ?_ | refine snd_fixed (by assumption) ?_ | refine snd2_fixed (by assumption) ?_ | refine fst_elim_fixed (by assumption) ?_ | refine of_some_fixed (by assumption) ?_ | split | refine (foldl_fixed _ _ _ ?_).trans ?_ | refine (foldl_fixed_snd _ _ _ ?_).trans ?_ | refine (foldl_fixed_snd2 _ _ _ ?_).trans ?_ | simp only [↓State.fixed_mk, ↓State.fixed_def, State.fixed_def])

theorem sendRecords_fixed (d : ℕ) (s : State) :
    (sendRecords d s).fixed = s.fixed := by
  unfold sendRecords
  repeat' with_reducible (first | rfl | refine ite_fixed ?_ ?_ | intro _ | refine (State.onDie_fixed ..).trans ?_ | refine (sendRecordsN_fixed ..).trans ?_ | split | refine (foldl_fixed _ _ _ ?_).trans ?_ | simp only [↓State.fixed_mk, ↓State.fixed_def, State.fixed_def])

theorem logWrite_fixed (d : ℕ) (r : FaultRec) (s : State) :
    (logWrite d r s).fixed = s.fixed := by
  unfold logWrite
  repeat' with_reducible (first | rfl | refine ite_fixed ?_ ?_ | refine (State.onDie_fixed ..).trans ?_ | refine (State.pset_fixed ..).trans ?_ | refine (queueSend_fixed ..).trans ?_ | refine (react_fixed ..).trans ?_ | split)

theorem mergeRecord_fixed (d : ℕ) (s : State) :
    (mergeRecord d s).fixed = s.fixed := by
  unfold mergeRecord
  repeat' with_reducible (first | rfl | refine ite_fixed ?_ ?_ | refine (State.onDie_fixed ..).trans ?_ | refine (queueSend_fixed ..).trans ?_ | split)

theorem acceptOne_fixed (d : ℕ) (x : Bool × State) (r : FaultRec) :
    (acceptOne d x r).2.fixed = x.2.fixed := by
  unfold acceptOne
  repeat' with_reducible (first | rfl | refine ite_fixed ?_ ?_ | refine (State.onDie_fixed ..).trans ?_ | refine (logWrite_fixed ..).trans ?_ | refine (mergeRecord_fixed ..).trans ?_ | split)

theorem faultAccept_fixed (d : ℕ) (n : ℕ) (s : State) :
    (faultAccept d n s).fixed = s.fixed := by
  unfold faultAccept
  (try dsimp only)
  repeat' with_reducible (first | rfl | assumption | intro _ | refine ite_fixed ?_ ?_ | refine ite_snd_fixed ?_ ?_ | refine ite_snd2_fixed ?_ ?_ | refine getD_fixed ?_ ?_ | refine ite_elim_fixed ?_ ?_ | refine (some_elim_fixed ..).trans ?_ | refine (none_elim_fixed ..).trans ?_ | refine ite_fst_elim_fixed ?_ ?_ | refine map_elim_fixed ?_ ?_ | refine bind_elim_fixed ?_ ?_ | refine foldl_elim_fixed _ _ _ ?_ ?_ | refine (State.onDie_fixed ..).trans ?_ | refine (acceptOne_fixed ..).trans ?_ | refine (sendRecords_fixed ..).trans ?_ | refine snd_fixed (by assumption) ?_ | refine snd2_fixed (by assumption) ?_ | refine fst_elim_fixed (by assumption) ?_ | refine of_some_fixed (by assumption) ?_ | split | refine (foldl_fixed _ _ _ ?_).trans ?_ | refine (foldl_fixed_snd _ _ _ ?_).trans ?_ | refine (foldl_fixed_snd2 _ _ _ ?_).trans ?_ | simp only [↓State.fixed_mk, ↓State.fixed_def, State.fixed_def])

theorem commitRecord_fixed (r : FaultRec) (s : State) :
    (commitRecord r s).fixed = s.fixed := by
  unfold commitRecord
  repeat' with_reducible (first | rfl | refine ite_fixed ?_ ?_ | intro _ | refine (State.each_fixed _ _ _ ?_).trans ?_ | refine (State.pinc_fixed ..).trans ?_ | refine (State.pset_fixed ..).trans ?_ | refine (fireMsix_fixed ..).trans ?_ | split | refine (foldl_fixed _ _ _ ?_).trans ?_ | simp only [↓State.fixed_mk, ↓State.fixed_def, State.fixed_def])

theorem faultReceive_fixed (s : State) :
    (faultReceive s).fixed = s.fixed := by
  unfold faultReceive
  repeat' with_reducible (first | rfl | refine ite_fixed ?_ ?_ | intro _ | refine (State.pset_fixed ..).trans ?_ | refine (State.receive_fixed _ _ _ _ ?_).trans ?_ | refine (commitRecord_fixed ..).trans ?_ | refine (degradeMode_fixed ..).trans ?_ | refine (domReview_fixed ..).trans ?_ | split | refine (foldl_fixed _ _ _ ?_).trans ?_ | simp only [↓State.fixed_mk, ↓State.fixed_def, State.fixed_def])

theorem stagingCommit_fixed (s : State) :
    (stagingCommit s).fixed = s.fixed := by
  unfold stagingCommit
  repeat' with_reducible (first | rfl | refine ite_fixed ?_ ?_ | intro _ | refine (commitRecord_fixed ..).trans ?_ | split | refine (foldl_fixed _ _ _ ?_).trans ?_ | simp only [↓State.fixed_mk, ↓State.fixed_def, State.fixed_def])

theorem repeatReceive_fixed (s : State) :
    (repeatReceive s).fixed = s.fixed := by
  unfold repeatReceive
  repeat' with_reducible (first | rfl | refine ite_fixed ?_ ?_ | intro _ | refine (State.receive_fixed _ _ _ _ ?_).trans ?_ | split | refine (foldl_fixed _ _ _ ?_).trans ?_ | simp only [↓State.fixed_mk, ↓State.fixed_def, State.fixed_def])

theorem logAck_fixed (v : ℕ) (s : State) :
    (logAck v s).2.fixed = s.fixed := by
  unfold logAck
  repeat' with_reducible (first | rfl | refine ite_fixed ?_ ?_ | intro _ | refine (State.each_fixed _ _ _ ?_).trans ?_ | refine (clearLost_fixed ..).trans ?_ | split | refine (foldl_fixed _ _ _ ?_).trans ?_ | simp only [↓State.fixed_mk, ↓State.fixed_def, State.fixed_def])

theorem firstFaultClear_fixed (s : State) :
    (firstFaultClear s).2.fixed = s.fixed := by
  unfold firstFaultClear
  repeat' with_reducible (first | rfl | refine ite_fixed ?_ ?_ | intro _ | refine (State.each_fixed _ _ _ ?_).trans ?_ | refine (State.pset_fixed ..).trans ?_ | split | refine (foldl_fixed _ _ _ ?_).trans ?_ | simp only [↓State.fixed_mk, ↓State.fixed_def, State.fixed_def])

theorem dumpNow_fixed (v : ℕ) (s : State) :
    (dumpNow v s).2.fixed = s.fixed := by
  unfold dumpNow
  repeat' with_reducible (first | rfl | refine ite_fixed ?_ ?_ | intro _ | refine (State.each_fixed _ _ _ ?_).trans ?_ | refine (startDump_fixed ..).trans ?_ | split | refine (foldl_fixed _ _ _ ?_).trans ?_ | simp only [↓State.fixed_mk, ↓State.fixed_def, State.fixed_def])

theorem dumpAck_fixed (v : ℕ) (s : State) :
    (dumpAck v s).2.fixed = s.fixed := by
  unfold dumpAck
  repeat' with_reducible (first | rfl | refine ite_fixed ?_ ?_ | intro _ | refine (State.each_fixed _ _ _ ?_).trans ?_ | refine (State.pset_fixed ..).trans ?_ | split | refine (foldl_fixed _ _ _ ?_).trans ?_ | simp only [↓State.fixed_mk, ↓State.fixed_def, State.fixed_def])

theorem heldDumpPath_fixed (d : ℕ) (s : State) :
    (heldDumpPath d s).fixed = s.fixed := by
  unfold heldDumpPath
  repeat' with_reducible (first | rfl | refine ite_fixed ?_ ?_ | refine (dumpWrite_fixed ..).trans ?_ | split)

theorem faultInject_fixed (v : ℕ) (s : State) :
    (faultInject v s).2.fixed = s.fixed := by
  unfold faultInject
  dsimp only
  repeat' with_reducible (first | rfl | refine ite_fixed ?_ ?_ | refine (State.onDie_fixed ..).trans ?_ | refine (State.post_fixed ..).trans ?_ | split)

theorem execFaultAccept_fixed (d : DieId) (n : Fin 5) (s : State) {s' : State}
    (h : execFaultAccept d n s = .next s') : s'.fixed = s.fixed := by
  unfold execFaultAccept at h
  refine onPresent_fixed (fun s => ?_) h
  repeat' with_reducible (first | rfl | refine ite_fixed ?_ ?_ | refine (faultAccept_fixed ..).trans ?_ | split)

theorem execFaultRecordReceive_fixed (s : State) {s' : State}
    (h : execFaultRecordReceive s = .next s') : s'.fixed = s.fixed := by
  unfold execFaultRecordReceive at h
  cases h
  repeat' with_reducible (first | rfl | refine ite_fixed ?_ ?_ | refine (faultReceive_fixed ..).trans ?_ | split)

theorem execFaultStagingCommit_fixed (s : State) {s' : State}
    (h : execFaultStagingCommit s = .next s') : s'.fixed = s.fixed := by
  unfold execFaultStagingCommit at h
  cases h
  repeat' with_reducible (first | rfl | refine ite_fixed ?_ ?_ | refine (stagingCommit_fixed ..).trans ?_ | split)

theorem execRepeatUpdateReceive_fixed (s : State) {s' : State}
    (h : execRepeatUpdateReceive s = .next s') : s'.fixed = s.fixed := by
  unfold execRepeatUpdateReceive at h
  cases h
  repeat' with_reducible (first | rfl | refine ite_fixed ?_ ?_ | refine (repeatReceive_fixed ..).trans ?_ | split)

theorem execHeldDumpPath_fixed (d : DieId) (s : State) {s' : State}
    (h : execHeldDumpPath d s = .next s') : s'.fixed = s.fixed := by
  unfold execHeldDumpPath at h
  refine onPresent_fixed (fun s => ?_) h
  repeat' with_reducible (first | rfl | refine ite_fixed ?_ ?_ | refine (heldDumpPath_fixed ..).trans ?_ | split)

theorem execSpareRebuildDone_fixed (d : DieId) (sub : Fin 256) (s : State) {s' : State}
    (h : execSpareRebuildDone d sub s = .next s') : s'.fixed = s.fixed := by
  unfold execSpareRebuildDone at h
  refine onPresent_fixed (fun s => ?_) h
  repeat' with_reducible (first | rfl | refine ite_fixed ?_ ?_ | refine (spareRebuilt_fixed ..).trans ?_ | split)

theorem watchdog_fixed (d : ℕ) (s : State) :
    (watchdog d s).fixed = s.fixed := by
  unfold watchdog
  repeat' with_reducible (first | rfl | refine ite_fixed ?_ ?_ | refine (State.report_fixed ..).trans ?_ | split)

theorem execWatchdogExpire_fixed (d : DieId) (s : State) {s' : State}
    (h : execWatchdogExpire d s = .next s') : s'.fixed = s.fixed := by
  unfold execWatchdogExpire at h
  refine onPresent_fixed (fun s => ?_) h
  repeat' with_reducible (first | rfl | refine ite_fixed ?_ ?_ | refine (watchdog_fixed ..).trans ?_ | split)

end Sys2Proof.Machine
end

