-- ==== Sys2Proof/Laws/Fixed/Cxl.lean ====
section
/-! SUPPORT. What the operations of Machine/Cxl.lean leave as it is: the part, the queue, the clock, the anti-rollback
counter and the revocation bits. -/

set_option linter.all false
set_option maxRecDepth 4000

namespace Sys2Proof.Machine

theorem cxlFail_fixed (d : ℕ) (cause : ℕ) (s : State) :
    (cxlFail d cause s).fixed = s.fixed := by
  unfold cxlFail
  repeat' with_reducible (first | rfl | refine ite_fixed ?_ ?_ | refine (State.dset_fixed ..).trans ?_ | refine (State.report_fixed ..).trans ?_ | split)

theorem cxlTimeout_fixed (d : ℕ) (unsupported : Bool) (s : State) :
    (cxlTimeout d unsupported s).fixed = s.fixed := by
  unfold cxlTimeout
  repeat' with_reducible (first | rfl | refine ite_fixed ?_ ?_ | refine (cxlFail_fixed ..).trans ?_ | split)

theorem cxlConfigure_fixed (d : ℕ) (cause : ℕ) (s : State) :
    (cxlConfigure d cause s).fixed = s.fixed := by
  unfold cxlConfigure
  repeat' with_reducible (first | rfl | refine ite_fixed ?_ ?_ | refine (State.dset_fixed ..).trans ?_ | refine (clearLost_fixed ..).trans ?_ | refine (clearMap_fixed ..).trans ?_ | refine (cxlFail_fixed ..).trans ?_ | split)

theorem cxlTrained_fixed (d : ℕ) (rate : ℕ) (width : ℕ) (cap : ℕ) (s : State) :
    (cxlTrained d rate width cap s).fixed = s.fixed := by
  unfold cxlTrained
  repeat' with_reducible (first | rfl | refine ite_fixed ?_ ?_ | refine (State.dset_fixed ..).trans ?_ | refine (State.reportOpen_fixed ..).trans ?_ | split)

theorem cxlActive_fixed (d : ℕ) (rate : ℕ) (width : ℕ) (cap : ℕ) (s : State) :
    (cxlActive d rate width cap s).fixed = s.fixed := by
  unfold cxlActive
  repeat' with_reducible (first | rfl | refine ite_fixed ?_ ?_ | refine (cxlConfigure_fixed ..).trans ?_ | refine (cxlTrained_fixed ..).trans ?_ | split)

theorem cxlDown_fixed (d : ℕ) (cause : ℕ) (inFlight : ℕ) (s : State) :
    (cxlDown d cause inFlight s).fixed = s.fixed := by
  unfold cxlDown
  repeat' with_reducible (first | rfl | refine ite_fixed ?_ ?_ | refine (State.dinc_fixed ..).trans ?_ | refine (State.dset_fixed ..).trans ?_ | refine (State.onDie_fixed ..).trans ?_ | refine (State.report_fixed ..).trans ?_ | split)

theorem cxlRetrain_fixed (d : ℕ) (committed : Bool) (rate : ℕ) (width : ℕ) (cap : ℕ) (s : State) :
    (cxlRetrain d committed rate width cap s).fixed = s.fixed := by
  unfold cxlRetrain
  repeat' with_reducible (first | rfl | refine ite_fixed ?_ ?_ | intro _ | refine (State.dinc_fixed ..).trans ?_ | refine (State.dset_fixed ..).trans ?_ | refine (State.each_fixed _ _ _ ?_).trans ?_ | refine (State.onDie_fixed ..).trans ?_ | refine (State.report_fixed ..).trans ?_ | refine (clearLost_fixed ..).trans ?_ | refine (countAdd_fixed ..).trans ?_ | refine (cxlConfigure_fixed ..).trans ?_ | refine (cxlTrained_fixed ..).trans ?_ | refine (keptAgain_fixed ..).trans ?_ | split | refine (foldl_fixed _ _ _ ?_).trans ?_ | simp only [↓State.fixed_mk, ↓State.fixed_def, State.fixed_def])

theorem cxlPoll_fixed (d : ℕ) (n : ℕ) (replays : ℕ) (s : State) :
    (cxlPoll d n replays s).fixed = s.fixed := by
  unfold cxlPoll
  repeat' with_reducible (first | rfl | refine ite_fixed ?_ ?_ | intro _ | refine (State.dinc_fixed ..).trans ?_ | refine (State.each_fixed _ _ _ ?_).trans ?_ | refine (State.reportOpen_fixed ..).trans ?_ | split | refine (foldl_fixed _ _ _ ?_).trans ?_ | simp only [↓State.fixed_mk, ↓State.fixed_def, State.fixed_def])

theorem endpointLink_fixed (e : ℕ) (rate : ℕ) (width : ℕ) (s : State) :
    (endpointLink e rate width s).fixed = s.fixed := by
  unfold endpointLink
  repeat' with_reducible (first | rfl | refine ite_fixed ?_ ?_ | refine (State.pset_fixed ..).trans ?_ | refine (clearLost_fixed ..).trans ?_ | split)

theorem endpointRestart_fixed (e : ℕ) (rate : ℕ) (width : ℕ) (s : State) :
    (endpointRestart e rate width s).fixed = s.fixed := by
  unfold endpointRestart
  repeat' with_reducible (first | rfl | refine ite_fixed ?_ ?_ | intro _ | refine (endpointLink_fixed ..).trans ?_ | refine (endpointReset_fixed ..).trans ?_ | split | refine (foldl_fixed _ _ _ ?_).trans ?_ | simp only [↓State.fixed_mk, ↓State.fixed_def, State.fixed_def])

theorem execCxlBringupTimeout_fixed (d : DieId) (unsupported : Bool) (s : State) {s' : State}
    (h : execCxlBringupTimeout d unsupported s = .next s') : s'.fixed = s.fixed := by
  unfold execCxlBringupTimeout at h
  refine onPresent_fixed (fun s => ?_) h
  repeat' with_reducible (first | rfl | refine ite_fixed ?_ ?_ | refine (cxlTimeout_fixed ..).trans ?_ | split)

theorem execCxlMemoryActive_fixed (d : DieId) (rate : Fin 7) (width : Fin 5) (cap : BitVec 64) (s : State) {s' : State}
    (h : execCxlMemoryActive d rate width cap s = .next s') : s'.fixed = s.fixed := by
  unfold execCxlMemoryActive at h
  refine onPresent_fixed (fun s => ?_) h
  repeat' with_reducible (first | rfl | refine ite_fixed ?_ ?_ | refine (cxlActive_fixed ..).trans ?_ | split)

theorem execCxlLinkLost_fixed (d : DieId) (inFlight : Fin 4097) (s : State) {s' : State}
    (h : execCxlLinkLost d inFlight s = .next s') : s'.fixed = s.fixed := by
  unfold execCxlLinkLost at h
  refine onPresent_fixed (fun s => ?_) h
  repeat' with_reducible (first | rfl | refine ite_fixed ?_ ?_ | refine (cxlDown_fixed ..).trans ?_ | split)

theorem execCxlCompletionTimeout_fixed (d : DieId) (inFlight : Fin 4097) (s : State) {s' : State}
    (h : execCxlCompletionTimeout d inFlight s = .next s') : s'.fixed = s.fixed := by
  unfold execCxlCompletionTimeout at h
  refine onPresent_fixed (fun s => ?_) h
  repeat' with_reducible (first | rfl | refine ite_fixed ?_ ?_ | refine (cxlDown_fixed ..).trans ?_ | split)

theorem execCxlFatalError_fixed (d : DieId) (inFlight : Fin 4097) (s : State) {s' : State}
    (h : execCxlFatalError d inFlight s = .next s') : s'.fixed = s.fixed := by
  unfold execCxlFatalError at h
  refine onPresent_fixed (fun s => ?_) h
  repeat' with_reducible (first | rfl | refine ite_fixed ?_ ?_ | refine (cxlDown_fixed ..).trans ?_ | split)

theorem execCxlRetrain_fixed (d : DieId) (committed : Bool) (rate : Fin 7) (width : Fin 5) (cap : BitVec 64) (s : State) {s' : State}
    (h : execCxlRetrain d committed rate width cap s = .next s') : s'.fixed = s.fixed := by
  unfold execCxlRetrain at h
  refine onPresent_fixed (fun s => ?_) h
  repeat' with_reducible (first | rfl | refine ite_fixed ?_ ?_ | refine (cxlRetrain_fixed ..).trans ?_ | split)

theorem execCxlEventPoll_fixed (d : DieId) (n : ℕ) (replays : ℕ) (s : State) {s' : State}
    (h : execCxlEventPoll d n replays s = .next s') : s'.fixed = s.fixed := by
  unfold execCxlEventPoll at h
  refine onPresent_fixed (fun s => ?_) h
  repeat' with_reducible (first | rfl | refine ite_fixed ?_ ?_ | refine (cxlPoll_fixed ..).trans ?_ | split)

theorem execEndpointReset_fixed (e : Fin 2) (rate : Fin 6) (width : Fin 4) (s : State) {s' : State}
    (h : execEndpointReset e rate width s = .next s') : s'.fixed = s.fixed := by
  unfold execEndpointReset at h
  cases h
  repeat' with_reducible (first | rfl | refine ite_fixed ?_ ?_ | refine (endpointRestart_fixed ..).trans ?_ | split)

end Sys2Proof.Machine
end

