-- ==== Sys2Proof/Laws/Fixed/Cairn.lean ====
section
/-! SUPPORT. What the operations of Machine/Cairn.lean leave as it is: the part, the queue, the clock, the anti-rollback
counter and the revocation bits. -/

set_option linter.all false
set_option maxRecDepth 4000

namespace Sys2Proof.Machine

theorem dumpThrough_fixed (d : ℕ) (c : Cairn) (s : State) :
    (dumpThrough d c s).2.fixed = s.fixed := by
  have h : ∀ (l : List ℕ) (x : Bool × State), (l.foldl (fun (x : Bool × State) p =>
      ((x.1 && ((access d 4 p 0 x.2).1 == 0 || (access d 4 p 0 x.2).1 == 3)), (access d 4 p 0 x.2).2)) x).2.fixed = x.2.fixed :=
    fun l => List.rec (fun _ => rfl) (fun p l ih x => (ih _).trans (access_fixed ..)) l
  unfold dumpThrough
  generalize (if 2 ≤ c.dest then [] else slotPages s d c.dest (min c.length (cairnSpace s d c.dest))) = l
  dsimp only
  split
  · exact h l (true, s)
  · exact ((State.each_fixed _ _ _ (fun _ _ => cureLine_fixed ..)).trans (State.dinc_fixed ..)).trans (h l (true, s))

theorem cairnStore_fixed (d : ℕ) (bad : List (ℕ × ℕ)) (atts : List (ℕ × BitVec 64)) (c : Cairn) (s : State) :
    (cairnStore d bad atts c s).fixed = s.fixed := by
  unfold cairnStore
  repeat' with_reducible (first | rfl | refine ite_fixed ?_ ?_ | refine (State.fresh_fixed ..).trans ?_ | refine (dmaWrite_fixed ..).trans ?_ | refine (dumpThrough_fixed ..).trans ?_ | refine (recordStands_fixed ..).trans ?_ | split)

end Sys2Proof.Machine
end

