-- ==== Sys2Proof/Laws/Fixed/Image.lean ====
section
/-! SUPPORT. What the operations of Machine/Image.lean leave as it is: the part, the queue, the clock, the anti-rollback
counter and the revocation bits. -/

set_option linter.all false
set_option maxRecDepth 4000

namespace Sys2Proof.Machine

theorem slotState_fixed (k : ℕ) (st : ℕ) (s : State) :
    (slotState k st s).fixed = s.fixed := by
  unfold slotState
  repeat' with_reducible (first | rfl | refine ite_fixed ?_ ?_ | intro _ | refine (flashAccess_fixed ..).trans ?_ | split | refine (foldl_fixed _ _ _ ?_).trans ?_ | simp only [↓State.fixed_mk, ↓State.fixed_def, State.fixed_def])

theorem fwNotice_fixed (kind : ℕ) (addr : ℕ) (s : State) :
    (fwNotice kind addr s).fixed = s.fixed := by
  unfold fwNotice
  repeat' with_reducible (first | rfl | refine ite_fixed ?_ ?_ | refine (State.report_fixed ..).trans ?_ | split)

theorem emptyStaging_fixed (s : State) :
    (emptyStaging s).fixed = s.fixed := by
  unfold emptyStaging
  repeat' with_reducible (first | rfl | refine ite_fixed ?_ ?_ | intro _ | refine (flashAccess_fixed ..).trans ?_ | split | refine (foldl_fixed _ _ _ ?_).trans ?_ | simp only [↓State.fixed_mk, ↓State.fixed_def, State.fixed_def])

end Sys2Proof.Machine
end

