-- ==== Sys2Proof/Laws/Fixed/Reset.lean ====
section
/-! SUPPORT. What the operations of Machine/Reset.lean leave as it is: the part, the queue, the clock, the anti-rollback
counter and the revocation bits. -/

set_option linter.all false
set_option maxRecDepth 4000

namespace Sys2Proof.Machine

theorem excludedState_fixed (s : State) :
    (excludedState s).fixed = s.fixed := by
  unfold excludedState
  repeat' with_reducible (first | rfl | refine ite_fixed ?_ ?_ | intro _ | refine (State.dset_fixed ..).trans ?_ | refine (State.each_fixed _ _ _ ?_).trans ?_ | split | refine (foldl_fixed _ _ _ ?_).trans ?_ | simp only [↓State.fixed_mk, ↓State.fixed_def, State.fixed_def])

theorem fwReset_fixed (s : State) :
    (fwReset s).fixed = s.fixed := by
  unfold fwReset
  repeat' with_reducible (first | rfl | refine ite_fixed ?_ ?_ | refine (emptyStaging_fixed ..).trans ?_ | split)

theorem resetPackage_fixed (s : State) :
    (resetPackage s).fixed = s.fixed := by
  unfold resetPackage
  repeat' with_reducible (first | rfl | refine ite_fixed ?_ ?_ | intro _ | refine (State.pset_fixed ..).trans ?_ | refine (excludedState_fixed ..).trans ?_ | refine (fwReset_fixed ..).trans ?_ | split | refine (foldl_fixed _ _ _ ?_).trans ?_ | simp only [↓State.fixed_mk, ↓State.fixed_def, State.fixed_def])

theorem packageReset_fixed (s : State) :
    (packageReset s).fixed = s.fixed := by
  unfold packageReset
  repeat' with_reducible (first | rfl | refine ite_fixed ?_ ?_ | refine (resetPackage_fixed ..).trans ?_ | refine (settingsSave_fixed ..).trans ?_ | split)

theorem requestReset_fixed (s : State) :
    (requestReset s).fixed = s.fixed := by
  unfold requestReset
  repeat' with_reducible (first | rfl | refine ite_fixed ?_ ?_ | intro _ | refine (packageReset_fixed ..).trans ?_ | split | refine (foldl_fixed _ _ _ ?_).trans ?_ | simp only [↓State.fixed_mk, ↓State.fixed_def, State.fixed_def])

theorem resetHoldTimeout_fixed (s : State) :
    (resetHoldTimeout s).fixed = s.fixed := by
  unfold resetHoldTimeout
  repeat' with_reducible (first | rfl | refine ite_fixed ?_ ?_ | refine (packageReset_fixed ..).trans ?_ | split)

theorem resetLow_fixed (s : State) :
    (resetLow s).fixed = s.fixed := by
  unfold resetLow
  repeat' with_reducible (first | rfl | refine ite_fixed ?_ ?_ | intro _ | refine (requestReset_fixed ..).trans ?_ | split | refine (foldl_fixed _ _ _ ?_).trans ?_ | simp only [↓State.fixed_mk, ↓State.fixed_def, State.fixed_def])

theorem resetRelease_fixed (strap : BitVec 4) (s : State) :
    (resetRelease strap s).fixed = s.fixed := by
  unfold resetRelease
  repeat' with_reducible (first | rfl | refine ite_fixed ?_ ?_ | intro _ | refine (State.onDies_fixed ..).trans ?_ | refine (State.pset_fixed ..).trans ?_ | refine (excludedState_fixed ..).trans ?_ | split | refine (foldl_fixed _ _ _ ?_).trans ?_ | simp only [↓State.fixed_mk, ↓State.fixed_def, State.fixed_def])

theorem selfCheck_fixed (ok0 : Bool) (ok1 : Bool) (s : State) :
    (selfCheck ok0 ok1 s).fixed = s.fixed := by
  unfold selfCheck
  repeat' with_reducible (first | rfl | refine ite_fixed ?_ ?_ | intro _ | refine (State.each_fixed _ _ _ ?_).trans ?_ | refine (State.onDies_fixed ..).trans ?_ | refine (State.pinc_fixed ..).trans ?_ | refine (joinElection_fixed ..).trans ?_ | split | refine (foldl_fixed _ _ _ ?_).trans ?_ | simp only [↓State.fixed_mk, ↓State.fixed_def, State.fixed_def])

theorem settingsUnread_fixed (format : ℕ) (s : State) :
    (settingsUnread format s).fixed = s.fixed := by
  unfold settingsUnread
  repeat' with_reducible (first | rfl | refine ite_fixed ?_ ?_ | intro _ | refine (State.each_fixed _ _ _ ?_).trans ?_ | refine (State.onDie_fixed ..).trans ?_ | refine (State.pset_fixed ..).trans ?_ | refine (fwNotice_fixed ..).trans ?_ | split | refine (foldl_fixed _ _ _ ?_).trans ?_ | simp only [↓State.fixed_mk, ↓State.fixed_def, State.fixed_def])

theorem firstStart_fixed (crcBad : Bool) (s : State) :
    (firstStart crcBad s).fixed = s.fixed := by
  unfold firstStart
  repeat' with_reducible (first | rfl | refine ite_fixed ?_ ?_ | intro _ | refine (State.pset_fixed ..).trans ?_ | refine (flashAccess_fixed ..).trans ?_ | refine (settingsUnread_fixed ..).trans ?_ | split | refine (foldl_fixed _ _ _ ?_).trans ?_ | simp only [↓State.fixed_mk, ↓State.fixed_def, State.fixed_def])

theorem rotateSlots_fixed (s : State) :
    (rotateSlots s).fixed = s.fixed := by
  unfold rotateSlots
  repeat' with_reducible (first | rfl | refine ite_fixed ?_ ?_ | intro _ | refine (State.pset_fixed ..).trans ?_ | refine (fwNotice_fixed ..).trans ?_ | refine (slotState_fixed ..).trans ?_ | split | refine (foldl_fixed _ _ _ ?_).trans ?_ | simp only [↓State.fixed_mk, ↓State.fixed_def, State.fixed_def])

theorem revertSlots_fixed (s : State) :
    (revertSlots s).fixed = s.fixed := by
  unfold revertSlots
  repeat' with_reducible (first | rfl | refine ite_fixed ?_ ?_ | intro _ | refine (slotState_fixed ..).trans ?_ | split | refine (foldl_fixed _ _ _ ?_).trans ?_ | simp only [↓State.fixed_mk, ↓State.fixed_def, State.fixed_def])

theorem adoptSettings_fixed (s : State) :
    (adoptSettings s).fixed = s.fixed := by
  unfold adoptSettings
  repeat' with_reducible (first | rfl | refine ite_fixed ?_ ?_ | intro _ | refine (State.each_fixed _ _ _ ?_).trans ?_ | refine (State.onDie_fixed ..).trans ?_ | split | refine (foldl_fixed _ _ _ ?_).trans ?_ | simp only [↓State.fixed_mk, ↓State.fixed_def, State.fixed_def])

theorem recheckStaged_fixed (s : State) :
    (recheckStaged s).fixed = s.fixed := by
  unfold recheckStaged
  repeat' with_reducible (first | rfl | refine ite_fixed ?_ ?_ | refine (State.pset_fixed ..).trans ?_ | refine (emptyStaging_fixed ..).trans ?_ | refine (fwNotice_fixed ..).trans ?_ | refine (slotState_fixed ..).trans ?_ | split)

theorem chooseImage_fixed (crcBad : Bool) (s : State) :
    (chooseImage crcBad s).2.fixed = s.fixed := by
  unfold chooseImage
  repeat' with_reducible (first | rfl | refine ite_fixed ?_ ?_ | intro _ | refine (State.pset_fixed ..).trans ?_ | refine (adoptSettings_fixed ..).trans ?_ | refine (firstStart_fixed ..).trans ?_ | refine (fwNotice_fixed ..).trans ?_ | refine (revertSlots_fixed ..).trans ?_ | refine (rotateSlots_fixed ..).trans ?_ | refine (slotState_fixed ..).trans ?_ | split | refine (foldl_fixed _ _ _ ?_).trans ?_ | simp only [↓State.fixed_mk, ↓State.fixed_def, State.fixed_def])

theorem bootDone_fixed (crcBad : Bool) (s : State) :
    (bootDone crcBad s).fixed = s.fixed := by
  unfold bootDone
  repeat' with_reducible (first | rfl | refine ite_fixed ?_ ?_ | intro _ | refine (chooseImage_fixed ..).trans ?_ | refine (enterBringup_fixed ..).trans ?_ | refine (recheckStaged_fixed ..).trans ?_ | split | refine (foldl_fixed _ _ _ ?_).trans ?_ | simp only [↓State.fixed_mk, ↓State.fixed_def, State.fixed_def])

theorem dieReset_fixed (d : ℕ) (s : State) :
    (dieReset d s).fixed = s.fixed := by
  unfold dieReset
  repeat' with_reducible (first | rfl | refine ite_fixed ?_ ?_ | intro _ | refine (State.dset_fixed ..).trans ?_ | refine (State.each_fixed _ _ _ ?_).trans ?_ | refine (State.onDie_fixed ..).trans ?_ | refine (State.pset_fixed ..).trans ?_ | refine (clearLost_fixed ..).trans ?_ | refine (dropDie_fixed ..).trans ?_ | refine (epochTake_fixed ..).trans ?_ | refine (homeLost_fixed ..).trans ?_ | refine (leaveOffice_fixed ..).trans ?_ | refine (noAck_fixed ..).trans ?_ | refine (parkForced_fixed ..).trans ?_ | refine (powerUp_fixed ..).trans ?_ | refine (ringsCheck_fixed ..).trans ?_ | refine (saddleClear_fixed ..).trans ?_ | refine (saddleSet_fixed ..).trans ?_ | refine (topology_fixed ..).trans ?_ | split | refine (foldl_fixed _ _ _ ?_).trans ?_ | simp only [↓State.fixed_mk, ↓State.fixed_def, State.fixed_def])

theorem dieRejoin_fixed (v : ℕ) (s : State) :
    (dieRejoin v s).2.fixed = s.fixed := by
  unfold dieRejoin
  repeat' with_reducible (first | rfl | refine ite_fixed ?_ ?_ | intro _ | refine (State.each_fixed _ _ _ ?_).trans ?_ | refine (State.onDie_fixed ..).trans ?_ | refine (startDump_fixed ..).trans ?_ | split | refine (foldl_fixed _ _ _ ?_).trans ?_ | simp only [↓State.fixed_mk, ↓State.fixed_def, State.fixed_def])

theorem cairnComplete_fixed (d : ℕ) (bad : List (ℕ × ℕ)) (atts : List (ℕ × BitVec 64)) (s : State) :
    (cairnComplete d bad atts s).fixed = s.fixed := by
  unfold cairnComplete
  repeat' with_reducible (first | rfl | refine ite_fixed ?_ ?_ | refine (State.onDie_fixed ..).trans ?_ | refine (State.pinc_fixed ..).trans ?_ | refine (State.pset_fixed ..).trans ?_ | refine (cairnStore_fixed ..).trans ?_ | refine (dieReset_fixed ..).trans ?_ | refine (packageReset_fixed ..).trans ?_ | split)

theorem dieLost_fixed (d : ℕ) (s : State) :
    (dieLost d s).fixed = s.fixed := by
  unfold dieLost
  repeat' with_reducible (first | rfl | refine ite_fixed ?_ ?_ | intro _ | refine (State.dset_fixed ..).trans ?_ | refine (State.each_fixed _ _ _ ?_).trans ?_ | refine (State.onDie_fixed ..).trans ?_ | refine (State.pset_fixed ..).trans ?_ | refine (dropDie_fixed ..).trans ?_ | refine (epochTake_fixed ..).trans ?_ | refine (homeLost_fixed ..).trans ?_ | refine (leaveOffice_fixed ..).trans ?_ | refine (noAck_fixed ..).trans ?_ | refine (ringsCheck_fixed ..).trans ?_ | refine (saddleClear_fixed ..).trans ?_ | refine (topology_fixed ..).trans ?_ | split | refine (foldl_fixed _ _ _ ?_).trans ?_ | simp only [↓State.fixed_mk, ↓State.fixed_def, State.fixed_def])

theorem powerOnReset_fixed (d : ℕ) (vin : Bool) (s : State) :
    (powerOnReset d vin s).fixed = s.fixed := by
  unfold powerOnReset
  repeat' with_reducible (first | rfl | refine ite_fixed ?_ ?_ | intro _ | refine (State.onDies_fixed ..).trans ?_ | refine (State.pset_fixed ..).trans ?_ | refine (dieLost_fixed ..).trans ?_ | refine (resetPackage_fixed ..).trans ?_ | split | refine (foldl_fixed _ _ _ ?_).trans ?_ | simp only [↓State.fixed_mk, ↓State.fixed_def, State.fixed_def])

theorem powerOnRelease_fixed (d : ℕ) (s : State) :
    (powerOnRelease d s).fixed = s.fixed := by
  unfold powerOnRelease
  repeat' with_reducible (first | rfl | refine ite_fixed ?_ ?_ | intro _ | refine (State.onDie_fixed ..).trans ?_ | split | refine (foldl_fixed _ _ _ ?_).trans ?_ | simp only [↓State.fixed_mk, ↓State.fixed_def, State.fixed_def])

theorem pwrokLow_fixed (s : State) :
    (pwrokLow s).fixed = s.fixed := by
  unfold pwrokLow
  repeat' with_reducible (first | rfl | refine ite_fixed ?_ ?_ | intro _ | refine (resetPackage_fixed ..).trans ?_ | split | refine (foldl_fixed _ _ _ ?_).trans ?_ | simp only [↓State.fixed_mk, ↓State.fixed_def, State.fixed_def])

theorem execResetHoldTimeout_fixed (s : State) {s' : State}
    (h : execResetHoldTimeout s = .next s') : s'.fixed = s.fixed := by
  unfold execResetHoldTimeout at h
  cases h
  repeat' with_reducible (first | rfl | refine ite_fixed ?_ ?_ | refine (resetHoldTimeout_fixed ..).trans ?_ | split)

theorem execResetLAssert_fixed (s : State) {s' : State}
    (h : execResetLAssert s = .next s') : s'.fixed = s.fixed := by
  unfold execResetLAssert at h
  cases h
  repeat' with_reducible (first | rfl | refine ite_fixed ?_ ?_ | refine (resetLow_fixed ..).trans ?_ | split)

theorem execResetLRelease_fixed (strap : BitVec 4) (s : State) {s' : State}
    (h : execResetLRelease strap s = .next s') : s'.fixed = s.fixed := by
  unfold execResetLRelease at h
  cases h
  repeat' with_reducible (first | rfl | refine ite_fixed ?_ ?_ | refine (resetRelease_fixed ..).trans ?_ | split)

theorem execSelfCheckDone_fixed (ok0 : Bool) (ok1 : Bool) (s : State) {s' : State}
    (h : execSelfCheckDone ok0 ok1 s = .next s') : s'.fixed = s.fixed := by
  unfold execSelfCheckDone at h
  cases h
  repeat' with_reducible (first | rfl | refine ite_fixed ?_ ?_ | refine (selfCheck_fixed ..).trans ?_ | split)

theorem execBootImageReadDone_fixed (crcBad : Bool) (s : State) {s' : State}
    (h : execBootImageReadDone crcBad s = .next s') : s'.fixed = s.fixed := by
  unfold execBootImageReadDone at h
  cases h
  repeat' with_reducible (first | rfl | refine ite_fixed ?_ ?_ | refine (bootDone_fixed ..).trans ?_ | split)

theorem execCairnComplete_fixed (d : DieId) (bad : List (ℕ × ℕ)) (atts : List (ℕ × BitVec 64)) (s : State) {s' : State}
    (h : execCairnComplete d bad atts s = .next s') : s'.fixed = s.fixed := by
  unfold execCairnComplete at h
  refine onPresent_fixed (fun s => ?_) h
  repeat' with_reducible (first | rfl | refine ite_fixed ?_ ?_ | refine (cairnComplete_fixed ..).trans ?_ | split)

theorem execPowerOnReset_fixed (d : DieId) (vin : Bool) (s : State) {s' : State}
    (h : execPowerOnReset d vin s = .next s') : s'.fixed = s.fixed := by
  unfold execPowerOnReset at h
  refine onPresent_fixed (fun s => ?_) h
  repeat' with_reducible (first | rfl | refine ite_fixed ?_ ?_ | refine (powerOnReset_fixed ..).trans ?_ | split)

theorem execPowerOnResetRelease_fixed (d : DieId) (s : State) {s' : State}
    (h : execPowerOnResetRelease d s = .next s') : s'.fixed = s.fixed := by
  unfold execPowerOnResetRelease at h
  refine onPresent_fixed (fun s => ?_) h
  repeat' with_reducible (first | rfl | refine ite_fixed ?_ ?_ | refine (powerOnRelease_fixed ..).trans ?_ | split)

theorem execPwrokLow_fixed (s : State) {s' : State}
    (h : execPwrokLow s = .next s') : s'.fixed = s.fixed := by
  unfold execPwrokLow at h
  cases h
  repeat' with_reducible (first | rfl | refine ite_fixed ?_ ?_ | refine (pwrokLow_fixed ..).trans ?_ | split)

end Sys2Proof.Machine
end

