-- ==== Sys2Proof/Laws/Fixed/Link.lean ====
section
/-! SUPPORT. What the operations of Machine/Link.lean leave as it is: the part, the queue, the clock, the anti-rollback
counter and the revocation bits. -/

set_option linter.all false
set_option maxRecDepth 4000

namespace Sys2Proof.Machine

theorem jdpOut_fixed (port : ℕ) (m : JdpMsg) (s : State) :
    (jdpOut port m s).fixed = s.fixed := by
  unfold jdpOut
  repeat' with_reducible (first | rfl | refine ite_fixed ?_ ?_ | intro _ | split | refine (foldl_fixed _ _ _ ?_).trans ?_ | simp only [↓State.fixed_mk, ↓State.fixed_def, State.fixed_def])

theorem jdpReply_fixed (port : ℕ) (key : Bytes) (m : JdpMsg) (s : State) :
    (jdpReply port key m s).fixed = s.fixed := by
  unfold jdpReply
  repeat' with_reducible (first | rfl | refine ite_fixed ?_ ?_ | refine (State.pinc_fixed ..).trans ?_ | refine (jdpOut_fixed ..).trans ?_ | split)

theorem sessionSeen_fixed (i : ℕ) (port : ℕ) (s : State) :
    (sessionSeen i port s).fixed = s.fixed := by
  unfold sessionSeen
  (try dsimp only)
  repeat' with_reducible (first | rfl | assumption | intro _ | refine ite_fixed ?_ ?_ | refine ite_snd_fixed ?_ ?_ | refine ite_snd2_fixed ?_ ?_ | refine getD_fixed ?_ ?_ | refine ite_elim_fixed ?_ ?_ | refine (some_elim_fixed ..).trans ?_ | refine (none_elim_fixed ..).trans ?_ | refine ite_fst_elim_fixed ?_ ?_ | refine map_elim_fixed ?_ ?_ | refine bind_elim_fixed ?_ ?_ | refine foldl_elim_fixed _ _ _ ?_ ?_ | refine (State.pset_fixed ..).trans ?_ | refine snd_fixed (by assumption) ?_ | refine snd2_fixed (by assumption) ?_ | refine fst_elim_fixed (by assumption) ?_ | refine of_some_fixed (by assumption) ?_ | split | refine (foldl_fixed _ _ _ ?_).trans ?_ | refine (foldl_fixed_snd _ _ _ ?_).trans ?_ | refine (foldl_fixed_snd2 _ _ _ ?_).trans ?_ | simp only [↓State.fixed_mk, ↓State.fixed_def, State.fixed_def])

theorem seqAccept_fixed (i : ℕ) (seq : ℕ) (port : ℕ) (s : State) :
    (seqAccept i seq port s).fixed = s.fixed := by
  unfold seqAccept
  repeat' with_reducible (first | rfl | refine ite_fixed ?_ ?_ | intro _ | refine (State.pset_fixed ..).trans ?_ | refine (sessionSeen_fixed ..).trans ?_ | split | refine (foldl_fixed _ _ _ ?_).trans ?_ | simp only [↓State.fixed_mk, ↓State.fixed_def, State.fixed_def])

theorem cacheReply_fixed (i : ℕ) (seq : ℕ) (m : JdpMsg) (s : State) :
    (cacheReply i seq m s).fixed = s.fixed := by
  unfold cacheReply
  repeat' with_reducible (first | rfl | refine ite_fixed ?_ ?_ | intro _ | split | refine (foldl_fixed _ _ _ ?_).trans ?_ | simp only [↓State.fixed_mk, ↓State.fixed_def, State.fixed_def])

end Sys2Proof.Machine
end

