-- ==== Sys2Proof/Laws/Fixed/Electrical.lean ====
section
/-! SUPPORT. What the operations of Machine/Electrical.lean leave as it is: the part, the queue, the clock, the anti-rollback
counter and the revocation bits. -/

set_option linter.all false
set_option maxRecDepth 4000

namespace Sys2Proof.Machine

theorem railRead_fixed (d : ℕ) (r : ℕ) (mv : ℕ) (ma : ℕ) (s : State) :
    (railRead d r mv ma s).fixed = s.fixed := by
  unfold railRead
  repeat' with_reducible (first | rfl | refine ite_fixed ?_ ?_ | refine (State.pset_fixed ..).trans ?_ | split)

theorem railUnder_fixed (d : ℕ) (r : ℕ) (n : ℕ) (mv : ℕ) (ma : ℕ) (s : State) :
    (railUnder d r n mv ma s).fixed = s.fixed := by
  unfold railUnder
  repeat' with_reducible (first | rfl | refine ite_fixed ?_ ?_ | refine (State.report_fixed ..).trans ?_ | refine (powerOnReset_fixed ..).trans ?_ | refine (railRead_fixed ..).trans ?_ | split)

theorem railOver_fixed (d : ℕ) (r : ℕ) (n : ℕ) (mv : ℕ) (ma : ℕ) (s : State) :
    (railOver d r n mv ma s).fixed = s.fixed := by
  unfold railOver
  repeat' with_reducible (first | rfl | refine ite_fixed ?_ ?_ | refine (State.report_fixed ..).trans ?_ | refine (railRead_fixed ..).trans ?_ | split)

theorem railCurrent_fixed (d : ℕ) (r : ℕ) (n : ℕ) (mv : ℕ) (ma : ℕ) (s : State) :
    (railCurrent d r n mv ma s).fixed = s.fixed := by
  unfold railCurrent
  repeat' with_reducible (first | rfl | refine ite_fixed ?_ ?_ | refine (State.report_fixed ..).trans ?_ | refine (railRead_fixed ..).trans ?_ | split)

theorem vinMeasure_fixed (mv : ℕ) (watts : ℕ) (s : State) :
    (vinMeasure mv watts s).fixed = s.fixed := by
  unfold vinMeasure
  repeat' with_reducible (first | rfl | refine ite_fixed ?_ ?_ | intro _ | refine (State.pset_fixed ..).trans ?_ | refine (State.report_fixed ..).trans ?_ | refine (powerOnReset_fixed ..).trans ?_ | split | refine (foldl_fixed _ _ _ ?_).trans ?_ | simp only [↓State.fixed_mk, ↓State.fixed_def, State.fixed_def])

theorem timeclkLost_fixed (s : State) :
    (timeclkLost s).fixed = s.fixed := by
  unfold timeclkLost
  repeat' with_reducible (first | rfl | refine ite_fixed ?_ ?_ | refine (State.pset_fixed ..).trans ?_ | refine (State.report_fixed ..).trans ?_ | split)

theorem timeclkLock_fixed (s : State) :
    (timeclkLock s).fixed = s.fixed := by
  unfold timeclkLock
  repeat' with_reducible (first | rfl | refine ite_fixed ?_ ?_ | refine (State.pset_fixed ..).trans ?_ | split)

theorem refNetLost_fixed (d : ℕ) (s : State) :
    (refNetLost d s).fixed = s.fixed := by
  unfold refNetLost
  repeat' with_reducible (first | rfl | refine ite_fixed ?_ ?_ | intro _ | refine (State.onDie_fixed ..).trans ?_ | refine (State.report_fixed ..).trans ?_ | refine (portsDown_fixed ..).trans ?_ | split | refine (foldl_fixed _ _ _ ?_).trans ?_ | simp only [↓State.fixed_mk, ↓State.fixed_def, State.fixed_def])

theorem refNetReturn_fixed (d : ℕ) (s : State) :
    (refNetReturn d s).fixed = s.fixed := by
  unfold refNetReturn
  repeat' with_reducible (first | rfl | refine ite_fixed ?_ ?_ | intro _ | refine (State.onDie_fixed ..).trans ?_ | split | refine (foldl_fixed _ _ _ ?_).trans ?_ | simp only [↓State.fixed_mk, ↓State.fixed_def, State.fixed_def])

theorem refFabLost_fixed (d : ℕ) (s : State) :
    (refFabLost d s).fixed = s.fixed := by
  unfold refFabLost
  repeat' with_reducible (first | rfl | refine ite_fixed ?_ ?_ | intro _ | refine (State.each_fixed _ _ _ ?_).trans ?_ | refine (State.onDie_fixed ..).trans ?_ | refine (State.report_fixed ..).trans ?_ | refine (fenceSaddle_fixed ..).trans ?_ | refine (linkDown_fixed ..).trans ?_ | split | refine (foldl_fixed _ _ _ ?_).trans ?_ | simp only [↓State.fixed_mk, ↓State.fixed_def, State.fixed_def])

theorem refFabReturn_fixed (d : ℕ) (s : State) :
    (refFabReturn d s).fixed = s.fixed := by
  unfold refFabReturn
  repeat' with_reducible (first | rfl | refine ite_fixed ?_ ?_ | refine (State.onDie_fixed ..).trans ?_ | refine (clearLost_fixed ..).trans ?_ | refine (reviewMode_fixed ..).trans ?_ | split)

theorem refPciLost_fixed (d : ℕ) (inFlight : ℕ) (s : State) :
    (refPciLost d inFlight s).fixed = s.fixed := by
  unfold refPciLost
  repeat' with_reducible (first | rfl | refine ite_fixed ?_ ?_ | refine (State.onDie_fixed ..).trans ?_ | refine (cxlDown_fixed ..).trans ?_ | refine (endpointRestart_fixed ..).trans ?_ | split)

theorem thermalRead_fixed (d : ℕ) (l : List ℤ) (watts : ℕ) (s : State) :
    (thermalRead d l watts s).fixed = s.fixed := by
  unfold thermalRead
  repeat' with_reducible (first | rfl | refine ite_fixed ?_ ?_ | intro _ | refine (State.onDie_fixed ..).trans ?_ | refine (State.pset_fixed ..).trans ?_ | refine (State.report_fixed ..).trans ?_ | split | refine (foldl_fixed _ _ _ ?_).trans ?_ | simp only [↓State.fixed_mk, ↓State.fixed_def, State.fixed_def])

theorem execRailUndervoltage_fixed (d : DieId) (r : Fin 8) (n : Fin 80) (mv : BitVec 16) (ma : BitVec 32) (s : State) {s' : State}
    (h : execRailUndervoltage d r n mv ma s = .next s') : s'.fixed = s.fixed := by
  unfold execRailUndervoltage at h
  refine onPresent_fixed (fun s => ?_) h
  repeat' with_reducible (first | rfl | refine ite_fixed ?_ ?_ | refine (railUnder_fixed ..).trans ?_ | split)

theorem execRailOvervoltage_fixed (d : DieId) (r : Fin 8) (n : Fin 80) (mv : BitVec 16) (ma : BitVec 32) (s : State) {s' : State}
    (h : execRailOvervoltage d r n mv ma s = .next s') : s'.fixed = s.fixed := by
  unfold execRailOvervoltage at h
  refine onPresent_fixed (fun s => ?_) h
  repeat' with_reducible (first | rfl | refine ite_fixed ?_ ?_ | refine (railOver_fixed ..).trans ?_ | split)

theorem execRailOvercurrent_fixed (d : DieId) (r : Fin 8) (n : Fin 80) (mv : BitVec 16) (ma : BitVec 32) (s : State) {s' : State}
    (h : execRailOvercurrent d r n mv ma s = .next s') : s'.fixed = s.fixed := by
  unfold execRailOvercurrent at h
  refine onPresent_fixed (fun s => ?_) h
  repeat' with_reducible (first | rfl | refine ite_fixed ?_ ?_ | refine (railCurrent_fixed ..).trans ?_ | split)

theorem execVinMeasure_fixed (mv : BitVec 16) (watts : BitVec 16) (s : State) {s' : State}
    (h : execVinMeasure mv watts s = .next s') : s'.fixed = s.fixed := by
  unfold execVinMeasure at h
  cases h
  repeat' with_reducible (first | rfl | refine ite_fixed ?_ ?_ | refine (vinMeasure_fixed ..).trans ?_ | split)

theorem execTimeclkLost_fixed (s : State) {s' : State}
    (h : execTimeclkLost s = .next s') : s'.fixed = s.fixed := by
  unfold execTimeclkLost at h
  cases h
  repeat' with_reducible (first | rfl | refine ite_fixed ?_ ?_ | refine (timeclkLost_fixed ..).trans ?_ | split)

theorem execTimeclkLock_fixed (s : State) {s' : State}
    (h : execTimeclkLock s = .next s') : s'.fixed = s.fixed := by
  unfold execTimeclkLock at h
  cases h
  repeat' with_reducible (first | rfl | refine ite_fixed ?_ ?_ | refine (timeclkLock_fixed ..).trans ?_ | split)

theorem execRefclkNetLost_fixed (d : DieId) (s : State) {s' : State}
    (h : execRefclkNetLost d s = .next s') : s'.fixed = s.fixed := by
  unfold execRefclkNetLost at h
  refine onPresent_fixed (fun s => ?_) h
  repeat' with_reducible (first | rfl | refine ite_fixed ?_ ?_ | refine (refNetLost_fixed ..).trans ?_ | split)

theorem execRefclkNetReturn_fixed (d : DieId) (s : State) {s' : State}
    (h : execRefclkNetReturn d s = .next s') : s'.fixed = s.fixed := by
  unfold execRefclkNetReturn at h
  refine onPresent_fixed (fun s => ?_) h
  repeat' with_reducible (first | rfl | refine ite_fixed ?_ ?_ | refine (refNetReturn_fixed ..).trans ?_ | split)

theorem execRefclkFabLost_fixed (d : DieId) (s : State) {s' : State}
    (h : execRefclkFabLost d s = .next s') : s'.fixed = s.fixed := by
  unfold execRefclkFabLost at h
  refine onPresent_fixed (fun s => ?_) h
  repeat' with_reducible (first | rfl | refine ite_fixed ?_ ?_ | refine (refFabLost_fixed ..).trans ?_ | split)

theorem execRefclkFabReturn_fixed (d : DieId) (s : State) {s' : State}
    (h : execRefclkFabReturn d s = .next s') : s'.fixed = s.fixed := by
  unfold execRefclkFabReturn at h
  refine onPresent_fixed (fun s => ?_) h
  repeat' with_reducible (first | rfl | refine ite_fixed ?_ ?_ | refine (refFabReturn_fixed ..).trans ?_ | split)

theorem execRefclkPciLost_fixed (d : DieId) (inFlight : Fin 4097) (s : State) {s' : State}
    (h : execRefclkPciLost d inFlight s = .next s') : s'.fixed = s.fixed := by
  unfold execRefclkPciLost at h
  refine onPresent_fixed (fun s => ?_) h
  repeat' with_reducible (first | rfl | refine ite_fixed ?_ ?_ | refine (refPciLost_fixed ..).trans ?_ | split)

theorem execThermalSensorRead_fixed (d : DieId) (l : List ℤ) (watts : BitVec 16) (s : State) {s' : State}
    (h : execThermalSensorRead d l watts s = .next s') : s'.fixed = s.fixed := by
  unfold execThermalSensorRead at h
  refine onPresent_fixed (fun s => ?_) h
  repeat' with_reducible (first | rfl | refine ite_fixed ?_ ?_ | refine (thermalRead_fixed ..).trans ?_ | split)

end Sys2Proof.Machine
end

