-- ==== Sys2Proof/Laws/Fixed/Firmware.lean ====
section
/-! SUPPORT. What the operations of Machine/Firmware.lean leave as it is: the part, the queue, the clock, the anti-rollback
counter and the revocation bits. -/

set_option linter.all false
set_option maxRecDepth 4000

namespace Sys2Proof.Machine

theorem sendStatus_fixed (i : ℕ) (port : ℕ) (chain : Bool) (transfer : ℕ) (next : ℕ) (status : ℕ) (disp : ℕ) (s : State) :
    (sendStatus i port chain transfer next status disp s).fixed = s.fixed := by
  unfold sendStatus
  repeat' with_reducible (first | rfl | refine ite_fixed ?_ ?_ | refine (cacheReply_fixed ..).trans ?_ | refine (jdpReply_fixed ..).trans ?_ | split)

theorem fwStatus_fixed (f : FwSession) (status : ℕ) (disp : ℕ) (s : State) :
    (fwStatus f status disp s).fixed = s.fixed := by
  unfold fwStatus
  repeat' with_reducible (first | rfl | refine ite_fixed ?_ ?_ | refine (sendStatus_fixed ..).trans ?_ | split)

theorem beginSession_fixed (h : ℕ) (chain : Bool) (owner : ℕ) (port : ℕ) (transfer : ℕ) (src : ℕ) (s : State) :
    (beginSession h chain owner port transfer src s).fixed = s.fixed := by
  unfold beginSession
  repeat' with_reducible (first | rfl | refine ite_fixed ?_ ?_ | intro _ | refine (State.pset_fixed ..).trans ?_ | refine (emptyStaging_fixed ..).trans ?_ | refine (slotState_fixed ..).trans ?_ | split | refine (foldl_fixed _ _ _ ?_).trans ?_ | simp only [↓State.fixed_mk, ↓State.fixed_def, State.fixed_def])

theorem abortSession_fixed (s : State) :
    (abortSession s).fixed = s.fixed := by
  unfold abortSession
  repeat' with_reducible (first | rfl | refine ite_fixed ?_ ?_ | intro _ | refine (State.pset_fixed ..).trans ?_ | refine (emptyStaging_fixed ..).trans ?_ | refine (fwStatus_fixed ..).trans ?_ | split | refine (foldl_fixed _ _ _ ?_).trans ?_ | simp only [↓State.fixed_mk, ↓State.fixed_def, State.fixed_def])

theorem hostOffer_fixed (r : ℕ) (h : ℕ) (s : State) :
    (hostOffer r h s).2.fixed = s.fixed := by
  unfold hostOffer
  repeat' with_reducible (first | rfl | refine ite_fixed ?_ ?_ | refine (State.pinc_fixed ..).trans ?_ | refine (beginSession_fixed ..).trans ?_ | split)

theorem blockBad_fixed (n : ℕ) (s : State) :
    (blockBad n s).fixed = s.fixed := by
  unfold blockBad
  repeat' with_reducible (first | rfl | refine ite_fixed ?_ ?_ | refine (State.pinc_fixed ..).trans ?_ | refine (fwNotice_fixed ..).trans ?_ | split)

theorem hostBlock_fixed (v : ℕ) (s : State) :
    (hostBlock v s).2.fixed = s.fixed := by
  unfold hostBlock
  repeat' with_reducible (first | rfl | refine ite_fixed ?_ ?_ | intro _ | refine (State.pset_fixed ..).trans ?_ | refine (blockBad_fixed ..).trans ?_ | refine (flashAccess_fixed ..).trans ?_ | split | refine (foldl_fixed _ _ _ ?_).trans ?_ | simp only [↓State.fixed_mk, ↓State.fixed_def, State.fixed_def])

theorem beginCheck_fixed (s : State) :
    (beginCheck s).fixed = s.fixed := by
  unfold beginCheck
  repeat' with_reducible (first | rfl | refine ite_fixed ?_ ?_ | refine (State.pset_fixed ..).trans ?_ | split)

theorem hostEnd_fixed (s : State) :
    (hostEnd s).2.fixed = s.fixed := by
  unfold hostEnd
  repeat' with_reducible (first | rfl | refine ite_fixed ?_ ?_ | refine (beginCheck_fixed ..).trans ?_ | split)

theorem checkDone_fixed (s : State) :
    (checkDone s).fixed = s.fixed := by
  unfold checkDone
  repeat' with_reducible (first | rfl | refine ite_fixed ?_ ?_ | intro _ | refine (State.pset_fixed ..).trans ?_ | refine (flashAccess_fixed ..).trans ?_ | refine (fwNotice_fixed ..).trans ?_ | refine (fwStatus_fixed ..).trans ?_ | refine (slotState_fixed ..).trans ?_ | split | refine (foldl_fixed _ _ _ ?_).trans ?_ | simp only [↓State.fixed_mk, ↓State.fixed_def, State.fixed_def])

theorem relayStop_fixed (code : ℕ) (s : State) :
    (relayStop code s).fixed = s.fixed := by
  unfold relayStop
  repeat' with_reducible (first | rfl | refine ite_fixed ?_ ?_ | intro _ | refine (State.pset_fixed ..).trans ?_ | split | refine (foldl_fixed _ _ _ ?_).trans ?_ | simp only [↓State.fixed_mk, ↓State.fixed_def, State.fixed_def])

theorem relaySend_fixed (ty : ℕ) (payload : Bytes) (s : State) :
    (relaySend ty payload s).fixed = s.fixed := by
  unfold relaySend
  repeat' with_reducible (first | rfl | refine ite_fixed ?_ ?_ | intro _ | refine (jdpOut_fixed ..).trans ?_ | split | refine (foldl_fixed _ _ _ ?_).trans ?_ | simp only [↓State.fixed_mk, ↓State.fixed_def, State.fixed_def])

theorem relayOpen_fixed (s : State) :
    (relayOpen s).fixed = s.fixed := by
  unfold relayOpen
  repeat' with_reducible (first | rfl | refine ite_fixed ?_ ?_ | intro _ | refine (State.fresh_fixed ..).trans ?_ | refine (jdpOut_fixed ..).trans ?_ | split | refine (foldl_fixed _ _ _ ?_).trans ?_ | simp only [↓State.fixed_mk, ↓State.fixed_def, State.fixed_def])

theorem relayStart_fixed (transfer : ℕ) (arrival : ℕ) (h : ℕ) (s : State) :
    (relayStart transfer arrival h s).fixed = s.fixed := by
  unfold relayStart
  repeat' with_reducible (first | rfl | refine ite_fixed ?_ ?_ | intro _ | refine (State.pset_fixed ..).trans ?_ | refine (relayOpen_fixed ..).trans ?_ | split | refine (foldl_fixed _ _ _ ?_).trans ?_ | simp only [↓State.fixed_mk, ↓State.fixed_def, State.fixed_def])

theorem relayBlockOut_fixed (n : ℕ) (b : Bytes) (s : State) :
    (relayBlockOut n b s).fixed = s.fixed := by
  unfold relayBlockOut
  repeat' with_reducible (first | rfl | refine ite_fixed ?_ ?_ | refine (relaySend_fixed ..).trans ?_ | split)

theorem relayPump_fixed (s : State) :
    (relayPump s).fixed = s.fixed := by
  unfold relayPump
  repeat' with_reducible (first | rfl | refine ite_fixed ?_ ?_ | intro _ | refine (State.each_fixed _ _ _ ?_).trans ?_ | refine (State.pinc_fixed ..).trans ?_ | refine (relayBlockOut_fixed ..).trans ?_ | split | refine (foldl_fixed _ _ _ ?_).trans ?_ | simp only [↓State.fixed_mk, ↓State.fixed_def, State.fixed_def])

theorem relayFinish_fixed (s : State) :
    (relayFinish s).fixed = s.fixed := by
  unfold relayFinish
  repeat' with_reducible (first | rfl | refine ite_fixed ?_ ?_ | intro _ | refine (relaySend_fixed ..).trans ?_ | refine (relayStop_fixed ..).trans ?_ | split | refine (foldl_fixed _ _ _ ?_).trans ?_ | simp only [↓State.fixed_mk, ↓State.fixed_def, State.fixed_def])

theorem relayTake_fixed (transfer : ℕ) (b : Bytes) (s : State) :
    (relayTake transfer b s).fixed = s.fixed := by
  unfold relayTake
  repeat' with_reducible (first | rfl | refine ite_fixed ?_ ?_ | intro _ | refine (relayPump_fixed ..).trans ?_ | split | refine (foldl_fixed _ _ _ ?_).trans ?_ | simp only [↓State.fixed_mk, ↓State.fixed_def, State.fixed_def])

theorem relayLate_fixed (transfer : ℕ) (s : State) :
    (relayLate transfer s).fixed = s.fixed := by
  unfold relayLate
  (try dsimp only)
  repeat' with_reducible (first | rfl | assumption | intro _ | refine ite_fixed ?_ ?_ | refine ite_snd_fixed ?_ ?_ | refine ite_snd2_fixed ?_ ?_ | refine getD_fixed ?_ ?_ | refine ite_elim_fixed ?_ ?_ | refine (some_elim_fixed ..).trans ?_ | refine (none_elim_fixed ..).trans ?_ | refine ite_fst_elim_fixed ?_ ?_ | refine map_elim_fixed ?_ ?_ | refine bind_elim_fixed ?_ ?_ | refine foldl_elim_fixed _ _ _ ?_ ?_ | refine (relaySend_fixed ..).trans ?_ | refine snd_fixed (by assumption) ?_ | refine snd2_fixed (by assumption) ?_ | refine fst_elim_fixed (by assumption) ?_ | refine of_some_fixed (by assumption) ?_ | split | refine (foldl_fixed _ _ _ ?_).trans ?_ | refine (foldl_fixed_snd _ _ _ ?_).trans ?_ | refine (foldl_fixed_snd2 _ _ _ ?_).trans ?_ | simp only [↓State.fixed_mk, ↓State.fixed_def, State.fixed_def])

theorem relayAbort_fixed (s : State) :
    (relayAbort s).fixed = s.fixed := by
  unfold relayAbort
  repeat' with_reducible (first | rfl | refine ite_fixed ?_ ?_ | refine (relaySend_fixed ..).trans ?_ | refine (relayStop_fixed ..).trans ?_ | split)

theorem relayOpened_fixed (port : ℕ) (serial : ℕ) (m : JdpMsg) (s : State) :
    (relayOpened port serial m s).fixed = s.fixed := by
  unfold relayOpened
  repeat' with_reducible (first | rfl | refine ite_fixed ?_ ?_ | intro _ | refine (State.pinc_fixed ..).trans ?_ | refine (relayPump_fixed ..).trans ?_ | refine (relaySend_fixed ..).trans ?_ | split | refine (foldl_fixed _ _ _ ?_).trans ?_ | simp only [↓State.fixed_mk, ↓State.fixed_def, State.fixed_def])

theorem relayStatus_fixed (next : ℕ) (disp : ℕ) (s : State) :
    (relayStatus next disp s).fixed = s.fixed := by
  unfold relayStatus
  repeat' with_reducible (first | rfl | refine ite_fixed ?_ ?_ | intro _ | refine (relayFinish_fixed ..).trans ?_ | refine (relayPump_fixed ..).trans ?_ | refine (relayStop_fixed ..).trans ?_ | split | refine (foldl_fixed _ _ _ ?_).trans ?_ | simp only [↓State.fixed_mk, ↓State.fixed_def, State.fixed_def])

theorem openRetry_fixed (s : State) :
    (openRetry s).fixed = s.fixed := by
  unfold openRetry
  repeat' with_reducible (first | rfl | refine ite_fixed ?_ ?_ | refine (relayOpen_fixed ..).trans ?_ | refine (relayStop_fixed ..).trans ?_ | split)

theorem resendTimeout_fixed (s : State) :
    (resendTimeout s).fixed = s.fixed := by
  unfold resendTimeout
  repeat' with_reducible (first | rfl | refine ite_fixed ?_ ?_ | intro _ | refine (State.each_fixed _ _ _ ?_).trans ?_ | refine (relayAbort_fixed ..).trans ?_ | refine (relayBlockOut_fixed ..).trans ?_ | split | refine (foldl_fixed _ _ _ ?_).trans ?_ | simp only [↓State.fixed_mk, ↓State.fixed_def, State.fixed_def])

theorem mgmtLink_fixed (m : ℕ) (up : Bool) (s : State) :
    (mgmtLink m up s).fixed = s.fixed := by
  unfold mgmtLink
  dsimp only
  repeat' with_reducible (first | rfl | refine ite_fixed ?_ ?_ | refine (State.pset_fixed ..).trans ?_ | refine (relayStop_fixed ..).trans ?_ | split)

theorem putSession_fixed (f : FwSession) (s : State) :
    (putSession f s).fixed = s.fixed := by
  unfold putSession
  repeat' with_reducible (first | rfl | refine ite_fixed ?_ ?_ | intro _ | split | refine (foldl_fixed _ _ _ ?_).trans ?_ | simp only [↓State.fixed_mk, ↓State.fixed_def, State.fixed_def])

theorem offer_fixed (i : ℕ) (port : ℕ) (transfer : ℕ) (h : ℕ) (chain : Bool) (s : State) :
    (offer i port transfer h chain s).2.2.fixed = s.fixed := by
  unfold offer
  (try dsimp only)
  repeat' with_reducible (first | rfl | assumption | intro _ | refine ite_fixed ?_ ?_ | refine ite_snd_fixed ?_ ?_ | refine ite_snd2_fixed ?_ ?_ | refine getD_fixed ?_ ?_ | refine ite_elim_fixed ?_ ?_ | refine (some_elim_fixed ..).trans ?_ | refine (none_elim_fixed ..).trans ?_ | refine ite_fst_elim_fixed ?_ ?_ | refine map_elim_fixed ?_ ?_ | refine bind_elim_fixed ?_ ?_ | refine foldl_elim_fixed _ _ _ ?_ ?_ | refine (State.pinc_fixed ..).trans ?_ | refine (State.pset_fixed ..).trans ?_ | refine (beginSession_fixed ..).trans ?_ | refine (relayStart_fixed ..).trans ?_ | refine snd_fixed (by assumption) ?_ | refine snd2_fixed (by assumption) ?_ | refine fst_elim_fixed (by assumption) ?_ | refine of_some_fixed (by assumption) ?_ | split | refine (foldl_fixed _ _ _ ?_).trans ?_ | refine (foldl_fixed_snd _ _ _ ?_).trans ?_ | refine (foldl_fixed_snd2 _ _ _ ?_).trans ?_ | simp only [↓State.fixed_mk, ↓State.fixed_def, State.fixed_def])

theorem imageMessage_fixed (i : ℕ) (port : ℕ) (m : JdpMsg) (s : State) :
    (imageMessage i port m s).fixed = s.fixed := by
  unfold imageMessage
  repeat' with_reducible (first | rfl | refine ite_fixed ?_ ?_ | intro _ | refine (State.pset_fixed ..).trans ?_ | refine (abortSession_fixed ..).trans ?_ | refine (beginCheck_fixed ..).trans ?_ | refine (blockBad_fixed ..).trans ?_ | refine (flashAccess_fixed ..).trans ?_ | refine (fwStatus_fixed ..).trans ?_ | refine (offer_fixed ..).trans ?_ | refine (putSession_fixed ..).trans ?_ | refine (relayAbort_fixed ..).trans ?_ | refine (relayFinish_fixed ..).trans ?_ | refine (relayLate_fixed ..).trans ?_ | refine (relayTake_fixed ..).trans ?_ | refine (sendStatus_fixed ..).trans ?_ | split | refine (foldl_fixed _ _ _ ?_).trans ?_ | simp only [↓State.fixed_mk, ↓State.fixed_def, State.fixed_def])

theorem statusTimer_fixed (s : State) :
    (statusTimer s).fixed = s.fixed := by
  unfold statusTimer
  dsimp only
  repeat' with_reducible (first | rfl | refine ite_fixed ?_ ?_ | refine (fwStatus_fixed ..).trans ?_ | refine (putSession_fixed ..).trans ?_ | split)

theorem stallTimeout_fixed (s : State) :
    (stallTimeout s).fixed = s.fixed := by
  unfold stallTimeout
  repeat' with_reducible (first | rfl | refine ite_fixed ?_ ?_ | intro _ | refine (State.pset_fixed ..).trans ?_ | refine (abortSession_fixed ..).trans ?_ | refine (fwStatus_fixed ..).trans ?_ | split | refine (foldl_fixed _ _ _ ?_).trans ?_ | simp only [↓State.fixed_mk, ↓State.fixed_def, State.fixed_def])

theorem fwAbort_fixed (r : ℕ) (s : State) :
    (fwAbort r s).fixed = s.fixed := by
  unfold fwAbort
  repeat' with_reducible (first | rfl | refine ite_fixed ?_ ?_ | intro _ | refine (State.pset_fixed ..).trans ?_ | refine (abortSession_fixed ..).trans ?_ | refine (emptyStaging_fixed ..).trans ?_ | refine (fwStatus_fixed ..).trans ?_ | refine (relayAbort_fixed ..).trans ?_ | split | refine (foldl_fixed _ _ _ ?_).trans ?_ | simp only [↓State.fixed_mk, ↓State.fixed_def, State.fixed_def])

theorem activate_fixed (s : State) :
    (activate s).2.fixed = s.fixed := by
  unfold activate
  repeat' with_reducible (first | rfl | refine ite_fixed ?_ ?_ | intro _ | refine (State.pset_fixed ..).trans ?_ | refine (flashAccess_fixed ..).trans ?_ | refine (packageReset_fixed ..).trans ?_ | refine (quiesceStart_fixed ..).trans ?_ | split | refine (foldl_fixed _ _ _ ?_).trans ?_ | simp only [↓State.fixed_mk, ↓State.fixed_def, State.fixed_def])

theorem switchReturn_fixed (s : State) :
    (switchReturn s).fixed = s.fixed := by
  unfold switchReturn
  repeat' with_reducible (first | rfl | refine ite_fixed ?_ ?_ | intro _ | refine (forwardAgain_fixed ..).trans ?_ | refine (leanEnter_fixed ..).trans ?_ | refine (repause_fixed ..).trans ?_ | refine (setMode_fixed ..).trans ?_ | split | refine (foldl_fixed _ _ _ ?_).trans ?_ | simp only [↓State.fixed_mk, ↓State.fixed_def, State.fixed_def])

theorem switchDone_fixed (crcBad : Bool) (s : State) :
    (switchDone crcBad s).fixed = s.fixed := by
  unfold switchDone
  repeat' with_reducible (first | rfl | refine ite_fixed ?_ ?_ | intro _ | refine (State.pset_fixed ..).trans ?_ | refine (firstStart_fixed ..).trans ?_ | refine (rotateSlots_fixed ..).trans ?_ | refine (startLoad_fixed ..).trans ?_ | refine (switchReturn_fixed ..).trans ?_ | split | refine (foldl_fixed _ _ _ ?_).trans ?_ | simp only [↓State.fixed_mk, ↓State.fixed_def, State.fixed_def])

theorem storeDone_fixed (d : ℕ) (c : ℕ) (bad : Option ℕ) (s : State) :
    (storeDone d c bad s).fixed = s.fixed := by
  unfold storeDone
  repeat' with_reducible (first | rfl | refine ite_fixed ?_ ?_ | refine (storeWritten_fixed ..).trans ?_ | refine (switchReturn_fixed ..).trans ?_ | split)

theorem confirm_kept (s : State) : KeptF s.fixed (confirm s).2.fixed := by
  unfold confirm
  split
  · exact KeptF.refl _
  · split
    · exact KeptF.refl _
    · dsimp only
      refine KeptF.step (emptyStaging_fixed ..) ?_
      rw [← flashAccess_fixed s]
      generalize flashAccess s = s
      refine ⟨rfl, rfl, rfl, Nat.le_max_left .., ?_⟩
      simp only [State.fixed]
      rw [← BitVec.or_assoc, BitVec.or_self]

theorem probationExpire_fixed (s : State) :
    (probationExpire s).fixed = s.fixed := by
  unfold probationExpire
  repeat' with_reducible (first | rfl | refine ite_fixed ?_ ?_ | intro _ | refine (flashAccess_fixed ..).trans ?_ | refine (fwNotice_fixed ..).trans ?_ | split | refine (foldl_fixed _ _ _ ?_).trans ?_ | simp only [↓State.fixed_mk, ↓State.fixed_def, State.fixed_def])

theorem revert_fixed (s : State) :
    (revert s).2.fixed = s.fixed := by
  unfold revert
  repeat' with_reducible (first | rfl | refine ite_fixed ?_ ?_ | refine (packageReset_fixed ..).trans ?_ | split)

theorem settingsAccept_fixed (s : State) :
    (settingsAccept s).2.fixed = s.fixed := by
  unfold settingsAccept
  repeat' with_reducible (first | rfl | refine ite_fixed ?_ ?_ | intro _ | refine (State.pset_fixed ..).trans ?_ | refine (settingsSave_fixed ..).trans ?_ | split | refine (foldl_fixed _ _ _ ?_).trans ?_ | simp only [↓State.fixed_mk, ↓State.fixed_def, State.fixed_def])

theorem settingsFallback_fixed (s : State) :
    (settingsFallback s).2.fixed = s.fixed := by
  unfold settingsFallback
  repeat' with_reducible (first | rfl | refine ite_fixed ?_ ?_ | refine (revert_fixed ..).trans ?_ | split)

theorem flashSave_fixed (s : State) :
    (flashSave s).fixed = s.fixed := by
  unfold flashSave
  (try dsimp only)
  repeat' with_reducible (first | rfl | assumption | intro _ | refine ite_fixed ?_ ?_ | refine ite_snd_fixed ?_ ?_ | refine ite_snd2_fixed ?_ ?_ | refine getD_fixed ?_ ?_ | refine ite_elim_fixed ?_ ?_ | refine (some_elim_fixed ..).trans ?_ | refine (none_elim_fixed ..).trans ?_ | refine ite_fst_elim_fixed ?_ ?_ | refine map_elim_fixed ?_ ?_ | refine bind_elim_fixed ?_ ?_ | refine foldl_elim_fixed _ _ _ ?_ ?_ | refine (emptyStaging_fixed ..).trans ?_ | refine (saved_fixed ..).trans ?_ | refine snd_fixed (by assumption) ?_ | refine snd2_fixed (by assumption) ?_ | refine fst_elim_fixed (by assumption) ?_ | refine of_some_fixed (by assumption) ?_ | split | refine (foldl_fixed _ _ _ ?_).trans ?_ | refine (foldl_fixed_snd _ _ _ ?_).trans ?_ | refine (foldl_fixed_snd2 _ _ _ ?_).trans ?_ | simp only [↓State.fixed_mk, ↓State.fixed_def, State.fixed_def])

theorem execFlashAgentAppear_fixed (s : State) {s' : State}
    (h : execFlashAgentAppear s = .next s') : s'.fixed = s.fixed := by
  unfold execFlashAgentAppear at h
  cases h
  repeat' with_reducible (first | rfl | refine ite_fixed ?_ ?_ | refine (flashSave_fixed ..).trans ?_ | split)

theorem execSettingsSave_fixed (s : State) {s' : State}
    (h : execSettingsSave s = .next s') : s'.fixed = s.fixed := by
  unfold execSettingsSave at h
  cases h
  repeat' with_reducible (first | rfl | refine ite_fixed ?_ ?_ | refine (flashSave_fixed ..).trans ?_ | split)

theorem execStatusTimer_fixed (s : State) {s' : State}
    (h : execStatusTimer s = .next s') : s'.fixed = s.fixed := by
  unfold execStatusTimer at h
  cases h
  repeat' with_reducible (first | rfl | refine ite_fixed ?_ ?_ | refine (statusTimer_fixed ..).trans ?_ | split)

theorem execBlockResendTimeout_fixed (s : State) {s' : State}
    (h : execBlockResendTimeout s = .next s') : s'.fixed = s.fixed := by
  unfold execBlockResendTimeout at h
  cases h
  repeat' with_reducible (first | rfl | refine ite_fixed ?_ ?_ | refine (resendTimeout_fixed ..).trans ?_ | split)

theorem execRelayOpenRetry_fixed (s : State) {s' : State}
    (h : execRelayOpenRetry s = .next s') : s'.fixed = s.fixed := by
  unfold execRelayOpenRetry at h
  cases h
  repeat' with_reducible (first | rfl | refine ite_fixed ?_ ?_ | refine (openRetry_fixed ..).trans ?_ | split)

theorem execSessionStallTimeout_fixed (s : State) {s' : State}
    (h : execSessionStallTimeout s = .next s') : s'.fixed = s.fixed := by
  unfold execSessionStallTimeout at h
  cases h
  repeat' with_reducible (first | rfl | refine ite_fixed ?_ ?_ | refine (stallTimeout_fixed ..).trans ?_ | split)

theorem execStagingCheckDone_fixed (s : State) {s' : State}
    (h : execStagingCheckDone s = .next s') : s'.fixed = s.fixed := by
  unfold execStagingCheckDone at h
  cases h
  repeat' with_reducible (first | rfl | refine ite_fixed ?_ ?_ | refine (checkDone_fixed ..).trans ?_ | split)

theorem execProbationExpire_fixed (s : State) {s' : State}
    (h : execProbationExpire s = .next s') : s'.fixed = s.fixed := by
  unfold execProbationExpire at h
  cases h
  repeat' with_reducible (first | rfl | refine ite_fixed ?_ ?_ | refine (probationExpire_fixed ..).trans ?_ | split)

theorem execMgmtPortLinkChange_fixed (m : Fin 2) (up : Bool) (s : State) {s' : State}
    (h : execMgmtPortLinkChange m up s = .next s') : s'.fixed = s.fixed := by
  unfold execMgmtPortLinkChange at h
  cases h
  repeat' with_reducible (first | rfl | refine ite_fixed ?_ ?_ | refine (mgmtLink_fixed ..).trans ?_ | split)

theorem execClusterStoreWritten_fixed (d : DieId) (c : ClusterId) (bad : Option (Fin 16384)) (s : State) {s' : State}
    (h : execClusterStoreWritten d c bad s = .next s') : s'.fixed = s.fixed := by
  unfold execClusterStoreWritten at h
  refine onLive_fixed (fun s => ?_) h
  repeat' with_reducible (first | rfl | refine ite_fixed ?_ ?_ | refine (storeDone_fixed ..).trans ?_ | split)

end Sys2Proof.Machine
end

