-- ==== Sys2Proof/Laws/Fixed/Transit.lean ====
section
/-! SUPPORT. What the operations of Machine/Transit.lean leave as it is: the part, the queue, the clock, the anti-rollback
counter and the revocation bits. -/

set_option linter.all false
set_option maxRecDepth 4000

namespace Sys2Proof.Machine

theorem sliceStart_fixed (d : ℕ) (k : ℕ) (r : Readings) (s : State) :
    (sliceStart d k r s).fixed = s.fixed := by
  unfold sliceStart
  repeat' with_reducible (first | rfl | refine ite_fixed ?_ ?_ | intro _ | refine (State.onDie_fixed ..).trans ?_ | refine (State.pinc_fixed ..).trans ?_ | refine (State.pset_fixed ..).trans ?_ | refine (engineOut_fixed ..).trans ?_ | refine (noteFree_fixed ..).trans ?_ | refine (setSlice_fixed ..).trans ?_ | split | refine (foldl_fixed _ _ _ ?_).trans ?_ | simp only [↓State.fixed_mk, ↓State.fixed_def, State.fixed_def])

theorem startDue_fixed (d : ℕ) (k : ℕ) (s : State) :
    (startDue d k s).fixed = s.fixed := by
  unfold startDue
  (try dsimp only)
  repeat' with_reducible (first | rfl | assumption | intro _ | refine ite_fixed ?_ ?_ | refine ite_snd_fixed ?_ ?_ | refine ite_snd2_fixed ?_ ?_ | refine getD_fixed ?_ ?_ | refine ite_elim_fixed ?_ ?_ | refine (some_elim_fixed ..).trans ?_ | refine (none_elim_fixed ..).trans ?_ | refine ite_fst_elim_fixed ?_ ?_ | refine map_elim_fixed ?_ ?_ | refine bind_elim_fixed ?_ ?_ | refine foldl_elim_fixed _ _ _ ?_ ?_ | refine (State.onDie_fixed ..).trans ?_ | refine (sliceStart_fixed ..).trans ?_ | refine snd_fixed (by assumption) ?_ | refine snd2_fixed (by assumption) ?_ | refine fst_elim_fixed (by assumption) ?_ | refine of_some_fixed (by assumption) ?_ | split | refine (foldl_fixed _ _ _ ?_).trans ?_ | refine (foldl_fixed_snd _ _ _ ?_).trans ?_ | refine (foldl_fixed_snd2 _ _ _ ?_).trans ?_ | simp only [↓State.fixed_mk, ↓State.fixed_def, State.fixed_def])

theorem sliceDue_fixed (d : ℕ) (k : ℕ) (r : Readings) (s : State) :
    (sliceDue d k r s).fixed = s.fixed := by
  unfold sliceDue
  repeat' with_reducible (first | rfl | refine ite_fixed ?_ ?_ | refine (State.onDie_fixed ..).trans ?_ | refine (sliceStart_fixed ..).trans ?_ | split)

theorem sliceCheck_fixed (d : ℕ) (r : Readings) (s : State) :
    (sliceCheck d r s).fixed = s.fixed := by
  unfold sliceCheck
  repeat' with_reducible (first | rfl | refine ite_fixed ?_ ?_ | intro _ | refine (State.each_fixed _ _ _ ?_).trans ?_ | refine (State.onDie_fixed ..).trans ?_ | refine (sliceAbandon_fixed ..).trans ?_ | refine (startDue_fixed ..).trans ?_ | split | refine (foldl_fixed _ _ _ ?_).trans ?_ | simp only [↓State.fixed_mk, ↓State.fixed_def, State.fixed_def])

theorem mirrorDone_fixed (d : ℕ) (s : State) :
    (mirrorDone d s).fixed = s.fixed := by
  unfold mirrorDone
  repeat' with_reducible (first | rfl | refine ite_fixed ?_ ?_ | refine (State.pset_fixed ..).trans ?_ | refine (portGrant_fixed ..).trans ?_ | refine (setSlice_fixed ..).trans ?_ | split)

theorem bankTested_fixed (d : ℕ) (ok : Bool) (spareOk : Bool) (s : State) :
    (bankTested d ok spareOk s).fixed = s.fixed := by
  unfold bankTested
  repeat' with_reducible (first | rfl | refine ite_fixed ?_ ?_ | refine (State.onDie_fixed ..).trans ?_ | refine (State.pinc_fixed ..).trans ?_ | refine (State.pset_fixed ..).trans ?_ | refine (State.report_fixed ..).trans ?_ | refine (fenceBank_fixed ..).trans ?_ | refine (setSlice_fixed ..).trans ?_ | refine (startDue_fixed ..).trans ?_ | split)

theorem bankRestored_fixed (d : ℕ) (s : State) :
    (bankRestored d s).fixed = s.fixed := by
  unfold bankRestored
  repeat' with_reducible (first | rfl | refine ite_fixed ?_ ?_ | refine (State.pinc_fixed ..).trans ?_ | refine (portGrant_fixed ..).trans ?_ | refine (setSlice_fixed ..).trans ?_ | refine (spareBack_fixed ..).trans ?_ | refine (startDue_fixed ..).trans ?_ | split)

theorem engineDrained_fixed (d : ℕ) (s : State) :
    (engineDrained d s).fixed = s.fixed := by
  unfold engineDrained
  repeat' with_reducible (first | rfl | refine ite_fixed ?_ ?_ | refine (setSlice_fixed ..).trans ?_ | split)

theorem engineTimeout_fixed (d : ℕ) (s : State) :
    (engineTimeout d s).fixed = s.fixed := by
  unfold engineTimeout
  repeat' with_reducible (first | rfl | refine ite_fixed ?_ ?_ | refine (sliceAbandon_fixed ..).trans ?_ | refine (startDue_fixed ..).trans ?_ | split)

theorem engineTested_fixed (d : ℕ) (ok : Bool) (s : State) :
    (engineTested d ok s).fixed = s.fixed := by
  unfold engineTested
  repeat' with_reducible (first | rfl | refine ite_fixed ?_ ?_ | refine (State.pinc_fixed ..).trans ?_ | refine (State.report_fixed ..).trans ?_ | refine (engineOut_fixed ..).trans ?_ | refine (fenceCluster_fixed ..).trans ?_ | refine (setSlice_fixed ..).trans ?_ | refine (startDue_fixed ..).trans ?_ | split)

theorem walkFound_fixed (d : ℕ) (x : Slice) (s : State) :
    (walkFound d x s).fixed = s.fixed := by
  unfold walkFound
  (try dsimp only)
  repeat' with_reducible (first | rfl | assumption | intro _ | refine ite_fixed ?_ ?_ | refine ite_snd_fixed ?_ ?_ | refine ite_snd2_fixed ?_ ?_ | refine getD_fixed ?_ ?_ | refine ite_elim_fixed ?_ ?_ | refine (some_elim_fixed ..).trans ?_ | refine (none_elim_fixed ..).trans ?_ | refine ite_fst_elim_fixed ?_ ?_ | refine map_elim_fixed ?_ ?_ | refine bind_elim_fixed ?_ ?_ | refine foldl_elim_fixed _ _ _ ?_ ?_ | refine (State.each_fixed _ _ _ ?_).trans ?_ | refine (State.pinc_fixed ..).trans ?_ | refine (State.report_fixed ..).trans ?_ | refine (onCluster_fixed ..).trans ?_ | refine (setSlice_fixed ..).trans ?_ | refine (startDue_fixed ..).trans ?_ | refine snd_fixed (by assumption) ?_ | refine snd2_fixed (by assumption) ?_ | refine fst_elim_fixed (by assumption) ?_ | refine of_some_fixed (by assumption) ?_ | split | refine (foldl_fixed _ _ _ ?_).trans ?_ | refine (foldl_fixed_snd _ _ _ ?_).trans ?_ | refine (foldl_fixed_snd2 _ _ _ ?_).trans ?_ | simp only [↓State.fixed_mk, ↓State.fixed_def, State.fixed_def])

theorem walkWrite_fixed (d : ℕ) (x : Slice) (ok : Bool) (s : State) :
    (walkWrite d x ok s).fixed = s.fixed := by
  unfold walkWrite
  repeat' with_reducible (first | rfl | refine ite_fixed ?_ ?_ | intro _ | refine (State.pinc_fixed ..).trans ?_ | refine (State.report_fixed ..).trans ?_ | refine (breakParity_fixed ..).trans ?_ | refine (fenceCluster_fixed ..).trans ?_ | refine (machineCheck_fixed ..).trans ?_ | refine (onCluster_fixed ..).trans ?_ | refine (setSlice_fixed ..).trans ?_ | refine (startDue_fixed ..).trans ?_ | split | refine (foldl_fixed _ _ _ ?_).trans ?_ | simp only [↓State.fixed_mk, ↓State.fixed_def, State.fixed_def])

theorem walkDone_fixed (d : ℕ) (ok : Bool) (s : State) :
    (walkDone d ok s).fixed = s.fixed := by
  unfold walkDone
  repeat' with_reducible (first | rfl | refine ite_fixed ?_ ?_ | intro _ | refine (walkFound_fixed ..).trans ?_ | refine (walkWrite_fixed ..).trans ?_ | refine (writePort_fixed _ _ _ _ _ ?_).trans ?_ | split | refine (foldl_fixed _ _ _ ?_).trans ?_ | simp only [↓State.fixed_mk, ↓State.fixed_def, State.fixed_def])

theorem segmentDone_fixed (d : ℕ) (ok : Bool) (s : State) :
    (segmentDone d ok s).fixed = s.fixed := by
  unfold segmentDone
  repeat' with_reducible (first | rfl | refine ite_fixed ?_ ?_ | refine (State.pinc_fixed ..).trans ?_ | refine (State.report_fixed ..).trans ?_ | refine (segmentOut_fixed ..).trans ?_ | refine (setSlice_fixed ..).trans ?_ | refine (startDue_fixed ..).trans ?_ | split)

theorem diagLoopback_fixed (v : ℕ) (s : State) :
    (diagLoopback v s).2.fixed = s.fixed := by
  unfold diagLoopback
  repeat' with_reducible (first | rfl | refine ite_fixed ?_ ?_ | refine (State.onDie_fixed ..).trans ?_ | split)

theorem diagPattern_fixed (v : ℕ) (s : State) :
    (diagPattern v s).2.fixed = s.fixed := by
  unfold diagPattern
  repeat' with_reducible (first | rfl | refine ite_fixed ?_ ?_ | refine (State.onDie_fixed ..).trans ?_ | split)

theorem counterValue_fixed (d : ℕ) (k : ℕ) (n : ℕ) (v : ℕ) (s : State) :
    (counterValue d k n v s).2.fixed = s.fixed := by
  unfold counterValue
  repeat' with_reducible (first | rfl | refine ite_fixed ?_ ?_ | refine (State.dset_fixed ..).trans ?_ | split)

theorem sampleEvent_fixed (d : ℕ) (k : ℕ) (v : ℕ) (s : State) :
    (sampleEvent d k v s).2.fixed = s.fixed := by
  unfold sampleEvent
  repeat' with_reducible (first | rfl | refine ite_fixed ?_ ?_ | refine (State.dset_fixed ..).trans ?_ | refine (State.onDie_fixed ..).trans ?_ | split)

theorem sampleClear_fixed (d : ℕ) (k : ℕ) (s : State) :
    (sampleClear d k s).2.fixed = s.fixed := by
  unfold sampleClear
  repeat' with_reducible (first | rfl | refine ite_fixed ?_ ?_ | refine (State.onDie_fixed ..).trans ?_ | split)

theorem onTap_fixed (d : ℕ) (f : Tap → Tap) (s : State) :
    (onTap d f s).fixed = s.fixed := by
  unfold onTap
  repeat' with_reducible (first | rfl | refine ite_fixed ?_ ?_ | refine (State.onDie_fixed ..).trans ?_ | split)

theorem tapLoad_fixed (d : ℕ) (code : BitVec 8) (s : State) :
    (tapLoad d code s).fixed = s.fixed := by
  unfold tapLoad
  repeat' with_reducible (first | rfl | refine ite_fixed ?_ ?_ | refine (onTap_fixed ..).trans ?_ | split)

theorem execSliceDue_fixed (d : DieId) (k : Fin 4) (vin : ℕ) (clk : BitVec 3) (tj : ℤ) (s : State) {s' : State}
    (h : execSliceDue d k vin clk tj s = .next s') : s'.fixed = s.fixed := by
  unfold execSliceDue at h
  refine onPresent_fixed (fun s => ?_) h
  repeat' with_reducible (first | rfl | refine ite_fixed ?_ ?_ | refine (sliceDue_fixed ..).trans ?_ | split)

theorem execSliceConditionCheck_fixed (d : DieId) (vin : ℕ) (clk : BitVec 3) (tj : ℤ) (s : State) {s' : State}
    (h : execSliceConditionCheck d vin clk tj s = .next s') : s'.fixed = s.fixed := by
  unfold execSliceConditionCheck at h
  refine onPresent_fixed (fun s => ?_) h
  repeat' with_reducible (first | rfl | refine ite_fixed ?_ ?_ | refine (sliceCheck_fixed ..).trans ?_ | split)

theorem execBankMirrorDone_fixed (d : DieId) (s : State) {s' : State}
    (h : execBankMirrorDone d s = .next s') : s'.fixed = s.fixed := by
  unfold execBankMirrorDone at h
  refine onLive_fixed (fun s => ?_) h
  repeat' with_reducible (first | rfl | refine ite_fixed ?_ ?_ | refine (mirrorDone_fixed ..).trans ?_ | split)

theorem execBankTestDone_fixed (d : DieId) (ok : Bool) (spareOk : Bool) (s : State) {s' : State}
    (h : execBankTestDone d ok spareOk s = .next s') : s'.fixed = s.fixed := by
  unfold execBankTestDone at h
  refine onLive_fixed (fun s => ?_) h
  repeat' with_reducible (first | rfl | refine ite_fixed ?_ ?_ | refine (bankTested_fixed ..).trans ?_ | split)

theorem execBankRestoreDone_fixed (d : DieId) (s : State) {s' : State}
    (h : execBankRestoreDone d s = .next s') : s'.fixed = s.fixed := by
  unfold execBankRestoreDone at h
  refine onLive_fixed (fun s => ?_) h
  repeat' with_reducible (first | rfl | refine ite_fixed ?_ ?_ | refine (bankRestored_fixed ..).trans ?_ | split)

theorem execEngineDrained_fixed (d : DieId) (s : State) {s' : State}
    (h : execEngineDrained d s = .next s') : s'.fixed = s.fixed := by
  unfold execEngineDrained at h
  refine onLive_fixed (fun s => ?_) h
  repeat' with_reducible (first | rfl | refine ite_fixed ?_ ?_ | refine (engineDrained_fixed ..).trans ?_ | split)

theorem execEngineDrainTimeout_fixed (d : DieId) (s : State) {s' : State}
    (h : execEngineDrainTimeout d s = .next s') : s'.fixed = s.fixed := by
  unfold execEngineDrainTimeout at h
  refine onLive_fixed (fun s => ?_) h
  repeat' with_reducible (first | rfl | refine ite_fixed ?_ ?_ | refine (engineTimeout_fixed ..).trans ?_ | split)

theorem execEngineTestDone_fixed (d : DieId) (ok : Bool) (s : State) {s' : State}
    (h : execEngineTestDone d ok s = .next s') : s'.fixed = s.fixed := by
  unfold execEngineTestDone at h
  refine onLive_fixed (fun s => ?_) h
  repeat' with_reducible (first | rfl | refine ite_fixed ?_ ?_ | refine (engineTested_fixed ..).trans ?_ | split)

theorem execCstoreWalkDone_fixed (d : DieId) (ok : Bool) (s : State) {s' : State}
    (h : execCstoreWalkDone d ok s = .next s') : s'.fixed = s.fixed := by
  unfold execCstoreWalkDone at h
  refine onLive_fixed (fun s => ?_) h
  repeat' with_reducible (first | rfl | refine ite_fixed ?_ ?_ | refine (walkDone_fixed ..).trans ?_ | split)

theorem execSegmentMarchDone_fixed (d : DieId) (ok : Bool) (s : State) {s' : State}
    (h : execSegmentMarchDone d ok s = .next s') : s'.fixed = s.fixed := by
  unfold execSegmentMarchDone at h
  refine onLive_fixed (fun s => ?_) h
  repeat' with_reducible (first | rfl | refine ite_fixed ?_ ?_ | refine (segmentDone_fixed ..).trans ?_ | split)

theorem execJtagIdcode_fixed (d : DieId) (s : State) {s' : State}
    (h : execJtagIdcode d s = .next s') : s'.fixed = s.fixed := by
  unfold execJtagIdcode at h
  refine onPresent_fixed (fun s => ?_) h
  repeat' with_reducible (first | rfl | refine ite_fixed ?_ ?_ | refine (tapLoad_fixed ..).trans ?_ | split)

theorem samplePreload_fixed (d : ℕ) (cells : List Bool) (s : State) :
    (samplePreload d cells s).fixed = s.fixed := by
  unfold samplePreload
  repeat' with_reducible (first | rfl | refine ite_fixed ?_ ?_ | refine (onTap_fixed ..).trans ?_ | refine (tapLoad_fixed ..).trans ?_ | split)

theorem execJtagSamplePreload_fixed (d : DieId) (cells : List Bool) (s : State) {s' : State}
    (h : execJtagSamplePreload d cells s = .next s') : s'.fixed = s.fixed := by
  unfold execJtagSamplePreload at h
  refine onPresent_fixed (fun s => ?_) h
  repeat' with_reducible (first | rfl | refine ite_fixed ?_ ?_ | refine (samplePreload_fixed ..).trans ?_ | split)

theorem execJtagExtest_fixed (d : DieId) (s : State) {s' : State}
    (h : execJtagExtest d s = .next s') : s'.fixed = s.fixed := by
  unfold execJtagExtest at h
  refine onPresent_fixed (fun s => ?_) h
  repeat' with_reducible (first | rfl | refine ite_fixed ?_ ?_ | refine (tapLoad_fixed ..).trans ?_ | split)

theorem execJtagExtestPulse_fixed (d : DieId) (s : State) {s' : State}
    (h : execJtagExtestPulse d s = .next s') : s'.fixed = s.fixed := by
  unfold execJtagExtestPulse at h
  refine onPresent_fixed (fun s => ?_) h
  repeat' with_reducible (first | rfl | refine ite_fixed ?_ ?_ | refine (tapLoad_fixed ..).trans ?_ | split)

theorem execJtagExtestTrain_fixed (d : DieId) (s : State) {s' : State}
    (h : execJtagExtestTrain d s = .next s') : s'.fixed = s.fixed := by
  unfold execJtagExtestTrain at h
  refine onPresent_fixed (fun s => ?_) h
  repeat' with_reducible (first | rfl | refine ite_fixed ?_ ?_ | refine (tapLoad_fixed ..).trans ?_ | split)

theorem execJtagClamp_fixed (d : DieId) (s : State) {s' : State}
    (h : execJtagClamp d s = .next s') : s'.fixed = s.fixed := by
  unfold execJtagClamp at h
  refine onPresent_fixed (fun s => ?_) h
  repeat' with_reducible (first | rfl | refine ite_fixed ?_ ?_ | refine (tapLoad_fixed ..).trans ?_ | split)

theorem execJtagHighz_fixed (d : DieId) (s : State) {s' : State}
    (h : execJtagHighz d s = .next s') : s'.fixed = s.fixed := by
  unfold execJtagHighz at h
  refine onPresent_fixed (fun s => ?_) h
  repeat' with_reducible (first | rfl | refine ite_fixed ?_ ?_ | refine (tapLoad_fixed ..).trans ?_ | split)

theorem execJtagInternalScan_fixed (d : DieId) (s : State) {s' : State}
    (h : execJtagInternalScan d s = .next s') : s'.fixed = s.fixed := by
  unfold execJtagInternalScan at h
  refine onPresent_fixed (fun s => ?_) h
  repeat' with_reducible (first | rfl | refine ite_fixed ?_ ?_ | refine (tapLoad_fixed ..).trans ?_ | split)

theorem execJtagDebugAccess_fixed (d : DieId) (s : State) {s' : State}
    (h : execJtagDebugAccess d s = .next s') : s'.fixed = s.fixed := by
  unfold execJtagDebugAccess at h
  refine onPresent_fixed (fun s => ?_) h
  repeat' with_reducible (first | rfl | refine ite_fixed ?_ ?_ | refine (tapLoad_fixed ..).trans ?_ | split)

theorem execJtagBypass_fixed (d : DieId) (s : State) {s' : State}
    (h : execJtagBypass d s = .next s') : s'.fixed = s.fixed := by
  unfold execJtagBypass at h
  refine onPresent_fixed (fun s => ?_) h
  repeat' with_reducible (first | rfl | refine ite_fixed ?_ ?_ | refine (tapLoad_fixed ..).trans ?_ | split)

end Sys2Proof.Machine
end

