-- ==== Sys2Proof/Laws/Fixed/Dict.lean ====
section
/-! SUPPORT. What the operations of Machine/Dict.lean leave as it is: the part, the queue, the clock, the anti-rollback
counter and the revocation bits. -/

set_option linter.all false
set_option maxRecDepth 4000

namespace Sys2Proof.Machine

theorem accValue_fixed (s : State) (d : Option ℕ) (i : ℕ) (sub : ℕ) :
    (accValue s d i sub).2.fixed = s.fixed := by
  unfold accValue
  dsimp only
  repeat' with_reducible (first | rfl | refine ite_fixed ?_ ?_ | refine (fibSettle_fixed ..).trans ?_ | refine (readClear_fixed ..).trans ?_ | refine (scrubSettle_fixed ..).trans ?_ | refine (stallSettle_fixed ..).trans ?_ | split)

theorem setEntry_fixed (d : Option ℕ) (i : ℕ) (sub : ℕ) (v : ℕ) (s : State) :
    (setEntry d i sub v s).fixed = s.fixed := by
  unfold setEntry
  repeat' with_reducible (first | rfl | refine ite_fixed ?_ ?_ | refine (State.dset_fixed ..).trans ?_ | refine (State.pset_fixed ..).trans ?_ | refine (noteSave_fixed ..).trans ?_ | split)

theorem reply_fixed (d : Option Nat) (i sub : Nat) (x : Nat × State) : (reply d i sub x).2.fixed = x.2.fixed := by
  unfold reply; simp only [↓apply_ite State.fixed, ↓noteSave_fixed, ite_self]

theorem keyWrite_fixed (k : ℕ) (sub : ℕ) (v : ℕ) (s : State) :
    (keyWrite k sub v s).fixed = s.fixed := by
  unfold keyWrite
  repeat' with_reducible (first | rfl | refine ite_fixed ?_ ?_ | intro _ | refine (State.each_fixed _ _ _ ?_).trans ?_ | refine (closeSession_fixed ..).trans ?_ | split | refine (foldl_fixed _ _ _ ?_).trans ?_ | simp only [↓State.fixed_mk, ↓State.fixed_def, State.fixed_def])

theorem transitEnable_fixed (v : ℕ) (s : State) :
    (transitEnable v s).fixed = s.fixed := by
  unfold transitEnable
  repeat' with_reducible (first | rfl | refine ite_fixed ?_ ?_ | intro _ | refine (State.pset_fixed ..).trans ?_ | split | refine (foldl_fixed _ _ _ ?_).trans ?_ | simp only [↓State.fixed_mk, ↓State.fixed_def, State.fixed_def])

theorem foundReply_fixed (x : Option ℕ) (len : ℕ) (s : State) :
    (foundReply x len s).2.fixed = s.fixed := by
  unfold foundReply
  repeat' with_reducible (first | rfl | refine ite_fixed ?_ ?_ | split)

theorem epochOn_fixed (d : ℕ) (sub : ℕ) (s : State) :
    (epochOn d sub s).fixed = s.fixed := by
  unfold epochOn
  repeat' with_reducible (first | rfl | refine ite_fixed ?_ ?_ | refine (epochDiscard_fixed ..).trans ?_ | refine (epochInherit_fixed ..).trans ?_ | split)

theorem epochAll_fixed (o : ℕ) (sub : ℕ) (s : State) :
    (epochAll o sub s).2.fixed = s.fixed := by
  unfold epochAll
  (try dsimp only)
  repeat' with_reducible (first | rfl | assumption | intro _ | refine ite_fixed ?_ ?_ | refine ite_snd_fixed ?_ ?_ | refine ite_snd2_fixed ?_ ?_ | refine getD_fixed ?_ ?_ | refine ite_elim_fixed ?_ ?_ | refine (some_elim_fixed ..).trans ?_ | refine (none_elim_fixed ..).trans ?_ | refine ite_fst_elim_fixed ?_ ?_ | refine map_elim_fixed ?_ ?_ | refine bind_elim_fixed ?_ ?_ | refine foldl_elim_fixed _ _ _ ?_ ?_ | refine (State.each_fixed _ _ _ ?_).trans ?_ | refine (engGrant_fixed ..).trans ?_ | refine (epochOn_fixed ..).trans ?_ | refine snd_fixed (by assumption) ?_ | refine snd2_fixed (by assumption) ?_ | refine fst_elim_fixed (by assumption) ?_ | refine of_some_fixed (by assumption) ?_ | split | refine (foldl_fixed _ _ _ ?_).trans ?_ | refine (foldl_fixed_snd _ _ _ ?_).trans ?_ | refine (foldl_fixed_snd2 _ _ _ ?_).trans ?_ | simp only [↓State.fixed_mk, ↓State.fixed_def, State.fixed_def])

theorem pkgWrite_kept (r i sub v : Nat) (s : State) : KeptF s.fixed (pkgWrite r i sub v s).2.fixed := by
  unfold pkgWrite
  refine ite_snd_kept ?_ (ite_snd_kept ?_ (ite_snd_kept ?_ (ite_snd_kept ?_ (ite_snd_kept ?_ (ite_snd_kept ?_ ?_)))))
  all_goals try split
  all_goals with_reducible (first
      | exact KeptF.refl _
      | exact KeptF.step (reply_fixed ..) (confirm_kept ..)
      | exact KeptF.step (setEntry_fixed ..) (KeptF.refl _)
      | exact KeptF.step (foundReply_fixed ..) (KeptF.refl _)
      | exact KeptF.step ((reply_fixed ..).trans (epochAll_fixed ..)) (KeptF.refl _)
      | exact KeptF.step ((reply_fixed ..).trans (leanEnable_fixed ..)) (KeptF.refl _)
      | exact ite_snd_kept (KeptF.refl _) (KeptF.step ((reply_fixed ..).trans (modeRequest_fixed ..)) (KeptF.refl _))
      | exact KeptF.step ((reply_fixed ..).trans (activate_fixed ..)) (KeptF.refl _)
      | exact KeptF.step ((reply_fixed ..).trans (attInvalidate_fixed ..)) (KeptF.refl _)
      | exact KeptF.step ((reply_fixed ..).trans (closeSession_fixed ..)) (KeptF.refl _)
      | exact KeptF.step ((reply_fixed ..).trans (diagLoopback_fixed ..)) (KeptF.refl _)
      | exact KeptF.step ((reply_fixed ..).trans (diagPattern_fixed ..)) (KeptF.refl _)
      | exact KeptF.step ((reply_fixed ..).trans (dieRejoin_fixed ..)) (KeptF.refl _)
      | exact KeptF.step ((reply_fixed ..).trans (domainRequest_fixed ..)) (KeptF.refl _)
      | exact KeptF.step ((reply_fixed ..).trans (dumpAck_fixed ..)) (KeptF.refl _)
      | exact KeptF.step ((reply_fixed ..).trans (dumpNow_fixed ..)) (KeptF.refl _)
      | exact KeptF.step ((reply_fixed ..).trans (epochSwap_fixed ..)) (KeptF.refl _)
      | exact KeptF.step ((reply_fixed ..).trans (faultInject_fixed ..)) (KeptF.refl _)
      | exact KeptF.step ((reply_fixed ..).trans (firstFaultClear_fixed ..)) (KeptF.refl _)
      | exact KeptF.step ((reply_fixed ..).trans (forceRetire_fixed ..)) (KeptF.refl _)
      | exact KeptF.step ((reply_fixed ..).trans (fwAbort_fixed ..)) (KeptF.refl _)
      | exact KeptF.step ((reply_fixed ..).trans (homeMapWrite_fixed ..)) (KeptF.refl _)
      | exact KeptF.step ((reply_fixed ..).trans (hostBlock_fixed ..)) (KeptF.refl _)
      | exact KeptF.step ((reply_fixed ..).trans (hostEnd_fixed ..)) (KeptF.refl _)
      | exact KeptF.step ((reply_fixed ..).trans (hostOffer_fixed ..)) (KeptF.refl _)
      | exact KeptF.step ((reply_fixed ..).trans (keyWrite_fixed ..)) (KeptF.refl _)
      | exact KeptF.step ((reply_fixed ..).trans (logAck_fixed ..)) (KeptF.refl _)
      | exact KeptF.step ((reply_fixed ..).trans (meridianSet_fixed ..)) (KeptF.refl _)
      | exact KeptF.step ((reply_fixed ..).trans (meridianStep_fixed ..)) (KeptF.refl _)
      | exact KeptF.step ((reply_fixed ..).trans (modeRequest_fixed ..)) (KeptF.refl _)
      | exact KeptF.step ((reply_fixed ..).trans (requestReset_fixed ..)) (KeptF.refl _)
      | exact KeptF.step ((reply_fixed ..).trans (revert_fixed ..)) (KeptF.refl _)
      | exact KeptF.step ((reply_fixed ..).trans (settingsAccept_fixed ..)) (KeptF.refl _)
      | exact KeptF.step ((reply_fixed ..).trans (settingsFallback_fixed ..)) (KeptF.refl _)
      | exact KeptF.step ((reply_fixed ..).trans (shadowModeWrite_fixed ..)) (KeptF.refl _)
      | exact KeptF.step ((reply_fixed ..).trans (transitEnable_fixed ..)) (KeptF.refl _))

theorem portWrite_fixed (d : ℕ) (k : ℕ) (v : ℕ) (s : State) :
    (portWrite d k v s).2.fixed = s.fixed := by
  unfold portWrite
  repeat' with_reducible (first | rfl | refine ite_fixed ?_ ?_ | refine (State.dset_fixed ..).trans ?_ | refine (portEnable_fixed ..).trans ?_ | split)

theorem linkWrite_fixed (d : ℕ) (v : ℕ) (s : State) :
    (linkWrite d v s).fixed = s.fixed := by
  unfold linkWrite
  repeat' with_reducible (first | rfl | refine ite_fixed ?_ ?_ | intro _ | refine (State.dset_fixed ..).trans ?_ | refine (State.each_fixed _ _ _ ?_).trans ?_ | refine (domReview_fixed ..).trans ?_ | refine (linkEnables_fixed ..).trans ?_ | split | refine (foldl_fixed _ _ _ ?_).trans ?_ | simp only [↓State.fixed_mk, ↓State.fixed_def, State.fixed_def])

theorem setWrite_fixed (d : ℕ) (k : ℕ) (sub : ℕ) (v : ℕ) (s : State) :
    (setWrite d k sub v s).2.fixed = s.fixed := by
  unfold setWrite
  repeat' with_reducible (first | rfl | refine ite_fixed ?_ ?_ | refine (State.dset_fixed ..).trans ?_ | refine (counterValue_fixed ..).trans ?_ | refine (reply_fixed ..).trans ?_ | refine (sampleClear_fixed ..).trans ?_ | refine (sampleEvent_fixed ..).trans ?_ | split)

theorem tableReply_fixed (d : ℕ) (all : Bool) (v : ℕ) (s : State) :
    (tableReply d all v s).2.fixed = s.fixed := by
  unfold tableReply
  repeat' with_reducible (first | rfl | refine ite_fixed ?_ ?_ | refine (engGrant_fixed ..).trans ?_ | refine (tableCmd_fixed ..).trans ?_ | split)

theorem schedWrite_fixed (d : ℕ) (k : ℕ) (sub : ℕ) (v : ℕ) (s : State) :
    (schedWrite d k sub v s).2.fixed = s.fixed := by
  unfold schedWrite
  repeat' with_reducible (first | rfl | refine ite_fixed ?_ ?_ | refine (State.dset_fixed ..).trans ?_ | refine (applyTemplate_fixed ..).trans ?_ | refine (reply_fixed ..).trans ?_ | refine (rewake_fixed ..).trans ?_ | refine (setEntry_fixed ..).trans ?_ | refine (shaperBurstWrite_fixed ..).trans ?_ | refine (shaperRateWrite_fixed ..).trans ?_ | refine (shaperReset_fixed ..).trans ?_ | split)

theorem dieWrite_fixed (d : ℕ) (all : Bool) (i : ℕ) (sub : ℕ) (v : ℕ) (s : State) :
    (dieWrite d all i sub v s).2.fixed = s.fixed := by
  unfold dieWrite
  (try dsimp only)
  repeat' with_reducible (first | rfl | assumption | intro _ | refine ite_fixed ?_ ?_ | refine ite_snd_fixed ?_ ?_ | refine ite_snd2_fixed ?_ ?_ | refine getD_fixed ?_ ?_ | refine ite_elim_fixed ?_ ?_ | refine (some_elim_fixed ..).trans ?_ | refine (none_elim_fixed ..).trans ?_ | refine ite_fst_elim_fixed ?_ ?_ | refine map_elim_fixed ?_ ?_ | refine bind_elim_fixed ?_ ?_ | refine foldl_elim_fixed _ _ _ ?_ ?_ | refine (State.dset_fixed ..).trans ?_ | refine (configChange_fixed ..).trans ?_ | refine (domReview_fixed ..).trans ?_ | refine (fabricIdSet_fixed ..).trans ?_ | refine (fullTrain_fixed ..).trans ?_ | refine (gateWrite_fixed ..).trans ?_ | refine (laneModeWrite_fixed ..).trans ?_ | refine (linkWrite_fixed ..).trans ?_ | refine (mapWrite_fixed ..).trans ?_ | refine (pageCommand_fixed ..).trans ?_ | refine (patternCommand_fixed ..).trans ?_ | refine (pauseCheckPort_fixed ..).trans ?_ | refine (portWrite_fixed ..).trans ?_ | refine (reply_fixed ..).trans ?_ | refine (retrainNow_fixed ..).trans ?_ | refine (ringEnable_fixed ..).trans ?_ | refine (schedWrite_fixed ..).trans ?_ | refine (setEntry_fixed ..).trans ?_ | refine (setWrite_fixed ..).trans ?_ | refine (snapshotWrite_fixed ..).trans ?_ | refine (tableReply_fixed ..).trans ?_ | refine snd_fixed (by assumption) ?_ | refine snd2_fixed (by assumption) ?_ | refine fst_elim_fixed (by assumption) ?_ | refine of_some_fixed (by assumption) ?_ | split | refine (foldl_fixed _ _ _ ?_).trans ?_ | refine (foldl_fixed_snd _ _ _ ?_).trans ?_ | refine (foldl_fixed_snd2 _ _ _ ?_).trans ?_ | simp only [↓State.fixed_mk, ↓State.fixed_def, State.fixed_def])

theorem perform_kept (r : ℕ) (d : Option ℕ) (all : Bool) (a : Access) (s : State) :
    KeptF s.fixed (perform r d all a s).2.fixed := by
  unfold perform
  (try dsimp only)
  repeat' with_reducible (first | exact KeptF.refl _ | assumption | intro _ | refine ite_kept ?_ ?_ | refine ite_snd_kept ?_ ?_ | refine KeptF.step (accValue_fixed ..) ?_ | refine KeptF.step (dieWrite_fixed ..) ?_ | refine KeptF.trans' (pkgWrite_kept ..) ?_ | refine KeptF.step (reply_fixed ..) ?_ | refine KeptF.step (snapshotAwait_fixed ..) ?_ | refine snd_kept (by assumption) ?_ | split | refine KeptF.trans' (foldl_kept _ _ _ ?_) ?_ | refine KeptF.trans' (foldl_kept_snd _ _ _ ?_) ?_ | simp only [↓State.fixed_mk, ↓State.fixed_def, State.fixed_def])

theorem countCmd_fixed (d : ℕ) (st : ℕ) (s : State) :
    (countCmd d st s).fixed = s.fixed := by
  unfold countCmd
  repeat' with_reducible (first | rfl | refine ite_fixed ?_ ?_ | intro _ | refine (State.dinc_fixed ..).trans ?_ | refine (State.when_fixed _ _ _ ?_).trans ?_ | split | refine (foldl_fixed _ _ _ ?_).trans ?_ | simp only [↓State.fixed_mk, ↓State.fixed_def, State.fixed_def])

theorem fibOther_fixed (d : ℕ) (ok : Bool) (v : ℕ) (status : ℕ) (s : State) :
    (fibOther d ok v status s).2.fixed = s.fixed := by
  unfold fibOther
  repeat' with_reducible (first | rfl | refine ite_fixed ?_ ?_ | refine (countCmd_fixed ..).trans ?_ | refine (fibLocal_fixed ..).trans ?_ | split)

theorem allReply_fixed (d : ℕ) (a : Access) (l : List (ℕ × ℕ)) (moves : ℕ) (s : State) :
    (allReply d a l moves s).2.fixed = s.fixed := by
  unfold allReply
  repeat' with_reducible (first | rfl | refine ite_fixed ?_ ?_ | intro _ | refine (State.pset_fixed ..).trans ?_ | refine (State.when_fixed _ _ _ ?_).trans ?_ | refine (countDeepOnly_fixed ..).trans ?_ | split | refine (foldl_fixed _ _ _ ?_).trans ?_ | simp only [↓State.fixed_mk, ↓State.fixed_def, State.fixed_def])

theorem fibAll_fixed (ts : List ℕ) (a : Access) (s : State) :
    (fibAll ts a s).2.fixed = s.fixed := by
  unfold fibAll
  (try dsimp only)
  repeat' with_reducible (first | rfl | assumption | intro _ | refine ite_fixed ?_ ?_ | refine ite_snd_fixed ?_ ?_ | refine ite_snd2_fixed ?_ ?_ | refine getD_fixed ?_ ?_ | refine ite_elim_fixed ?_ ?_ | refine (some_elim_fixed ..).trans ?_ | refine (none_elim_fixed ..).trans ?_ | refine ite_fst_elim_fixed ?_ ?_ | refine map_elim_fixed ?_ ?_ | refine bind_elim_fixed ?_ ?_ | refine foldl_elim_fixed _ _ _ ?_ ?_ | refine (countCmd_fixed ..).trans ?_ | refine (engGrant_fixed ..).trans ?_ | refine (fibErase_fixed ..).trans ?_ | refine (fibFirst_fixed ..).trans ?_ | refine (fibOther_fixed ..).trans ?_ | refine snd_fixed (by assumption) ?_ | refine snd2_fixed (by assumption) ?_ | refine fst_elim_fixed (by assumption) ?_ | refine of_some_fixed (by assumption) ?_ | split | refine (foldl_fixed _ _ _ ?_).trans ?_ | refine (foldl_fixed_snd _ _ _ ?_).trans ?_ | refine (foldl_fixed_snd2 _ _ _ ?_).trans ?_ | simp only [↓State.fixed_mk, ↓State.fixed_def, State.fixed_def])

theorem performAll_kept (r : ℕ) (a : Access) (s : State) :
    KeptF s.fixed (performAll r a s).2.fixed := by
  unfold performAll
  (try dsimp only)
  repeat' with_reducible (first | exact KeptF.refl _ | assumption | intro _ | refine ite_kept ?_ ?_ | refine ite_snd_kept ?_ ?_ | refine KeptF.step (allReply_fixed ..) ?_ | refine KeptF.step (fibAll_fixed ..) ?_ | refine KeptF.trans' (perform_kept ..) ?_ | refine snd_kept (by assumption) ?_ | split | refine KeptF.trans' (foldl_kept _ _ _ ?_) ?_ | refine KeptF.trans' (foldl_kept_snd _ _ _ ?_) ?_ | simp only [↓State.fixed_mk, ↓State.fixed_def, State.fixed_def])

theorem accessNow_kept (r : ℕ) (a : Access) (s : State) :
    KeptF s.fixed (accessNow r a s).2.fixed := by
  unfold accessNow
  (try dsimp only)
  repeat' with_reducible (first | exact KeptF.refl _ | assumption | intro _ | refine ite_kept ?_ ?_ | refine ite_snd_kept ?_ ?_ | refine KeptF.trans' (perform_kept ..) ?_ | refine snd_kept (by assumption) ?_ | split | refine KeptF.trans' (foldl_kept _ _ _ ?_) ?_ | refine KeptF.trans' (foldl_kept_snd _ _ _ ?_) ?_ | simp only [↓State.fixed_mk, ↓State.fixed_def, State.fixed_def])

theorem finish_fixed (r : ℕ) (x : Reply) (s : State) :
    (finish r x s).fixed = s.fixed := by
  unfold finish
  repeat' with_reducible (first | rfl | refine ite_fixed ?_ ?_ | intro _ | refine (fireMsix_fixed ..).trans ?_ | split | refine (foldl_fixed _ _ _ ?_).trans ?_ | simp only [↓State.fixed_mk, ↓State.fixed_def, State.fixed_def])

theorem noteResult_fixed (r : ℕ) (d : ℕ) (st : ℕ) (moves : ℕ) (s : State) :
    (noteResult r d st moves s).fixed = s.fixed := by
  unfold noteResult
  repeat' with_reducible (first | rfl | refine ite_fixed ?_ ?_ | intro _ | split | refine (foldl_fixed _ _ _ ?_).trans ?_ | simp only [↓State.fixed_mk, ↓State.fixed_def, State.fixed_def])

theorem engDone_fixed (d : ℕ) (c : EngCmd) (o : TabOut) (s : State) :
    (engDone d c o s).fixed = s.fixed := by
  unfold engDone
  repeat' with_reducible (first | rfl | refine ite_fixed ?_ ?_ | refine (State.onDie_fixed ..).trans ?_ | refine (finish_fixed ..).trans ?_ | refine (noteResult_fixed ..).trans ?_ | split)

theorem engStep_fixed (d : ℕ) (s : State) {cc : Part × List Instr × Nat × Nat × BitVec 4}
    (hc : s.fixed = cc) : (engStep d s).elim cc State.fixed = cc := by
  subst hc
  unfold engStep
  (try dsimp only)
  repeat' with_reducible (first | rfl | assumption | intro _ | refine ite_fixed ?_ ?_ | refine ite_snd_fixed ?_ ?_ | refine ite_snd2_fixed ?_ ?_ | refine getD_fixed ?_ ?_ | refine ite_elim_fixed ?_ ?_ | refine (some_elim_fixed ..).trans ?_ | refine (none_elim_fixed ..).trans ?_ | refine ite_fst_elim_fixed ?_ ?_ | refine map_elim_fixed ?_ ?_ | refine bind_elim_fixed ?_ ?_ | refine foldl_elim_fixed _ _ _ ?_ ?_ | refine (State.each_fixed _ _ _ ?_).trans ?_ | refine (State.onDie_fixed ..).trans ?_ | refine (State.send_fixed ..).trans ?_ | refine (countCmd_fixed ..).trans ?_ | refine (engDone_fixed ..).trans ?_ | refine (epochOn_fixed ..).trans ?_ | refine (fibErase_fixed ..).trans ?_ | refine (fibFirst_fixed ..).trans ?_ | refine (fibLocal_fixed ..).trans ?_ | refine (noteResult_fixed ..).trans ?_ | refine (tableCmd_fixed ..).trans ?_ | refine snd_fixed (by assumption) ?_ | refine snd2_fixed (by assumption) ?_ | refine fst_elim_fixed (by assumption) ?_ | refine of_some_fixed (by assumption) ?_ | split | refine (foldl_fixed _ _ _ ?_).trans ?_ | refine (foldl_fixed_snd _ _ _ ?_).trans ?_ | refine (foldl_fixed_snd2 _ _ _ ?_).trans ?_ | simp only [↓State.fixed_mk, ↓State.fixed_def, State.fixed_def])

theorem engServe_fixed (d : ℕ) (i : ℕ) (s : State) :
    (engServe d i s).fixed = s.fixed := by
  unfold engServe
  repeat' with_reducible (first | rfl | refine ite_fixed ?_ ?_ | refine (State.onDie_fixed ..).trans ?_ | refine (engGrant_fixed ..).trans ?_ | refine (learnDo_fixed ..).trans ?_ | refine (recheckDo_fixed ..).trans ?_ | refine (sweepDo_fixed ..).trans ?_ | split)

theorem engNext_fixed (d : ℕ) (s : State) {cc : Part × List Instr × Nat × Nat × BitVec 4}
    (hc : s.fixed = cc) : (engNext d s).elim cc State.fixed = cc := by
  subst hc
  unfold engNext
  dsimp only
  split
  · exact engStep_fixed d s (hc := rfl)
  · generalize arbiter 4 _ _ = o
    cases o with
    | none => rfl
    | some i => exact engServe_fixed ..

theorem engRunN_fixed (a0 : ℕ) (a1 : ℕ) (a2 : State) :
    (engRunN a0 a1 a2).fixed = a2.fixed := by
  induction a0 generalizing a1 a2 with
  | zero => rfl
  | succ n ih =>
    unfold engRunN
    (try dsimp only)
    repeat' with_reducible (first | rfl | refine (ih ..).trans ?_ | assumption | intro _ | refine ite_fixed ?_ ?_ | refine ite_snd_fixed ?_ ?_ | refine ite_snd2_fixed ?_ ?_ | refine getD_fixed ?_ ?_ | refine ite_elim_fixed ?_ ?_ | refine (some_elim_fixed ..).trans ?_ | refine (none_elim_fixed ..).trans ?_ | refine ite_fst_elim_fixed ?_ ?_ | refine map_elim_fixed ?_ ?_ | refine bind_elim_fixed ?_ ?_ | refine foldl_elim_fixed _ _ _ ?_ ?_ | refine engNext_fixed (hc := ?_) .. | refine snd_fixed (by assumption) ?_ | refine snd2_fixed (by assumption) ?_ | refine fst_elim_fixed (by assumption) ?_ | refine of_some_fixed (by assumption) ?_ | split | refine (foldl_fixed _ _ _ ?_).trans ?_ | refine (foldl_fixed_snd _ _ _ ?_).trans ?_ | refine (foldl_fixed_snd2 _ _ _ ?_).trans ?_ | simp only [↓State.fixed_mk, ↓State.fixed_def, State.fixed_def])

theorem engRun_fixed (d : ℕ) (s : State) :
    (engRun d s).fixed = s.fixed := by
  unfold engRun
  repeat' with_reducible (first | rfl | refine ite_fixed ?_ ?_ | refine (engRunN_fixed ..).trans ?_ | split)

theorem refuseAll_fixed (r : ℕ) (d : ℕ) (st : ℕ) (a : Access) (s : State) :
    (refuseAll r d st a s).fixed = s.fixed := by
  unfold refuseAll
  (try dsimp only)
  repeat' with_reducible (first | rfl | assumption | intro _ | refine ite_fixed ?_ ?_ | refine ite_snd_fixed ?_ ?_ | refine ite_snd2_fixed ?_ ?_ | refine getD_fixed ?_ ?_ | refine ite_elim_fixed ?_ ?_ | refine (some_elim_fixed ..).trans ?_ | refine (none_elim_fixed ..).trans ?_ | refine ite_fst_elim_fixed ?_ ?_ | refine map_elim_fixed ?_ ?_ | refine bind_elim_fixed ?_ ?_ | refine foldl_elim_fixed _ _ _ ?_ ?_ | refine (State.each_fixed _ _ _ ?_).trans ?_ | refine (State.send_fixed ..).trans ?_ | refine snd_fixed (by assumption) ?_ | refine snd2_fixed (by assumption) ?_ | refine fst_elim_fixed (by assumption) ?_ | refine of_some_fixed (by assumption) ?_ | split | refine (foldl_fixed _ _ _ ?_).trans ?_ | refine (foldl_fixed_snd _ _ _ ?_).trans ?_ | refine (foldl_fixed_snd2 _ _ _ ?_).trans ?_ | simp only [↓State.fixed_mk, ↓State.fixed_def, State.fixed_def])

theorem engAccept_fixed (r : ℕ) (d : ℕ) (all : Bool) (a : Access) (s : State) :
    (engAccept r d all a s).fixed = s.fixed := by
  unfold engAccept
  repeat' with_reducible (first | rfl | refine ite_fixed ?_ ?_ | refine (State.onDie_fixed ..).trans ?_ | refine (engRun_fixed ..).trans ?_ | refine (finish_fixed ..).trans ?_ | refine (noteResult_fixed ..).trans ?_ | refine (refuseAll_fixed ..).trans ?_ | split)

theorem endptMove_fixed (r : ℕ) (s : State) :
    (endptMove r s).fixed = s.fixed := by
  unfold endptMove
  repeat' with_reducible (first | rfl | refine ite_fixed ?_ ?_ | refine (State.onDie_fixed ..).trans ?_ | split)

theorem dispatch_kept (r : ℕ) (a : Access) (s : State) :
    KeptF s.fixed (dispatch r a s).fixed := by
  unfold dispatch
  (try dsimp only)
  repeat' with_reducible (first | exact KeptF.refl _ | assumption | intro _ | refine ite_kept ?_ ?_ | refine ite_snd_kept ?_ ?_ | refine KeptF.trans' (State.each_kept _ _ _ ?_) ?_ | refine KeptF.step (State.send_fixed ..) ?_ | refine KeptF.trans' (accessNow_kept ..) ?_ | refine KeptF.step (endptMove_fixed ..) ?_ | refine KeptF.step (engAccept_fixed ..) ?_ | refine KeptF.step (finish_fixed ..) ?_ | refine snd_kept (by assumption) ?_ | split | refine KeptF.trans' (foldl_kept _ _ _ ?_) ?_ | refine KeptF.trans' (foldl_kept_snd _ _ _ ?_) ?_ | simp only [↓State.fixed_mk, ↓State.fixed_def, State.fixed_def])

theorem endpoint_kept (r : ℕ) (a : Access) (s : State) :
    KeptF s.fixed (endpoint r a s).fixed := by
  unfold endpoint
  (try dsimp only)
  repeat' with_reducible (first | exact KeptF.refl _ | assumption | intro _ | refine ite_kept ?_ ?_ | refine ite_snd_kept ?_ ?_ | refine KeptF.step (State.pinc_fixed ..) ?_ | refine KeptF.trans' (dispatch_kept ..) ?_ | refine snd_kept (by assumption) ?_ | split | refine KeptF.trans' (foldl_kept _ _ _ ?_) ?_ | refine KeptF.trans' (foldl_kept_snd _ _ _ ?_) ?_ | simp only [↓State.fixed_mk, ↓State.fixed_def, State.fixed_def])

theorem dieAccess_kept (d : ℕ) (s : State) :
    KeptF s.fixed (dieAccess d s).fixed := by
  unfold dieAccess
  (try dsimp only)
  repeat' with_reducible (first | exact KeptF.refl _ | assumption | intro _ | refine ite_kept ?_ ?_ | refine ite_snd_kept ?_ ?_ | refine KeptF.trans' (State.receive_kept _ _ _ _ ?_) ?_ | refine KeptF.step (engAccept_fixed ..) ?_ | refine KeptF.step (finish_fixed ..) ?_ | refine KeptF.trans' (perform_kept ..) ?_ | refine snd_kept (by assumption) ?_ | split | refine KeptF.trans' (foldl_kept _ _ _ ?_) ?_ | refine KeptF.trans' (foldl_kept_snd _ _ _ ?_) ?_ | simp only [↓State.fixed_mk, ↓State.fixed_def, State.fixed_def])

theorem bcastApply_kept (d : ℕ) (s : State) :
    KeptF s.fixed (bcastApply d s).fixed := by
  unfold bcastApply
  (try dsimp only)
  repeat' with_reducible (first | exact KeptF.refl _ | assumption | intro _ | refine ite_kept ?_ ?_ | refine ite_snd_kept ?_ ?_ | refine KeptF.trans' (State.receiveInOrder_kept _ _ _ _ ?_) ?_ | refine KeptF.step (engAccept_fixed ..) ?_ | refine KeptF.step (noteResult_fixed ..) ?_ | refine KeptF.trans' (perform_kept ..) ?_ | refine snd_kept (by assumption) ?_ | split | refine KeptF.trans' (foldl_kept _ _ _ ?_) ?_ | refine KeptF.trans' (foldl_kept_snd _ _ _ ?_) ?_ | simp only [↓State.fixed_mk, ↓State.fixed_def, State.fixed_def])

theorem fibOutcome_fixed (d : ℕ) (s : State) :
    (fibOutcome d s).fixed = s.fixed := by
  unfold fibOutcome
  repeat' with_reducible (first | rfl | refine ite_fixed ?_ ?_ | intro _ | refine (engDone_fixed ..).trans ?_ | refine (engRun_fixed ..).trans ?_ | refine (fibOther_fixed ..).trans ?_ | refine (leaveBuffer_fixed ..).trans ?_ | split | refine (foldl_fixed _ _ _ ?_).trans ?_ | simp only [↓State.fixed_mk, ↓State.fixed_def, State.fixed_def])

theorem bcastDone_fixed (r : ℕ) (s : State) :
    (bcastDone r s).fixed = s.fixed := by
  unfold bcastDone
  repeat' with_reducible (first | rfl | refine ite_fixed ?_ ?_ | intro _ | refine (State.dropMsgs_fixed ..).trans ?_ | refine (State.each_fixed _ _ _ ?_).trans ?_ | refine (allReply_fixed ..).trans ?_ | refine (engRun_fixed ..).trans ?_ | refine (finish_fixed ..).trans ?_ | split | refine (foldl_fixed _ _ _ ?_).trans ?_ | simp only [↓State.fixed_mk, ↓State.fixed_def, State.fixed_def])

theorem goOn_kept (s : State) :
    KeptF s.fixed (goOn s).fixed := by
  unfold goOn
  (try dsimp only)
  repeat' with_reducible (first | exact KeptF.refl _ | assumption | intro _ | refine ite_kept ?_ ?_ | refine ite_snd_kept ?_ ?_ | refine KeptF.trans' (dispatch_kept ..) ?_ | refine snd_kept (by assumption) ?_ | split | refine KeptF.trans' (foldl_kept _ _ _ ?_) ?_ | refine KeptF.trans' (foldl_kept_snd _ _ _ ?_) ?_ | simp only [↓State.fixed_mk, ↓State.fixed_def, State.fixed_def])

theorem migrated_kept (d : ℕ) (poisoned : List (Fin 32768)) (s : State) :
    KeptF s.fixed (migrated d poisoned s).fixed := by
  unfold migrated
  dsimp only
  have h : ∀ t : State, (t.each t.present (fun e s => engRun e s)).fixed = t.fixed :=
    fun t => State.each_fixed _ _ _ (fun _ _ => engRun_fixed ..)
  refine ite_kept ?_ (KeptF.trans' (goOn_kept ..) ?_) <;>
    exact KeptF.step ((h _).trans (migrateDone_fixed ..)) (KeptF.refl _)

theorem writeBy_kept (r : ℕ) (sel : Sel) (i : ℕ) (sub : ℕ) (len : ℕ) (v : ℕ) (s : State) :
    KeptF s.fixed (writeBy r sel i sub len v s).fixed := by
  unfold writeBy
  (try dsimp only)
  repeat' with_reducible (first | exact KeptF.refl _ | assumption | intro _ | refine ite_kept ?_ ?_ | refine ite_snd_kept ?_ ?_ | refine KeptF.trans' (endpoint_kept ..) ?_ | refine snd_kept (by assumption) ?_ | split | refine KeptF.trans' (foldl_kept _ _ _ ?_) ?_ | refine KeptF.trans' (foldl_kept_snd _ _ _ ?_) ?_ | simp only [↓State.fixed_mk, ↓State.fixed_def, State.fixed_def])

theorem mailboxGo_kept (l : List (Fin 2 × Fin 8 × Bool × Access)) (s : State) :
    KeptF s.fixed (mailboxGo l s).fixed := by
  unfold mailboxGo
  (try dsimp only)
  repeat' with_reducible (first | exact KeptF.refl _ | assumption | intro _ | refine ite_kept ?_ ?_ | refine ite_snd_kept ?_ ?_ | refine KeptF.trans' (State.each_kept _ _ _ ?_) ?_ | refine KeptF.trans' (endpoint_kept ..) ?_ | refine snd_kept (by assumption) ?_ | split | refine KeptF.trans' (foldl_kept _ _ _ ?_) ?_ | refine KeptF.trans' (foldl_kept_snd _ _ _ ?_) ?_ | simp only [↓State.fixed_mk, ↓State.fixed_def, State.fixed_def])

theorem switchEnd_kept (crcBad : Bool) (s : State) :
    KeptF s.fixed (switchEnd crcBad s).fixed := by
  unfold switchEnd
  (try dsimp only)
  repeat' with_reducible (first | exact KeptF.refl _ | assumption | intro _ | refine ite_kept ?_ ?_ | refine ite_snd_kept ?_ ?_ | refine KeptF.trans' (goOn_kept ..) ?_ | refine KeptF.step (switchDone_fixed ..) ?_ | refine snd_kept (by assumption) ?_ | split | refine KeptF.trans' (foldl_kept _ _ _ ?_) ?_ | refine KeptF.trans' (foldl_kept_snd _ _ _ ?_) ?_ | simp only [↓State.fixed_mk, ↓State.fixed_def, State.fixed_def])

theorem flushAllN_fixed (d : ℕ) (a1 : ℕ) (a2 : State) :
    (flushAllN d a1 a2).fixed = a2.fixed := by
  induction a1 generalizing a2 with
  | zero => rfl
  | succ n ih =>
    unfold flushAllN
    (try dsimp only)
    repeat' with_reducible (first | rfl | refine (ih ..).trans ?_ | assumption | intro _ | refine ite_fixed ?_ ?_ | refine ite_snd_fixed ?_ ?_ | refine ite_snd2_fixed ?_ ?_ | refine getD_fixed ?_ ?_ | refine ite_elim_fixed ?_ ?_ | refine (some_elim_fixed ..).trans ?_ | refine (none_elim_fixed ..).trans ?_ | refine ite_fst_elim_fixed ?_ ?_ | refine map_elim_fixed ?_ ?_ | refine bind_elim_fixed ?_ ?_ | refine foldl_elim_fixed _ _ _ ?_ ?_ | refine (flushStep_fixed ..).trans ?_ | refine snd_fixed (by assumption) ?_ | refine snd2_fixed (by assumption) ?_ | refine fst_elim_fixed (by assumption) ?_ | refine of_some_fixed (by assumption) ?_ | split | refine (foldl_fixed _ _ _ ?_).trans ?_ | refine (foldl_fixed_snd _ _ _ ?_).trans ?_ | refine (foldl_fixed_snd2 _ _ _ ?_).trans ?_ | simp only [↓State.fixed_mk, ↓State.fixed_def, State.fixed_def])

theorem flushAll_fixed (d : ℕ) (s : State) :
    (flushAll d s).fixed = s.fixed := by
  unfold flushAll
  repeat' with_reducible (first | rfl | refine ite_fixed ?_ ?_ | refine (flushAllN_fixed ..).trans ?_ | split)

theorem batchCmd_kept (d : ℕ) (v : ℕ) (s : State) :
    KeptF s.fixed (batchCmd d v s).2.2.fixed := by
  unfold batchCmd
  (try dsimp only)
  repeat' with_reducible (first | exact KeptF.refl _ | assumption | intro _ | refine ite_kept ?_ ?_ | refine ite_snd_kept ?_ ?_ | refine KeptF.trans' (State.each_kept _ _ _ ?_) ?_ | refine KeptF.step (engGrant_fixed ..) ?_ | refine KeptF.step (flushAll_fixed ..) ?_ | refine KeptF.trans' (performAll_kept ..) ?_ | refine KeptF.step (tableCmd_fixed ..) ?_ | refine snd_kept (by assumption) ?_ | split | refine KeptF.trans' (foldl_kept _ _ _ ?_) ?_ | refine KeptF.trans' (foldl_kept_snd _ _ _ ?_) ?_ | simp only [↓State.fixed_mk, ↓State.fixed_def, State.fixed_def])

theorem batchAll_kept (d : Nat) (l : List Nat) (b : Bool) (s : State) : KeptF s.fixed (batchAll d l b s).2.fixed := by
  induction l generalizing b s with
  | nil => exact KeptF.refl _
  | cons v r ih =>
    unfold batchAll; dsimp only; split
    · exact ih ..
    · exact (ih ..).trans' (batchCmd_kept ..)

theorem batchRun_kept (d : Nat) (slot : BitVec 256) (cmds : List (BitVec 640)) (atts : List (Nat × BitVec 64)) (s : State) :
    KeptF s.fixed (batchRun d slot cmds atts s).fixed := by
  unfold batchRun
  refine ite_kept (KeptF.refl _) ?_
  dsimp only
  split
  · exact KeptF.step (ringError_fixed ..) (KeptF.refl _)
  split
  · exact KeptF.step (ringFault_fixed ..) (KeptF.refl _)
  split
  · exact KeptF.step (ringFault_fixed ..) (KeptF.refl _)
  refine ite_kept ?_ ?_
  · exact KeptF.step (ringError_fixed ..) (KeptF.refl _)
  exact KeptF.step (ringAdvance_fixed ..) (KeptF.step (dmaWrite_fixed ..) (KeptF.trans' (batchAll_kept ..)
    (KeptF.step (attKeepAll_fixed ..) (KeptF.step (attKeepAll_fixed ..) (KeptF.refl _)))))

end Sys2Proof.Machine
end

