-- ==== Sys2Proof/Laws/Fixed/Jdp.lean ====
section
/-! SUPPORT. What the operations of Machine/Jdp.lean leave as it is: the part, the queue, the clock, the anti-rollback
counter and the revocation bits. -/

set_option linter.all false
set_option maxRecDepth 4000

namespace Sys2Proof.Machine

theorem forwardFrame_fixed (port : ℕ) (f : Bytes) (s : State) :
    (forwardFrame port f s).fixed = s.fixed := by
  unfold forwardFrame
  repeat' with_reducible (first | rfl | refine ite_fixed ?_ ?_ | intro _ | refine (State.pinc_fixed ..).trans ?_ | split | refine (foldl_fixed _ _ _ ?_).trans ?_ | simp only [↓State.fixed_mk, ↓State.fixed_def, State.fixed_def])

theorem relayDeliver_fixed (s : State) :
    (relayDeliver s).fixed = s.fixed := by
  unfold relayDeliver
  (try dsimp only)
  repeat' with_reducible (first | rfl | assumption | intro _ | refine ite_fixed ?_ ?_ | refine ite_snd_fixed ?_ ?_ | refine ite_snd2_fixed ?_ ?_ | refine getD_fixed ?_ ?_ | refine ite_elim_fixed ?_ ?_ | refine (some_elim_fixed ..).trans ?_ | refine (none_elim_fixed ..).trans ?_ | refine ite_fst_elim_fixed ?_ ?_ | refine map_elim_fixed ?_ ?_ | refine bind_elim_fixed ?_ ?_ | refine foldl_elim_fixed _ _ _ ?_ ?_ | refine (State.each_fixed _ _ _ ?_).trans ?_ | refine (State.send_fixed ..).trans ?_ | refine snd_fixed (by assumption) ?_ | refine snd2_fixed (by assumption) ?_ | refine fst_elim_fixed (by assumption) ?_ | refine of_some_fixed (by assumption) ?_ | split | refine (foldl_fixed _ _ _ ?_).trans ?_ | refine (foldl_fixed_snd _ _ _ ?_).trans ?_ | refine (foldl_fixed_snd2 _ _ _ ?_).trans ?_ | simp only [↓State.fixed_mk, ↓State.fixed_def, State.fixed_def])

theorem jdpFrameReceive_fixed (port : ℕ) (f : Bytes) (s : State) :
    (jdpFrameReceive port f s).fixed = s.fixed := by
  unfold jdpFrameReceive
  repeat' with_reducible (first | rfl | refine ite_fixed ?_ ?_ | intro _ | refine (State.pinc_fixed ..).trans ?_ | refine (forwardFrame_fixed ..).trans ?_ | refine (relayDeliver_fixed ..).trans ?_ | split | refine (foldl_fixed _ _ _ ?_).trans ?_ | simp only [↓State.fixed_mk, ↓State.fixed_def, State.fixed_def])

theorem relayArrive_fixed (s : State) :
    (relayArrive s).fixed = s.fixed := by
  unfold relayArrive
  (try dsimp only)
  repeat' with_reducible (first | rfl | assumption | intro _ | refine ite_fixed ?_ ?_ | refine ite_snd_fixed ?_ ?_ | refine ite_snd2_fixed ?_ ?_ | refine getD_fixed ?_ ?_ | refine ite_elim_fixed ?_ ?_ | refine (some_elim_fixed ..).trans ?_ | refine (none_elim_fixed ..).trans ?_ | refine ite_fst_elim_fixed ?_ ?_ | refine map_elim_fixed ?_ ?_ | refine bind_elim_fixed ?_ ?_ | refine foldl_elim_fixed _ _ _ ?_ ?_ | refine (State.each_fixed _ _ _ ?_).trans ?_ | refine (State.receive_fixed _ _ _ _ ?_).trans ?_ | refine (State.send_fixed ..).trans ?_ | refine snd_fixed (by assumption) ?_ | refine snd2_fixed (by assumption) ?_ | refine fst_elim_fixed (by assumption) ?_ | refine of_some_fixed (by assumption) ?_ | split | refine (foldl_fixed _ _ _ ?_).trans ?_ | refine (foldl_fixed_snd _ _ _ ?_).trans ?_ | refine (foldl_fixed_snd2 _ _ _ ?_).trans ?_ | simp only [↓State.fixed_mk, ↓State.fixed_def, State.fixed_def])

theorem onInbox_fixed (t : JdpMsg → Bool) (f : Nat → JdpMsg → State → State) (s : State)
    (h : ∀ n m a, (f n m a).fixed = a.fixed) : (onInbox t f s).fixed = s.fixed := by
  unfold onInbox; dsimp only
  refine Eq.trans ?_ ((relayDeliver_fixed ..).trans (relayArrive_fixed ..))
  generalize relayDeliver (relayArrive s) = u
  split
  · rfl
  · split
    · rfl
    · split
      · rfl
      · rw [h]; rfl

theorem onInbox_kept (t : JdpMsg → Bool) (f : Nat → JdpMsg → State → State) (s : State)
    (h : ∀ n m a, KeptF a.fixed (f n m a).fixed) : KeptF s.fixed (onInbox t f s).fixed := by
  unfold onInbox; dsimp only
  refine KeptF.trans' ?_ (KeptF.step ((relayDeliver_fixed ..).trans (relayArrive_fixed ..)) (KeptF.refl _))
  generalize relayDeliver (relayArrive s) = u
  split
  · exact KeptF.refl _
  · split
    · exact KeptF.refl _
    · split
      · exact KeptF.refl _
      · exact h _ _ _

theorem inSession_fixed (port : Nat) (m : JdpMsg) (f : Nat → State → State) (s : State)
    (h : ∀ n a, (f n a).fixed = a.fixed) : (inSession port m f s).fixed = s.fixed := by
  unfold inSession
  repeat' (first | rfl | (simp only [↓State.pinc_fixed, ↓State.pset_fixed, ↓jdpReply_fixed, ↓seqAccept_fixed, ↓sessionSeen_fixed, h]; done) | split | dsimp only)

theorem inSession_kept (port : Nat) (m : JdpMsg) (f : Nat → State → State) (s : State)
    (h : ∀ n a, KeptF a.fixed (f n a).fixed) : KeptF s.fixed (inSession port m f s).fixed := by
  unfold inSession
  repeat' (first | exact KeptF.refl _ | (refine KeptF.step ?_ (KeptF.refl _); simp only [↓State.pinc_fixed, ↓State.pset_fixed, ↓jdpReply_fixed, ↓sessionSeen_fixed]; done) | (refine KeptF.trans' (h _ _) (KeptF.step (seqAccept_fixed ..) (KeptF.refl _)); done) | split | dsimp only)

theorem jdpAnswer_fixed (port : ℕ) (i : ℕ) (k : Bytes) (m : JdpMsg) (status : ℕ) (count : ℕ) (p : Bytes) (s : State) :
    (jdpAnswer port i k m status count p s).fixed = s.fixed := by
  unfold jdpAnswer
  (try dsimp only)
  repeat' with_reducible (first | rfl | assumption | intro _ | refine ite_fixed ?_ ?_ | refine ite_snd_fixed ?_ ?_ | refine ite_snd2_fixed ?_ ?_ | refine getD_fixed ?_ ?_ | refine ite_elim_fixed ?_ ?_ | refine (some_elim_fixed ..).trans ?_ | refine (none_elim_fixed ..).trans ?_ | refine ite_fst_elim_fixed ?_ ?_ | refine map_elim_fixed ?_ ?_ | refine bind_elim_fixed ?_ ?_ | refine foldl_elim_fixed _ _ _ ?_ ?_ | refine (cacheReply_fixed ..).trans ?_ | refine (jdpReply_fixed ..).trans ?_ | refine snd_fixed (by assumption) ?_ | refine snd2_fixed (by assumption) ?_ | refine fst_elim_fixed (by assumption) ?_ | refine of_some_fixed (by assumption) ?_ | split | refine (foldl_fixed _ _ _ ?_).trans ?_ | refine (foldl_fixed_snd _ _ _ ?_).trans ?_ | refine (foldl_fixed_snd2 _ _ _ ?_).trans ?_ | simp only [↓State.fixed_mk, ↓State.fixed_def, State.fixed_def])

theorem jdpGo_kept (i : ℕ) (j : JdpJob) (l : List (ℕ × ℕ × Access)) (out : Bytes) (s : State) :
    KeptF s.fixed (jdpGo i j l out s).fixed := by
  induction l generalizing out s with
  | nil => exact KeptF.step ((jdpAnswer_fixed ..).trans rfl) (KeptF.refl _)
  | cons x rest ih =>
    unfold jdpGo
    refine ite_kept ?_ ?_
    · exact KeptF.trans' (ih _ _) (KeptF.step (State.pinc_fixed ..) (KeptF.refl _))
    · dsimp only
      refine ite_kept ?_ ?_
      · exact KeptF.trans' (endpoint_kept ..) (KeptF.refl _)
      · exact KeptF.trans' (ih _ _) (endpoint_kept ..)

theorem jdpRequest_kept (port : ℕ) (m : JdpMsg) (s : State) :
    KeptF s.fixed (jdpRequest port m s).fixed := by
  unfold jdpRequest
  refine inSession_kept _ _ _ _ (fun i s => ?_)
  dsimp only
  split
  · exact KeptF.step (jdpAnswer_fixed ..) (KeptF.refl _)
  · refine ite_kept (KeptF.step (jdpAnswer_fixed ..) (KeptF.refl _)) ?_
    exact jdpGo_kept ..

theorem jdpResume_kept (i : ℕ) (s : State) :
    KeptF s.fixed (jdpResume i s).fixed := by
  unfold jdpResume
  (try dsimp only)
  repeat' with_reducible (first | exact KeptF.refl _ | assumption | intro _ | refine ite_kept ?_ ?_ | refine ite_snd_kept ?_ ?_ | refine KeptF.trans' (jdpGo_kept ..) ?_ | refine snd_kept (by assumption) ?_ | split | refine KeptF.trans' (foldl_kept _ _ _ ?_) ?_ | refine KeptF.trans' (foldl_kept_snd _ _ _ ?_) ?_ | simp only [↓State.fixed_mk, ↓State.fixed_def, State.fixed_def])

theorem jdpServe_kept (s : State) : KeptF s.fixed (jdpServe s).fixed := by
  unfold jdpServe; dsimp only
  exact KeptF.trans' (onInbox_kept _ _ _ (fun _ _ _ => jdpRequest_kept ..)) (State.each_kept _ _ _ (fun _ _ => jdpResume_kept ..))

theorem jdpOpen_fixed (port : ℕ) (m : JdpMsg) (s : State) :
    (jdpOpen port m s).fixed = s.fixed := by
  unfold jdpOpen
  dsimp only
  repeat' with_reducible (first | rfl | refine ite_fixed ?_ ?_ | intro _ | refine (State.fresh_fixed ..).trans ?_ | refine (State.pinc_fixed ..).trans ?_ | refine (State.pset_fixed ..).trans ?_ | refine (jdpReply_fixed ..).trans ?_ | split | refine (foldl_fixed _ _ _ ?_).trans ?_ | simp only [↓State.fixed_mk, ↓State.fixed_def, State.fixed_def])

theorem jdpClose_fixed (_port : ℕ) (m : JdpMsg) (s : State) :
    (jdpClose _port m s).fixed = s.fixed := by
  unfold jdpClose
  repeat' with_reducible (first | rfl | refine ite_fixed ?_ ?_ | refine (State.pinc_fixed ..).trans ?_ | refine (closeSession_fixed ..).trans ?_ | split)

theorem jdpDiscover_fixed (port : ℕ) (m : JdpMsg) (s : State) :
    (jdpDiscover port m s).fixed = s.fixed := by
  unfold jdpDiscover
  repeat' with_reducible (first | rfl | refine ite_fixed ?_ ?_ | refine (State.pinc_fixed ..).trans ?_ | refine (jdpOut_fixed ..).trans ?_ | split)

theorem idleTimeout_fixed (i : ℕ) (s : State) :
    (idleTimeout i s).fixed = s.fixed := by
  unfold idleTimeout
  repeat' with_reducible (first | rfl | refine ite_fixed ?_ ?_ | refine (closeSession_fixed ..).trans ?_ | split)

theorem jdpImage_fixed (port : ℕ) (m : JdpMsg) (s : State) :
    (jdpImage port m s).fixed = s.fixed := by
  unfold jdpImage
  repeat' with_reducible (first | rfl | refine ite_fixed ?_ ?_ | intro _ | refine (imageMessage_fixed ..).trans ?_ | refine (inSession_fixed _ _ _ _ ?_).trans ?_ | split | refine (foldl_fixed _ _ _ ?_).trans ?_ | simp only [↓State.fixed_mk, ↓State.fixed_def, State.fixed_def])

theorem jdpStatus_fixed (port : ℕ) (m : JdpMsg) (s : State) :
    (jdpStatus port m s).fixed = s.fixed := by
  unfold jdpStatus
  repeat' with_reducible (first | rfl | refine ite_fixed ?_ ?_ | refine (State.pinc_fixed ..).trans ?_ | refine (relayStatus_fixed ..).trans ?_ | split)

theorem execJdpFrameReceive_fixed (port : Fin 2) (f : Bytes) (s : State) {s' : State}
    (h : execJdpFrameReceive port f s = .next s') : s'.fixed = s.fixed := by
  unfold execJdpFrameReceive at h
  cases h
  repeat' with_reducible (first | rfl | refine ite_fixed ?_ ?_ | refine (jdpFrameReceive_fixed ..).trans ?_ | split)

theorem execJdpRequest_kept (s : State) {s' : State} (h : execJdpRequest s = .next s') : KeptF s.fixed s'.fixed := by
  rw [← Host.Outcome.next.inj h]; exact jdpServe_kept s

theorem execJdpOpen_fixed (s : State) {s' : State}
    (h : execJdpOpen s = .next s') : s'.fixed = s.fixed := by
  unfold execJdpOpen at h
  cases h
  repeat' with_reducible (first | rfl | refine ite_fixed ?_ ?_ | intro _ | refine (jdpOpen_fixed ..).trans ?_ | refine (onInbox_fixed _ _ _ ?_).trans ?_ | split | refine (foldl_fixed _ _ _ ?_).trans ?_ | simp only [↓State.fixed_mk, ↓State.fixed_def, State.fixed_def])

theorem execJdpOpenReply_fixed (serial : BitVec 64) (s : State) {s' : State}
    (h : execJdpOpenReply serial s = .next s') : s'.fixed = s.fixed := by
  unfold execJdpOpenReply at h
  cases h
  repeat' with_reducible (first | rfl | refine ite_fixed ?_ ?_ | intro _ | refine (onInbox_fixed _ _ _ ?_).trans ?_ | refine (relayOpened_fixed ..).trans ?_ | split | refine (foldl_fixed _ _ _ ?_).trans ?_ | simp only [↓State.fixed_mk, ↓State.fixed_def, State.fixed_def])

theorem execJdpClose_fixed (s : State) {s' : State}
    (h : execJdpClose s = .next s') : s'.fixed = s.fixed := by
  unfold execJdpClose at h
  cases h
  repeat' with_reducible (first | rfl | refine ite_fixed ?_ ?_ | intro _ | refine (jdpClose_fixed ..).trans ?_ | refine (onInbox_fixed _ _ _ ?_).trans ?_ | split | refine (foldl_fixed _ _ _ ?_).trans ?_ | simp only [↓State.fixed_mk, ↓State.fixed_def, State.fixed_def])

theorem execJdpDiscover_fixed (s : State) {s' : State}
    (h : execJdpDiscover s = .next s') : s'.fixed = s.fixed := by
  unfold execJdpDiscover at h
  cases h
  repeat' with_reducible (first | rfl | refine ite_fixed ?_ ?_ | intro _ | refine (jdpDiscover_fixed ..).trans ?_ | refine (onInbox_fixed _ _ _ ?_).trans ?_ | split | refine (foldl_fixed _ _ _ ?_).trans ?_ | simp only [↓State.fixed_mk, ↓State.fixed_def, State.fixed_def])

theorem execSessionIdleTimeout_fixed (i : Fin 16) (s : State) {s' : State}
    (h : execSessionIdleTimeout i s = .next s') : s'.fixed = s.fixed := by
  unfold execSessionIdleTimeout at h
  cases h
  repeat' with_reducible (first | rfl | refine ite_fixed ?_ ?_ | refine (idleTimeout_fixed ..).trans ?_ | split)

theorem execJdpOffer_fixed (s : State) {s' : State}
    (h : execJdpOffer s = .next s') : s'.fixed = s.fixed := by
  unfold execJdpOffer at h
  cases h
  repeat' with_reducible (first | rfl | refine ite_fixed ?_ ?_ | intro _ | refine (jdpImage_fixed ..).trans ?_ | refine (onInbox_fixed _ _ _ ?_).trans ?_ | split | refine (foldl_fixed _ _ _ ?_).trans ?_ | simp only [↓State.fixed_mk, ↓State.fixed_def, State.fixed_def])

theorem execJdpBlock_fixed (s : State) {s' : State}
    (h : execJdpBlock s = .next s') : s'.fixed = s.fixed := by
  unfold execJdpBlock at h
  cases h
  repeat' with_reducible (first | rfl | refine ite_fixed ?_ ?_ | intro _ | refine (jdpImage_fixed ..).trans ?_ | refine (onInbox_fixed _ _ _ ?_).trans ?_ | split | refine (foldl_fixed _ _ _ ?_).trans ?_ | simp only [↓State.fixed_mk, ↓State.fixed_def, State.fixed_def])

theorem execJdpStatus_fixed (s : State) {s' : State}
    (h : execJdpStatus s = .next s') : s'.fixed = s.fixed := by
  unfold execJdpStatus at h
  cases h
  repeat' with_reducible (first | rfl | refine ite_fixed ?_ ?_ | intro _ | refine (jdpStatus_fixed ..).trans ?_ | refine (onInbox_fixed _ _ _ ?_).trans ?_ | split | refine (foldl_fixed _ _ _ ?_).trans ?_ | simp only [↓State.fixed_mk, ↓State.fixed_def, State.fixed_def])

theorem execJdpEnd_fixed (s : State) {s' : State}
    (h : execJdpEnd s = .next s') : s'.fixed = s.fixed := by
  unfold execJdpEnd at h
  cases h
  repeat' with_reducible (first | rfl | refine ite_fixed ?_ ?_ | intro _ | refine (jdpImage_fixed ..).trans ?_ | refine (onInbox_fixed _ _ _ ?_).trans ?_ | split | refine (foldl_fixed _ _ _ ?_).trans ?_ | simp only [↓State.fixed_mk, ↓State.fixed_def, State.fixed_def])

end Sys2Proof.Machine
end

