-- ==== Sys2Proof/Laws/Fixed/Writes.lean ====
section
/-! SUPPORT. What the operations of Machine/Writes.lean leave as it is: the part, the queue, the clock, the anti-rollback
counter and the revocation bits. -/

set_option linter.all false
set_option maxRecDepth 4000

namespace Sys2Proof.Machine

theorem tableBy_kept (r : ℕ) (sel : Sel) (op : ℕ) (table : ℕ) (low : ℕ) (rec : BitVec 512) (s : State) :
    KeptF s.fixed (tableBy r sel op table low rec s).fixed := by
  unfold tableBy
  (try dsimp only)
  repeat' with_reducible (first | exact KeptF.refl _ | assumption | intro _ | refine ite_kept ?_ ?_ | refine ite_snd_kept ?_ ?_ | refine KeptF.trans' (writeBy_kept ..) ?_ | refine snd_kept (by assumption) ?_ | split | refine KeptF.trans' (foldl_kept _ _ _ ?_) ?_ | refine KeptF.trans' (foldl_kept_snd _ _ _ ?_) ?_ | simp only [↓State.fixed_mk, ↓State.fixed_def, State.fixed_def])

theorem pageBy_kept (r : ℕ) (sel : Sel) (op : ℕ) (region : Fin 8) (page : BitVec 32) (hpa : BitVec 31) (fill : Bool) (s : State) :
    KeptF s.fixed (pageBy r sel op region page hpa fill s).fixed := by
  unfold pageBy
  (try dsimp only)
  repeat' with_reducible (first | exact KeptF.refl _ | assumption | intro _ | refine ite_kept ?_ ?_ | refine ite_snd_kept ?_ ?_ | refine KeptF.trans' (writeBy_kept ..) ?_ | refine snd_kept (by assumption) ?_ | split | refine KeptF.trans' (foldl_kept _ _ _ ?_) ?_ | refine KeptF.trans' (foldl_kept_snd _ _ _ ?_) ?_ | simp only [↓State.fixed_mk, ↓State.fixed_def, State.fixed_def])

theorem execDictWrite_kept (r : Requester) (sel : Sel) (i : Fin 65536) (sub : Fin 256) (len : Fin 1033) (v : BitVec 8256) (s : State) {s' : State}
    (h : execDictWrite r sel i sub len v s = .next s') : KeptF s.fixed s'.fixed := by
  unfold execDictWrite at h
  cases h
  (try dsimp only)
  repeat' with_reducible (first | exact KeptF.refl _ | assumption | intro _ | refine ite_kept ?_ ?_ | refine ite_snd_kept ?_ ?_ | refine KeptF.trans' (writeBy_kept ..) ?_ | refine snd_kept (by assumption) ?_ | split | refine KeptF.trans' (foldl_kept _ _ _ ?_) ?_ | refine KeptF.trans' (foldl_kept_snd _ _ _ ?_) ?_ | simp only [↓State.fixed_mk, ↓State.fixed_def, State.fixed_def])

theorem execRcRead_kept (r : Requester) (sel : Sel) (i : Fin 65536) (sub : Fin 256) (s : State) {s' : State}
    (h : execRcRead r sel i sub s = .next s') : KeptF s.fixed s'.fixed := by
  unfold execRcRead at h
  cases h
  (try dsimp only)
  repeat' with_reducible (first | exact KeptF.refl _ | assumption | intro _ | refine ite_kept ?_ ?_ | refine ite_snd_kept ?_ ?_ | refine KeptF.trans' (endpoint_kept ..) ?_ | refine snd_kept (by assumption) ?_ | split | refine KeptF.trans' (foldl_kept _ _ _ ?_) ?_ | refine KeptF.trans' (foldl_kept_snd _ _ _ ?_) ?_ | simp only [↓State.fixed_mk, ↓State.fixed_def, State.fixed_def])

theorem execDescribe_kept (r : Requester) (i : Fin 65536) (sub : Fin 256) (s : State) {s' : State}
    (h : execDescribe r i sub s = .next s') : KeptF s.fixed s'.fixed := by
  unfold execDescribe at h
  cases h
  (try dsimp only)
  repeat' with_reducible (first | exact KeptF.refl _ | assumption | intro _ | refine ite_kept ?_ ?_ | refine ite_snd_kept ?_ ?_ | refine KeptF.trans' (endpoint_kept ..) ?_ | refine snd_kept (by assumption) ?_ | split | refine KeptF.trans' (foldl_kept _ _ _ ?_) ?_ | refine KeptF.trans' (foldl_kept_snd _ _ _ ?_) ?_ | simp only [↓State.fixed_mk, ↓State.fixed_def, State.fixed_def])

theorem execMailboxGo_kept (l : List (Fin 2 × Fin 8 × Bool × Access)) (s : State) {s' : State}
    (h : execMailboxGo l s = .next s') : KeptF s.fixed s'.fixed := by
  unfold execMailboxGo at h
  cases h
  (try dsimp only)
  repeat' with_reducible (first | exact KeptF.refl _ | assumption | intro _ | refine ite_kept ?_ ?_ | refine ite_snd_kept ?_ ?_ | refine KeptF.trans' (mailboxGo_kept ..) ?_ | refine snd_kept (by assumption) ?_ | split | refine KeptF.trans' (foldl_kept _ _ _ ?_) ?_ | refine KeptF.trans' (foldl_kept_snd _ _ _ ?_) ?_ | simp only [↓State.fixed_mk, ↓State.fixed_def, State.fixed_def])

theorem execDieAccessMessage_kept (d : DieId) (s : State) {s' : State}
    (h : execDieAccessMessage d s = .next s') : KeptF s.fixed s'.fixed := by
  unfold execDieAccessMessage at h
  refine onPresent_kept (fun s => ?_) h
  (try dsimp only)
  repeat' with_reducible (first | exact KeptF.refl _ | assumption | intro _ | refine ite_kept ?_ ?_ | refine ite_snd_kept ?_ ?_ | refine KeptF.trans' (dieAccess_kept ..) ?_ | refine snd_kept (by assumption) ?_ | split | refine KeptF.trans' (foldl_kept _ _ _ ?_) ?_ | refine KeptF.trans' (foldl_kept_snd _ _ _ ?_) ?_ | simp only [↓State.fixed_mk, ↓State.fixed_def, State.fixed_def])

theorem execBroadcastApply_kept (d : DieId) (s : State) {s' : State}
    (h : execBroadcastApply d s = .next s') : KeptF s.fixed s'.fixed := by
  unfold execBroadcastApply at h
  refine onPresent_kept (fun s => ?_) h
  (try dsimp only)
  repeat' with_reducible (first | exact KeptF.refl _ | assumption | intro _ | refine ite_kept ?_ ?_ | refine ite_snd_kept ?_ ?_ | refine KeptF.trans' (bcastApply_kept ..) ?_ | refine snd_kept (by assumption) ?_ | split | refine KeptF.trans' (foldl_kept _ _ _ ?_) ?_ | refine KeptF.trans' (foldl_kept_snd _ _ _ ?_) ?_ | simp only [↓State.fixed_mk, ↓State.fixed_def, State.fixed_def])

theorem execBroadcastComplete_fixed (r : Requester) (s : State) {s' : State}
    (h : execBroadcastComplete r s = .next s') : s'.fixed = s.fixed := by
  unfold execBroadcastComplete at h
  cases h
  repeat' with_reducible (first | rfl | refine ite_fixed ?_ ?_ | refine (bcastDone_fixed ..).trans ?_ | split)

theorem execDieRejoin_kept (r : Requester) (v : BitVec 32) (s : State) {s' : State}
    (h : execDieRejoin r v s = .next s') : KeptF s.fixed s'.fixed := by
  unfold execDieRejoin at h
  cases h
  (try dsimp only)
  repeat' with_reducible (first | exact KeptF.refl _ | assumption | intro _ | refine ite_kept ?_ ?_ | refine ite_snd_kept ?_ ?_ | refine KeptF.trans' (writeBy_kept ..) ?_ | refine snd_kept (by assumption) ?_ | split | refine KeptF.trans' (foldl_kept _ _ _ ?_) ?_ | refine KeptF.trans' (foldl_kept_snd _ _ _ ?_) ?_ | simp only [↓State.fixed_mk, ↓State.fixed_def, State.fixed_def])

theorem execFibInsert_kept (r : Requester) (sel : Sel) (rec : BitVec 512) (s : State) {s' : State}
    (h : execFibInsert r sel rec s = .next s') : KeptF s.fixed s'.fixed := by
  unfold execFibInsert at h
  cases h
  (try dsimp only)
  repeat' with_reducible (first | exact KeptF.refl _ | assumption | intro _ | refine ite_kept ?_ ?_ | refine ite_snd_kept ?_ ?_ | refine KeptF.trans' (tableBy_kept ..) ?_ | refine snd_kept (by assumption) ?_ | split | refine KeptF.trans' (foldl_kept _ _ _ ?_) ?_ | refine KeptF.trans' (foldl_kept_snd _ _ _ ?_) ?_ | simp only [↓State.fixed_mk, ↓State.fixed_def, State.fixed_def])

theorem execFibDelete_kept (r : Requester) (sel : Sel) (rec : BitVec 512) (s : State) {s' : State}
    (h : execFibDelete r sel rec s = .next s') : KeptF s.fixed s'.fixed := by
  unfold execFibDelete at h
  cases h
  (try dsimp only)
  repeat' with_reducible (first | exact KeptF.refl _ | assumption | intro _ | refine ite_kept ?_ ?_ | refine ite_snd_kept ?_ ?_ | refine KeptF.trans' (tableBy_kept ..) ?_ | refine snd_kept (by assumption) ?_ | split | refine KeptF.trans' (foldl_kept _ _ _ ?_) ?_ | refine KeptF.trans' (foldl_kept_snd _ _ _ ?_) ?_ | simp only [↓State.fixed_mk, ↓State.fixed_def, State.fixed_def])

theorem execMigrateCopyDone_kept (d : DieId) (poisoned : List (Fin 32768)) (s : State) {s' : State}
    (h : execMigrateCopyDone d poisoned s = .next s') : KeptF s.fixed s'.fixed := by
  unfold execMigrateCopyDone at h
  refine onLive_kept (fun s => ?_) h
  (try dsimp only)
  repeat' with_reducible (first | exact KeptF.refl _ | assumption | intro _ | refine ite_kept ?_ ?_ | refine ite_snd_kept ?_ ?_ | refine KeptF.trans' (migrated_kept ..) ?_ | refine snd_kept (by assumption) ?_ | split | refine KeptF.trans' (foldl_kept _ _ _ ?_) ?_ | refine KeptF.trans' (foldl_kept_snd _ _ _ ?_) ?_ | simp only [↓State.fixed_mk, ↓State.fixed_def, State.fixed_def])

theorem execFibHomeOutcome_fixed (d : DieId) (s : State) {s' : State}
    (h : execFibHomeOutcome d s = .next s') : s'.fixed = s.fixed := by
  unfold execFibHomeOutcome at h
  refine onPresent_fixed (fun s => ?_) h
  repeat' with_reducible (first | rfl | refine ite_fixed ?_ ?_ | refine (fibOutcome_fixed ..).trans ?_ | split)

theorem execHomeDieMapWrite_kept (r : Requester) (sub : Fin 256) (v : BitVec 8) (s : State) {s' : State}
    (h : execHomeDieMapWrite r sub v s = .next s') : KeptF s.fixed s'.fixed := by
  unfold execHomeDieMapWrite at h
  cases h
  (try dsimp only)
  repeat' with_reducible (first | exact KeptF.refl _ | assumption | intro _ | refine ite_kept ?_ ?_ | refine ite_snd_kept ?_ ?_ | refine KeptF.trans' (writeBy_kept ..) ?_ | refine snd_kept (by assumption) ?_ | split | refine KeptF.trans' (foldl_kept _ _ _ ?_) ?_ | refine KeptF.trans' (foldl_kept_snd _ _ _ ?_) ?_ | simp only [↓State.fixed_mk, ↓State.fixed_def, State.fixed_def])

theorem execTableInsert_kept (r : Requester) (sel : Sel) (t : BitVec 8) (static : Bool) (rec : BitVec 512) (s : State) {s' : State}
    (h : execTableInsert r sel t static rec s = .next s') : KeptF s.fixed s'.fixed := by
  unfold execTableInsert at h
  cases h
  (try dsimp only)
  repeat' with_reducible (first | exact KeptF.refl _ | assumption | intro _ | refine ite_kept ?_ ?_ | refine ite_snd_kept ?_ ?_ | refine KeptF.trans' (tableBy_kept ..) ?_ | refine snd_kept (by assumption) ?_ | split | refine KeptF.trans' (foldl_kept _ _ _ ?_) ?_ | refine KeptF.trans' (foldl_kept_snd _ _ _ ?_) ?_ | simp only [↓State.fixed_mk, ↓State.fixed_def, State.fixed_def])

theorem execTableDelete_kept (r : Requester) (sel : Sel) (t : BitVec 8) (rec : BitVec 512) (s : State) {s' : State}
    (h : execTableDelete r sel t rec s = .next s') : KeptF s.fixed s'.fixed := by
  unfold execTableDelete at h
  cases h
  (try dsimp only)
  repeat' with_reducible (first | exact KeptF.refl _ | assumption | intro _ | refine ite_kept ?_ ?_ | refine ite_snd_kept ?_ ?_ | refine KeptF.trans' (tableBy_kept ..) ?_ | refine snd_kept (by assumption) ?_ | split | refine KeptF.trans' (foldl_kept _ _ _ ?_) ?_ | refine KeptF.trans' (foldl_kept_snd _ _ _ ?_) ?_ | simp only [↓State.fixed_mk, ↓State.fixed_def, State.fixed_def])

theorem execTableSearch_kept (r : Requester) (sel : Sel) (t : BitVec 8) (rec : BitVec 512) (s : State) {s' : State}
    (h : execTableSearch r sel t rec s = .next s') : KeptF s.fixed s'.fixed := by
  unfold execTableSearch at h
  cases h
  (try dsimp only)
  repeat' with_reducible (first | exact KeptF.refl _ | assumption | intro _ | refine ite_kept ?_ ?_ | refine ite_snd_kept ?_ ?_ | refine KeptF.trans' (tableBy_kept ..) ?_ | refine snd_kept (by assumption) ?_ | split | refine KeptF.trans' (foldl_kept _ _ _ ?_) ?_ | refine KeptF.trans' (foldl_kept_snd _ _ _ ?_) ?_ | simp only [↓State.fixed_mk, ↓State.fixed_def, State.fixed_def])

theorem execTableNext_kept (r : Requester) (sel : Sel) (t : BitVec 8) (cursor : BitVec 64) (s : State) {s' : State}
    (h : execTableNext r sel t cursor s = .next s') : KeptF s.fixed s'.fixed := by
  unfold execTableNext at h
  cases h
  (try dsimp only)
  repeat' with_reducible (first | exact KeptF.refl _ | assumption | intro _ | refine ite_kept ?_ ?_ | refine ite_snd_kept ?_ ?_ | refine KeptF.trans' (tableBy_kept ..) ?_ | refine snd_kept (by assumption) ?_ | split | refine KeptF.trans' (foldl_kept _ _ _ ?_) ?_ | refine KeptF.trans' (foldl_kept_snd _ _ _ ?_) ?_ | simp only [↓State.fixed_mk, ↓State.fixed_def, State.fixed_def])

theorem execFlushByPort_kept (r : Requester) (sel : Sel) (t : BitVec 8) (port : BitVec 9) (statics : Bool) (filter : Option (BitVec 14)) (s : State) {s' : State}
    (h : execFlushByPort r sel t port statics filter s = .next s') : KeptF s.fixed s'.fixed := by
  unfold execFlushByPort at h
  cases h
  (try dsimp only)
  repeat' with_reducible (first | exact KeptF.refl _ | assumption | intro _ | refine ite_kept ?_ ?_ | refine ite_snd_kept ?_ ?_ | refine KeptF.trans' (tableBy_kept ..) ?_ | refine snd_kept (by assumption) ?_ | split | refine KeptF.trans' (foldl_kept _ _ _ ?_) ?_ | refine KeptF.trans' (foldl_kept_snd _ _ _ ?_) ?_ | simp only [↓State.fixed_mk, ↓State.fixed_def, State.fixed_def])

theorem execShadowModeWrite_kept (r : Requester) (sub : Fin 256) (v : BitVec 8) (s : State) {s' : State}
    (h : execShadowModeWrite r sub v s = .next s') : KeptF s.fixed s'.fixed := by
  unfold execShadowModeWrite at h
  cases h
  (try dsimp only)
  repeat' with_reducible (first | exact KeptF.refl _ | assumption | intro _ | refine ite_kept ?_ ?_ | refine ite_snd_kept ?_ ?_ | refine KeptF.trans' (writeBy_kept ..) ?_ | refine snd_kept (by assumption) ?_ | split | refine KeptF.trans' (foldl_kept _ _ _ ?_) ?_ | refine KeptF.trans' (foldl_kept_snd _ _ _ ?_) ?_ | simp only [↓State.fixed_mk, ↓State.fixed_def, State.fixed_def])

theorem execRuleInsert_kept (r : Requester) (sel : Sel) (t : Fin 14) (rec : BitVec 512) (s : State) {s' : State}
    (h : execRuleInsert r sel t rec s = .next s') : KeptF s.fixed s'.fixed := by
  unfold execRuleInsert at h
  cases h
  (try dsimp only)
  repeat' with_reducible (first | exact KeptF.refl _ | assumption | intro _ | refine ite_kept ?_ ?_ | refine ite_snd_kept ?_ ?_ | refine KeptF.trans' (tableBy_kept ..) ?_ | refine snd_kept (by assumption) ?_ | split | refine KeptF.trans' (foldl_kept _ _ _ ?_) ?_ | refine KeptF.trans' (foldl_kept_snd _ _ _ ?_) ?_ | simp only [↓State.fixed_mk, ↓State.fixed_def, State.fixed_def])

theorem execRuleDelete_kept (r : Requester) (sel : Sel) (t : Fin 14) (rec : BitVec 512) (s : State) {s' : State}
    (h : execRuleDelete r sel t rec s = .next s') : KeptF s.fixed s'.fixed := by
  unfold execRuleDelete at h
  cases h
  (try dsimp only)
  repeat' with_reducible (first | exact KeptF.refl _ | assumption | intro _ | refine ite_kept ?_ ?_ | refine ite_snd_kept ?_ ?_ | refine KeptF.trans' (tableBy_kept ..) ?_ | refine snd_kept (by assumption) ?_ | split | refine KeptF.trans' (foldl_kept _ _ _ ?_) ?_ | refine KeptF.trans' (foldl_kept_snd _ _ _ ?_) ?_ | simp only [↓State.fixed_mk, ↓State.fixed_def, State.fixed_def])

theorem execRuleSearch_kept (r : Requester) (sel : Sel) (t : Fin 14) (rec : BitVec 512) (s : State) {s' : State}
    (h : execRuleSearch r sel t rec s = .next s') : KeptF s.fixed s'.fixed := by
  unfold execRuleSearch at h
  cases h
  (try dsimp only)
  repeat' with_reducible (first | exact KeptF.refl _ | assumption | intro _ | refine ite_kept ?_ ?_ | refine ite_snd_kept ?_ ?_ | refine KeptF.trans' (tableBy_kept ..) ?_ | refine snd_kept (by assumption) ?_ | split | refine KeptF.trans' (foldl_kept _ _ _ ?_) ?_ | refine KeptF.trans' (foldl_kept_snd _ _ _ ?_) ?_ | simp only [↓State.fixed_mk, ↓State.fixed_def, State.fixed_def])

theorem execRuleNext_kept (r : Requester) (sel : Sel) (t : Fin 14) (cursor : BitVec 64) (s : State) {s' : State}
    (h : execRuleNext r sel t cursor s = .next s') : KeptF s.fixed s'.fixed := by
  unfold execRuleNext at h
  cases h
  (try dsimp only)
  repeat' with_reducible (first | exact KeptF.refl _ | assumption | intro _ | refine ite_kept ?_ ?_ | refine ite_snd_kept ?_ ?_ | refine KeptF.trans' (tableBy_kept ..) ?_ | refine snd_kept (by assumption) ?_ | split | refine KeptF.trans' (foldl_kept _ _ _ ?_) ?_ | refine KeptF.trans' (foldl_kept_snd _ _ _ ?_) ?_ | simp only [↓State.fixed_mk, ↓State.fixed_def, State.fixed_def])

theorem execEpochInherit_kept (r : Requester) (s : State) {s' : State}
    (h : execEpochInherit r s = .next s') : KeptF s.fixed s'.fixed := by
  unfold execEpochInherit at h
  cases h
  (try dsimp only)
  repeat' with_reducible (first | exact KeptF.refl _ | assumption | intro _ | refine ite_kept ?_ ?_ | refine ite_snd_kept ?_ ?_ | refine KeptF.trans' (writeBy_kept ..) ?_ | refine snd_kept (by assumption) ?_ | split | refine KeptF.trans' (foldl_kept _ _ _ ?_) ?_ | refine KeptF.trans' (foldl_kept_snd _ _ _ ?_) ?_ | simp only [↓State.fixed_mk, ↓State.fixed_def, State.fixed_def])

theorem execEpochDiscardNext_kept (r : Requester) (s : State) {s' : State}
    (h : execEpochDiscardNext r s = .next s') : KeptF s.fixed s'.fixed := by
  unfold execEpochDiscardNext at h
  cases h
  (try dsimp only)
  repeat' with_reducible (first | exact KeptF.refl _ | assumption | intro _ | refine ite_kept ?_ ?_ | refine ite_snd_kept ?_ ?_ | refine KeptF.trans' (writeBy_kept ..) ?_ | refine snd_kept (by assumption) ?_ | split | refine KeptF.trans' (foldl_kept _ _ _ ?_) ?_ | refine KeptF.trans' (foldl_kept_snd _ _ _ ?_) ?_ | simp only [↓State.fixed_mk, ↓State.fixed_def, State.fixed_def])

theorem execEpochSwap_kept (r : Requester) (s : State) {s' : State}
    (h : execEpochSwap r s = .next s') : KeptF s.fixed s'.fixed := by
  unfold execEpochSwap at h
  cases h
  (try dsimp only)
  repeat' with_reducible (first | exact KeptF.refl _ | assumption | intro _ | refine ite_kept ?_ ?_ | refine ite_snd_kept ?_ ?_ | refine KeptF.trans' (writeBy_kept ..) ?_ | refine snd_kept (by assumption) ?_ | split | refine KeptF.trans' (foldl_kept _ _ _ ?_) ?_ | refine KeptF.trans' (foldl_kept_snd _ _ _ ?_) ?_ | simp only [↓State.fixed_mk, ↓State.fixed_def, State.fixed_def])

theorem execForceRetire_kept (r : Requester) (s : State) {s' : State}
    (h : execForceRetire r s = .next s') : KeptF s.fixed s'.fixed := by
  unfold execForceRetire at h
  cases h
  (try dsimp only)
  repeat' with_reducible (first | exact KeptF.refl _ | assumption | intro _ | refine ite_kept ?_ ?_ | refine ite_snd_kept ?_ ?_ | refine KeptF.trans' (writeBy_kept ..) ?_ | refine snd_kept (by assumption) ?_ | split | refine KeptF.trans' (foldl_kept _ _ _ ?_) ?_ | refine KeptF.trans' (foldl_kept_snd _ _ _ ?_) ?_ | simp only [↓State.fixed_mk, ↓State.fixed_def, State.fixed_def])

theorem execPageMap_kept (r : Requester) (sel : Sel) (region : Fin 8) (page : BitVec 32) (hpa : BitVec 31) (fill : Bool) (s : State) {s' : State}
    (h : execPageMap r sel region page hpa fill s = .next s') : KeptF s.fixed s'.fixed := by
  unfold execPageMap at h
  cases h
  (try dsimp only)
  repeat' with_reducible (first | exact KeptF.refl _ | assumption | intro _ | refine ite_kept ?_ ?_ | refine ite_snd_kept ?_ ?_ | refine KeptF.trans' (pageBy_kept ..) ?_ | refine snd_kept (by assumption) ?_ | split | refine KeptF.trans' (foldl_kept _ _ _ ?_) ?_ | refine KeptF.trans' (foldl_kept_snd _ _ _ ?_) ?_ | simp only [↓State.fixed_mk, ↓State.fixed_def, State.fixed_def])

theorem execPageUnmap_kept (r : Requester) (sel : Sel) (region : Fin 8) (page : BitVec 32) (s : State) {s' : State}
    (h : execPageUnmap r sel region page s = .next s') : KeptF s.fixed s'.fixed := by
  unfold execPageUnmap at h
  cases h
  (try dsimp only)
  repeat' with_reducible (first | exact KeptF.refl _ | assumption | intro _ | refine ite_kept ?_ ?_ | refine ite_snd_kept ?_ ?_ | refine KeptF.trans' (pageBy_kept ..) ?_ | refine snd_kept (by assumption) ?_ | split | refine KeptF.trans' (foldl_kept _ _ _ ?_) ?_ | refine KeptF.trans' (foldl_kept_snd _ _ _ ?_) ?_ | simp only [↓State.fixed_mk, ↓State.fixed_def, State.fixed_def])

theorem execPageMigrate_kept (r : Requester) (sel : Sel) (region : Fin 8) (page : BitVec 32) (hpa : BitVec 31) (s : State) {s' : State}
    (h : execPageMigrate r sel region page hpa s = .next s') : KeptF s.fixed s'.fixed := by
  unfold execPageMigrate at h
  cases h
  (try dsimp only)
  repeat' with_reducible (first | exact KeptF.refl _ | assumption | intro _ | refine ite_kept ?_ ?_ | refine ite_snd_kept ?_ ?_ | refine KeptF.trans' (pageBy_kept ..) ?_ | refine snd_kept (by assumption) ?_ | split | refine KeptF.trans' (foldl_kept _ _ _ ?_) ?_ | refine KeptF.trans' (foldl_kept_snd _ _ _ ?_) ?_ | simp only [↓State.fixed_mk, ↓State.fixed_def, State.fixed_def])

theorem execPagePoison_kept (r : Requester) (sel : Sel) (region : Fin 8) (page : BitVec 32) (s : State) {s' : State}
    (h : execPagePoison r sel region page s = .next s') : KeptF s.fixed s'.fixed := by
  unfold execPagePoison at h
  cases h
  (try dsimp only)
  repeat' with_reducible (first | exact KeptF.refl _ | assumption | intro _ | refine ite_kept ?_ ?_ | refine ite_snd_kept ?_ ?_ | refine KeptF.trans' (pageBy_kept ..) ?_ | refine snd_kept (by assumption) ?_ | split | refine KeptF.trans' (foldl_kept _ _ _ ?_) ?_ | refine KeptF.trans' (foldl_kept_snd _ _ _ ?_) ?_ | simp only [↓State.fixed_mk, ↓State.fixed_def, State.fixed_def])

theorem execPageRepair_kept (r : Requester) (sel : Sel) (region : Fin 8) (page : BitVec 32) (hpa : BitVec 31) (fill : Bool) (s : State) {s' : State}
    (h : execPageRepair r sel region page hpa fill s = .next s') : KeptF s.fixed s'.fixed := by
  unfold execPageRepair at h
  cases h
  (try dsimp only)
  repeat' with_reducible (first | exact KeptF.refl _ | assumption | intro _ | refine ite_kept ?_ ?_ | refine ite_snd_kept ?_ ?_ | refine KeptF.trans' (pageBy_kept ..) ?_ | refine snd_kept (by assumption) ?_ | split | refine KeptF.trans' (foldl_kept _ _ _ ?_) ?_ | refine KeptF.trans' (foldl_kept_snd _ _ _ ?_) ?_ | simp only [↓State.fixed_mk, ↓State.fixed_def, State.fixed_def])

theorem execPageQuery_kept (r : Requester) (sel : Sel) (region : Fin 8) (page : BitVec 32) (s : State) {s' : State}
    (h : execPageQuery r sel region page s = .next s') : KeptF s.fixed s'.fixed := by
  unfold execPageQuery at h
  cases h
  (try dsimp only)
  repeat' with_reducible (first | exact KeptF.refl _ | assumption | intro _ | refine ite_kept ?_ ?_ | refine ite_snd_kept ?_ ?_ | refine KeptF.trans' (pageBy_kept ..) ?_ | refine snd_kept (by assumption) ?_ | split | refine KeptF.trans' (foldl_kept _ _ _ ?_) ?_ | refine KeptF.trans' (foldl_kept_snd _ _ _ ?_) ?_ | simp only [↓State.fixed_mk, ↓State.fixed_def, State.fixed_def])

theorem execShaperRateWrite_kept (r : Requester) (sel : Sel) (slot : Slot) (n : Fin 13) (v : BitVec 32) (s : State) {s' : State}
    (h : execShaperRateWrite r sel slot n v s = .next s') : KeptF s.fixed s'.fixed := by
  unfold execShaperRateWrite at h
  cases h
  (try dsimp only)
  repeat' with_reducible (first | exact KeptF.refl _ | assumption | intro _ | refine ite_kept ?_ ?_ | refine ite_snd_kept ?_ ?_ | refine KeptF.trans' (writeBy_kept ..) ?_ | refine snd_kept (by assumption) ?_ | split | refine KeptF.trans' (foldl_kept _ _ _ ?_) ?_ | refine KeptF.trans' (foldl_kept_snd _ _ _ ?_) ?_ | simp only [↓State.fixed_mk, ↓State.fixed_def, State.fixed_def])

theorem execShaperBurstWrite_kept (r : Requester) (sel : Sel) (slot : Slot) (n : Fin 13) (v : BitVec 32) (s : State) {s' : State}
    (h : execShaperBurstWrite r sel slot n v s = .next s') : KeptF s.fixed s'.fixed := by
  unfold execShaperBurstWrite at h
  cases h
  (try dsimp only)
  repeat' with_reducible (first | exact KeptF.refl _ | assumption | intro _ | refine ite_kept ?_ ?_ | refine ite_snd_kept ?_ ?_ | refine KeptF.trans' (writeBy_kept ..) ?_ | refine snd_kept (by assumption) ?_ | split | refine KeptF.trans' (foldl_kept _ _ _ ?_) ?_ | refine KeptF.trans' (foldl_kept_snd _ _ _ ?_) ?_ | simp only [↓State.fixed_mk, ↓State.fixed_def, State.fixed_def])

theorem execShaperReset_kept (r : Requester) (sel : Sel) (slot : Slot) (n : Fin 13) (s : State) {s' : State}
    (h : execShaperReset r sel slot n s = .next s') : KeptF s.fixed s'.fixed := by
  unfold execShaperReset at h
  cases h
  (try dsimp only)
  repeat' with_reducible (first | exact KeptF.refl _ | assumption | intro _ | refine ite_kept ?_ ?_ | refine ite_snd_kept ?_ ?_ | refine KeptF.trans' (writeBy_kept ..) ?_ | refine snd_kept (by assumption) ?_ | split | refine KeptF.trans' (foldl_kept _ _ _ ?_) ?_ | refine KeptF.trans' (foldl_kept_snd _ _ _ ?_) ?_ | simp only [↓State.fixed_mk, ↓State.fixed_def, State.fixed_def])

theorem execApplyTemplate_kept (r : Requester) (sel : Sel) (slot : Slot) (t : BitVec 8) (s : State) {s' : State}
    (h : execApplyTemplate r sel slot t s = .next s') : KeptF s.fixed s'.fixed := by
  unfold execApplyTemplate at h
  cases h
  (try dsimp only)
  repeat' with_reducible (first | exact KeptF.refl _ | assumption | intro _ | refine ite_kept ?_ ?_ | refine ite_snd_kept ?_ ?_ | refine KeptF.trans' (writeBy_kept ..) ?_ | refine snd_kept (by assumption) ?_ | split | refine KeptF.trans' (foldl_kept _ _ _ ?_) ?_ | refine KeptF.trans' (foldl_kept_snd _ _ _ ?_) ?_ | simp only [↓State.fixed_mk, ↓State.fixed_def, State.fixed_def])

theorem execGateListWrite_kept (r : Requester) (sel : Sel) (rec : BitVec 512) (s : State) {s' : State}
    (h : execGateListWrite r sel rec s = .next s') : KeptF s.fixed s'.fixed := by
  unfold execGateListWrite at h
  cases h
  (try dsimp only)
  repeat' with_reducible (first | exact KeptF.refl _ | assumption | intro _ | refine ite_kept ?_ ?_ | refine ite_snd_kept ?_ ?_ | refine KeptF.trans' (tableBy_kept ..) ?_ | refine snd_kept (by assumption) ?_ | split | refine KeptF.trans' (foldl_kept _ _ _ ?_) ?_ | refine KeptF.trans' (foldl_kept_snd _ _ _ ?_) ?_ | simp only [↓State.fixed_mk, ↓State.fixed_def, State.fixed_def])

theorem execConfigChange_kept (r : Requester) (sel : Sel) (slot : Slot) (s : State) {s' : State}
    (h : execConfigChange r sel slot s = .next s') : KeptF s.fixed s'.fixed := by
  unfold execConfigChange at h
  cases h
  (try dsimp only)
  repeat' with_reducible (first | exact KeptF.refl _ | assumption | intro _ | refine ite_kept ?_ ?_ | refine ite_snd_kept ?_ ?_ | refine KeptF.trans' (writeBy_kept ..) ?_ | refine snd_kept (by assumption) ?_ | split | refine KeptF.trans' (foldl_kept _ _ _ ?_) ?_ | refine KeptF.trans' (foldl_kept_snd _ _ _ ?_) ?_ | simp only [↓State.fixed_mk, ↓State.fixed_def, State.fixed_def])

theorem execMeridianSet_kept (r : Requester) (t : BitVec 80) (s : State) {s' : State}
    (h : execMeridianSet r t s = .next s') : KeptF s.fixed s'.fixed := by
  unfold execMeridianSet at h
  cases h
  (try dsimp only)
  repeat' with_reducible (first | exact KeptF.refl _ | assumption | intro _ | refine ite_kept ?_ ?_ | refine ite_snd_kept ?_ ?_ | refine KeptF.trans' (writeBy_kept ..) ?_ | refine snd_kept (by assumption) ?_ | split | refine KeptF.trans' (foldl_kept _ _ _ ?_) ?_ | refine KeptF.trans' (foldl_kept_snd _ _ _ ?_) ?_ | simp only [↓State.fixed_mk, ↓State.fixed_def, State.fixed_def])

theorem execMeridianStep_kept (r : Requester) (v : BitVec 32) (s : State) {s' : State}
    (h : execMeridianStep r v s = .next s') : KeptF s.fixed s'.fixed := by
  unfold execMeridianStep at h
  cases h
  (try dsimp only)
  repeat' with_reducible (first | exact KeptF.refl _ | assumption | intro _ | refine ite_kept ?_ ?_ | refine ite_snd_kept ?_ ?_ | refine KeptF.trans' (writeBy_kept ..) ?_ | refine snd_kept (by assumption) ?_ | split | refine KeptF.trans' (foldl_kept _ _ _ ?_) ?_ | refine KeptF.trans' (foldl_kept_snd _ _ _ ?_) ?_ | simp only [↓State.fixed_mk, ↓State.fixed_def, State.fixed_def])

theorem execFreqAdjWrite_kept (r : Requester) (v : BitVec 32) (s : State) {s' : State}
    (h : execFreqAdjWrite r v s = .next s') : KeptF s.fixed s'.fixed := by
  unfold execFreqAdjWrite at h
  cases h
  (try dsimp only)
  repeat' with_reducible (first | exact KeptF.refl _ | assumption | intro _ | refine ite_kept ?_ ?_ | refine ite_snd_kept ?_ ?_ | refine KeptF.trans' (writeBy_kept ..) ?_ | refine snd_kept (by assumption) ?_ | split | refine KeptF.trans' (foldl_kept _ _ _ ?_) ?_ | refine KeptF.trans' (foldl_kept_snd _ _ _ ?_) ?_ | simp only [↓State.fixed_mk, ↓State.fixed_def, State.fixed_def])

theorem execLaneGroupModeWrite_kept (r : Requester) (sel : Sel) (g : Fin 4) (m : BitVec 8) (s : State) {s' : State}
    (h : execLaneGroupModeWrite r sel g m s = .next s') : KeptF s.fixed s'.fixed := by
  unfold execLaneGroupModeWrite at h
  cases h
  (try dsimp only)
  repeat' with_reducible (first | exact KeptF.refl _ | assumption | intro _ | refine ite_kept ?_ ?_ | refine ite_snd_kept ?_ ?_ | refine KeptF.trans' (writeBy_kept ..) ?_ | refine snd_kept (by assumption) ?_ | split | refine KeptF.trans' (foldl_kept _ _ _ ?_) ?_ | refine KeptF.trans' (foldl_kept_snd _ _ _ ?_) ?_ | simp only [↓State.fixed_mk, ↓State.fixed_def, State.fixed_def])

theorem execPortEnableWrite_kept (r : Requester) (sel : Sel) (slot : Slot) (on : Bool) (s : State) {s' : State}
    (h : execPortEnableWrite r sel slot on s = .next s') : KeptF s.fixed s'.fixed := by
  unfold execPortEnableWrite at h
  cases h
  (try dsimp only)
  repeat' with_reducible (first | exact KeptF.refl _ | assumption | intro _ | refine ite_kept ?_ ?_ | refine ite_snd_kept ?_ ?_ | refine KeptF.trans' (writeBy_kept ..) ?_ | refine snd_kept (by assumption) ?_ | split | refine KeptF.trans' (foldl_kept _ _ _ ?_) ?_ | refine KeptF.trans' (foldl_kept_snd _ _ _ ?_) ?_ | simp only [↓State.fixed_mk, ↓State.fixed_def, State.fixed_def])

theorem execSnapshot_kept (r : Requester) (sel : Sel) (s : State) {s' : State}
    (h : execSnapshot r sel s = .next s') : KeptF s.fixed s'.fixed := by
  unfold execSnapshot at h
  cases h
  (try dsimp only)
  repeat' with_reducible (first | exact KeptF.refl _ | assumption | intro _ | refine ite_kept ?_ ?_ | refine ite_snd_kept ?_ ?_ | refine KeptF.trans' (writeBy_kept ..) ?_ | refine snd_kept (by assumption) ?_ | split | refine KeptF.trans' (foldl_kept _ _ _ ?_) ?_ | refine KeptF.trans' (foldl_kept_snd _ _ _ ?_) ?_ | simp only [↓State.fixed_mk, ↓State.fixed_def, State.fixed_def])

theorem execLinkEnableWrite_kept (r : Requester) (sel : Sel) (v : BitVec 32) (s : State) {s' : State}
    (h : execLinkEnableWrite r sel v s = .next s') : KeptF s.fixed s'.fixed := by
  unfold execLinkEnableWrite at h
  cases h
  (try dsimp only)
  repeat' with_reducible (first | exact KeptF.refl _ | assumption | intro _ | refine ite_kept ?_ ?_ | refine ite_snd_kept ?_ ?_ | refine KeptF.trans' (writeBy_kept ..) ?_ | refine snd_kept (by assumption) ?_ | split | refine KeptF.trans' (foldl_kept _ _ _ ?_) ?_ | refine KeptF.trans' (foldl_kept_snd _ _ _ ?_) ?_ | simp only [↓State.fixed_mk, ↓State.fixed_def, State.fixed_def])

theorem execRetrainNow_kept (r : Requester) (sel : Sel) (v : BitVec 32) (s : State) {s' : State}
    (h : execRetrainNow r sel v s = .next s') : KeptF s.fixed s'.fixed := by
  unfold execRetrainNow at h
  cases h
  (try dsimp only)
  repeat' with_reducible (first | exact KeptF.refl _ | assumption | intro _ | refine ite_kept ?_ ?_ | refine ite_snd_kept ?_ ?_ | refine KeptF.trans' (writeBy_kept ..) ?_ | refine snd_kept (by assumption) ?_ | split | refine KeptF.trans' (foldl_kept _ _ _ ?_) ?_ | refine KeptF.trans' (foldl_kept_snd _ _ _ ?_) ?_ | simp only [↓State.fixed_mk, ↓State.fixed_def, State.fixed_def])

theorem execPatternCommand_kept (r : Requester) (sel : Sel) (k : Fin 2) (v : BitVec 128) (s : State) {s' : State}
    (h : execPatternCommand r sel k v s = .next s') : KeptF s.fixed s'.fixed := by
  unfold execPatternCommand at h
  cases h
  (try dsimp only)
  repeat' with_reducible (first | exact KeptF.refl _ | assumption | intro _ | refine ite_kept ?_ ?_ | refine ite_snd_kept ?_ ?_ | refine KeptF.trans' (writeBy_kept ..) ?_ | refine snd_kept (by assumption) ?_ | split | refine KeptF.trans' (foldl_kept _ _ _ ?_) ?_ | refine KeptF.trans' (foldl_kept_snd _ _ _ ?_) ?_ | simp only [↓State.fixed_mk, ↓State.fixed_def, State.fixed_def])

theorem execFullTrain_kept (r : Requester) (sel : Sel) (v : BitVec 32) (s : State) {s' : State}
    (h : execFullTrain r sel v s = .next s') : KeptF s.fixed s'.fixed := by
  unfold execFullTrain at h
  cases h
  (try dsimp only)
  repeat' with_reducible (first | exact KeptF.refl _ | assumption | intro _ | refine ite_kept ?_ ?_ | refine ite_snd_kept ?_ ?_ | refine KeptF.trans' (writeBy_kept ..) ?_ | refine snd_kept (by assumption) ?_ | split | refine KeptF.trans' (foldl_kept _ _ _ ?_) ?_ | refine KeptF.trans' (foldl_kept_snd _ _ _ ?_) ?_ | simp only [↓State.fixed_mk, ↓State.fixed_def, State.fixed_def])

theorem execAttInvalidate_kept (r : Requester) (e : Fin 2) (first : BitVec 48) (last : BitVec 48) (s : State) {s' : State}
    (h : execAttInvalidate r e first last s = .next s') : KeptF s.fixed s'.fixed := by
  unfold execAttInvalidate at h
  cases h
  (try dsimp only)
  repeat' with_reducible (first | exact KeptF.refl _ | assumption | intro _ | refine ite_kept ?_ ?_ | refine ite_snd_kept ?_ ?_ | refine KeptF.trans' (writeBy_kept ..) ?_ | refine snd_kept (by assumption) ?_ | split | refine KeptF.trans' (foldl_kept _ _ _ ?_) ?_ | refine KeptF.trans' (foldl_kept_snd _ _ _ ?_) ?_ | simp only [↓State.fixed_mk, ↓State.fixed_def, State.fixed_def])

theorem execRingEnableWrite_kept (r : Requester) (sel : Sel) (k : Fin 32) (on : Bool) (s : State) {s' : State}
    (h : execRingEnableWrite r sel k on s = .next s') : KeptF s.fixed s'.fixed := by
  unfold execRingEnableWrite at h
  cases h
  (try dsimp only)
  repeat' with_reducible (first | exact KeptF.refl _ | assumption | intro _ | refine ite_kept ?_ ?_ | refine ite_snd_kept ?_ ?_ | refine KeptF.trans' (writeBy_kept ..) ?_ | refine snd_kept (by assumption) ?_ | split | refine KeptF.trans' (foldl_kept _ _ _ ?_) ?_ | refine KeptF.trans' (foldl_kept_snd _ _ _ ?_) ?_ | simp only [↓State.fixed_mk, ↓State.fixed_def, State.fixed_def])

theorem execBatchRun_kept (d : DieId) (slot : BitVec 256) (cmds : List (BitVec 640)) (atts : List (ℕ × BitVec 64)) (s : State) {s' : State}
    (h : execBatchRun d slot cmds atts s = .next s') : KeptF s.fixed s'.fixed := by
  unfold execBatchRun at h
  refine onLive_kept (fun s => ?_) h
  (try dsimp only)
  repeat' with_reducible (first | exact KeptF.refl _ | assumption | intro _ | refine ite_kept ?_ ?_ | refine ite_snd_kept ?_ ?_ | refine KeptF.trans' (batchRun_kept ..) ?_ | refine snd_kept (by assumption) ?_ | split | refine KeptF.trans' (foldl_kept _ _ _ ?_) ?_ | refine KeptF.trans' (foldl_kept_snd _ _ _ ?_) ?_ | simp only [↓State.fixed_mk, ↓State.fixed_def, State.fixed_def])

theorem execSessionClose_kept (r : Requester) (i : Fin 16) (s : State) {s' : State}
    (h : execSessionClose r i s = .next s') : KeptF s.fixed s'.fixed := by
  unfold execSessionClose at h
  cases h
  (try dsimp only)
  repeat' with_reducible (first | exact KeptF.refl _ | assumption | intro _ | refine ite_kept ?_ ?_ | refine ite_snd_kept ?_ ?_ | refine KeptF.trans' (writeBy_kept ..) ?_ | refine snd_kept (by assumption) ?_ | split | refine KeptF.trans' (foldl_kept _ _ _ ?_) ?_ | refine KeptF.trans' (foldl_kept_snd _ _ _ ?_) ?_ | simp only [↓State.fixed_mk, ↓State.fixed_def, State.fixed_def])

theorem execKeySlotWrite_kept (r : Requester) (k : Fin 16) (sub : Fin 3) (v : BitVec 256) (s : State) {s' : State}
    (h : execKeySlotWrite r k sub v s = .next s') : KeptF s.fixed s'.fixed := by
  unfold execKeySlotWrite at h
  cases h
  (try dsimp only)
  repeat' with_reducible (first | exact KeptF.refl _ | assumption | intro _ | refine ite_kept ?_ ?_ | refine ite_snd_kept ?_ ?_ | refine KeptF.trans' (writeBy_kept ..) ?_ | refine snd_kept (by assumption) ?_ | split | refine KeptF.trans' (foldl_kept _ _ _ ?_) ?_ | refine KeptF.trans' (foldl_kept_snd _ _ _ ?_) ?_ | simp only [↓State.fixed_mk, ↓State.fixed_def, State.fixed_def])

theorem execModeRequestStandby_kept (r : Requester) (s : State) {s' : State}
    (h : execModeRequestStandby r s = .next s') : KeptF s.fixed s'.fixed := by
  unfold execModeRequestStandby at h
  cases h
  (try dsimp only)
  repeat' with_reducible (first | exact KeptF.refl _ | assumption | intro _ | refine ite_kept ?_ ?_ | refine ite_snd_kept ?_ ?_ | refine KeptF.trans' (writeBy_kept ..) ?_ | refine snd_kept (by assumption) ?_ | split | refine KeptF.trans' (foldl_kept _ _ _ ?_) ?_ | refine KeptF.trans' (foldl_kept_snd _ _ _ ?_) ?_ | simp only [↓State.fixed_mk, ↓State.fixed_def, State.fixed_def])

theorem execModeRequestBringup_kept (r : Requester) (s : State) {s' : State}
    (h : execModeRequestBringup r s = .next s') : KeptF s.fixed s'.fixed := by
  unfold execModeRequestBringup at h
  cases h
  (try dsimp only)
  repeat' with_reducible (first | exact KeptF.refl _ | assumption | intro _ | refine ite_kept ?_ ?_ | refine ite_snd_kept ?_ ?_ | refine KeptF.trans' (writeBy_kept ..) ?_ | refine snd_kept (by assumption) ?_ | split | refine KeptF.trans' (foldl_kept _ _ _ ?_) ?_ | refine KeptF.trans' (foldl_kept_snd _ _ _ ?_) ?_ | simp only [↓State.fixed_mk, ↓State.fixed_def, State.fixed_def])

theorem execModeRequestForwarding_kept (r : Requester) (s : State) {s' : State}
    (h : execModeRequestForwarding r s = .next s') : KeptF s.fixed s'.fixed := by
  unfold execModeRequestForwarding at h
  cases h
  (try dsimp only)
  repeat' with_reducible (first | exact KeptF.refl _ | assumption | intro _ | refine ite_kept ?_ ?_ | refine ite_snd_kept ?_ ?_ | refine KeptF.trans' (writeBy_kept ..) ?_ | refine snd_kept (by assumption) ?_ | split | refine KeptF.trans' (foldl_kept _ _ _ ?_) ?_ | refine KeptF.trans' (foldl_kept_snd _ _ _ ?_) ?_ | simp only [↓State.fixed_mk, ↓State.fixed_def, State.fixed_def])

theorem execModeRequestDrain_kept (r : Requester) (s : State) {s' : State}
    (h : execModeRequestDrain r s = .next s') : KeptF s.fixed s'.fixed := by
  unfold execModeRequestDrain at h
  cases h
  (try dsimp only)
  repeat' with_reducible (first | exact KeptF.refl _ | assumption | intro _ | refine ite_kept ?_ ?_ | refine ite_snd_kept ?_ ?_ | refine KeptF.trans' (writeBy_kept ..) ?_ | refine snd_kept (by assumption) ?_ | split | refine KeptF.trans' (foldl_kept _ _ _ ?_) ?_ | refine KeptF.trans' (foldl_kept_snd _ _ _ ?_) ?_ | simp only [↓State.fixed_mk, ↓State.fixed_def, State.fixed_def])

theorem execModeRequestQuiesce_kept (r : Requester) (s : State) {s' : State}
    (h : execModeRequestQuiesce r s = .next s') : KeptF s.fixed s'.fixed := by
  unfold execModeRequestQuiesce at h
  cases h
  (try dsimp only)
  repeat' with_reducible (first | exact KeptF.refl _ | assumption | intro _ | refine ite_kept ?_ ?_ | refine ite_snd_kept ?_ ?_ | refine KeptF.trans' (writeBy_kept ..) ?_ | refine snd_kept (by assumption) ?_ | split | refine KeptF.trans' (foldl_kept _ _ _ ?_) ?_ | refine KeptF.trans' (foldl_kept_snd _ _ _ ?_) ?_ | simp only [↓State.fixed_mk, ↓State.fixed_def, State.fixed_def])

theorem execModeRequestDiagnostic_kept (r : Requester) (s : State) {s' : State}
    (h : execModeRequestDiagnostic r s = .next s') : KeptF s.fixed s'.fixed := by
  unfold execModeRequestDiagnostic at h
  cases h
  (try dsimp only)
  repeat' with_reducible (first | exact KeptF.refl _ | assumption | intro _ | refine ite_kept ?_ ?_ | refine ite_snd_kept ?_ ?_ | refine KeptF.trans' (writeBy_kept ..) ?_ | refine snd_kept (by assumption) ?_ | split | refine KeptF.trans' (foldl_kept _ _ _ ?_) ?_ | refine KeptF.trans' (foldl_kept_snd _ _ _ ?_) ?_ | simp only [↓State.fixed_mk, ↓State.fixed_def, State.fixed_def])

theorem execModeRequestFactory_kept (r : Requester) (s : State) {s' : State}
    (h : execModeRequestFactory r s = .next s') : KeptF s.fixed s'.fixed := by
  unfold execModeRequestFactory at h
  cases h
  (try dsimp only)
  repeat' with_reducible (first | exact KeptF.refl _ | assumption | intro _ | refine ite_kept ?_ ?_ | refine ite_snd_kept ?_ ?_ | refine KeptF.trans' (writeBy_kept ..) ?_ | refine snd_kept (by assumption) ?_ | split | refine KeptF.trans' (foldl_kept _ _ _ ?_) ?_ | refine KeptF.trans' (foldl_kept_snd _ _ _ ?_) ?_ | simp only [↓State.fixed_mk, ↓State.fixed_def, State.fixed_def])

theorem execDomainRequestWrite_kept (r : Requester) (d : DieId) (n : Fin 80) (v : BitVec 8) (s : State) {s' : State}
    (h : execDomainRequestWrite r d n v s = .next s') : KeptF s.fixed s'.fixed := by
  unfold execDomainRequestWrite at h
  cases h
  (try dsimp only)
  repeat' with_reducible (first | exact KeptF.refl _ | assumption | intro _ | refine ite_kept ?_ ?_ | refine ite_snd_kept ?_ ?_ | refine KeptF.trans' (writeBy_kept ..) ?_ | refine snd_kept (by assumption) ?_ | split | refine KeptF.trans' (foldl_kept _ _ _ ?_) ?_ | refine KeptF.trans' (foldl_kept_snd _ _ _ ?_) ?_ | simp only [↓State.fixed_mk, ↓State.fixed_def, State.fixed_def])

theorem execPackageReset_kept (r : Requester) (s : State) {s' : State}
    (h : execPackageReset r s = .next s') : KeptF s.fixed s'.fixed := by
  unfold execPackageReset at h
  cases h
  (try dsimp only)
  repeat' with_reducible (first | exact KeptF.refl _ | assumption | intro _ | refine ite_kept ?_ ?_ | refine ite_snd_kept ?_ ?_ | refine KeptF.trans' (writeBy_kept ..) ?_ | refine snd_kept (by assumption) ?_ | split | refine KeptF.trans' (foldl_kept _ _ _ ?_) ?_ | refine KeptF.trans' (foldl_kept_snd _ _ _ ?_) ?_ | simp only [↓State.fixed_mk, ↓State.fixed_def, State.fixed_def])

theorem execLogAck_kept (r : Requester) (v : BitVec 32) (s : State) {s' : State}
    (h : execLogAck r v s = .next s') : KeptF s.fixed s'.fixed := by
  unfold execLogAck at h
  cases h
  (try dsimp only)
  repeat' with_reducible (first | exact KeptF.refl _ | assumption | intro _ | refine ite_kept ?_ ?_ | refine ite_snd_kept ?_ ?_ | refine KeptF.trans' (writeBy_kept ..) ?_ | refine snd_kept (by assumption) ?_ | split | refine KeptF.trans' (foldl_kept _ _ _ ?_) ?_ | refine KeptF.trans' (foldl_kept_snd _ _ _ ?_) ?_ | simp only [↓State.fixed_mk, ↓State.fixed_def, State.fixed_def])

theorem execFirstFaultClear_kept (r : Requester) (s : State) {s' : State}
    (h : execFirstFaultClear r s = .next s') : KeptF s.fixed s'.fixed := by
  unfold execFirstFaultClear at h
  cases h
  (try dsimp only)
  repeat' with_reducible (first | exact KeptF.refl _ | assumption | intro _ | refine ite_kept ?_ ?_ | refine ite_snd_kept ?_ ?_ | refine KeptF.trans' (writeBy_kept ..) ?_ | refine snd_kept (by assumption) ?_ | split | refine KeptF.trans' (foldl_kept _ _ _ ?_) ?_ | refine KeptF.trans' (foldl_kept_snd _ _ _ ?_) ?_ | simp only [↓State.fixed_mk, ↓State.fixed_def, State.fixed_def])

theorem execLogRead_kept (r : Requester) (v : BitVec 32) (s : State) {s' : State}
    (h : execLogRead r v s = .next s') : KeptF s.fixed s'.fixed := by
  unfold execLogRead at h
  cases h
  (try dsimp only)
  repeat' with_reducible (first | exact KeptF.refl _ | assumption | intro _ | refine ite_kept ?_ ?_ | refine ite_snd_kept ?_ ?_ | refine KeptF.trans' (writeBy_kept ..) ?_ | refine snd_kept (by assumption) ?_ | split | refine KeptF.trans' (foldl_kept _ _ _ ?_) ?_ | refine KeptF.trans' (foldl_kept_snd _ _ _ ?_) ?_ | simp only [↓State.fixed_mk, ↓State.fixed_def, State.fixed_def])

theorem execDieLogRead_kept (r : Requester) (v : BitVec 32) (s : State) {s' : State}
    (h : execDieLogRead r v s = .next s') : KeptF s.fixed s'.fixed := by
  unfold execDieLogRead at h
  cases h
  (try dsimp only)
  repeat' with_reducible (first | exact KeptF.refl _ | assumption | intro _ | refine ite_kept ?_ ?_ | refine ite_snd_kept ?_ ?_ | refine KeptF.trans' (writeBy_kept ..) ?_ | refine snd_kept (by assumption) ?_ | split | refine KeptF.trans' (foldl_kept _ _ _ ?_) ?_ | refine KeptF.trans' (foldl_kept_snd _ _ _ ?_) ?_ | simp only [↓State.fixed_mk, ↓State.fixed_def, State.fixed_def])

theorem execDumpNow_kept (r : Requester) (v : BitVec 32) (s : State) {s' : State}
    (h : execDumpNow r v s = .next s') : KeptF s.fixed s'.fixed := by
  unfold execDumpNow at h
  cases h
  (try dsimp only)
  repeat' with_reducible (first | exact KeptF.refl _ | assumption | intro _ | refine ite_kept ?_ ?_ | refine ite_snd_kept ?_ ?_ | refine KeptF.trans' (writeBy_kept ..) ?_ | refine snd_kept (by assumption) ?_ | split | refine KeptF.trans' (foldl_kept _ _ _ ?_) ?_ | refine KeptF.trans' (foldl_kept_snd _ _ _ ?_) ?_ | simp only [↓State.fixed_mk, ↓State.fixed_def, State.fixed_def])

theorem execDumpAck_kept (r : Requester) (v : BitVec 32) (s : State) {s' : State}
    (h : execDumpAck r v s = .next s') : KeptF s.fixed s'.fixed := by
  unfold execDumpAck at h
  cases h
  (try dsimp only)
  repeat' with_reducible (first | exact KeptF.refl _ | assumption | intro _ | refine ite_kept ?_ ?_ | refine ite_snd_kept ?_ ?_ | refine KeptF.trans' (writeBy_kept ..) ?_ | refine snd_kept (by assumption) ?_ | split | refine KeptF.trans' (foldl_kept _ _ _ ?_) ?_ | refine KeptF.trans' (foldl_kept_snd _ _ _ ?_) ?_ | simp only [↓State.fixed_mk, ↓State.fixed_def, State.fixed_def])

theorem execFaultInject_kept (r : Requester) (v : BitVec 128) (s : State) {s' : State}
    (h : execFaultInject r v s = .next s') : KeptF s.fixed s'.fixed := by
  unfold execFaultInject at h
  cases h
  (try dsimp only)
  repeat' with_reducible (first | exact KeptF.refl _ | assumption | intro _ | refine ite_kept ?_ ?_ | refine ite_snd_kept ?_ ?_ | refine KeptF.trans' (writeBy_kept ..) ?_ | refine snd_kept (by assumption) ?_ | split | refine KeptF.trans' (foldl_kept _ _ _ ?_) ?_ | refine KeptF.trans' (foldl_kept_snd _ _ _ ?_) ?_ | simp only [↓State.fixed_mk, ↓State.fixed_def, State.fixed_def])

theorem execDiagLoopback_kept (r : Requester) (v : BitVec 32) (s : State) {s' : State}
    (h : execDiagLoopback r v s = .next s') : KeptF s.fixed s'.fixed := by
  unfold execDiagLoopback at h
  cases h
  (try dsimp only)
  repeat' with_reducible (first | exact KeptF.refl _ | assumption | intro _ | refine ite_kept ?_ ?_ | refine ite_snd_kept ?_ ?_ | refine KeptF.trans' (writeBy_kept ..) ?_ | refine snd_kept (by assumption) ?_ | split | refine KeptF.trans' (foldl_kept _ _ _ ?_) ?_ | refine KeptF.trans' (foldl_kept_snd _ _ _ ?_) ?_ | simp only [↓State.fixed_mk, ↓State.fixed_def, State.fixed_def])

theorem execDiagPattern_kept (r : Requester) (v : BitVec 32) (s : State) {s' : State}
    (h : execDiagPattern r v s = .next s') : KeptF s.fixed s'.fixed := by
  unfold execDiagPattern at h
  cases h
  (try dsimp only)
  repeat' with_reducible (first | exact KeptF.refl _ | assumption | intro _ | refine ite_kept ?_ ?_ | refine ite_snd_kept ?_ ?_ | refine KeptF.trans' (writeBy_kept ..) ?_ | refine snd_kept (by assumption) ?_ | split | refine KeptF.trans' (foldl_kept _ _ _ ?_) ?_ | refine KeptF.trans' (foldl_kept_snd _ _ _ ?_) ?_ | simp only [↓State.fixed_mk, ↓State.fixed_def, State.fixed_def])

theorem execCounterValueWrite_kept (r : Requester) (sel : Sel) (k : Fin 20) (n : Fin 8) (v : BitVec 64) (s : State) {s' : State}
    (h : execCounterValueWrite r sel k n v s = .next s') : KeptF s.fixed s'.fixed := by
  unfold execCounterValueWrite at h
  cases h
  (try dsimp only)
  repeat' with_reducible (first | exact KeptF.refl _ | assumption | intro _ | refine ite_kept ?_ ?_ | refine ite_snd_kept ?_ ?_ | refine KeptF.trans' (writeBy_kept ..) ?_ | refine snd_kept (by assumption) ?_ | split | refine KeptF.trans' (foldl_kept _ _ _ ?_) ?_ | refine KeptF.trans' (foldl_kept_snd _ _ _ ?_) ?_ | simp only [↓State.fixed_mk, ↓State.fixed_def, State.fixed_def])

theorem execSampleRead_kept (r : Requester) (sel : Sel) (k : Fin 20) (first : BitVec 32) (s : State) {s' : State}
    (h : execSampleRead r sel k first s = .next s') : KeptF s.fixed s'.fixed := by
  unfold execSampleRead at h
  cases h
  (try dsimp only)
  repeat' with_reducible (first | exact KeptF.refl _ | assumption | intro _ | refine ite_kept ?_ ?_ | refine ite_snd_kept ?_ ?_ | refine KeptF.trans' (writeBy_kept ..) ?_ | refine snd_kept (by assumption) ?_ | split | refine KeptF.trans' (foldl_kept _ _ _ ?_) ?_ | refine KeptF.trans' (foldl_kept_snd _ _ _ ?_) ?_ | simp only [↓State.fixed_mk, ↓State.fixed_def, State.fixed_def])

theorem execSampleClear_kept (r : Requester) (sel : Sel) (k : Fin 20) (s : State) {s' : State}
    (h : execSampleClear r sel k s = .next s') : KeptF s.fixed s'.fixed := by
  unfold execSampleClear at h
  cases h
  (try dsimp only)
  repeat' with_reducible (first | exact KeptF.refl _ | assumption | intro _ | refine ite_kept ?_ ?_ | refine ite_snd_kept ?_ ?_ | refine KeptF.trans' (writeBy_kept ..) ?_ | refine snd_kept (by assumption) ?_ | split | refine KeptF.trans' (foldl_kept _ _ _ ?_) ?_ | refine KeptF.trans' (foldl_kept_snd _ _ _ ?_) ?_ | simp only [↓State.fixed_mk, ↓State.fixed_def, State.fixed_def])

theorem execHostOffer_kept (r : Requester) (h : BitVec 1024) (s : State) {s' : State}
    (h : execHostOffer r h s = .next s') : KeptF s.fixed s'.fixed := by
  unfold execHostOffer at h
  cases h
  (try dsimp only)
  repeat' with_reducible (first | exact KeptF.refl _ | assumption | intro _ | refine ite_kept ?_ ?_ | refine ite_snd_kept ?_ ?_ | refine KeptF.trans' (writeBy_kept ..) ?_ | refine snd_kept (by assumption) ?_ | split | refine KeptF.trans' (foldl_kept _ _ _ ?_) ?_ | refine KeptF.trans' (foldl_kept_snd _ _ _ ?_) ?_ | simp only [↓State.fixed_mk, ↓State.fixed_def, State.fixed_def])

theorem execHostBlock_kept (r : Requester) (v : BitVec 8256) (s : State) {s' : State}
    (h : execHostBlock r v s = .next s') : KeptF s.fixed s'.fixed := by
  unfold execHostBlock at h
  cases h
  (try dsimp only)
  repeat' with_reducible (first | exact KeptF.refl _ | assumption | intro _ | refine ite_kept ?_ ?_ | refine ite_snd_kept ?_ ?_ | refine KeptF.trans' (writeBy_kept ..) ?_ | refine snd_kept (by assumption) ?_ | split | refine KeptF.trans' (foldl_kept _ _ _ ?_) ?_ | refine KeptF.trans' (foldl_kept_snd _ _ _ ?_) ?_ | simp only [↓State.fixed_mk, ↓State.fixed_def, State.fixed_def])

theorem execHostEnd_kept (r : Requester) (s : State) {s' : State}
    (h : execHostEnd r s = .next s') : KeptF s.fixed s'.fixed := by
  unfold execHostEnd at h
  cases h
  (try dsimp only)
  repeat' with_reducible (first | exact KeptF.refl _ | assumption | intro _ | refine ite_kept ?_ ?_ | refine ite_snd_kept ?_ ?_ | refine KeptF.trans' (writeBy_kept ..) ?_ | refine snd_kept (by assumption) ?_ | split | refine KeptF.trans' (foldl_kept _ _ _ ?_) ?_ | refine KeptF.trans' (foldl_kept_snd _ _ _ ?_) ?_ | simp only [↓State.fixed_mk, ↓State.fixed_def, State.fixed_def])

theorem execFwAbort_kept (r : Requester) (s : State) {s' : State}
    (h : execFwAbort r s = .next s') : KeptF s.fixed s'.fixed := by
  unfold execFwAbort at h
  cases h
  (try dsimp only)
  repeat' with_reducible (first | exact KeptF.refl _ | assumption | intro _ | refine ite_kept ?_ ?_ | refine ite_snd_kept ?_ ?_ | refine KeptF.trans' (writeBy_kept ..) ?_ | refine snd_kept (by assumption) ?_ | split | refine KeptF.trans' (foldl_kept _ _ _ ?_) ?_ | refine KeptF.trans' (foldl_kept_snd _ _ _ ?_) ?_ | simp only [↓State.fixed_mk, ↓State.fixed_def, State.fixed_def])

theorem execActivate_kept (r : Requester) (s : State) {s' : State}
    (h : execActivate r s = .next s') : KeptF s.fixed s'.fixed := by
  unfold execActivate at h
  cases h
  (try dsimp only)
  repeat' with_reducible (first | exact KeptF.refl _ | assumption | intro _ | refine ite_kept ?_ ?_ | refine ite_snd_kept ?_ ?_ | refine KeptF.trans' (writeBy_kept ..) ?_ | refine snd_kept (by assumption) ?_ | split | refine KeptF.trans' (foldl_kept _ _ _ ?_) ?_ | refine KeptF.trans' (foldl_kept_snd _ _ _ ?_) ?_ | simp only [↓State.fixed_mk, ↓State.fixed_def, State.fixed_def])

theorem execInplaceSwitchDone_kept (crcBad : Bool) (s : State) {s' : State}
    (h : execInplaceSwitchDone crcBad s = .next s') : KeptF s.fixed s'.fixed := by
  unfold execInplaceSwitchDone at h
  cases h
  (try dsimp only)
  repeat' with_reducible (first | exact KeptF.refl _ | assumption | intro _ | refine ite_kept ?_ ?_ | refine ite_snd_kept ?_ ?_ | refine KeptF.trans' (switchEnd_kept ..) ?_ | refine snd_kept (by assumption) ?_ | split | refine KeptF.trans' (foldl_kept _ _ _ ?_) ?_ | refine KeptF.trans' (foldl_kept_snd _ _ _ ?_) ?_ | simp only [↓State.fixed_mk, ↓State.fixed_def, State.fixed_def])

theorem execConfirm_kept (r : Requester) (s : State) {s' : State}
    (h : execConfirm r s = .next s') : KeptF s.fixed s'.fixed := by
  unfold execConfirm at h
  cases h
  (try dsimp only)
  repeat' with_reducible (first | exact KeptF.refl _ | assumption | intro _ | refine ite_kept ?_ ?_ | refine ite_snd_kept ?_ ?_ | refine KeptF.trans' (writeBy_kept ..) ?_ | refine snd_kept (by assumption) ?_ | split | refine KeptF.trans' (foldl_kept _ _ _ ?_) ?_ | refine KeptF.trans' (foldl_kept_snd _ _ _ ?_) ?_ | simp only [↓State.fixed_mk, ↓State.fixed_def, State.fixed_def])

theorem execRevert_kept (r : Requester) (s : State) {s' : State}
    (h : execRevert r s = .next s') : KeptF s.fixed s'.fixed := by
  unfold execRevert at h
  cases h
  (try dsimp only)
  repeat' with_reducible (first | exact KeptF.refl _ | assumption | intro _ | refine ite_kept ?_ ?_ | refine ite_snd_kept ?_ ?_ | refine KeptF.trans' (writeBy_kept ..) ?_ | refine snd_kept (by assumption) ?_ | split | refine KeptF.trans' (foldl_kept _ _ _ ?_) ?_ | refine KeptF.trans' (foldl_kept_snd _ _ _ ?_) ?_ | simp only [↓State.fixed_mk, ↓State.fixed_def, State.fixed_def])

theorem execSettingsAccept_kept (r : Requester) (s : State) {s' : State}
    (h : execSettingsAccept r s = .next s') : KeptF s.fixed s'.fixed := by
  unfold execSettingsAccept at h
  cases h
  (try dsimp only)
  repeat' with_reducible (first | exact KeptF.refl _ | assumption | intro _ | refine ite_kept ?_ ?_ | refine ite_snd_kept ?_ ?_ | refine KeptF.trans' (writeBy_kept ..) ?_ | refine snd_kept (by assumption) ?_ | split | refine KeptF.trans' (foldl_kept _ _ _ ?_) ?_ | refine KeptF.trans' (foldl_kept_snd _ _ _ ?_) ?_ | simp only [↓State.fixed_mk, ↓State.fixed_def, State.fixed_def])

theorem execSettingsFallback_kept (r : Requester) (s : State) {s' : State}
    (h : execSettingsFallback r s = .next s') : KeptF s.fixed s'.fixed := by
  unfold execSettingsFallback at h
  cases h
  (try dsimp only)
  repeat' with_reducible (first | exact KeptF.refl _ | assumption | intro _ | refine ite_kept ?_ ?_ | refine ite_snd_kept ?_ ?_ | refine KeptF.trans' (writeBy_kept ..) ?_ | refine snd_kept (by assumption) ?_ | split | refine KeptF.trans' (foldl_kept _ _ _ ?_) ?_ | refine KeptF.trans' (foldl_kept_snd _ _ _ ?_) ?_ | simp only [↓State.fixed_mk, ↓State.fixed_def, State.fixed_def])

end Sys2Proof.Machine
end

