-- ==== Sys2Proof/Laws/State.lean ====
section
/-! SUPPORT. What each named update of the state leaves as it is, field by field. -/

set_option linter.all false

namespace Sys2Proof.Machine

@[simp] theorem State.onDie_part (s : State) (d : Nat) (f : Die → Die) : (s.onDie d f).part = s.part := by simp only [State.onDie]
@[simp] theorem State.onDie_pending (s : State) (d : Nat) (f : Die → Die) : (s.onDie d f).pending = s.pending := by simp only [State.onDie]
@[simp] theorem State.onDie_now (s : State) (d : Nat) (f : Die → Die) : (s.onDie d f).now = s.now := by simp only [State.onDie]
@[simp] theorem State.onDie_meridian (s : State) (d : Nat) (f : Die → Die) : (s.onDie d f).meridian = s.meridian := by simp only [State.onDie]
@[simp] theorem State.onDie_adjust (s : State) (d : Nat) (f : Die → Die) : (s.onDie d f).adjust = s.adjust := by simp only [State.onDie]
@[simp] theorem State.onDie_ppsOut (s : State) (d : Nat) (f : Die → Die) : (s.onDie d f).ppsOut = s.ppsOut := by simp only [State.onDie]
@[simp] theorem State.onDie_freeCtr (s : State) (d : Nat) (f : Die → Die) : (s.onDie d f).freeCtr = s.freeCtr := by simp only [State.onDie]
@[simp] theorem State.onDie_regs (s : State) (d : Nat) (f : Die → Die) : (s.onDie d f).regs = s.regs := by simp only [State.onDie]
@[simp] theorem State.onDie_mode (s : State) (d : Nat) (f : Die → Die) : (s.onDie d f).mode = s.mode := by simp only [State.onDie]
@[simp] theorem State.onDie_summit (s : State) (d : Nat) (f : Die → Die) : (s.onDie d f).summit = s.summit := by simp only [State.onDie]
@[simp] theorem State.onDie_msgs (s : State) (d : Nat) (f : Die → Die) : (s.onDie d f).msgs = s.msgs := by simp only [State.onDie]
@[simp] theorem State.onDie_nextMsg (s : State) (d : Nat) (f : Die → Die) : (s.onDie d f).nextMsg = s.nextMsg := by simp only [State.onDie]
@[simp] theorem State.onDie_saddleCredit (s : State) (d : Nat) (f : Die → Die) : (s.onDie d f).saddleCredit = s.saddleCredit := by simp only [State.onDie]
@[simp] theorem State.onDie_pkts (s : State) (d : Nat) (f : Die → Die) : (s.onDie d f).pkts = s.pkts := by simp only [State.onDie]
@[simp] theorem State.onDie_nextPkt (s : State) (d : Nat) (f : Die → Die) : (s.onDie d f).nextPkt = s.nextPkt := by simp only [State.onDie]
@[simp] theorem State.onDie_nextRid (s : State) (d : Nat) (f : Die → Die) : (s.onDie d f).nextRid = s.nextRid := by simp only [State.onDie]
@[simp] theorem State.onDie_commits (s : State) (d : Nat) (f : Die → Die) : (s.onDie d f).commits = s.commits := by simp only [State.onDie]
@[simp] theorem State.onDie_tokenSeq (s : State) (d : Nat) (f : Die → Die) : (s.onDie d f).tokenSeq = s.tokenSeq := by simp only [State.onDie]
@[simp] theorem State.onDie_replies (s : State) (d : Nat) (f : Die → Die) : (s.onDie d f).replies = s.replies := by simp only [State.onDie]
@[simp] theorem State.onDie_busy (s : State) (d : Nat) (f : Die → Die) : (s.onDie d f).busy = s.busy := by simp only [State.onDie]
@[simp] theorem State.onDie_waiting (s : State) (d : Nat) (f : Die → Die) : (s.onDie d f).waiting = s.waiting := by simp only [State.onDie]
@[simp] theorem State.onDie_bcasts (s : State) (d : Nat) (f : Die → Die) : (s.onDie d f).bcasts = s.bcasts := by simp only [State.onDie]
@[simp] theorem State.onDie_boxes (s : State) (d : Nat) (f : Die → Die) : (s.onDie d f).boxes = s.boxes := by simp only [State.onDie]
@[simp] theorem State.onDie_sessions (s : State) (d : Nat) (f : Die → Die) : (s.onDie d f).sessions = s.sessions := by simp only [State.onDie]
@[simp] theorem State.onDie_relayed (s : State) (d : Nat) (f : Die → Die) : (s.onDie d f).relayed = s.relayed := by simp only [State.onDie]
@[simp] theorem State.onDie_inbox (s : State) (d : Nat) (f : Die → Die) : (s.onDie d f).inbox = s.inbox := by simp only [State.onDie]
@[simp] theorem State.onDie_jdpJobs (s : State) (d : Nat) (f : Die → Die) : (s.onDie d f).jdpJobs = s.jdpJobs := by simp only [State.onDie]
@[simp] theorem State.onDie_sent (s : State) (d : Nat) (f : Die → Die) : (s.onDie d f).sent = s.sent := by simp only [State.onDie]
@[simp] theorem State.onDie_relayRefFab (s : State) (d : Nat) (f : Die → Die) : (s.onDie d f).relayRefFab = s.relayRefFab := by simp only [State.onDie]
@[simp] theorem State.onDie_keys (s : State) (d : Nat) (f : Die → Die) : (s.onDie d f).keys = s.keys := by simp only [State.onDie]
@[simp] theorem State.onDie_flashKeys (s : State) (d : Nat) (f : Die → Die) : (s.onDie d f).flashKeys = s.flashKeys := by simp only [State.onDie]
@[simp] theorem State.onDie_keysDirty (s : State) (d : Nat) (f : Die → Die) : (s.onDie d f).keysDirty = s.keysDirty := by simp only [State.onDie]
@[simp] theorem State.onDie_flash (s : State) (d : Nat) (f : Die → Die) : (s.onDie d f).flash = s.flash := by simp only [State.onDie]
@[simp] theorem State.onDie_fwSession (s : State) (d : Nat) (f : Die → Die) : (s.onDie d f).fwSession = s.fwSession := by simp only [State.onDie]
@[simp] theorem State.onDie_fwChain (s : State) (d : Nat) (f : Die → Die) : (s.onDie d f).fwChain = s.fwChain := by simp only [State.onDie]
@[simp] theorem State.onDie_fwRelay (s : State) (d : Nat) (f : Die → Die) : (s.onDie d f).fwRelay = s.fwRelay := by simp only [State.onDie]
@[simp] theorem State.onDie_fwDone (s : State) (d : Nat) (f : Die → Die) : (s.onDie d f).fwDone = s.fwDone := by simp only [State.onDie]
@[simp] theorem State.onDie_emptyDue (s : State) (d : Nat) (f : Die → Die) : (s.onDie d f).emptyDue = s.emptyDue := by simp only [State.onDie]
@[simp] theorem State.onDie_lastChain (s : State) (d : Nat) (f : Die → Die) : (s.onDie d f).lastChain = s.lastChain := by simp only [State.onDie]
@[simp] theorem State.onDie_switching (s : State) (d : Nat) (f : Die → Die) : (s.onDie d f).switching = s.switching := by simp only [State.onDie]
@[simp] theorem State.onDie_switchBack (s : State) (d : Nat) (f : Die → Die) : (s.onDie d f).switchBack = s.switchBack := by simp only [State.onDie]
@[simp] theorem State.onDie_resetLow (s : State) (d : Nat) (f : Die → Die) : (s.onDie d f).resetLow = s.resetLow := by simp only [State.onDie]
@[simp] theorem State.onDie_pwrok (s : State) (d : Nat) (f : Die → Die) : (s.onDie d f).pwrok = s.pwrok := by simp only [State.onDie]
@[simp] theorem State.onDie_strap (s : State) (d : Nat) (f : Die → Die) : (s.onDie d f).strap = s.strap := by simp only [State.onDie]
@[simp] theorem State.onDie_bootStep (s : State) (d : Nat) (f : Die → Die) : (s.onDie d f).bootStep = s.bootStep := by simp only [State.onDie]
@[simp] theorem State.onDie_therm (s : State) (d : Nat) (f : Die → Die) : (s.onDie d f).therm = s.therm := by simp only [State.onDie]
@[simp] theorem State.onDie_vinHigh (s : State) (d : Nat) (f : Die → Die) : (s.onDie d f).vinHigh = s.vinHigh := by simp only [State.onDie]
@[simp] theorem State.onDie_vinLow (s : State) (d : Nat) (f : Die → Die) : (s.onDie d f).vinLow = s.vinLow := by simp only [State.onDie]
@[simp] theorem State.onDie_vinNotHi (s : State) (d : Nat) (f : Die → Die) : (s.onDie d f).vinNotHi = s.vinNotHi := by simp only [State.onDie]
@[simp] theorem State.onDie_vinNotLo (s : State) (d : Nat) (f : Die → Die) : (s.onDie d f).vinNotLo = s.vinNotLo := by simp only [State.onDie]
@[simp] theorem State.onDie_vinDown (s : State) (d : Nat) (f : Die → Die) : (s.onDie d f).vinDown = s.vinDown := by simp only [State.onDie]
@[simp] theorem State.onDie_slots (s : State) (d : Nat) (f : Die → Die) : (s.onDie d f).slots = s.slots := by simp only [State.onDie]
@[simp] theorem State.onDie_unsaved (s : State) (d : Nat) (f : Die → Die) : (s.onDie d f).unsaved = s.unsaved := by simp only [State.onDie]
@[simp] theorem State.onDie_master (s : State) (d : Nat) (f : Die → Die) : (s.onDie d f).master = s.master := by simp only [State.onDie]
@[simp] theorem State.onDie_stale (s : State) (d : Nat) (f : Die → Die) : (s.onDie d f).stale = s.stale := by simp only [State.onDie]
@[simp] theorem State.onDie_quiesceAt (s : State) (d : Nat) (f : Die → Die) : (s.onDie d f).quiesceAt = s.quiesceAt := by simp only [State.onDie]
@[simp] theorem State.onDie_bringupAt (s : State) (d : Nat) (f : Die → Die) : (s.onDie d f).bringupAt = s.bringupAt := by simp only [State.onDie]
@[simp] theorem State.onDie_bringupRan (s : State) (d : Nat) (f : Die → Die) : (s.onDie d f).bringupRan = s.bringupRan := by simp only [State.onDie]
@[simp] theorem State.onDie_leanMs (s : State) (d : Nat) (f : Die → Die) : (s.onDie d f).leanMs = s.leanMs := by simp only [State.onDie]
@[simp] theorem State.onDie_transitFrom (s : State) (d : Nat) (f : Die → Die) : (s.onDie d f).transitFrom = s.transitFrom := by simp only [State.onDie]
@[simp] theorem State.onDie_alertBringup (s : State) (d : Nat) (f : Die → Die) : (s.onDie d f).alertBringup = s.alertBringup := by simp only [State.onDie]
@[simp] theorem State.onDie_alertR43 (s : State) (d : Nat) (f : Die → Die) : (s.onDie d f).alertR43 = s.alertR43 := by simp only [State.onDie]
@[simp] theorem State.onDie_alertHi (s : State) (d : Nat) (f : Die → Die) : (s.onDie d f).alertHi = s.alertHi := by simp only [State.onDie]
@[simp] theorem State.onDie_alertLo (s : State) (d : Nat) (f : Die → Die) : (s.onDie d f).alertLo = s.alertLo := by simp only [State.onDie]
@[simp] theorem State.onDie_saidHi (s : State) (d : Nat) (f : Die → Die) : (s.onDie d f).saidHi = s.saidHi := by simp only [State.onDie]
@[simp] theorem State.onDie_saidLo (s : State) (d : Nat) (f : Die → Die) : (s.onDie d f).saidLo = s.saidLo := by simp only [State.onDie]
@[simp] theorem State.onDie_fatalPin (s : State) (d : Nat) (f : Die → Die) : (s.onDie d f).fatalPin = s.fatalPin := by simp only [State.onDie]
@[simp] theorem State.onDie_staging (s : State) (d : Nat) (f : Die → Die) : (s.onDie d f).staging = s.staging := by simp only [State.onDie]
@[simp] theorem State.onDie_pkgLog (s : State) (d : Nat) (f : Die → Die) : (s.onDie d f).pkgLog = s.pkgLog := by simp only [State.onDie]
@[simp] theorem State.onDie_logSeq (s : State) (d : Nat) (f : Die → Die) : (s.onDie d f).logSeq = s.logSeq := by simp only [State.onDie]
@[simp] theorem State.onDie_acked (s : State) (d : Nat) (f : Die → Die) : (s.onDie d f).acked = s.acked := by simp only [State.onDie]
@[simp] theorem State.onDie_lastKey (s : State) (d : Nat) (f : Die → Die) : (s.onDie d f).lastKey = s.lastKey := by simp only [State.onDie]
@[simp] theorem State.onDie_resetHold (s : State) (d : Nat) (f : Die → Die) : (s.onDie d f).resetHold = s.resetHold := by simp only [State.onDie]
@[simp] theorem State.onDie_retireAt (s : State) (d : Nat) (f : Die → Die) : (s.onDie d f).retireAt = s.retireAt := by simp only [State.onDie]
@[simp] theorem State.onDie_retireLimit (s : State) (d : Nat) (f : Die → Die) : (s.onDie d f).retireLimit = s.retireLimit := by simp only [State.onDie]
@[simp] theorem State.onDie_unacked (s : State) (d : Nat) (f : Die → Die) : (s.onDie d f).unacked = s.unacked := by simp only [State.onDie]
@[simp] theorem State.onDie_attCache (s : State) (d : Nat) (f : Die → Die) : (s.onDie d f).attCache = s.attCache := by simp only [State.onDie]
@[simp] theorem State.onDie_dma (s : State) (d : Nat) (f : Die → Die) : (s.onDie d f).dma = s.dma := by simp only [State.onDie]
@[simp] theorem State.onDie_msix (s : State) (d : Nat) (f : Die → Die) : (s.onDie d f).msix = s.msix := by simp only [State.onDie]
@[simp] theorem State.onDie_msixTab (s : State) (d : Nat) (f : Die → Die) : (s.onDie d f).msixTab = s.msixTab := by simp only [State.onDie]
@[simp] theorem State.onDie_msixPend (s : State) (d : Nat) (f : Die → Die) : (s.onDie d f).msixPend = s.msixPend := by simp only [State.onDie]

@[simp] theorem State.pset_part (s : State) (i j v : Nat) : (s.pset i j v).part = s.part := by simp only [State.pset]
@[simp] theorem State.pset_pending (s : State) (i j v : Nat) : (s.pset i j v).pending = s.pending := by simp only [State.pset]
@[simp] theorem State.pset_now (s : State) (i j v : Nat) : (s.pset i j v).now = s.now := by simp only [State.pset]
@[simp] theorem State.pset_meridian (s : State) (i j v : Nat) : (s.pset i j v).meridian = s.meridian := by simp only [State.pset]
@[simp] theorem State.pset_adjust (s : State) (i j v : Nat) : (s.pset i j v).adjust = s.adjust := by simp only [State.pset]
@[simp] theorem State.pset_ppsOut (s : State) (i j v : Nat) : (s.pset i j v).ppsOut = s.ppsOut := by simp only [State.pset]
@[simp] theorem State.pset_freeCtr (s : State) (i j v : Nat) : (s.pset i j v).freeCtr = s.freeCtr := by simp only [State.pset]
@[simp] theorem State.pset_mode (s : State) (i j v : Nat) : (s.pset i j v).mode = s.mode := by simp only [State.pset]
@[simp] theorem State.pset_summit (s : State) (i j v : Nat) : (s.pset i j v).summit = s.summit := by simp only [State.pset]
@[simp] theorem State.pset_dies (s : State) (i j v : Nat) : (s.pset i j v).dies = s.dies := by simp only [State.pset]
@[simp] theorem State.pset_msgs (s : State) (i j v : Nat) : (s.pset i j v).msgs = s.msgs := by simp only [State.pset]
@[simp] theorem State.pset_nextMsg (s : State) (i j v : Nat) : (s.pset i j v).nextMsg = s.nextMsg := by simp only [State.pset]
@[simp] theorem State.pset_saddleCredit (s : State) (i j v : Nat) : (s.pset i j v).saddleCredit = s.saddleCredit := by simp only [State.pset]
@[simp] theorem State.pset_pkts (s : State) (i j v : Nat) : (s.pset i j v).pkts = s.pkts := by simp only [State.pset]
@[simp] theorem State.pset_nextPkt (s : State) (i j v : Nat) : (s.pset i j v).nextPkt = s.nextPkt := by simp only [State.pset]
@[simp] theorem State.pset_nextRid (s : State) (i j v : Nat) : (s.pset i j v).nextRid = s.nextRid := by simp only [State.pset]
@[simp] theorem State.pset_commits (s : State) (i j v : Nat) : (s.pset i j v).commits = s.commits := by simp only [State.pset]
@[simp] theorem State.pset_tokenSeq (s : State) (i j v : Nat) : (s.pset i j v).tokenSeq = s.tokenSeq := by simp only [State.pset]
@[simp] theorem State.pset_replies (s : State) (i j v : Nat) : (s.pset i j v).replies = s.replies := by simp only [State.pset]
@[simp] theorem State.pset_busy (s : State) (i j v : Nat) : (s.pset i j v).busy = s.busy := by simp only [State.pset]
@[simp] theorem State.pset_waiting (s : State) (i j v : Nat) : (s.pset i j v).waiting = s.waiting := by simp only [State.pset]
@[simp] theorem State.pset_bcasts (s : State) (i j v : Nat) : (s.pset i j v).bcasts = s.bcasts := by simp only [State.pset]
@[simp] theorem State.pset_boxes (s : State) (i j v : Nat) : (s.pset i j v).boxes = s.boxes := by simp only [State.pset]
@[simp] theorem State.pset_sessions (s : State) (i j v : Nat) : (s.pset i j v).sessions = s.sessions := by simp only [State.pset]
@[simp] theorem State.pset_relayed (s : State) (i j v : Nat) : (s.pset i j v).relayed = s.relayed := by simp only [State.pset]
@[simp] theorem State.pset_inbox (s : State) (i j v : Nat) : (s.pset i j v).inbox = s.inbox := by simp only [State.pset]
@[simp] theorem State.pset_jdpJobs (s : State) (i j v : Nat) : (s.pset i j v).jdpJobs = s.jdpJobs := by simp only [State.pset]
@[simp] theorem State.pset_sent (s : State) (i j v : Nat) : (s.pset i j v).sent = s.sent := by simp only [State.pset]
@[simp] theorem State.pset_relayRefFab (s : State) (i j v : Nat) : (s.pset i j v).relayRefFab = s.relayRefFab := by simp only [State.pset]
@[simp] theorem State.pset_keys (s : State) (i j v : Nat) : (s.pset i j v).keys = s.keys := by simp only [State.pset]
@[simp] theorem State.pset_flashKeys (s : State) (i j v : Nat) : (s.pset i j v).flashKeys = s.flashKeys := by simp only [State.pset]
@[simp] theorem State.pset_keysDirty (s : State) (i j v : Nat) : (s.pset i j v).keysDirty = s.keysDirty := by simp only [State.pset]
@[simp] theorem State.pset_flash (s : State) (i j v : Nat) : (s.pset i j v).flash = s.flash := by simp only [State.pset]
@[simp] theorem State.pset_fwSession (s : State) (i j v : Nat) : (s.pset i j v).fwSession = s.fwSession := by simp only [State.pset]
@[simp] theorem State.pset_fwChain (s : State) (i j v : Nat) : (s.pset i j v).fwChain = s.fwChain := by simp only [State.pset]
@[simp] theorem State.pset_fwRelay (s : State) (i j v : Nat) : (s.pset i j v).fwRelay = s.fwRelay := by simp only [State.pset]
@[simp] theorem State.pset_fwDone (s : State) (i j v : Nat) : (s.pset i j v).fwDone = s.fwDone := by simp only [State.pset]
@[simp] theorem State.pset_emptyDue (s : State) (i j v : Nat) : (s.pset i j v).emptyDue = s.emptyDue := by simp only [State.pset]
@[simp] theorem State.pset_lastChain (s : State) (i j v : Nat) : (s.pset i j v).lastChain = s.lastChain := by simp only [State.pset]
@[simp] theorem State.pset_switching (s : State) (i j v : Nat) : (s.pset i j v).switching = s.switching := by simp only [State.pset]
@[simp] theorem State.pset_switchBack (s : State) (i j v : Nat) : (s.pset i j v).switchBack = s.switchBack := by simp only [State.pset]
@[simp] theorem State.pset_resetLow (s : State) (i j v : Nat) : (s.pset i j v).resetLow = s.resetLow := by simp only [State.pset]
@[simp] theorem State.pset_pwrok (s : State) (i j v : Nat) : (s.pset i j v).pwrok = s.pwrok := by simp only [State.pset]
@[simp] theorem State.pset_strap (s : State) (i j v : Nat) : (s.pset i j v).strap = s.strap := by simp only [State.pset]
@[simp] theorem State.pset_bootStep (s : State) (i j v : Nat) : (s.pset i j v).bootStep = s.bootStep := by simp only [State.pset]
@[simp] theorem State.pset_therm (s : State) (i j v : Nat) : (s.pset i j v).therm = s.therm := by simp only [State.pset]
@[simp] theorem State.pset_vinHigh (s : State) (i j v : Nat) : (s.pset i j v).vinHigh = s.vinHigh := by simp only [State.pset]
@[simp] theorem State.pset_vinLow (s : State) (i j v : Nat) : (s.pset i j v).vinLow = s.vinLow := by simp only [State.pset]
@[simp] theorem State.pset_vinNotHi (s : State) (i j v : Nat) : (s.pset i j v).vinNotHi = s.vinNotHi := by simp only [State.pset]
@[simp] theorem State.pset_vinNotLo (s : State) (i j v : Nat) : (s.pset i j v).vinNotLo = s.vinNotLo := by simp only [State.pset]
@[simp] theorem State.pset_vinDown (s : State) (i j v : Nat) : (s.pset i j v).vinDown = s.vinDown := by simp only [State.pset]
@[simp] theorem State.pset_slots (s : State) (i j v : Nat) : (s.pset i j v).slots = s.slots := by simp only [State.pset]
@[simp] theorem State.pset_unsaved (s : State) (i j v : Nat) : (s.pset i j v).unsaved = s.unsaved := by simp only [State.pset]
@[simp] theorem State.pset_master (s : State) (i j v : Nat) : (s.pset i j v).master = s.master := by simp only [State.pset]
@[simp] theorem State.pset_stale (s : State) (i j v : Nat) : (s.pset i j v).stale = s.stale := by simp only [State.pset]
@[simp] theorem State.pset_quiesceAt (s : State) (i j v : Nat) : (s.pset i j v).quiesceAt = s.quiesceAt := by simp only [State.pset]
@[simp] theorem State.pset_bringupAt (s : State) (i j v : Nat) : (s.pset i j v).bringupAt = s.bringupAt := by simp only [State.pset]
@[simp] theorem State.pset_bringupRan (s : State) (i j v : Nat) : (s.pset i j v).bringupRan = s.bringupRan := by simp only [State.pset]
@[simp] theorem State.pset_leanMs (s : State) (i j v : Nat) : (s.pset i j v).leanMs = s.leanMs := by simp only [State.pset]
@[simp] theorem State.pset_transitFrom (s : State) (i j v : Nat) : (s.pset i j v).transitFrom = s.transitFrom := by simp only [State.pset]
@[simp] theorem State.pset_alertBringup (s : State) (i j v : Nat) : (s.pset i j v).alertBringup = s.alertBringup := by simp only [State.pset]
@[simp] theorem State.pset_alertR43 (s : State) (i j v : Nat) : (s.pset i j v).alertR43 = s.alertR43 := by simp only [State.pset]
@[simp] theorem State.pset_alertHi (s : State) (i j v : Nat) : (s.pset i j v).alertHi = s.alertHi := by simp only [State.pset]
@[simp] theorem State.pset_alertLo (s : State) (i j v : Nat) : (s.pset i j v).alertLo = s.alertLo := by simp only [State.pset]
@[simp] theorem State.pset_saidHi (s : State) (i j v : Nat) : (s.pset i j v).saidHi = s.saidHi := by simp only [State.pset]
@[simp] theorem State.pset_saidLo (s : State) (i j v : Nat) : (s.pset i j v).saidLo = s.saidLo := by simp only [State.pset]
@[simp] theorem State.pset_fatalPin (s : State) (i j v : Nat) : (s.pset i j v).fatalPin = s.fatalPin := by simp only [State.pset]
@[simp] theorem State.pset_staging (s : State) (i j v : Nat) : (s.pset i j v).staging = s.staging := by simp only [State.pset]
@[simp] theorem State.pset_pkgLog (s : State) (i j v : Nat) : (s.pset i j v).pkgLog = s.pkgLog := by simp only [State.pset]
@[simp] theorem State.pset_logSeq (s : State) (i j v : Nat) : (s.pset i j v).logSeq = s.logSeq := by simp only [State.pset]
@[simp] theorem State.pset_acked (s : State) (i j v : Nat) : (s.pset i j v).acked = s.acked := by simp only [State.pset]
@[simp] theorem State.pset_lastKey (s : State) (i j v : Nat) : (s.pset i j v).lastKey = s.lastKey := by simp only [State.pset]
@[simp] theorem State.pset_resetHold (s : State) (i j v : Nat) : (s.pset i j v).resetHold = s.resetHold := by simp only [State.pset]
@[simp] theorem State.pset_retireAt (s : State) (i j v : Nat) : (s.pset i j v).retireAt = s.retireAt := by simp only [State.pset]
@[simp] theorem State.pset_retireLimit (s : State) (i j v : Nat) : (s.pset i j v).retireLimit = s.retireLimit := by simp only [State.pset]
@[simp] theorem State.pset_unacked (s : State) (i j v : Nat) : (s.pset i j v).unacked = s.unacked := by simp only [State.pset]
@[simp] theorem State.pset_attCache (s : State) (i j v : Nat) : (s.pset i j v).attCache = s.attCache := by simp only [State.pset]
@[simp] theorem State.pset_dma (s : State) (i j v : Nat) : (s.pset i j v).dma = s.dma := by simp only [State.pset]
@[simp] theorem State.pset_msix (s : State) (i j v : Nat) : (s.pset i j v).msix = s.msix := by simp only [State.pset]
@[simp] theorem State.pset_msixTab (s : State) (i j v : Nat) : (s.pset i j v).msixTab = s.msixTab := by simp only [State.pset]
@[simp] theorem State.pset_msixPend (s : State) (i j v : Nat) : (s.pset i j v).msixPend = s.msixPend := by simp only [State.pset]

@[simp] theorem State.dset_part (s : State) (d i j v : Nat) : (s.dset d i j v).part = s.part := by simp only [State.dset, State.onDie]
@[simp] theorem State.dset_pending (s : State) (d i j v : Nat) : (s.dset d i j v).pending = s.pending := by simp only [State.dset, State.onDie]
@[simp] theorem State.dset_now (s : State) (d i j v : Nat) : (s.dset d i j v).now = s.now := by simp only [State.dset, State.onDie]
@[simp] theorem State.dset_meridian (s : State) (d i j v : Nat) : (s.dset d i j v).meridian = s.meridian := by simp only [State.dset, State.onDie]
@[simp] theorem State.dset_adjust (s : State) (d i j v : Nat) : (s.dset d i j v).adjust = s.adjust := by simp only [State.dset, State.onDie]
@[simp] theorem State.dset_ppsOut (s : State) (d i j v : Nat) : (s.dset d i j v).ppsOut = s.ppsOut := by simp only [State.dset, State.onDie]
@[simp] theorem State.dset_freeCtr (s : State) (d i j v : Nat) : (s.dset d i j v).freeCtr = s.freeCtr := by simp only [State.dset, State.onDie]
@[simp] theorem State.dset_regs (s : State) (d i j v : Nat) : (s.dset d i j v).regs = s.regs := by simp only [State.dset, State.onDie]
@[simp] theorem State.dset_mode (s : State) (d i j v : Nat) : (s.dset d i j v).mode = s.mode := by simp only [State.dset, State.onDie]
@[simp] theorem State.dset_summit (s : State) (d i j v : Nat) : (s.dset d i j v).summit = s.summit := by simp only [State.dset, State.onDie]
@[simp] theorem State.dset_msgs (s : State) (d i j v : Nat) : (s.dset d i j v).msgs = s.msgs := by simp only [State.dset, State.onDie]
@[simp] theorem State.dset_nextMsg (s : State) (d i j v : Nat) : (s.dset d i j v).nextMsg = s.nextMsg := by simp only [State.dset, State.onDie]
@[simp] theorem State.dset_saddleCredit (s : State) (d i j v : Nat) : (s.dset d i j v).saddleCredit = s.saddleCredit := by simp only [State.dset, State.onDie]
@[simp] theorem State.dset_pkts (s : State) (d i j v : Nat) : (s.dset d i j v).pkts = s.pkts := by simp only [State.dset, State.onDie]
@[simp] theorem State.dset_nextPkt (s : State) (d i j v : Nat) : (s.dset d i j v).nextPkt = s.nextPkt := by simp only [State.dset, State.onDie]
@[simp] theorem State.dset_nextRid (s : State) (d i j v : Nat) : (s.dset d i j v).nextRid = s.nextRid := by simp only [State.dset, State.onDie]
@[simp] theorem State.dset_commits (s : State) (d i j v : Nat) : (s.dset d i j v).commits = s.commits := by simp only [State.dset, State.onDie]
@[simp] theorem State.dset_tokenSeq (s : State) (d i j v : Nat) : (s.dset d i j v).tokenSeq = s.tokenSeq := by simp only [State.dset, State.onDie]
@[simp] theorem State.dset_replies (s : State) (d i j v : Nat) : (s.dset d i j v).replies = s.replies := by simp only [State.dset, State.onDie]
@[simp] theorem State.dset_busy (s : State) (d i j v : Nat) : (s.dset d i j v).busy = s.busy := by simp only [State.dset, State.onDie]
@[simp] theorem State.dset_waiting (s : State) (d i j v : Nat) : (s.dset d i j v).waiting = s.waiting := by simp only [State.dset, State.onDie]
@[simp] theorem State.dset_bcasts (s : State) (d i j v : Nat) : (s.dset d i j v).bcasts = s.bcasts := by simp only [State.dset, State.onDie]
@[simp] theorem State.dset_boxes (s : State) (d i j v : Nat) : (s.dset d i j v).boxes = s.boxes := by simp only [State.dset, State.onDie]
@[simp] theorem State.dset_sessions (s : State) (d i j v : Nat) : (s.dset d i j v).sessions = s.sessions := by simp only [State.dset, State.onDie]
@[simp] theorem State.dset_relayed (s : State) (d i j v : Nat) : (s.dset d i j v).relayed = s.relayed := by simp only [State.dset, State.onDie]
@[simp] theorem State.dset_inbox (s : State) (d i j v : Nat) : (s.dset d i j v).inbox = s.inbox := by simp only [State.dset, State.onDie]
@[simp] theorem State.dset_jdpJobs (s : State) (d i j v : Nat) : (s.dset d i j v).jdpJobs = s.jdpJobs := by simp only [State.dset, State.onDie]
@[simp] theorem State.dset_sent (s : State) (d i j v : Nat) : (s.dset d i j v).sent = s.sent := by simp only [State.dset, State.onDie]
@[simp] theorem State.dset_relayRefFab (s : State) (d i j v : Nat) : (s.dset d i j v).relayRefFab = s.relayRefFab := by simp only [State.dset, State.onDie]
@[simp] theorem State.dset_keys (s : State) (d i j v : Nat) : (s.dset d i j v).keys = s.keys := by simp only [State.dset, State.onDie]
@[simp] theorem State.dset_flashKeys (s : State) (d i j v : Nat) : (s.dset d i j v).flashKeys = s.flashKeys := by simp only [State.dset, State.onDie]
@[simp] theorem State.dset_keysDirty (s : State) (d i j v : Nat) : (s.dset d i j v).keysDirty = s.keysDirty := by simp only [State.dset, State.onDie]
@[simp] theorem State.dset_flash (s : State) (d i j v : Nat) : (s.dset d i j v).flash = s.flash := by simp only [State.dset, State.onDie]
@[simp] theorem State.dset_fwSession (s : State) (d i j v : Nat) : (s.dset d i j v).fwSession = s.fwSession := by simp only [State.dset, State.onDie]
@[simp] theorem State.dset_fwChain (s : State) (d i j v : Nat) : (s.dset d i j v).fwChain = s.fwChain := by simp only [State.dset, State.onDie]
@[simp] theorem State.dset_fwRelay (s : State) (d i j v : Nat) : (s.dset d i j v).fwRelay = s.fwRelay := by simp only [State.dset, State.onDie]
@[simp] theorem State.dset_fwDone (s : State) (d i j v : Nat) : (s.dset d i j v).fwDone = s.fwDone := by simp only [State.dset, State.onDie]
@[simp] theorem State.dset_emptyDue (s : State) (d i j v : Nat) : (s.dset d i j v).emptyDue = s.emptyDue := by simp only [State.dset, State.onDie]
@[simp] theorem State.dset_lastChain (s : State) (d i j v : Nat) : (s.dset d i j v).lastChain = s.lastChain := by simp only [State.dset, State.onDie]
@[simp] theorem State.dset_switching (s : State) (d i j v : Nat) : (s.dset d i j v).switching = s.switching := by simp only [State.dset, State.onDie]
@[simp] theorem State.dset_switchBack (s : State) (d i j v : Nat) : (s.dset d i j v).switchBack = s.switchBack := by simp only [State.dset, State.onDie]
@[simp] theorem State.dset_resetLow (s : State) (d i j v : Nat) : (s.dset d i j v).resetLow = s.resetLow := by simp only [State.dset, State.onDie]
@[simp] theorem State.dset_pwrok (s : State) (d i j v : Nat) : (s.dset d i j v).pwrok = s.pwrok := by simp only [State.dset, State.onDie]
@[simp] theorem State.dset_strap (s : State) (d i j v : Nat) : (s.dset d i j v).strap = s.strap := by simp only [State.dset, State.onDie]
@[simp] theorem State.dset_bootStep (s : State) (d i j v : Nat) : (s.dset d i j v).bootStep = s.bootStep := by simp only [State.dset, State.onDie]
@[simp] theorem State.dset_therm (s : State) (d i j v : Nat) : (s.dset d i j v).therm = s.therm := by simp only [State.dset, State.onDie]
@[simp] theorem State.dset_vinHigh (s : State) (d i j v : Nat) : (s.dset d i j v).vinHigh = s.vinHigh := by simp only [State.dset, State.onDie]
@[simp] theorem State.dset_vinLow (s : State) (d i j v : Nat) : (s.dset d i j v).vinLow = s.vinLow := by simp only [State.dset, State.onDie]
@[simp] theorem State.dset_vinNotHi (s : State) (d i j v : Nat) : (s.dset d i j v).vinNotHi = s.vinNotHi := by simp only [State.dset, State.onDie]
@[simp] theorem State.dset_vinNotLo (s : State) (d i j v : Nat) : (s.dset d i j v).vinNotLo = s.vinNotLo := by simp only [State.dset, State.onDie]
@[simp] theorem State.dset_vinDown (s : State) (d i j v : Nat) : (s.dset d i j v).vinDown = s.vinDown := by simp only [State.dset, State.onDie]
@[simp] theorem State.dset_slots (s : State) (d i j v : Nat) : (s.dset d i j v).slots = s.slots := by simp only [State.dset, State.onDie]
@[simp] theorem State.dset_unsaved (s : State) (d i j v : Nat) : (s.dset d i j v).unsaved = s.unsaved := by simp only [State.dset, State.onDie]
@[simp] theorem State.dset_master (s : State) (d i j v : Nat) : (s.dset d i j v).master = s.master := by simp only [State.dset, State.onDie]
@[simp] theorem State.dset_stale (s : State) (d i j v : Nat) : (s.dset d i j v).stale = s.stale := by simp only [State.dset, State.onDie]
@[simp] theorem State.dset_quiesceAt (s : State) (d i j v : Nat) : (s.dset d i j v).quiesceAt = s.quiesceAt := by simp only [State.dset, State.onDie]
@[simp] theorem State.dset_bringupAt (s : State) (d i j v : Nat) : (s.dset d i j v).bringupAt = s.bringupAt := by simp only [State.dset, State.onDie]
@[simp] theorem State.dset_bringupRan (s : State) (d i j v : Nat) : (s.dset d i j v).bringupRan = s.bringupRan := by simp only [State.dset, State.onDie]
@[simp] theorem State.dset_leanMs (s : State) (d i j v : Nat) : (s.dset d i j v).leanMs = s.leanMs := by simp only [State.dset, State.onDie]
@[simp] theorem State.dset_transitFrom (s : State) (d i j v : Nat) : (s.dset d i j v).transitFrom = s.transitFrom := by simp only [State.dset, State.onDie]
@[simp] theorem State.dset_alertBringup (s : State) (d i j v : Nat) : (s.dset d i j v).alertBringup = s.alertBringup := by simp only [State.dset, State.onDie]
@[simp] theorem State.dset_alertR43 (s : State) (d i j v : Nat) : (s.dset d i j v).alertR43 = s.alertR43 := by simp only [State.dset, State.onDie]
@[simp] theorem State.dset_alertHi (s : State) (d i j v : Nat) : (s.dset d i j v).alertHi = s.alertHi := by simp only [State.dset, State.onDie]
@[simp] theorem State.dset_alertLo (s : State) (d i j v : Nat) : (s.dset d i j v).alertLo = s.alertLo := by simp only [State.dset, State.onDie]
@[simp] theorem State.dset_saidHi (s : State) (d i j v : Nat) : (s.dset d i j v).saidHi = s.saidHi := by simp only [State.dset, State.onDie]
@[simp] theorem State.dset_saidLo (s : State) (d i j v : Nat) : (s.dset d i j v).saidLo = s.saidLo := by simp only [State.dset, State.onDie]
@[simp] theorem State.dset_fatalPin (s : State) (d i j v : Nat) : (s.dset d i j v).fatalPin = s.fatalPin := by simp only [State.dset, State.onDie]
@[simp] theorem State.dset_staging (s : State) (d i j v : Nat) : (s.dset d i j v).staging = s.staging := by simp only [State.dset, State.onDie]
@[simp] theorem State.dset_pkgLog (s : State) (d i j v : Nat) : (s.dset d i j v).pkgLog = s.pkgLog := by simp only [State.dset, State.onDie]
@[simp] theorem State.dset_logSeq (s : State) (d i j v : Nat) : (s.dset d i j v).logSeq = s.logSeq := by simp only [State.dset, State.onDie]
@[simp] theorem State.dset_acked (s : State) (d i j v : Nat) : (s.dset d i j v).acked = s.acked := by simp only [State.dset, State.onDie]
@[simp] theorem State.dset_lastKey (s : State) (d i j v : Nat) : (s.dset d i j v).lastKey = s.lastKey := by simp only [State.dset, State.onDie]
@[simp] theorem State.dset_resetHold (s : State) (d i j v : Nat) : (s.dset d i j v).resetHold = s.resetHold := by simp only [State.dset, State.onDie]
@[simp] theorem State.dset_retireAt (s : State) (d i j v : Nat) : (s.dset d i j v).retireAt = s.retireAt := by simp only [State.dset, State.onDie]
@[simp] theorem State.dset_retireLimit (s : State) (d i j v : Nat) : (s.dset d i j v).retireLimit = s.retireLimit := by simp only [State.dset, State.onDie]
@[simp] theorem State.dset_unacked (s : State) (d i j v : Nat) : (s.dset d i j v).unacked = s.unacked := by simp only [State.dset, State.onDie]
@[simp] theorem State.dset_attCache (s : State) (d i j v : Nat) : (s.dset d i j v).attCache = s.attCache := by simp only [State.dset, State.onDie]
@[simp] theorem State.dset_dma (s : State) (d i j v : Nat) : (s.dset d i j v).dma = s.dma := by simp only [State.dset, State.onDie]
@[simp] theorem State.dset_msix (s : State) (d i j v : Nat) : (s.dset d i j v).msix = s.msix := by simp only [State.dset, State.onDie]
@[simp] theorem State.dset_msixTab (s : State) (d i j v : Nat) : (s.dset d i j v).msixTab = s.msixTab := by simp only [State.dset, State.onDie]
@[simp] theorem State.dset_msixPend (s : State) (d i j v : Nat) : (s.dset d i j v).msixPend = s.msixPend := by simp only [State.dset, State.onDie]

@[simp] theorem State.onPkt_part (s : State) (i : Nat) (f : Packet → Packet) : (s.onPkt i f).part = s.part := by simp only [State.onPkt]
@[simp] theorem State.onPkt_pending (s : State) (i : Nat) (f : Packet → Packet) : (s.onPkt i f).pending = s.pending := by simp only [State.onPkt]
@[simp] theorem State.onPkt_now (s : State) (i : Nat) (f : Packet → Packet) : (s.onPkt i f).now = s.now := by simp only [State.onPkt]
@[simp] theorem State.onPkt_meridian (s : State) (i : Nat) (f : Packet → Packet) : (s.onPkt i f).meridian = s.meridian := by simp only [State.onPkt]
@[simp] theorem State.onPkt_adjust (s : State) (i : Nat) (f : Packet → Packet) : (s.onPkt i f).adjust = s.adjust := by simp only [State.onPkt]
@[simp] theorem State.onPkt_ppsOut (s : State) (i : Nat) (f : Packet → Packet) : (s.onPkt i f).ppsOut = s.ppsOut := by simp only [State.onPkt]
@[simp] theorem State.onPkt_freeCtr (s : State) (i : Nat) (f : Packet → Packet) : (s.onPkt i f).freeCtr = s.freeCtr := by simp only [State.onPkt]
@[simp] theorem State.onPkt_regs (s : State) (i : Nat) (f : Packet → Packet) : (s.onPkt i f).regs = s.regs := by simp only [State.onPkt]
@[simp] theorem State.onPkt_mode (s : State) (i : Nat) (f : Packet → Packet) : (s.onPkt i f).mode = s.mode := by simp only [State.onPkt]
@[simp] theorem State.onPkt_summit (s : State) (i : Nat) (f : Packet → Packet) : (s.onPkt i f).summit = s.summit := by simp only [State.onPkt]
@[simp] theorem State.onPkt_dies (s : State) (i : Nat) (f : Packet → Packet) : (s.onPkt i f).dies = s.dies := by simp only [State.onPkt]
@[simp] theorem State.onPkt_msgs (s : State) (i : Nat) (f : Packet → Packet) : (s.onPkt i f).msgs = s.msgs := by simp only [State.onPkt]
@[simp] theorem State.onPkt_nextMsg (s : State) (i : Nat) (f : Packet → Packet) : (s.onPkt i f).nextMsg = s.nextMsg := by simp only [State.onPkt]
@[simp] theorem State.onPkt_saddleCredit (s : State) (i : Nat) (f : Packet → Packet) : (s.onPkt i f).saddleCredit = s.saddleCredit := by simp only [State.onPkt]
@[simp] theorem State.onPkt_nextPkt (s : State) (i : Nat) (f : Packet → Packet) : (s.onPkt i f).nextPkt = s.nextPkt := by simp only [State.onPkt]
@[simp] theorem State.onPkt_nextRid (s : State) (i : Nat) (f : Packet → Packet) : (s.onPkt i f).nextRid = s.nextRid := by simp only [State.onPkt]
@[simp] theorem State.onPkt_commits (s : State) (i : Nat) (f : Packet → Packet) : (s.onPkt i f).commits = s.commits := by simp only [State.onPkt]
@[simp] theorem State.onPkt_tokenSeq (s : State) (i : Nat) (f : Packet → Packet) : (s.onPkt i f).tokenSeq = s.tokenSeq := by simp only [State.onPkt]
@[simp] theorem State.onPkt_replies (s : State) (i : Nat) (f : Packet → Packet) : (s.onPkt i f).replies = s.replies := by simp only [State.onPkt]
@[simp] theorem State.onPkt_busy (s : State) (i : Nat) (f : Packet → Packet) : (s.onPkt i f).busy = s.busy := by simp only [State.onPkt]
@[simp] theorem State.onPkt_waiting (s : State) (i : Nat) (f : Packet → Packet) : (s.onPkt i f).waiting = s.waiting := by simp only [State.onPkt]
@[simp] theorem State.onPkt_bcasts (s : State) (i : Nat) (f : Packet → Packet) : (s.onPkt i f).bcasts = s.bcasts := by simp only [State.onPkt]
@[simp] theorem State.onPkt_boxes (s : State) (i : Nat) (f : Packet → Packet) : (s.onPkt i f).boxes = s.boxes := by simp only [State.onPkt]
@[simp] theorem State.onPkt_sessions (s : State) (i : Nat) (f : Packet → Packet) : (s.onPkt i f).sessions = s.sessions := by simp only [State.onPkt]
@[simp] theorem State.onPkt_relayed (s : State) (i : Nat) (f : Packet → Packet) : (s.onPkt i f).relayed = s.relayed := by simp only [State.onPkt]
@[simp] theorem State.onPkt_inbox (s : State) (i : Nat) (f : Packet → Packet) : (s.onPkt i f).inbox = s.inbox := by simp only [State.onPkt]
@[simp] theorem State.onPkt_jdpJobs (s : State) (i : Nat) (f : Packet → Packet) : (s.onPkt i f).jdpJobs = s.jdpJobs := by simp only [State.onPkt]
@[simp] theorem State.onPkt_sent (s : State) (i : Nat) (f : Packet → Packet) : (s.onPkt i f).sent = s.sent := by simp only [State.onPkt]
@[simp] theorem State.onPkt_relayRefFab (s : State) (i : Nat) (f : Packet → Packet) : (s.onPkt i f).relayRefFab = s.relayRefFab := by simp only [State.onPkt]
@[simp] theorem State.onPkt_keys (s : State) (i : Nat) (f : Packet → Packet) : (s.onPkt i f).keys = s.keys := by simp only [State.onPkt]
@[simp] theorem State.onPkt_flashKeys (s : State) (i : Nat) (f : Packet → Packet) : (s.onPkt i f).flashKeys = s.flashKeys := by simp only [State.onPkt]
@[simp] theorem State.onPkt_keysDirty (s : State) (i : Nat) (f : Packet → Packet) : (s.onPkt i f).keysDirty = s.keysDirty := by simp only [State.onPkt]
@[simp] theorem State.onPkt_flash (s : State) (i : Nat) (f : Packet → Packet) : (s.onPkt i f).flash = s.flash := by simp only [State.onPkt]
@[simp] theorem State.onPkt_fwSession (s : State) (i : Nat) (f : Packet → Packet) : (s.onPkt i f).fwSession = s.fwSession := by simp only [State.onPkt]
@[simp] theorem State.onPkt_fwChain (s : State) (i : Nat) (f : Packet → Packet) : (s.onPkt i f).fwChain = s.fwChain := by simp only [State.onPkt]
@[simp] theorem State.onPkt_fwRelay (s : State) (i : Nat) (f : Packet → Packet) : (s.onPkt i f).fwRelay = s.fwRelay := by simp only [State.onPkt]
@[simp] theorem State.onPkt_fwDone (s : State) (i : Nat) (f : Packet → Packet) : (s.onPkt i f).fwDone = s.fwDone := by simp only [State.onPkt]
@[simp] theorem State.onPkt_emptyDue (s : State) (i : Nat) (f : Packet → Packet) : (s.onPkt i f).emptyDue = s.emptyDue := by simp only [State.onPkt]
@[simp] theorem State.onPkt_lastChain (s : State) (i : Nat) (f : Packet → Packet) : (s.onPkt i f).lastChain = s.lastChain := by simp only [State.onPkt]
@[simp] theorem State.onPkt_switching (s : State) (i : Nat) (f : Packet → Packet) : (s.onPkt i f).switching = s.switching := by simp only [State.onPkt]
@[simp] theorem State.onPkt_switchBack (s : State) (i : Nat) (f : Packet → Packet) : (s.onPkt i f).switchBack = s.switchBack := by simp only [State.onPkt]
@[simp] theorem State.onPkt_resetLow (s : State) (i : Nat) (f : Packet → Packet) : (s.onPkt i f).resetLow = s.resetLow := by simp only [State.onPkt]
@[simp] theorem State.onPkt_pwrok (s : State) (i : Nat) (f : Packet → Packet) : (s.onPkt i f).pwrok = s.pwrok := by simp only [State.onPkt]
@[simp] theorem State.onPkt_strap (s : State) (i : Nat) (f : Packet → Packet) : (s.onPkt i f).strap = s.strap := by simp only [State.onPkt]
@[simp] theorem State.onPkt_bootStep (s : State) (i : Nat) (f : Packet → Packet) : (s.onPkt i f).bootStep = s.bootStep := by simp only [State.onPkt]
@[simp] theorem State.onPkt_therm (s : State) (i : Nat) (f : Packet → Packet) : (s.onPkt i f).therm = s.therm := by simp only [State.onPkt]
@[simp] theorem State.onPkt_vinHigh (s : State) (i : Nat) (f : Packet → Packet) : (s.onPkt i f).vinHigh = s.vinHigh := by simp only [State.onPkt]
@[simp] theorem State.onPkt_vinLow (s : State) (i : Nat) (f : Packet → Packet) : (s.onPkt i f).vinLow = s.vinLow := by simp only [State.onPkt]
@[simp] theorem State.onPkt_vinNotHi (s : State) (i : Nat) (f : Packet → Packet) : (s.onPkt i f).vinNotHi = s.vinNotHi := by simp only [State.onPkt]
@[simp] theorem State.onPkt_vinNotLo (s : State) (i : Nat) (f : Packet → Packet) : (s.onPkt i f).vinNotLo = s.vinNotLo := by simp only [State.onPkt]
@[simp] theorem State.onPkt_vinDown (s : State) (i : Nat) (f : Packet → Packet) : (s.onPkt i f).vinDown = s.vinDown := by simp only [State.onPkt]
@[simp] theorem State.onPkt_slots (s : State) (i : Nat) (f : Packet → Packet) : (s.onPkt i f).slots = s.slots := by simp only [State.onPkt]
@[simp] theorem State.onPkt_unsaved (s : State) (i : Nat) (f : Packet → Packet) : (s.onPkt i f).unsaved = s.unsaved := by simp only [State.onPkt]
@[simp] theorem State.onPkt_master (s : State) (i : Nat) (f : Packet → Packet) : (s.onPkt i f).master = s.master := by simp only [State.onPkt]
@[simp] theorem State.onPkt_stale (s : State) (i : Nat) (f : Packet → Packet) : (s.onPkt i f).stale = s.stale := by simp only [State.onPkt]
@[simp] theorem State.onPkt_quiesceAt (s : State) (i : Nat) (f : Packet → Packet) : (s.onPkt i f).quiesceAt = s.quiesceAt := by simp only [State.onPkt]
@[simp] theorem State.onPkt_bringupAt (s : State) (i : Nat) (f : Packet → Packet) : (s.onPkt i f).bringupAt = s.bringupAt := by simp only [State.onPkt]
@[simp] theorem State.onPkt_bringupRan (s : State) (i : Nat) (f : Packet → Packet) : (s.onPkt i f).bringupRan = s.bringupRan := by simp only [State.onPkt]
@[simp] theorem State.onPkt_leanMs (s : State) (i : Nat) (f : Packet → Packet) : (s.onPkt i f).leanMs = s.leanMs := by simp only [State.onPkt]
@[simp] theorem State.onPkt_transitFrom (s : State) (i : Nat) (f : Packet → Packet) : (s.onPkt i f).transitFrom = s.transitFrom := by simp only [State.onPkt]
@[simp] theorem State.onPkt_alertBringup (s : State) (i : Nat) (f : Packet → Packet) : (s.onPkt i f).alertBringup = s.alertBringup := by simp only [State.onPkt]
@[simp] theorem State.onPkt_alertR43 (s : State) (i : Nat) (f : Packet → Packet) : (s.onPkt i f).alertR43 = s.alertR43 := by simp only [State.onPkt]
@[simp] theorem State.onPkt_alertHi (s : State) (i : Nat) (f : Packet → Packet) : (s.onPkt i f).alertHi = s.alertHi := by simp only [State.onPkt]
@[simp] theorem State.onPkt_alertLo (s : State) (i : Nat) (f : Packet → Packet) : (s.onPkt i f).alertLo = s.alertLo := by simp only [State.onPkt]
@[simp] theorem State.onPkt_saidHi (s : State) (i : Nat) (f : Packet → Packet) : (s.onPkt i f).saidHi = s.saidHi := by simp only [State.onPkt]
@[simp] theorem State.onPkt_saidLo (s : State) (i : Nat) (f : Packet → Packet) : (s.onPkt i f).saidLo = s.saidLo := by simp only [State.onPkt]
@[simp] theorem State.onPkt_fatalPin (s : State) (i : Nat) (f : Packet → Packet) : (s.onPkt i f).fatalPin = s.fatalPin := by simp only [State.onPkt]
@[simp] theorem State.onPkt_staging (s : State) (i : Nat) (f : Packet → Packet) : (s.onPkt i f).staging = s.staging := by simp only [State.onPkt]
@[simp] theorem State.onPkt_pkgLog (s : State) (i : Nat) (f : Packet → Packet) : (s.onPkt i f).pkgLog = s.pkgLog := by simp only [State.onPkt]
@[simp] theorem State.onPkt_logSeq (s : State) (i : Nat) (f : Packet → Packet) : (s.onPkt i f).logSeq = s.logSeq := by simp only [State.onPkt]
@[simp] theorem State.onPkt_acked (s : State) (i : Nat) (f : Packet → Packet) : (s.onPkt i f).acked = s.acked := by simp only [State.onPkt]
@[simp] theorem State.onPkt_lastKey (s : State) (i : Nat) (f : Packet → Packet) : (s.onPkt i f).lastKey = s.lastKey := by simp only [State.onPkt]
@[simp] theorem State.onPkt_resetHold (s : State) (i : Nat) (f : Packet → Packet) : (s.onPkt i f).resetHold = s.resetHold := by simp only [State.onPkt]
@[simp] theorem State.onPkt_retireAt (s : State) (i : Nat) (f : Packet → Packet) : (s.onPkt i f).retireAt = s.retireAt := by simp only [State.onPkt]
@[simp] theorem State.onPkt_retireLimit (s : State) (i : Nat) (f : Packet → Packet) : (s.onPkt i f).retireLimit = s.retireLimit := by simp only [State.onPkt]
@[simp] theorem State.onPkt_unacked (s : State) (i : Nat) (f : Packet → Packet) : (s.onPkt i f).unacked = s.unacked := by simp only [State.onPkt]
@[simp] theorem State.onPkt_attCache (s : State) (i : Nat) (f : Packet → Packet) : (s.onPkt i f).attCache = s.attCache := by simp only [State.onPkt]
@[simp] theorem State.onPkt_dma (s : State) (i : Nat) (f : Packet → Packet) : (s.onPkt i f).dma = s.dma := by simp only [State.onPkt]
@[simp] theorem State.onPkt_msix (s : State) (i : Nat) (f : Packet → Packet) : (s.onPkt i f).msix = s.msix := by simp only [State.onPkt]
@[simp] theorem State.onPkt_msixTab (s : State) (i : Nat) (f : Packet → Packet) : (s.onPkt i f).msixTab = s.msixTab := by simp only [State.onPkt]
@[simp] theorem State.onPkt_msixPend (s : State) (i : Nat) (f : Packet → Packet) : (s.onPkt i f).msixPend = s.msixPend := by simp only [State.onPkt]

@[simp] theorem State.fresh_part (s : State) : s.fresh.2.part = s.part := by simp only [State.fresh]
@[simp] theorem State.fresh_pending (s : State) : s.fresh.2.pending = s.pending := by simp only [State.fresh]
@[simp] theorem State.fresh_now (s : State) : s.fresh.2.now = s.now := by simp only [State.fresh]
@[simp] theorem State.fresh_meridian (s : State) : s.fresh.2.meridian = s.meridian := by simp only [State.fresh]
@[simp] theorem State.fresh_adjust (s : State) : s.fresh.2.adjust = s.adjust := by simp only [State.fresh]
@[simp] theorem State.fresh_ppsOut (s : State) : s.fresh.2.ppsOut = s.ppsOut := by simp only [State.fresh]
@[simp] theorem State.fresh_regs (s : State) : s.fresh.2.regs = s.regs := by simp only [State.fresh]
@[simp] theorem State.fresh_mode (s : State) : s.fresh.2.mode = s.mode := by simp only [State.fresh]
@[simp] theorem State.fresh_summit (s : State) : s.fresh.2.summit = s.summit := by simp only [State.fresh]
@[simp] theorem State.fresh_dies (s : State) : s.fresh.2.dies = s.dies := by simp only [State.fresh]
@[simp] theorem State.fresh_msgs (s : State) : s.fresh.2.msgs = s.msgs := by simp only [State.fresh]
@[simp] theorem State.fresh_nextMsg (s : State) : s.fresh.2.nextMsg = s.nextMsg := by simp only [State.fresh]
@[simp] theorem State.fresh_saddleCredit (s : State) : s.fresh.2.saddleCredit = s.saddleCredit := by simp only [State.fresh]
@[simp] theorem State.fresh_pkts (s : State) : s.fresh.2.pkts = s.pkts := by simp only [State.fresh]
@[simp] theorem State.fresh_nextPkt (s : State) : s.fresh.2.nextPkt = s.nextPkt := by simp only [State.fresh]
@[simp] theorem State.fresh_nextRid (s : State) : s.fresh.2.nextRid = s.nextRid := by simp only [State.fresh]
@[simp] theorem State.fresh_commits (s : State) : s.fresh.2.commits = s.commits := by simp only [State.fresh]
@[simp] theorem State.fresh_tokenSeq (s : State) : s.fresh.2.tokenSeq = s.tokenSeq := by simp only [State.fresh]
@[simp] theorem State.fresh_replies (s : State) : s.fresh.2.replies = s.replies := by simp only [State.fresh]
@[simp] theorem State.fresh_busy (s : State) : s.fresh.2.busy = s.busy := by simp only [State.fresh]
@[simp] theorem State.fresh_waiting (s : State) : s.fresh.2.waiting = s.waiting := by simp only [State.fresh]
@[simp] theorem State.fresh_bcasts (s : State) : s.fresh.2.bcasts = s.bcasts := by simp only [State.fresh]
@[simp] theorem State.fresh_boxes (s : State) : s.fresh.2.boxes = s.boxes := by simp only [State.fresh]
@[simp] theorem State.fresh_sessions (s : State) : s.fresh.2.sessions = s.sessions := by simp only [State.fresh]
@[simp] theorem State.fresh_relayed (s : State) : s.fresh.2.relayed = s.relayed := by simp only [State.fresh]
@[simp] theorem State.fresh_inbox (s : State) : s.fresh.2.inbox = s.inbox := by simp only [State.fresh]
@[simp] theorem State.fresh_jdpJobs (s : State) : s.fresh.2.jdpJobs = s.jdpJobs := by simp only [State.fresh]
@[simp] theorem State.fresh_sent (s : State) : s.fresh.2.sent = s.sent := by simp only [State.fresh]
@[simp] theorem State.fresh_relayRefFab (s : State) : s.fresh.2.relayRefFab = s.relayRefFab := by simp only [State.fresh]
@[simp] theorem State.fresh_keys (s : State) : s.fresh.2.keys = s.keys := by simp only [State.fresh]
@[simp] theorem State.fresh_flashKeys (s : State) : s.fresh.2.flashKeys = s.flashKeys := by simp only [State.fresh]
@[simp] theorem State.fresh_keysDirty (s : State) : s.fresh.2.keysDirty = s.keysDirty := by simp only [State.fresh]
@[simp] theorem State.fresh_flash (s : State) : s.fresh.2.flash = s.flash := by simp only [State.fresh]
@[simp] theorem State.fresh_fwSession (s : State) : s.fresh.2.fwSession = s.fwSession := by simp only [State.fresh]
@[simp] theorem State.fresh_fwChain (s : State) : s.fresh.2.fwChain = s.fwChain := by simp only [State.fresh]
@[simp] theorem State.fresh_fwRelay (s : State) : s.fresh.2.fwRelay = s.fwRelay := by simp only [State.fresh]
@[simp] theorem State.fresh_fwDone (s : State) : s.fresh.2.fwDone = s.fwDone := by simp only [State.fresh]
@[simp] theorem State.fresh_emptyDue (s : State) : s.fresh.2.emptyDue = s.emptyDue := by simp only [State.fresh]
@[simp] theorem State.fresh_lastChain (s : State) : s.fresh.2.lastChain = s.lastChain := by simp only [State.fresh]
@[simp] theorem State.fresh_switching (s : State) : s.fresh.2.switching = s.switching := by simp only [State.fresh]
@[simp] theorem State.fresh_switchBack (s : State) : s.fresh.2.switchBack = s.switchBack := by simp only [State.fresh]
@[simp] theorem State.fresh_resetLow (s : State) : s.fresh.2.resetLow = s.resetLow := by simp only [State.fresh]
@[simp] theorem State.fresh_pwrok (s : State) : s.fresh.2.pwrok = s.pwrok := by simp only [State.fresh]
@[simp] theorem State.fresh_strap (s : State) : s.fresh.2.strap = s.strap := by simp only [State.fresh]
@[simp] theorem State.fresh_bootStep (s : State) : s.fresh.2.bootStep = s.bootStep := by simp only [State.fresh]
@[simp] theorem State.fresh_therm (s : State) : s.fresh.2.therm = s.therm := by simp only [State.fresh]
@[simp] theorem State.fresh_vinHigh (s : State) : s.fresh.2.vinHigh = s.vinHigh := by simp only [State.fresh]
@[simp] theorem State.fresh_vinLow (s : State) : s.fresh.2.vinLow = s.vinLow := by simp only [State.fresh]
@[simp] theorem State.fresh_vinNotHi (s : State) : s.fresh.2.vinNotHi = s.vinNotHi := by simp only [State.fresh]
@[simp] theorem State.fresh_vinNotLo (s : State) : s.fresh.2.vinNotLo = s.vinNotLo := by simp only [State.fresh]
@[simp] theorem State.fresh_vinDown (s : State) : s.fresh.2.vinDown = s.vinDown := by simp only [State.fresh]
@[simp] theorem State.fresh_slots (s : State) : s.fresh.2.slots = s.slots := by simp only [State.fresh]
@[simp] theorem State.fresh_unsaved (s : State) : s.fresh.2.unsaved = s.unsaved := by simp only [State.fresh]
@[simp] theorem State.fresh_master (s : State) : s.fresh.2.master = s.master := by simp only [State.fresh]
@[simp] theorem State.fresh_stale (s : State) : s.fresh.2.stale = s.stale := by simp only [State.fresh]
@[simp] theorem State.fresh_quiesceAt (s : State) : s.fresh.2.quiesceAt = s.quiesceAt := by simp only [State.fresh]
@[simp] theorem State.fresh_bringupAt (s : State) : s.fresh.2.bringupAt = s.bringupAt := by simp only [State.fresh]
@[simp] theorem State.fresh_bringupRan (s : State) : s.fresh.2.bringupRan = s.bringupRan := by simp only [State.fresh]
@[simp] theorem State.fresh_leanMs (s : State) : s.fresh.2.leanMs = s.leanMs := by simp only [State.fresh]
@[simp] theorem State.fresh_transitFrom (s : State) : s.fresh.2.transitFrom = s.transitFrom := by simp only [State.fresh]
@[simp] theorem State.fresh_alertBringup (s : State) : s.fresh.2.alertBringup = s.alertBringup := by simp only [State.fresh]
@[simp] theorem State.fresh_alertR43 (s : State) : s.fresh.2.alertR43 = s.alertR43 := by simp only [State.fresh]
@[simp] theorem State.fresh_alertHi (s : State) : s.fresh.2.alertHi = s.alertHi := by simp only [State.fresh]
@[simp] theorem State.fresh_alertLo (s : State) : s.fresh.2.alertLo = s.alertLo := by simp only [State.fresh]
@[simp] theorem State.fresh_saidHi (s : State) : s.fresh.2.saidHi = s.saidHi := by simp only [State.fresh]
@[simp] theorem State.fresh_saidLo (s : State) : s.fresh.2.saidLo = s.saidLo := by simp only [State.fresh]
@[simp] theorem State.fresh_fatalPin (s : State) : s.fresh.2.fatalPin = s.fatalPin := by simp only [State.fresh]
@[simp] theorem State.fresh_staging (s : State) : s.fresh.2.staging = s.staging := by simp only [State.fresh]
@[simp] theorem State.fresh_pkgLog (s : State) : s.fresh.2.pkgLog = s.pkgLog := by simp only [State.fresh]
@[simp] theorem State.fresh_logSeq (s : State) : s.fresh.2.logSeq = s.logSeq := by simp only [State.fresh]
@[simp] theorem State.fresh_acked (s : State) : s.fresh.2.acked = s.acked := by simp only [State.fresh]
@[simp] theorem State.fresh_lastKey (s : State) : s.fresh.2.lastKey = s.lastKey := by simp only [State.fresh]
@[simp] theorem State.fresh_resetHold (s : State) : s.fresh.2.resetHold = s.resetHold := by simp only [State.fresh]
@[simp] theorem State.fresh_retireAt (s : State) : s.fresh.2.retireAt = s.retireAt := by simp only [State.fresh]
@[simp] theorem State.fresh_retireLimit (s : State) : s.fresh.2.retireLimit = s.retireLimit := by simp only [State.fresh]
@[simp] theorem State.fresh_unacked (s : State) : s.fresh.2.unacked = s.unacked := by simp only [State.fresh]
@[simp] theorem State.fresh_attCache (s : State) : s.fresh.2.attCache = s.attCache := by simp only [State.fresh]
@[simp] theorem State.fresh_dma (s : State) : s.fresh.2.dma = s.dma := by simp only [State.fresh]
@[simp] theorem State.fresh_msix (s : State) : s.fresh.2.msix = s.msix := by simp only [State.fresh]
@[simp] theorem State.fresh_msixTab (s : State) : s.fresh.2.msixTab = s.msixTab := by simp only [State.fresh]
@[simp] theorem State.fresh_msixPend (s : State) : s.fresh.2.msixPend = s.msixPend := by simp only [State.fresh]

/-- Counting on a register writes it, taking a free value only when the counter overflows. -/
theorem State.pinc_cases (s : State) (i j n : Nat) :
    (s.pg i j + n < 2 ^ entryBits i j ∧ s.pinc i j n = s.pset i j (s.pg i j + n)) ∨
    (¬ s.pg i j + n < 2 ^ entryBits i j ∧
      s.pinc i j n = s.fresh.2.pset i j (s.fresh.1 % 2 ^ entryBits i j)) := by
  unfold State.pinc
  by_cases h : s.pg i j + n < 2 ^ entryBits i j
  · exact Or.inl ⟨h, if_pos h⟩
  · exact Or.inr ⟨h, if_neg h⟩

theorem State.dinc_cases (s : State) (d i j n : Nat) :
    (s.dg d i j + n < 2 ^ entryBits i j ∧ s.dinc d i j n = s.dset d i j (s.dg d i j + n)) ∨
    (¬ s.dg d i j + n < 2 ^ entryBits i j ∧
      s.dinc d i j n = s.fresh.2.dset d i j (s.fresh.1 % 2 ^ entryBits i j)) := by
  unfold State.dinc
  by_cases h : s.dg d i j + n < 2 ^ entryBits i j
  · exact Or.inl ⟨h, if_pos h⟩
  · exact Or.inr ⟨h, if_neg h⟩

@[simp] theorem State.pinc_part (s : State) (i j n : Nat) : (s.pinc i j n).part = s.part := by
  rcases s.pinc_cases i j n with ⟨_, h⟩ | ⟨_, h⟩ <;> simp only [h, State.pset_part, State.fresh_part]
@[simp] theorem State.pinc_pending (s : State) (i j n : Nat) : (s.pinc i j n).pending = s.pending := by
  rcases s.pinc_cases i j n with ⟨_, h⟩ | ⟨_, h⟩ <;> simp only [h, State.pset_pending, State.fresh_pending]
@[simp] theorem State.pinc_now (s : State) (i j n : Nat) : (s.pinc i j n).now = s.now := by
  rcases s.pinc_cases i j n with ⟨_, h⟩ | ⟨_, h⟩ <;> simp only [h, State.pset_now, State.fresh_now]
@[simp] theorem State.pinc_meridian (s : State) (i j n : Nat) : (s.pinc i j n).meridian = s.meridian := by
  rcases s.pinc_cases i j n with ⟨_, h⟩ | ⟨_, h⟩ <;> simp only [h, State.pset_meridian, State.fresh_meridian]
@[simp] theorem State.pinc_adjust (s : State) (i j n : Nat) : (s.pinc i j n).adjust = s.adjust := by
  rcases s.pinc_cases i j n with ⟨_, h⟩ | ⟨_, h⟩ <;> simp only [h, State.pset_adjust, State.fresh_adjust]
@[simp] theorem State.pinc_ppsOut (s : State) (i j n : Nat) : (s.pinc i j n).ppsOut = s.ppsOut := by
  rcases s.pinc_cases i j n with ⟨_, h⟩ | ⟨_, h⟩ <;> simp only [h, State.pset_ppsOut, State.fresh_ppsOut]
@[simp] theorem State.pinc_mode (s : State) (i j n : Nat) : (s.pinc i j n).mode = s.mode := by
  rcases s.pinc_cases i j n with ⟨_, h⟩ | ⟨_, h⟩ <;> simp only [h, State.pset_mode, State.fresh_mode]
@[simp] theorem State.pinc_summit (s : State) (i j n : Nat) : (s.pinc i j n).summit = s.summit := by
  rcases s.pinc_cases i j n with ⟨_, h⟩ | ⟨_, h⟩ <;> simp only [h, State.pset_summit, State.fresh_summit]
@[simp] theorem State.pinc_dies (s : State) (i j n : Nat) : (s.pinc i j n).dies = s.dies := by
  rcases s.pinc_cases i j n with ⟨_, h⟩ | ⟨_, h⟩ <;> simp only [h, State.pset_dies, State.fresh_dies]
@[simp] theorem State.pinc_msgs (s : State) (i j n : Nat) : (s.pinc i j n).msgs = s.msgs := by
  rcases s.pinc_cases i j n with ⟨_, h⟩ | ⟨_, h⟩ <;> simp only [h, State.pset_msgs, State.fresh_msgs]
@[simp] theorem State.pinc_nextMsg (s : State) (i j n : Nat) : (s.pinc i j n).nextMsg = s.nextMsg := by
  rcases s.pinc_cases i j n with ⟨_, h⟩ | ⟨_, h⟩ <;> simp only [h, State.pset_nextMsg, State.fresh_nextMsg]
@[simp] theorem State.pinc_saddleCredit (s : State) (i j n : Nat) : (s.pinc i j n).saddleCredit = s.saddleCredit := by
  rcases s.pinc_cases i j n with ⟨_, h⟩ | ⟨_, h⟩ <;> simp only [h, State.pset_saddleCredit, State.fresh_saddleCredit]
@[simp] theorem State.pinc_pkts (s : State) (i j n : Nat) : (s.pinc i j n).pkts = s.pkts := by
  rcases s.pinc_cases i j n with ⟨_, h⟩ | ⟨_, h⟩ <;> simp only [h, State.pset_pkts, State.fresh_pkts]
@[simp] theorem State.pinc_nextPkt (s : State) (i j n : Nat) : (s.pinc i j n).nextPkt = s.nextPkt := by
  rcases s.pinc_cases i j n with ⟨_, h⟩ | ⟨_, h⟩ <;> simp only [h, State.pset_nextPkt, State.fresh_nextPkt]
@[simp] theorem State.pinc_nextRid (s : State) (i j n : Nat) : (s.pinc i j n).nextRid = s.nextRid := by
  rcases s.pinc_cases i j n with ⟨_, h⟩ | ⟨_, h⟩ <;> simp only [h, State.pset_nextRid, State.fresh_nextRid]
@[simp] theorem State.pinc_commits (s : State) (i j n : Nat) : (s.pinc i j n).commits = s.commits := by
  rcases s.pinc_cases i j n with ⟨_, h⟩ | ⟨_, h⟩ <;> simp only [h, State.pset_commits, State.fresh_commits]
@[simp] theorem State.pinc_tokenSeq (s : State) (i j n : Nat) : (s.pinc i j n).tokenSeq = s.tokenSeq := by
  rcases s.pinc_cases i j n with ⟨_, h⟩ | ⟨_, h⟩ <;> simp only [h, State.pset_tokenSeq, State.fresh_tokenSeq]
@[simp] theorem State.pinc_replies (s : State) (i j n : Nat) : (s.pinc i j n).replies = s.replies := by
  rcases s.pinc_cases i j n with ⟨_, h⟩ | ⟨_, h⟩ <;> simp only [h, State.pset_replies, State.fresh_replies]
@[simp] theorem State.pinc_busy (s : State) (i j n : Nat) : (s.pinc i j n).busy = s.busy := by
  rcases s.pinc_cases i j n with ⟨_, h⟩ | ⟨_, h⟩ <;> simp only [h, State.pset_busy, State.fresh_busy]
@[simp] theorem State.pinc_waiting (s : State) (i j n : Nat) : (s.pinc i j n).waiting = s.waiting := by
  rcases s.pinc_cases i j n with ⟨_, h⟩ | ⟨_, h⟩ <;> simp only [h, State.pset_waiting, State.fresh_waiting]
@[simp] theorem State.pinc_bcasts (s : State) (i j n : Nat) : (s.pinc i j n).bcasts = s.bcasts := by
  rcases s.pinc_cases i j n with ⟨_, h⟩ | ⟨_, h⟩ <;> simp only [h, State.pset_bcasts, State.fresh_bcasts]
@[simp] theorem State.pinc_boxes (s : State) (i j n : Nat) : (s.pinc i j n).boxes = s.boxes := by
  rcases s.pinc_cases i j n with ⟨_, h⟩ | ⟨_, h⟩ <;> simp only [h, State.pset_boxes, State.fresh_boxes]
@[simp] theorem State.pinc_sessions (s : State) (i j n : Nat) : (s.pinc i j n).sessions = s.sessions := by
  rcases s.pinc_cases i j n with ⟨_, h⟩ | ⟨_, h⟩ <;> simp only [h, State.pset_sessions, State.fresh_sessions]
@[simp] theorem State.pinc_relayed (s : State) (i j n : Nat) : (s.pinc i j n).relayed = s.relayed := by
  rcases s.pinc_cases i j n with ⟨_, h⟩ | ⟨_, h⟩ <;> simp only [h, State.pset_relayed, State.fresh_relayed]
@[simp] theorem State.pinc_inbox (s : State) (i j n : Nat) : (s.pinc i j n).inbox = s.inbox := by
  rcases s.pinc_cases i j n with ⟨_, h⟩ | ⟨_, h⟩ <;> simp only [h, State.pset_inbox, State.fresh_inbox]
@[simp] theorem State.pinc_jdpJobs (s : State) (i j n : Nat) : (s.pinc i j n).jdpJobs = s.jdpJobs := by
  rcases s.pinc_cases i j n with ⟨_, h⟩ | ⟨_, h⟩ <;> simp only [h, State.pset_jdpJobs, State.fresh_jdpJobs]
@[simp] theorem State.pinc_sent (s : State) (i j n : Nat) : (s.pinc i j n).sent = s.sent := by
  rcases s.pinc_cases i j n with ⟨_, h⟩ | ⟨_, h⟩ <;> simp only [h, State.pset_sent, State.fresh_sent]
@[simp] theorem State.pinc_relayRefFab (s : State) (i j n : Nat) : (s.pinc i j n).relayRefFab = s.relayRefFab := by
  rcases s.pinc_cases i j n with ⟨_, h⟩ | ⟨_, h⟩ <;> simp only [h, State.pset_relayRefFab, State.fresh_relayRefFab]
@[simp] theorem State.pinc_keys (s : State) (i j n : Nat) : (s.pinc i j n).keys = s.keys := by
  rcases s.pinc_cases i j n with ⟨_, h⟩ | ⟨_, h⟩ <;> simp only [h, State.pset_keys, State.fresh_keys]
@[simp] theorem State.pinc_flashKeys (s : State) (i j n : Nat) : (s.pinc i j n).flashKeys = s.flashKeys := by
  rcases s.pinc_cases i j n with ⟨_, h⟩ | ⟨_, h⟩ <;> simp only [h, State.pset_flashKeys, State.fresh_flashKeys]
@[simp] theorem State.pinc_keysDirty (s : State) (i j n : Nat) : (s.pinc i j n).keysDirty = s.keysDirty := by
  rcases s.pinc_cases i j n with ⟨_, h⟩ | ⟨_, h⟩ <;> simp only [h, State.pset_keysDirty, State.fresh_keysDirty]
@[simp] theorem State.pinc_flash (s : State) (i j n : Nat) : (s.pinc i j n).flash = s.flash := by
  rcases s.pinc_cases i j n with ⟨_, h⟩ | ⟨_, h⟩ <;> simp only [h, State.pset_flash, State.fresh_flash]
@[simp] theorem State.pinc_fwSession (s : State) (i j n : Nat) : (s.pinc i j n).fwSession = s.fwSession := by
  rcases s.pinc_cases i j n with ⟨_, h⟩ | ⟨_, h⟩ <;> simp only [h, State.pset_fwSession, State.fresh_fwSession]
@[simp] theorem State.pinc_fwChain (s : State) (i j n : Nat) : (s.pinc i j n).fwChain = s.fwChain := by
  rcases s.pinc_cases i j n with ⟨_, h⟩ | ⟨_, h⟩ <;> simp only [h, State.pset_fwChain, State.fresh_fwChain]
@[simp] theorem State.pinc_fwRelay (s : State) (i j n : Nat) : (s.pinc i j n).fwRelay = s.fwRelay := by
  rcases s.pinc_cases i j n with ⟨_, h⟩ | ⟨_, h⟩ <;> simp only [h, State.pset_fwRelay, State.fresh_fwRelay]
@[simp] theorem State.pinc_fwDone (s : State) (i j n : Nat) : (s.pinc i j n).fwDone = s.fwDone := by
  rcases s.pinc_cases i j n with ⟨_, h⟩ | ⟨_, h⟩ <;> simp only [h, State.pset_fwDone, State.fresh_fwDone]
@[simp] theorem State.pinc_emptyDue (s : State) (i j n : Nat) : (s.pinc i j n).emptyDue = s.emptyDue := by
  rcases s.pinc_cases i j n with ⟨_, h⟩ | ⟨_, h⟩ <;> simp only [h, State.pset_emptyDue, State.fresh_emptyDue]
@[simp] theorem State.pinc_lastChain (s : State) (i j n : Nat) : (s.pinc i j n).lastChain = s.lastChain := by
  rcases s.pinc_cases i j n with ⟨_, h⟩ | ⟨_, h⟩ <;> simp only [h, State.pset_lastChain, State.fresh_lastChain]
@[simp] theorem State.pinc_switching (s : State) (i j n : Nat) : (s.pinc i j n).switching = s.switching := by
  rcases s.pinc_cases i j n with ⟨_, h⟩ | ⟨_, h⟩ <;> simp only [h, State.pset_switching, State.fresh_switching]
@[simp] theorem State.pinc_switchBack (s : State) (i j n : Nat) : (s.pinc i j n).switchBack = s.switchBack := by
  rcases s.pinc_cases i j n with ⟨_, h⟩ | ⟨_, h⟩ <;> simp only [h, State.pset_switchBack, State.fresh_switchBack]
@[simp] theorem State.pinc_resetLow (s : State) (i j n : Nat) : (s.pinc i j n).resetLow = s.resetLow := by
  rcases s.pinc_cases i j n with ⟨_, h⟩ | ⟨_, h⟩ <;> simp only [h, State.pset_resetLow, State.fresh_resetLow]
@[simp] theorem State.pinc_pwrok (s : State) (i j n : Nat) : (s.pinc i j n).pwrok = s.pwrok := by
  rcases s.pinc_cases i j n with ⟨_, h⟩ | ⟨_, h⟩ <;> simp only [h, State.pset_pwrok, State.fresh_pwrok]
@[simp] theorem State.pinc_strap (s : State) (i j n : Nat) : (s.pinc i j n).strap = s.strap := by
  rcases s.pinc_cases i j n with ⟨_, h⟩ | ⟨_, h⟩ <;> simp only [h, State.pset_strap, State.fresh_strap]
@[simp] theorem State.pinc_bootStep (s : State) (i j n : Nat) : (s.pinc i j n).bootStep = s.bootStep := by
  rcases s.pinc_cases i j n with ⟨_, h⟩ | ⟨_, h⟩ <;> simp only [h, State.pset_bootStep, State.fresh_bootStep]
@[simp] theorem State.pinc_therm (s : State) (i j n : Nat) : (s.pinc i j n).therm = s.therm := by
  rcases s.pinc_cases i j n with ⟨_, h⟩ | ⟨_, h⟩ <;> simp only [h, State.pset_therm, State.fresh_therm]
@[simp] theorem State.pinc_vinHigh (s : State) (i j n : Nat) : (s.pinc i j n).vinHigh = s.vinHigh := by
  rcases s.pinc_cases i j n with ⟨_, h⟩ | ⟨_, h⟩ <;> simp only [h, State.pset_vinHigh, State.fresh_vinHigh]
@[simp] theorem State.pinc_vinLow (s : State) (i j n : Nat) : (s.pinc i j n).vinLow = s.vinLow := by
  rcases s.pinc_cases i j n with ⟨_, h⟩ | ⟨_, h⟩ <;> simp only [h, State.pset_vinLow, State.fresh_vinLow]
@[simp] theorem State.pinc_vinNotHi (s : State) (i j n : Nat) : (s.pinc i j n).vinNotHi = s.vinNotHi := by
  rcases s.pinc_cases i j n with ⟨_, h⟩ | ⟨_, h⟩ <;> simp only [h, State.pset_vinNotHi, State.fresh_vinNotHi]
@[simp] theorem State.pinc_vinNotLo (s : State) (i j n : Nat) : (s.pinc i j n).vinNotLo = s.vinNotLo := by
  rcases s.pinc_cases i j n with ⟨_, h⟩ | ⟨_, h⟩ <;> simp only [h, State.pset_vinNotLo, State.fresh_vinNotLo]
@[simp] theorem State.pinc_vinDown (s : State) (i j n : Nat) : (s.pinc i j n).vinDown = s.vinDown := by
  rcases s.pinc_cases i j n with ⟨_, h⟩ | ⟨_, h⟩ <;> simp only [h, State.pset_vinDown, State.fresh_vinDown]
@[simp] theorem State.pinc_slots (s : State) (i j n : Nat) : (s.pinc i j n).slots = s.slots := by
  rcases s.pinc_cases i j n with ⟨_, h⟩ | ⟨_, h⟩ <;> simp only [h, State.pset_slots, State.fresh_slots]
@[simp] theorem State.pinc_unsaved (s : State) (i j n : Nat) : (s.pinc i j n).unsaved = s.unsaved := by
  rcases s.pinc_cases i j n with ⟨_, h⟩ | ⟨_, h⟩ <;> simp only [h, State.pset_unsaved, State.fresh_unsaved]
@[simp] theorem State.pinc_master (s : State) (i j n : Nat) : (s.pinc i j n).master = s.master := by
  rcases s.pinc_cases i j n with ⟨_, h⟩ | ⟨_, h⟩ <;> simp only [h, State.pset_master, State.fresh_master]
@[simp] theorem State.pinc_stale (s : State) (i j n : Nat) : (s.pinc i j n).stale = s.stale := by
  rcases s.pinc_cases i j n with ⟨_, h⟩ | ⟨_, h⟩ <;> simp only [h, State.pset_stale, State.fresh_stale]
@[simp] theorem State.pinc_quiesceAt (s : State) (i j n : Nat) : (s.pinc i j n).quiesceAt = s.quiesceAt := by
  rcases s.pinc_cases i j n with ⟨_, h⟩ | ⟨_, h⟩ <;> simp only [h, State.pset_quiesceAt, State.fresh_quiesceAt]
@[simp] theorem State.pinc_bringupAt (s : State) (i j n : Nat) : (s.pinc i j n).bringupAt = s.bringupAt := by
  rcases s.pinc_cases i j n with ⟨_, h⟩ | ⟨_, h⟩ <;> simp only [h, State.pset_bringupAt, State.fresh_bringupAt]
@[simp] theorem State.pinc_bringupRan (s : State) (i j n : Nat) : (s.pinc i j n).bringupRan = s.bringupRan := by
  rcases s.pinc_cases i j n with ⟨_, h⟩ | ⟨_, h⟩ <;> simp only [h, State.pset_bringupRan, State.fresh_bringupRan]
@[simp] theorem State.pinc_leanMs (s : State) (i j n : Nat) : (s.pinc i j n).leanMs = s.leanMs := by
  rcases s.pinc_cases i j n with ⟨_, h⟩ | ⟨_, h⟩ <;> simp only [h, State.pset_leanMs, State.fresh_leanMs]
@[simp] theorem State.pinc_transitFrom (s : State) (i j n : Nat) : (s.pinc i j n).transitFrom = s.transitFrom := by
  rcases s.pinc_cases i j n with ⟨_, h⟩ | ⟨_, h⟩ <;> simp only [h, State.pset_transitFrom, State.fresh_transitFrom]
@[simp] theorem State.pinc_alertBringup (s : State) (i j n : Nat) : (s.pinc i j n).alertBringup = s.alertBringup := by
  rcases s.pinc_cases i j n with ⟨_, h⟩ | ⟨_, h⟩ <;> simp only [h, State.pset_alertBringup, State.fresh_alertBringup]
@[simp] theorem State.pinc_alertR43 (s : State) (i j n : Nat) : (s.pinc i j n).alertR43 = s.alertR43 := by
  rcases s.pinc_cases i j n with ⟨_, h⟩ | ⟨_, h⟩ <;> simp only [h, State.pset_alertR43, State.fresh_alertR43]
@[simp] theorem State.pinc_alertHi (s : State) (i j n : Nat) : (s.pinc i j n).alertHi = s.alertHi := by
  rcases s.pinc_cases i j n with ⟨_, h⟩ | ⟨_, h⟩ <;> simp only [h, State.pset_alertHi, State.fresh_alertHi]
@[simp] theorem State.pinc_alertLo (s : State) (i j n : Nat) : (s.pinc i j n).alertLo = s.alertLo := by
  rcases s.pinc_cases i j n with ⟨_, h⟩ | ⟨_, h⟩ <;> simp only [h, State.pset_alertLo, State.fresh_alertLo]
@[simp] theorem State.pinc_saidHi (s : State) (i j n : Nat) : (s.pinc i j n).saidHi = s.saidHi := by
  rcases s.pinc_cases i j n with ⟨_, h⟩ | ⟨_, h⟩ <;> simp only [h, State.pset_saidHi, State.fresh_saidHi]
@[simp] theorem State.pinc_saidLo (s : State) (i j n : Nat) : (s.pinc i j n).saidLo = s.saidLo := by
  rcases s.pinc_cases i j n with ⟨_, h⟩ | ⟨_, h⟩ <;> simp only [h, State.pset_saidLo, State.fresh_saidLo]
@[simp] theorem State.pinc_fatalPin (s : State) (i j n : Nat) : (s.pinc i j n).fatalPin = s.fatalPin := by
  rcases s.pinc_cases i j n with ⟨_, h⟩ | ⟨_, h⟩ <;> simp only [h, State.pset_fatalPin, State.fresh_fatalPin]
@[simp] theorem State.pinc_staging (s : State) (i j n : Nat) : (s.pinc i j n).staging = s.staging := by
  rcases s.pinc_cases i j n with ⟨_, h⟩ | ⟨_, h⟩ <;> simp only [h, State.pset_staging, State.fresh_staging]
@[simp] theorem State.pinc_pkgLog (s : State) (i j n : Nat) : (s.pinc i j n).pkgLog = s.pkgLog := by
  rcases s.pinc_cases i j n with ⟨_, h⟩ | ⟨_, h⟩ <;> simp only [h, State.pset_pkgLog, State.fresh_pkgLog]
@[simp] theorem State.pinc_logSeq (s : State) (i j n : Nat) : (s.pinc i j n).logSeq = s.logSeq := by
  rcases s.pinc_cases i j n with ⟨_, h⟩ | ⟨_, h⟩ <;> simp only [h, State.pset_logSeq, State.fresh_logSeq]
@[simp] theorem State.pinc_acked (s : State) (i j n : Nat) : (s.pinc i j n).acked = s.acked := by
  rcases s.pinc_cases i j n with ⟨_, h⟩ | ⟨_, h⟩ <;> simp only [h, State.pset_acked, State.fresh_acked]
@[simp] theorem State.pinc_lastKey (s : State) (i j n : Nat) : (s.pinc i j n).lastKey = s.lastKey := by
  rcases s.pinc_cases i j n with ⟨_, h⟩ | ⟨_, h⟩ <;> simp only [h, State.pset_lastKey, State.fresh_lastKey]
@[simp] theorem State.pinc_resetHold (s : State) (i j n : Nat) : (s.pinc i j n).resetHold = s.resetHold := by
  rcases s.pinc_cases i j n with ⟨_, h⟩ | ⟨_, h⟩ <;> simp only [h, State.pset_resetHold, State.fresh_resetHold]
@[simp] theorem State.pinc_retireAt (s : State) (i j n : Nat) : (s.pinc i j n).retireAt = s.retireAt := by
  rcases s.pinc_cases i j n with ⟨_, h⟩ | ⟨_, h⟩ <;> simp only [h, State.pset_retireAt, State.fresh_retireAt]
@[simp] theorem State.pinc_retireLimit (s : State) (i j n : Nat) : (s.pinc i j n).retireLimit = s.retireLimit := by
  rcases s.pinc_cases i j n with ⟨_, h⟩ | ⟨_, h⟩ <;> simp only [h, State.pset_retireLimit, State.fresh_retireLimit]
@[simp] theorem State.pinc_unacked (s : State) (i j n : Nat) : (s.pinc i j n).unacked = s.unacked := by
  rcases s.pinc_cases i j n with ⟨_, h⟩ | ⟨_, h⟩ <;> simp only [h, State.pset_unacked, State.fresh_unacked]
@[simp] theorem State.pinc_attCache (s : State) (i j n : Nat) : (s.pinc i j n).attCache = s.attCache := by
  rcases s.pinc_cases i j n with ⟨_, h⟩ | ⟨_, h⟩ <;> simp only [h, State.pset_attCache, State.fresh_attCache]
@[simp] theorem State.pinc_dma (s : State) (i j n : Nat) : (s.pinc i j n).dma = s.dma := by
  rcases s.pinc_cases i j n with ⟨_, h⟩ | ⟨_, h⟩ <;> simp only [h, State.pset_dma, State.fresh_dma]
@[simp] theorem State.pinc_msix (s : State) (i j n : Nat) : (s.pinc i j n).msix = s.msix := by
  rcases s.pinc_cases i j n with ⟨_, h⟩ | ⟨_, h⟩ <;> simp only [h, State.pset_msix, State.fresh_msix]
@[simp] theorem State.pinc_msixTab (s : State) (i j n : Nat) : (s.pinc i j n).msixTab = s.msixTab := by
  rcases s.pinc_cases i j n with ⟨_, h⟩ | ⟨_, h⟩ <;> simp only [h, State.pset_msixTab, State.fresh_msixTab]
@[simp] theorem State.pinc_msixPend (s : State) (i j n : Nat) : (s.pinc i j n).msixPend = s.msixPend := by
  rcases s.pinc_cases i j n with ⟨_, h⟩ | ⟨_, h⟩ <;> simp only [h, State.pset_msixPend, State.fresh_msixPend]

@[simp] theorem State.dinc_part (s : State) (d i j n : Nat) : (s.dinc d i j n).part = s.part := by
  rcases s.dinc_cases d i j n with ⟨_, h⟩ | ⟨_, h⟩ <;> simp only [h, State.dset_part, State.fresh_part]
@[simp] theorem State.dinc_pending (s : State) (d i j n : Nat) : (s.dinc d i j n).pending = s.pending := by
  rcases s.dinc_cases d i j n with ⟨_, h⟩ | ⟨_, h⟩ <;> simp only [h, State.dset_pending, State.fresh_pending]
@[simp] theorem State.dinc_now (s : State) (d i j n : Nat) : (s.dinc d i j n).now = s.now := by
  rcases s.dinc_cases d i j n with ⟨_, h⟩ | ⟨_, h⟩ <;> simp only [h, State.dset_now, State.fresh_now]
@[simp] theorem State.dinc_meridian (s : State) (d i j n : Nat) : (s.dinc d i j n).meridian = s.meridian := by
  rcases s.dinc_cases d i j n with ⟨_, h⟩ | ⟨_, h⟩ <;> simp only [h, State.dset_meridian, State.fresh_meridian]
@[simp] theorem State.dinc_adjust (s : State) (d i j n : Nat) : (s.dinc d i j n).adjust = s.adjust := by
  rcases s.dinc_cases d i j n with ⟨_, h⟩ | ⟨_, h⟩ <;> simp only [h, State.dset_adjust, State.fresh_adjust]
@[simp] theorem State.dinc_ppsOut (s : State) (d i j n : Nat) : (s.dinc d i j n).ppsOut = s.ppsOut := by
  rcases s.dinc_cases d i j n with ⟨_, h⟩ | ⟨_, h⟩ <;> simp only [h, State.dset_ppsOut, State.fresh_ppsOut]
@[simp] theorem State.dinc_regs (s : State) (d i j n : Nat) : (s.dinc d i j n).regs = s.regs := by
  rcases s.dinc_cases d i j n with ⟨_, h⟩ | ⟨_, h⟩ <;> simp only [h, State.dset_regs, State.fresh_regs]
@[simp] theorem State.dinc_mode (s : State) (d i j n : Nat) : (s.dinc d i j n).mode = s.mode := by
  rcases s.dinc_cases d i j n with ⟨_, h⟩ | ⟨_, h⟩ <;> simp only [h, State.dset_mode, State.fresh_mode]
@[simp] theorem State.dinc_summit (s : State) (d i j n : Nat) : (s.dinc d i j n).summit = s.summit := by
  rcases s.dinc_cases d i j n with ⟨_, h⟩ | ⟨_, h⟩ <;> simp only [h, State.dset_summit, State.fresh_summit]
@[simp] theorem State.dinc_msgs (s : State) (d i j n : Nat) : (s.dinc d i j n).msgs = s.msgs := by
  rcases s.dinc_cases d i j n with ⟨_, h⟩ | ⟨_, h⟩ <;> simp only [h, State.dset_msgs, State.fresh_msgs]
@[simp] theorem State.dinc_nextMsg (s : State) (d i j n : Nat) : (s.dinc d i j n).nextMsg = s.nextMsg := by
  rcases s.dinc_cases d i j n with ⟨_, h⟩ | ⟨_, h⟩ <;> simp only [h, State.dset_nextMsg, State.fresh_nextMsg]
@[simp] theorem State.dinc_saddleCredit (s : State) (d i j n : Nat) : (s.dinc d i j n).saddleCredit = s.saddleCredit := by
  rcases s.dinc_cases d i j n with ⟨_, h⟩ | ⟨_, h⟩ <;> simp only [h, State.dset_saddleCredit, State.fresh_saddleCredit]
@[simp] theorem State.dinc_pkts (s : State) (d i j n : Nat) : (s.dinc d i j n).pkts = s.pkts := by
  rcases s.dinc_cases d i j n with ⟨_, h⟩ | ⟨_, h⟩ <;> simp only [h, State.dset_pkts, State.fresh_pkts]
@[simp] theorem State.dinc_nextPkt (s : State) (d i j n : Nat) : (s.dinc d i j n).nextPkt = s.nextPkt := by
  rcases s.dinc_cases d i j n with ⟨_, h⟩ | ⟨_, h⟩ <;> simp only [h, State.dset_nextPkt, State.fresh_nextPkt]
@[simp] theorem State.dinc_nextRid (s : State) (d i j n : Nat) : (s.dinc d i j n).nextRid = s.nextRid := by
  rcases s.dinc_cases d i j n with ⟨_, h⟩ | ⟨_, h⟩ <;> simp only [h, State.dset_nextRid, State.fresh_nextRid]
@[simp] theorem State.dinc_commits (s : State) (d i j n : Nat) : (s.dinc d i j n).commits = s.commits := by
  rcases s.dinc_cases d i j n with ⟨_, h⟩ | ⟨_, h⟩ <;> simp only [h, State.dset_commits, State.fresh_commits]
@[simp] theorem State.dinc_tokenSeq (s : State) (d i j n : Nat) : (s.dinc d i j n).tokenSeq = s.tokenSeq := by
  rcases s.dinc_cases d i j n with ⟨_, h⟩ | ⟨_, h⟩ <;> simp only [h, State.dset_tokenSeq, State.fresh_tokenSeq]
@[simp] theorem State.dinc_replies (s : State) (d i j n : Nat) : (s.dinc d i j n).replies = s.replies := by
  rcases s.dinc_cases d i j n with ⟨_, h⟩ | ⟨_, h⟩ <;> simp only [h, State.dset_replies, State.fresh_replies]
@[simp] theorem State.dinc_busy (s : State) (d i j n : Nat) : (s.dinc d i j n).busy = s.busy := by
  rcases s.dinc_cases d i j n with ⟨_, h⟩ | ⟨_, h⟩ <;> simp only [h, State.dset_busy, State.fresh_busy]
@[simp] theorem State.dinc_waiting (s : State) (d i j n : Nat) : (s.dinc d i j n).waiting = s.waiting := by
  rcases s.dinc_cases d i j n with ⟨_, h⟩ | ⟨_, h⟩ <;> simp only [h, State.dset_waiting, State.fresh_waiting]
@[simp] theorem State.dinc_bcasts (s : State) (d i j n : Nat) : (s.dinc d i j n).bcasts = s.bcasts := by
  rcases s.dinc_cases d i j n with ⟨_, h⟩ | ⟨_, h⟩ <;> simp only [h, State.dset_bcasts, State.fresh_bcasts]
@[simp] theorem State.dinc_boxes (s : State) (d i j n : Nat) : (s.dinc d i j n).boxes = s.boxes := by
  rcases s.dinc_cases d i j n with ⟨_, h⟩ | ⟨_, h⟩ <;> simp only [h, State.dset_boxes, State.fresh_boxes]
@[simp] theorem State.dinc_sessions (s : State) (d i j n : Nat) : (s.dinc d i j n).sessions = s.sessions := by
  rcases s.dinc_cases d i j n with ⟨_, h⟩ | ⟨_, h⟩ <;> simp only [h, State.dset_sessions, State.fresh_sessions]
@[simp] theorem State.dinc_relayed (s : State) (d i j n : Nat) : (s.dinc d i j n).relayed = s.relayed := by
  rcases s.dinc_cases d i j n with ⟨_, h⟩ | ⟨_, h⟩ <;> simp only [h, State.dset_relayed, State.fresh_relayed]
@[simp] theorem State.dinc_inbox (s : State) (d i j n : Nat) : (s.dinc d i j n).inbox = s.inbox := by
  rcases s.dinc_cases d i j n with ⟨_, h⟩ | ⟨_, h⟩ <;> simp only [h, State.dset_inbox, State.fresh_inbox]
@[simp] theorem State.dinc_jdpJobs (s : State) (d i j n : Nat) : (s.dinc d i j n).jdpJobs = s.jdpJobs := by
  rcases s.dinc_cases d i j n with ⟨_, h⟩ | ⟨_, h⟩ <;> simp only [h, State.dset_jdpJobs, State.fresh_jdpJobs]
@[simp] theorem State.dinc_sent (s : State) (d i j n : Nat) : (s.dinc d i j n).sent = s.sent := by
  rcases s.dinc_cases d i j n with ⟨_, h⟩ | ⟨_, h⟩ <;> simp only [h, State.dset_sent, State.fresh_sent]
@[simp] theorem State.dinc_relayRefFab (s : State) (d i j n : Nat) : (s.dinc d i j n).relayRefFab = s.relayRefFab := by
  rcases s.dinc_cases d i j n with ⟨_, h⟩ | ⟨_, h⟩ <;> simp only [h, State.dset_relayRefFab, State.fresh_relayRefFab]
@[simp] theorem State.dinc_keys (s : State) (d i j n : Nat) : (s.dinc d i j n).keys = s.keys := by
  rcases s.dinc_cases d i j n with ⟨_, h⟩ | ⟨_, h⟩ <;> simp only [h, State.dset_keys, State.fresh_keys]
@[simp] theorem State.dinc_flashKeys (s : State) (d i j n : Nat) : (s.dinc d i j n).flashKeys = s.flashKeys := by
  rcases s.dinc_cases d i j n with ⟨_, h⟩ | ⟨_, h⟩ <;> simp only [h, State.dset_flashKeys, State.fresh_flashKeys]
@[simp] theorem State.dinc_keysDirty (s : State) (d i j n : Nat) : (s.dinc d i j n).keysDirty = s.keysDirty := by
  rcases s.dinc_cases d i j n with ⟨_, h⟩ | ⟨_, h⟩ <;> simp only [h, State.dset_keysDirty, State.fresh_keysDirty]
@[simp] theorem State.dinc_flash (s : State) (d i j n : Nat) : (s.dinc d i j n).flash = s.flash := by
  rcases s.dinc_cases d i j n with ⟨_, h⟩ | ⟨_, h⟩ <;> simp only [h, State.dset_flash, State.fresh_flash]
@[simp] theorem State.dinc_fwSession (s : State) (d i j n : Nat) : (s.dinc d i j n).fwSession = s.fwSession := by
  rcases s.dinc_cases d i j n with ⟨_, h⟩ | ⟨_, h⟩ <;> simp only [h, State.dset_fwSession, State.fresh_fwSession]
@[simp] theorem State.dinc_fwChain (s : State) (d i j n : Nat) : (s.dinc d i j n).fwChain = s.fwChain := by
  rcases s.dinc_cases d i j n with ⟨_, h⟩ | ⟨_, h⟩ <;> simp only [h, State.dset_fwChain, State.fresh_fwChain]
@[simp] theorem State.dinc_fwRelay (s : State) (d i j n : Nat) : (s.dinc d i j n).fwRelay = s.fwRelay := by
  rcases s.dinc_cases d i j n with ⟨_, h⟩ | ⟨_, h⟩ <;> simp only [h, State.dset_fwRelay, State.fresh_fwRelay]
@[simp] theorem State.dinc_fwDone (s : State) (d i j n : Nat) : (s.dinc d i j n).fwDone = s.fwDone := by
  rcases s.dinc_cases d i j n with ⟨_, h⟩ | ⟨_, h⟩ <;> simp only [h, State.dset_fwDone, State.fresh_fwDone]
@[simp] theorem State.dinc_emptyDue (s : State) (d i j n : Nat) : (s.dinc d i j n).emptyDue = s.emptyDue := by
  rcases s.dinc_cases d i j n with ⟨_, h⟩ | ⟨_, h⟩ <;> simp only [h, State.dset_emptyDue, State.fresh_emptyDue]
@[simp] theorem State.dinc_lastChain (s : State) (d i j n : Nat) : (s.dinc d i j n).lastChain = s.lastChain := by
  rcases s.dinc_cases d i j n with ⟨_, h⟩ | ⟨_, h⟩ <;> simp only [h, State.dset_lastChain, State.fresh_lastChain]
@[simp] theorem State.dinc_switching (s : State) (d i j n : Nat) : (s.dinc d i j n).switching = s.switching := by
  rcases s.dinc_cases d i j n with ⟨_, h⟩ | ⟨_, h⟩ <;> simp only [h, State.dset_switching, State.fresh_switching]
@[simp] theorem State.dinc_switchBack (s : State) (d i j n : Nat) : (s.dinc d i j n).switchBack = s.switchBack := by
  rcases s.dinc_cases d i j n with ⟨_, h⟩ | ⟨_, h⟩ <;> simp only [h, State.dset_switchBack, State.fresh_switchBack]
@[simp] theorem State.dinc_resetLow (s : State) (d i j n : Nat) : (s.dinc d i j n).resetLow = s.resetLow := by
  rcases s.dinc_cases d i j n with ⟨_, h⟩ | ⟨_, h⟩ <;> simp only [h, State.dset_resetLow, State.fresh_resetLow]
@[simp] theorem State.dinc_pwrok (s : State) (d i j n : Nat) : (s.dinc d i j n).pwrok = s.pwrok := by
  rcases s.dinc_cases d i j n with ⟨_, h⟩ | ⟨_, h⟩ <;> simp only [h, State.dset_pwrok, State.fresh_pwrok]
@[simp] theorem State.dinc_strap (s : State) (d i j n : Nat) : (s.dinc d i j n).strap = s.strap := by
  rcases s.dinc_cases d i j n with ⟨_, h⟩ | ⟨_, h⟩ <;> simp only [h, State.dset_strap, State.fresh_strap]
@[simp] theorem State.dinc_bootStep (s : State) (d i j n : Nat) : (s.dinc d i j n).bootStep = s.bootStep := by
  rcases s.dinc_cases d i j n with ⟨_, h⟩ | ⟨_, h⟩ <;> simp only [h, State.dset_bootStep, State.fresh_bootStep]
@[simp] theorem State.dinc_therm (s : State) (d i j n : Nat) : (s.dinc d i j n).therm = s.therm := by
  rcases s.dinc_cases d i j n with ⟨_, h⟩ | ⟨_, h⟩ <;> simp only [h, State.dset_therm, State.fresh_therm]
@[simp] theorem State.dinc_vinHigh (s : State) (d i j n : Nat) : (s.dinc d i j n).vinHigh = s.vinHigh := by
  rcases s.dinc_cases d i j n with ⟨_, h⟩ | ⟨_, h⟩ <;> simp only [h, State.dset_vinHigh, State.fresh_vinHigh]
@[simp] theorem State.dinc_vinLow (s : State) (d i j n : Nat) : (s.dinc d i j n).vinLow = s.vinLow := by
  rcases s.dinc_cases d i j n with ⟨_, h⟩ | ⟨_, h⟩ <;> simp only [h, State.dset_vinLow, State.fresh_vinLow]
@[simp] theorem State.dinc_vinNotHi (s : State) (d i j n : Nat) : (s.dinc d i j n).vinNotHi = s.vinNotHi := by
  rcases s.dinc_cases d i j n with ⟨_, h⟩ | ⟨_, h⟩ <;> simp only [h, State.dset_vinNotHi, State.fresh_vinNotHi]
@[simp] theorem State.dinc_vinNotLo (s : State) (d i j n : Nat) : (s.dinc d i j n).vinNotLo = s.vinNotLo := by
  rcases s.dinc_cases d i j n with ⟨_, h⟩ | ⟨_, h⟩ <;> simp only [h, State.dset_vinNotLo, State.fresh_vinNotLo]
@[simp] theorem State.dinc_vinDown (s : State) (d i j n : Nat) : (s.dinc d i j n).vinDown = s.vinDown := by
  rcases s.dinc_cases d i j n with ⟨_, h⟩ | ⟨_, h⟩ <;> simp only [h, State.dset_vinDown, State.fresh_vinDown]
@[simp] theorem State.dinc_slots (s : State) (d i j n : Nat) : (s.dinc d i j n).slots = s.slots := by
  rcases s.dinc_cases d i j n with ⟨_, h⟩ | ⟨_, h⟩ <;> simp only [h, State.dset_slots, State.fresh_slots]
@[simp] theorem State.dinc_unsaved (s : State) (d i j n : Nat) : (s.dinc d i j n).unsaved = s.unsaved := by
  rcases s.dinc_cases d i j n with ⟨_, h⟩ | ⟨_, h⟩ <;> simp only [h, State.dset_unsaved, State.fresh_unsaved]
@[simp] theorem State.dinc_master (s : State) (d i j n : Nat) : (s.dinc d i j n).master = s.master := by
  rcases s.dinc_cases d i j n with ⟨_, h⟩ | ⟨_, h⟩ <;> simp only [h, State.dset_master, State.fresh_master]
@[simp] theorem State.dinc_stale (s : State) (d i j n : Nat) : (s.dinc d i j n).stale = s.stale := by
  rcases s.dinc_cases d i j n with ⟨_, h⟩ | ⟨_, h⟩ <;> simp only [h, State.dset_stale, State.fresh_stale]
@[simp] theorem State.dinc_quiesceAt (s : State) (d i j n : Nat) : (s.dinc d i j n).quiesceAt = s.quiesceAt := by
  rcases s.dinc_cases d i j n with ⟨_, h⟩ | ⟨_, h⟩ <;> simp only [h, State.dset_quiesceAt, State.fresh_quiesceAt]
@[simp] theorem State.dinc_bringupAt (s : State) (d i j n : Nat) : (s.dinc d i j n).bringupAt = s.bringupAt := by
  rcases s.dinc_cases d i j n with ⟨_, h⟩ | ⟨_, h⟩ <;> simp only [h, State.dset_bringupAt, State.fresh_bringupAt]
@[simp] theorem State.dinc_bringupRan (s : State) (d i j n : Nat) : (s.dinc d i j n).bringupRan = s.bringupRan := by
  rcases s.dinc_cases d i j n with ⟨_, h⟩ | ⟨_, h⟩ <;> simp only [h, State.dset_bringupRan, State.fresh_bringupRan]
@[simp] theorem State.dinc_leanMs (s : State) (d i j n : Nat) : (s.dinc d i j n).leanMs = s.leanMs := by
  rcases s.dinc_cases d i j n with ⟨_, h⟩ | ⟨_, h⟩ <;> simp only [h, State.dset_leanMs, State.fresh_leanMs]
@[simp] theorem State.dinc_transitFrom (s : State) (d i j n : Nat) : (s.dinc d i j n).transitFrom = s.transitFrom := by
  rcases s.dinc_cases d i j n with ⟨_, h⟩ | ⟨_, h⟩ <;> simp only [h, State.dset_transitFrom, State.fresh_transitFrom]
@[simp] theorem State.dinc_alertBringup (s : State) (d i j n : Nat) : (s.dinc d i j n).alertBringup = s.alertBringup := by
  rcases s.dinc_cases d i j n with ⟨_, h⟩ | ⟨_, h⟩ <;> simp only [h, State.dset_alertBringup, State.fresh_alertBringup]
@[simp] theorem State.dinc_alertR43 (s : State) (d i j n : Nat) : (s.dinc d i j n).alertR43 = s.alertR43 := by
  rcases s.dinc_cases d i j n with ⟨_, h⟩ | ⟨_, h⟩ <;> simp only [h, State.dset_alertR43, State.fresh_alertR43]
@[simp] theorem State.dinc_alertHi (s : State) (d i j n : Nat) : (s.dinc d i j n).alertHi = s.alertHi := by
  rcases s.dinc_cases d i j n with ⟨_, h⟩ | ⟨_, h⟩ <;> simp only [h, State.dset_alertHi, State.fresh_alertHi]
@[simp] theorem State.dinc_alertLo (s : State) (d i j n : Nat) : (s.dinc d i j n).alertLo = s.alertLo := by
  rcases s.dinc_cases d i j n with ⟨_, h⟩ | ⟨_, h⟩ <;> simp only [h, State.dset_alertLo, State.fresh_alertLo]
@[simp] theorem State.dinc_saidHi (s : State) (d i j n : Nat) : (s.dinc d i j n).saidHi = s.saidHi := by
  rcases s.dinc_cases d i j n with ⟨_, h⟩ | ⟨_, h⟩ <;> simp only [h, State.dset_saidHi, State.fresh_saidHi]
@[simp] theorem State.dinc_saidLo (s : State) (d i j n : Nat) : (s.dinc d i j n).saidLo = s.saidLo := by
  rcases s.dinc_cases d i j n with ⟨_, h⟩ | ⟨_, h⟩ <;> simp only [h, State.dset_saidLo, State.fresh_saidLo]
@[simp] theorem State.dinc_fatalPin (s : State) (d i j n : Nat) : (s.dinc d i j n).fatalPin = s.fatalPin := by
  rcases s.dinc_cases d i j n with ⟨_, h⟩ | ⟨_, h⟩ <;> simp only [h, State.dset_fatalPin, State.fresh_fatalPin]
@[simp] theorem State.dinc_staging (s : State) (d i j n : Nat) : (s.dinc d i j n).staging = s.staging := by
  rcases s.dinc_cases d i j n with ⟨_, h⟩ | ⟨_, h⟩ <;> simp only [h, State.dset_staging, State.fresh_staging]
@[simp] theorem State.dinc_pkgLog (s : State) (d i j n : Nat) : (s.dinc d i j n).pkgLog = s.pkgLog := by
  rcases s.dinc_cases d i j n with ⟨_, h⟩ | ⟨_, h⟩ <;> simp only [h, State.dset_pkgLog, State.fresh_pkgLog]
@[simp] theorem State.dinc_logSeq (s : State) (d i j n : Nat) : (s.dinc d i j n).logSeq = s.logSeq := by
  rcases s.dinc_cases d i j n with ⟨_, h⟩ | ⟨_, h⟩ <;> simp only [h, State.dset_logSeq, State.fresh_logSeq]
@[simp] theorem State.dinc_acked (s : State) (d i j n : Nat) : (s.dinc d i j n).acked = s.acked := by
  rcases s.dinc_cases d i j n with ⟨_, h⟩ | ⟨_, h⟩ <;> simp only [h, State.dset_acked, State.fresh_acked]
@[simp] theorem State.dinc_lastKey (s : State) (d i j n : Nat) : (s.dinc d i j n).lastKey = s.lastKey := by
  rcases s.dinc_cases d i j n with ⟨_, h⟩ | ⟨_, h⟩ <;> simp only [h, State.dset_lastKey, State.fresh_lastKey]
@[simp] theorem State.dinc_resetHold (s : State) (d i j n : Nat) : (s.dinc d i j n).resetHold = s.resetHold := by
  rcases s.dinc_cases d i j n with ⟨_, h⟩ | ⟨_, h⟩ <;> simp only [h, State.dset_resetHold, State.fresh_resetHold]
@[simp] theorem State.dinc_retireAt (s : State) (d i j n : Nat) : (s.dinc d i j n).retireAt = s.retireAt := by
  rcases s.dinc_cases d i j n with ⟨_, h⟩ | ⟨_, h⟩ <;> simp only [h, State.dset_retireAt, State.fresh_retireAt]
@[simp] theorem State.dinc_retireLimit (s : State) (d i j n : Nat) : (s.dinc d i j n).retireLimit = s.retireLimit := by
  rcases s.dinc_cases d i j n with ⟨_, h⟩ | ⟨_, h⟩ <;> simp only [h, State.dset_retireLimit, State.fresh_retireLimit]
@[simp] theorem State.dinc_unacked (s : State) (d i j n : Nat) : (s.dinc d i j n).unacked = s.unacked := by
  rcases s.dinc_cases d i j n with ⟨_, h⟩ | ⟨_, h⟩ <;> simp only [h, State.dset_unacked, State.fresh_unacked]
@[simp] theorem State.dinc_attCache (s : State) (d i j n : Nat) : (s.dinc d i j n).attCache = s.attCache := by
  rcases s.dinc_cases d i j n with ⟨_, h⟩ | ⟨_, h⟩ <;> simp only [h, State.dset_attCache, State.fresh_attCache]
@[simp] theorem State.dinc_dma (s : State) (d i j n : Nat) : (s.dinc d i j n).dma = s.dma := by
  rcases s.dinc_cases d i j n with ⟨_, h⟩ | ⟨_, h⟩ <;> simp only [h, State.dset_dma, State.fresh_dma]
@[simp] theorem State.dinc_msix (s : State) (d i j n : Nat) : (s.dinc d i j n).msix = s.msix := by
  rcases s.dinc_cases d i j n with ⟨_, h⟩ | ⟨_, h⟩ <;> simp only [h, State.dset_msix, State.fresh_msix]
@[simp] theorem State.dinc_msixTab (s : State) (d i j n : Nat) : (s.dinc d i j n).msixTab = s.msixTab := by
  rcases s.dinc_cases d i j n with ⟨_, h⟩ | ⟨_, h⟩ <;> simp only [h, State.dset_msixTab, State.fresh_msixTab]
@[simp] theorem State.dinc_msixPend (s : State) (d i j n : Nat) : (s.dinc d i j n).msixPend = s.msixPend := by
  rcases s.dinc_cases d i j n with ⟨_, h⟩ | ⟨_, h⟩ <;> simp only [h, State.dset_msixPend, State.fresh_msixPend]


end Sys2Proof.Machine
end

