-- ==== Sys2Proof/Laws/Store.lean ====
section
/-! SUPPORT. Numbered stores: reading back a write, leaving the other numbers alone, keeping the canonical form; and what
that says of the registers. -/

namespace Sys2Proof.Machine

variable {α : Type}

@[simp] theorem mget?_minsert_same (m : Map α) (i : Nat) (v : α) : mget? (minsert m i v) i = some v := by
  induction m with
  | nil => simp [minsert, mget?]
  | cons p r ih =>
    obtain ⟨k, w⟩ := p
    unfold minsert
    split
    · simp [mget?]
    · split
      · simp [mget?]
      · rename_i h; simp [mget?, h, ih]

theorem mget?_minsert_ne (m : Map α) {i j : Nat} (v : α) (h : j ≠ i) : mget? (minsert m i v) j = mget? m j := by
  induction m with
  | nil => simp [minsert, mget?, h]
  | cons p r ih =>
    obtain ⟨k, w⟩ := p
    unfold minsert
    split
    · simp [mget?, h]
    · split
      · rename_i e; subst e; simp [mget?, h]
      · simp only [mget?, ih]

@[simp] theorem mget?_mdel_same (m : Map α) (i : Nat) : mget? (mdel m i) i = none := by
  induction m with
  | nil => rfl
  | cons p r ih =>
    obtain ⟨k, w⟩ := p
    unfold mdel
    split
    · exact ih
    · rename_i h; simp [mget?, h, ih]

theorem mget?_mdel_ne (m : Map α) {i j : Nat} (h : j ≠ i) : mget? (mdel m i) j = mget? m j := by
  induction m with
  | nil => rfl
  | cons p r ih =>
    obtain ⟨k, w⟩ := p
    unfold mdel
    split
    · rename_i e; subst e; simp [mget?, h, ih]
    · simp only [mget?, ih]

/-- A write reads back. -/
@[simp] theorem mgetD_mputD_same [DecidableEq α] (d : α) (m : Map α) (i : Nat) (v : α) :
    (mget? (mputD d m i v) i).getD d = v := by
  unfold mputD; split
  · rename_i h; simp [h]
  · simp

/-- A write leaves the other numbers alone. -/
theorem mget?_mputD_ne [DecidableEq α] (d : α) (m : Map α) {i j : Nat} (v : α) (h : j ≠ i) :
    mget? (mputD d m i v) j = mget? m j := by
  unfold mputD; split
  · exact mget?_mdel_ne m h
  · exact mget?_minsert_ne m v h

@[simp] theorem mget_mput_same [Inhabited α] [DecidableEq α] (m : Map α) (i : Nat) (v : α) : mget (mput m i v) i = v :=
  mgetD_mputD_same default m i v

theorem mget_mput_ne [Inhabited α] [DecidableEq α] (m : Map α) {i j : Nat} (v : α) (h : j ≠ i) :
    mget (mput m i v) j = mget m j := by
  unfold mget mput; rw [mget?_mputD_ne _ _ _ h]

/-! ### The canonical form -/

/-- The numbers of a store rise and none is listed with the default. -/
def Canon (d : α) (m : Map α) : Prop := m.Pairwise (fun p q => p.1 < q.1) ∧ ∀ p ∈ m, p.2 ≠ d

theorem mwf_iff [DecidableEq α] (d : α) (m : Map α) : mwf d m = true ↔ Canon d m := by
  induction m with
  | nil => simp [mwf, Canon]
  | cons p r ih =>
    obtain ⟨k, v⟩ := p
    cases r with
    | nil => simp [mwf, Canon]
    | cons q r =>
      obtain ⟨j, w⟩ := q
      simp only [mwf, Bool.and_eq_true, decide_eq_true_eq, ih, Canon, List.pairwise_cons, List.mem_cons]
      constructor
      · rintro ⟨⟨hv, hk⟩, ⟨hp, hr⟩, hd⟩
        refine ⟨⟨?_, hp, hr⟩, ?_⟩
        · rintro a (rfl | ha)
          · exact hk
          · exact hk.trans (hp a ha)
        · rintro p (rfl | rfl | hp')
          · exact hv
          · exact hd _ (Or.inl rfl)
          · exact hd _ (Or.inr hp')
      · rintro ⟨⟨hk, hp, hr⟩, hd⟩
        exact ⟨⟨hd _ (Or.inl rfl), hk _ (Or.inl rfl)⟩, ⟨hp, hr⟩, fun p h => hd p (Or.inr h)⟩

theorem mem_minsert (m : Map α) (i : Nat) (v : α) (p : Nat × α) (h : p ∈ minsert m i v) : p = (i, v) ∨ p ∈ m := by
  induction m with
  | nil => simpa [minsert] using h
  | cons q r ih =>
    obtain ⟨k, w⟩ := q
    unfold minsert at h
    split at h
    · simpa using h
    · split at h
      · simp only [List.mem_cons] at h ⊢
        rcases h with h | h
        · exact Or.inl h
        · exact Or.inr (Or.inr h)
      · simp only [List.mem_cons] at h ⊢
        rcases h with h | h
        · exact Or.inr (Or.inl h)
        · rcases ih h with h | h
          · exact Or.inl h
          · exact Or.inr (Or.inr h)

theorem mem_mdel (m : Map α) (i : Nat) (p : Nat × α) (h : p ∈ mdel m i) : p ∈ m := by
  induction m with
  | nil => simp [mdel] at h
  | cons q r ih =>
    obtain ⟨k, w⟩ := q
    unfold mdel at h
    split at h
    · exact List.mem_cons_of_mem _ (ih h)
    · simp only [List.mem_cons] at h ⊢
      exact h.imp_right ih

theorem minsert_canon {d : α} {m : Map α} {i : Nat} {v : α} (hv : v ≠ d) (h : Canon d m) : Canon d (minsert m i v) := by
  obtain ⟨hs, hd⟩ := h
  refine ⟨?_, ?_⟩
  · induction m with
    | nil => simp [minsert]
    | cons q r ih =>
      obtain ⟨k, w⟩ := q
      rw [List.pairwise_cons] at hs
      unfold minsert
      split
      · rename_i hik
        refine List.pairwise_cons.2 ⟨?_, List.pairwise_cons.2 hs⟩
        intro a ha
        rcases List.mem_cons.1 ha with rfl | ha
        · exact hik
        · exact hik.trans (hs.1 a ha)
      · split
        · rename_i e; subst e
          exact List.pairwise_cons.2 ⟨fun a ha => hs.1 a ha, hs.2⟩
        · refine List.pairwise_cons.2 ⟨?_, ih hs.2 (fun p hp => hd p (List.mem_cons_of_mem _ hp))⟩
          intro a ha
          rcases mem_minsert r i v a ha with rfl | ha
          · simp only; omega
          · exact hs.1 a ha
  · intro p hp
    rcases mem_minsert m i v p hp with rfl | hp
    · exact hv
    · exact hd p hp

theorem mdel_canon {d : α} {m : Map α} {i : Nat} (h : Canon d m) : Canon d (mdel m i) := by
  obtain ⟨hs, hd⟩ := h
  refine ⟨?_, fun p hp => hd p (mem_mdel m i p hp)⟩
  clear hd
  induction m with
  | nil => exact List.Pairwise.nil
  | cons q r ih =>
    obtain ⟨k, w⟩ := q
    rw [List.pairwise_cons] at hs
    unfold mdel
    split
    · exact ih hs.2
    · exact List.pairwise_cons.2 ⟨fun a ha => hs.1 a (mem_mdel r i a ha), ih hs.2⟩

/-- A write keeps the canonical form. -/
theorem mputD_wf [DecidableEq α] {d : α} {m : Map α} (i : Nat) (v : α) (h : mwf d m = true) : mwf d (mputD d m i v) = true := by
  rw [mwf_iff] at h ⊢
  unfold mputD; split
  · exact mdel_canon h
  · rename_i hv; exact minsert_canon hv h

theorem mput_wf [Inhabited α] [DecidableEq α] {m : Map α} (i : Nat) (v : α) (h : mwf default m = true) :
    mwf default (mput m i v) = true := mputD_wf i v h

theorem mmod_wf [Inhabited α] [DecidableEq α] {m : Map α} (i : Nat) (f : α → α) (h : mwf default m = true) :
    mwf default (mmod m i f) = true := mputD_wf i _ h

/-! ### Registers -/

@[simp] theorem State.pg_pset (s : State) (i j v : Nat) : (s.pset i j v).pg i j = v := by
  unfold State.pg; exact mgetD_mputD_same ..

theorem State.pg_pset_ne (s : State) {i j i' j' : Nat} (v : Nat) (h : key i' j' ≠ key i j) :
    (s.pset i j v).pg i' j' = s.pg i' j' := by
  unfold State.pg State.pset; rw [mget?_mputD_ne _ _ _ h]

@[simp] theorem State.die_onDie (s : State) (d : Nat) (f : Die → Die) : (s.onDie d f).die d = f (s.die d) := by
  unfold State.die State.onDie; exact mget_mput_same ..

theorem State.die_onDie_ne (s : State) {d e : Nat} (f : Die → Die) (h : e ≠ d) : (s.onDie d f).die e = s.die e := by
  unfold State.die State.onDie; exact mget_mput_ne _ _ h

@[simp] theorem State.die_pset (s : State) (i j v e : Nat) : (s.pset i j v).die e = s.die e := by
  unfold State.die; rw [State.pset_dies]

@[simp] theorem State.pg_onDie (s : State) (d : Nat) (f : Die → Die) (i j : Nat) : (s.onDie d f).pg i j = s.pg i j := by
  simp only [State.pg, State.onDie_regs, State.onDie_part]

@[simp] theorem State.pg_dset (s : State) (d i j v i' j' : Nat) : (s.dset d i j v).pg i' j' = s.pg i' j' := by
  simp only [State.pg, State.dset_regs, State.dset_part]

@[simp] theorem State.dg_pset (s : State) (i j v d i' j' : Nat) : (s.pset i j v).dg d i' j' = s.dg d i' j' := by
  simp only [State.dg, State.die_pset, State.pset_part]

@[simp] theorem State.dg_dset (s : State) (d i j v : Nat) : (s.dset d i j v).dg d i j = v := by
  unfold State.dg State.dset
  rw [State.die_onDie]; exact mgetD_mputD_same ..

theorem State.dg_dset_ne (s : State) {d i j i' j' : Nat} (v : Nat) (h : key i' j' ≠ key i j) :
    (s.dset d i j v).dg d i' j' = s.dg d i' j' := by
  unfold State.dg State.dset
  rw [State.die_onDie]; simp only [State.onDie_part]; rw [mget?_mputD_ne _ _ _ h]

theorem State.dg_dset_die (s : State) {d e : Nat} (i j v i' j' : Nat) (h : e ≠ d) :
    (s.dset d i j v).dg e i' j' = s.dg e i' j' := by
  unfold State.dg State.dset
  rw [State.die_onDie_ne _ _ h, State.onDie_part]

/-- A change of a die that keeps its registers keeps them. -/
theorem State.dg_onDie (s : State) {d : Nat} {f : Die → Die} (h : ∀ x, (f x).regs = x.regs) (e i j : Nat) :
    (s.onDie d f).dg e i j = s.dg e i j := by
  unfold State.dg
  by_cases c : e = d
  · subst c; rw [State.die_onDie, h, State.onDie_part]
  · rw [State.die_onDie_ne _ _ c, State.onDie_part]

@[simp] theorem State.fresh_pg (s : State) (i j : Nat) : s.fresh.2.pg i j = s.pg i j := by
  simp only [State.pg, State.fresh_regs, State.fresh_part]

@[simp] theorem State.fresh_dg (s : State) (d i j : Nat) : s.fresh.2.dg d i j = s.dg d i j := by
  simp only [State.dg, State.die, State.fresh_dies, State.fresh_part]

/-- A count that fits is added. -/
theorem State.pg_pinc (s : State) {i j n : Nat} (h : s.pg i j + n < 2 ^ entryBits i j) :
    (s.pinc i j n).pg i j = s.pg i j + n := by
  rcases s.pinc_cases i j n with ⟨_, e⟩ | ⟨k, _⟩
  · rw [e, State.pg_pset]
  · exact absurd h k

theorem State.pg_pinc_ne (s : State) {i j i' j' : Nat} (n : Nat) (h : key i' j' ≠ key i j) :
    (s.pinc i j n).pg i' j' = s.pg i' j' := by
  rcases s.pinc_cases i j n with ⟨_, e⟩ | ⟨_, e⟩ <;> rw [e, State.pg_pset_ne _ _ h]
  exact State.fresh_pg ..

@[simp] theorem State.dg_pinc (s : State) (i j n d i' j' : Nat) : (s.pinc i j n).dg d i' j' = s.dg d i' j' := by
  rcases s.pinc_cases i j n with ⟨_, e⟩ | ⟨_, e⟩ <;> rw [e, State.dg_pset]
  exact State.fresh_dg ..

theorem State.dg_dinc (s : State) {d i j n : Nat} (h : s.dg d i j + n < 2 ^ entryBits i j) :
    (s.dinc d i j n).dg d i j = s.dg d i j + n := by
  rcases s.dinc_cases d i j n with ⟨_, e⟩ | ⟨k, _⟩
  · rw [e, State.dg_dset]
  · exact absurd h k

theorem State.dg_dinc_ne (s : State) {d i j i' j' : Nat} (n : Nat) (h : key i' j' ≠ key i j) :
    (s.dinc d i j n).dg d i' j' = s.dg d i' j' := by
  rcases s.dinc_cases d i j n with ⟨_, e⟩ | ⟨_, e⟩ <;> rw [e, State.dg_dset_ne _ _ h]
  exact State.fresh_dg ..

@[simp] theorem State.pg_dinc (s : State) (d i j n i' j' : Nat) : (s.dinc d i j n).pg i' j' = s.pg i' j' := by
  rcases s.dinc_cases d i j n with ⟨_, e⟩ | ⟨_, e⟩ <;> rw [e, State.pg_dset]
  exact State.fresh_pg ..

@[simp] theorem State.die_pinc (s : State) (i j n e : Nat) : (s.pinc i j n).die e = s.die e := by
  unfold State.die; rw [State.pinc_dies]

/-- A fault message joins its die's queue, or is counted as lost (R520). -/
theorem State.report_cases (s : State) (d block inst cls kind addr : Nat) :
    s.report d block inst cls kind addr = s.onDie d (fun x => { x with core.faultQ := x.core.faultQ ++
      [{ cls := cls, die := d, block := block, inst := inst, kind := kind, addr := addr, time := s.time80On d }] }) ∨
    (cls < 4 ∧ s.report d block inst cls kind addr = s.pinc 0x1400 0x10 1) := by
  unfold State.report State.post
  dsimp only
  split
  · rename_i h
    simp only [Bool.and_eq_true, decide_eq_true_eq] at h
    exact Or.inr ⟨h.1, rfl⟩
  · exact Or.inl rfl

/-- A fault message changes no register of a die. -/
@[simp] theorem State.dg_report (s : State) (d block inst cls kind addr e i j : Nat) :
    (s.report d block inst cls kind addr).dg e i j = s.dg e i j := by
  rcases s.report_cases d block inst cls kind addr with h | ⟨_, h⟩ <;> rw [h]
  · apply State.dg_onDie; intro x; rfl
  · exact State.dg_pinc ..

/-! ### Outcomes -/

/-- A command to a present die has its effect. -/
theorem onPresent_next {d : Nat} {f : State → State} {s : State} (h : s.has d = true) : onPresent d f s = .next (f s) := by
  unfold onPresent; rw [if_pos h]

/-- A command to an absent die stops. -/
theorem onPresent_absent {d : Nat} {f : State → State} {s : State} (h : s.has d = false) :
    onPresent d f s = .fault .absentUnit := by
  unfold onPresent; rw [if_neg (by simp [h])]

/-- A command to a die that holds still has no effect. -/
theorem onLive_frozen {d : Nat} {f : State → State} {s : State} (h : s.has d = true) (k : s.frozen d = true) :
    onLive d f s = .next s := by
  unfold onLive; rw [onPresent_next h, if_pos k]

/-- A command to the functions of a live die has its effect. -/
theorem onLive_next {d : Nat} {f : State → State} {s : State} (h : s.has d = true) (k : s.frozen d = false) :
    onLive d f s = .next (f s) := by
  unfold onLive; rw [onPresent_next h, if_neg (by simp [k])]

theorem onLive_absent {d : Nat} {f : State → State} {s : State} (h : s.has d = false) :
    onLive d f s = .fault .absentUnit := onPresent_absent h

end Sys2Proof.Machine
end

