-- ==== Sys2Proof/Laws/Carries.lean ====
section
/-! SUPPORT. From what an operation leaves fixed to what a command carries over. -/

namespace Sys2Proof.Machine

theorem Carries.refl (s : State) : Carries s s := ⟨rfl, rfl, rfl, Nat.le_refl _, BitVec.or_self⟩

theorem Carries.trans {s t u : State} (h : Carries s t) (k : Carries t u) : Carries s u := by
  obtain ⟨h1, h2, h3, h4, h5⟩ := h
  obtain ⟨k1, k2, k3, k4, k5⟩ := k
  refine ⟨k1.trans h1, k2.trans h2, k3.trans h3, h4.trans k4, ?_⟩
  rw [← k5, ← h5, ← BitVec.or_assoc, ← BitVec.or_assoc, BitVec.or_self]

/-- What an operation that keeps the fixed part carries over. -/
theorem Carries.of_fixed {s t : State} (h : t.fixed = s.fixed) : Carries s t := by
  rw [State.fixed_eq] at h
  obtain ⟨h1, h2, h3, h4, h5⟩ := h
  exact ⟨h2, h1, h3, h4.ge, by rw [h5, BitVec.or_self]⟩

/-- What an operation that may confirm an image carries over. -/
theorem Carries.of_kept {s t : State} (h : KeptF s.fixed t.fixed) : Carries s t := by
  obtain ⟨h1, h2, h3, h4, h5⟩ := h
  exact ⟨h2, h1, h3, h4, h5⟩

/-- A command whose meaning answers `t` and keeps the fixed part. -/
theorem Answers.of_fixed {c : Instr} {s t : State} (e : exec c s = .next t) (h : t.fixed = s.fixed) : Answers c s t :=
  ⟨e, Carries.of_fixed h⟩

theorem Answers.of_kept {c : Instr} {s t : State} (e : exec c s = .next t) (h : KeptF s.fixed t.fixed) : Answers c s t :=
  ⟨e, Carries.of_kept h⟩

end Sys2Proof.Machine
end

