-- ==== Sys2Proof/Tests/Slice0.lean ====
section
/-! SUPPORT. Tests: an ill-formed command for each check of well-formedness; a witness for the hypotheses of every
statement that has some; worked numbers of the specification. -/

namespace Sys2Proof.Tests

set_option Elab.async false

open Sys2Proof Sys2Proof.Machine

/-! ### Ill-formed commands -/

theorem test_ill_write_value_too_long : (Instr.dictWrite 3 .none 0x1200 2 1 6).wf = true ∧
    (Instr.dictWrite 3 .none 0x1200 2 1 256).wf = false := by decide +kernel
theorem test_ill_selector_code_wide : (Instr.rcRead 3 (.bad 256) 0x4000 1).wf = false := by decide
theorem test_ill_selector_code_none : (Instr.rcRead 3 (.bad 0) 0x4000 1).wf = false := by decide
theorem test_ill_selector_code_of_die : (Instr.rcRead 3 (.bad 0x17) 0x4000 1).wf = false := by decide
theorem test_ill_selector_code_of_all : (Instr.rcRead 3 (.bad 0x1F) 0x4000 1).wf = false := by decide
theorem test_wf_selector_code_undefined : (Instr.rcRead 3 (.bad 0x18) 0x4000 1).wf = true := by decide
theorem test_wf_mailbox_read : (Instr.mailboxGo [(0, 0, true, { idx := 0x1200, sub := 1 })]).wf = true := by decide
theorem test_ill_access_index : (Instr.mailboxGo [(0, 0, true, { idx := 65536 })]).wf = false := by decide
theorem test_ill_access_subindex : (Instr.mailboxGo [(0, 0, true, { sub := 256 })]).wf = false := by decide
theorem test_ill_access_length : (Instr.mailboxGo [(0, 0, true, { op := .write, len := 1033 })]).wf = false := by decide
theorem test_ill_access_value : (Instr.mailboxGo [(0, 0, true, { op := .write, len := 1, val := 256 })]).wf = false := by decide
theorem test_ill_read_with_data : (Instr.mailboxGo [(0, 0, true, { op := .read, len := 1 })]).wf = false := by decide
theorem test_ill_describe_with_data : (Instr.mailboxGo [(0, 0, true, { op := .describe, len := 1 })]).wf = false := by decide
theorem test_ill_request_list : (Instr.dispatchQueueRequest 0 0 (List.replicate 17 0)).wf = false := by decide
theorem test_ill_hole_number : (Instr.holeTimeout 0 true (2 ^ 32)).wf = false := by decide
theorem test_ill_residue_number : (Instr.residueTimeout 0 (2 ^ 32)).wf = false := by decide
theorem test_ill_ecc_count : (Instr.eccPoll 0 0 (2 ^ 32)).wf = false := by decide
theorem test_ill_cxl_count : (Instr.cxlEventPoll 0 (2 ^ 32) 0).wf = false := by decide
theorem test_ill_cxl_replays : (Instr.cxlEventPoll 0 0 (2 ^ 32)).wf = false := by decide
theorem test_ill_output_number : (Instr.reseqRelease 0 true (2 ^ 32)).wf = false := by decide
theorem test_ill_pattern_pair : (Instr.patternDone 0 0 [(0, 2 ^ 32)]).wf = false := by decide
theorem test_ill_att_rva : (Instr.recordRingWrite 0 0 [(2 ^ 48, 0)]).wf = false := by decide
theorem test_ill_cairn_att : (Instr.cairnComplete 0 [] [(2 ^ 48, 0)]).wf = false := by decide
theorem test_ill_cairn_pair : (Instr.cairnComplete 0 [(2 ^ 32, 0)] []).wf = false := by decide
theorem test_ill_slice_vin : (Instr.sliceDue 0 0 (2 ^ 16) 0 0).wf = false := by decide
theorem test_ill_slice_check_temp : (Instr.sliceConditionCheck 0 0 0 (2 ^ 31)).wf = false := by decide
theorem test_ill_sensor_count : (Instr.thermalSensorRead 0 [250] 0).wf = false := by decide
theorem test_ill_sensor_temp : (Instr.thermalSensorRead 0 (List.replicate 16 (2 ^ 31)) 0).wf = false := by decide
theorem test_ill_write_selector : (Instr.fibInsert 3 (.bad 0x10) 0).wf = false := by decide

/-! ### States that meet the hypotheses -/

/-- A package in Forwarding whose Summit is die 0. -/
def up : State := { State.reset with mode := .forwarding, summit := some 0 }

/-- The two-die part. -/
def small : State := { State.reset with part := .d9020 }

/-- A thread of die 0 at a word. -/
def atWord (w : BitVec 160) : State :=
  { up with dies := [(0, { eng := { clusters := [(0, { store := [(0, w)], threads := [(0, { run := some { pkt := 7 } })] })] } })] }

/-- What holds of the next state. -/
def nextHolds (o : Host.Outcome State Fault Refusal) (p : State → Bool) : Bool :=
  match o with
  | .next t => p t
  | .fault _ => false
  | .refused _ => false

theorem test_die_present_and_live : up.has 0 = true ∧ up.frozen 0 = false := by decide
theorem test_die_absent : (Instr.watchdogExpire 7).die? = some 7 ∧ small.has 7 = false := by decide
theorem test_absent_die_faults : exec (.watchdogExpire 7) small = .fault .absentUnit := rfl
theorem test_live_die_answers : (∀ d, (Instr.watchdogExpire 1).die? = some d → small.has d = true) := by
  intro d h; cases h; decide
theorem test_queue_empty : State.reset.pending = [] := rfl
theorem test_step_answers : ∃ t, step { up with pending := [.heartbeatTick] } = .next t := ⟨_, rfl⟩
theorem test_exec_answers : ∃ t, exec .heartbeatTick up = .next t := ⟨_, rfl⟩
theorem test_bound_met : 2 ≤ ({ up with flash := { rollback := 3 }, pending := [.heartbeatTick] } : State).flash.rollback ∧
    ∃ t, step { up with flash := { rollback := 3 }, pending := [.heartbeatTick] } = .next t := ⟨by decide, ⟨_, rfl⟩⟩
theorem test_revoked_bit_set : ({ up with flash := { revoked := 4 } } : State).flash.revoked.getLsbD 2 = true := by decide
theorem test_no_access_carried : Instr.carriesAccess .heartbeatTick = false := rfl
theorem test_probation : ({ up with flash := { probation := 1 } } : State).flash.probation = 1 ∧
    (flashAgent { up with flash := { probation := 1 } }).isSome = true := by decide
theorem test_no_probation : up.flash.probation ≠ 1 := by decide
theorem test_requester_busy : mget? ({ up with busy := [(3, {})] } : State).busy (3 : Requester) = some {} := rfl
theorem test_confirm_outside_probation : (confirm up).1 = 0x16 := by decide

/-! The checks of an access, each met by one. -/

theorem test_check1_fails : check1 State.reset 0 { idx := 0x1200, sub := 1 } = 0x17 := by decide
theorem test_check1_passes : check1 up 0 { idx := 0x1200, sub := 1 } = 0 ∧ onIsolated up 0 = false := by decide
theorem test_check2_fails : (findEntry 0x1FFF 0).isSome = false := by decide +kernel
theorem test_entry_found : (findEntry 0x1200 2).isSome = true ∧ ((findEntry 0x1200 2).map (·.size)) = some 1 := by decide
theorem test_check3_fails : badSelector { idx := 0x1200, sub := 2, op := .write, sel := .die 1 } = true := by decide
theorem test_check3_all_read : badSelector { idx := 0x4300, sub := 7, op := .read, sel := .all } = true := by decide
theorem test_check3_all_write : badSelector { idx := 0x4300, sub := 7, op := .write, sel := .all } = false ∧ isPerDie 0x4300 = true := by decide
theorem test_check4_fails : badSelector { idx := 0x4300, sub := 7, op := .write, sel := .die 7 } = false ∧
    noDie small { idx := 0x4300, sub := 7, op := .write, sel := .die 7 } = true := by decide
theorem test_level_of_session : levelOf up 16 = 0 ∧ levelOf up 0 = 2 := by decide
theorem test_check5_fails : ((findEntry 0x1200 2).map (fun e => noAccess up 16 e { op := .write, idx := 0x1200, sub := 2, len := 1, val := 6 })) =
    some true := by decide
theorem test_check5_passes : ((findEntry 0x1200 2).map (fun e => noAccess up 0 e { op := .write, idx := 0x1200, sub := 2, len := 1, val := 6 })) =
    some false := by decide
theorem test_check5_host_session : ((findEntry 0x1501 7).map (fun e => (noAccess { up with sessions := [] } 0 e { op := .write, idx := 0x1501, sub := 7, val := 0 }))) =
    some false := by decide
theorem test_check6_fails : ((findEntry 0x1200 1).map (fun e => badAccess e .write)) = some true := by decide
theorem test_check7_fails : precheck up 0 { op := .write, idx := 0x1200, sub := 2, len := 2, val := 6 } = 0x1C := by decide
theorem test_rc_entry : ((findEntry 0x4110 6).map (fun e => decide (e.acc = .rc))) = some true := by decide
theorem test_entry_not_rc : ((findEntry 0x1200 1).map (fun e => decide (e.acc = .rc))) = some false := by decide

theorem test_arbiter_wraps : arbiter 4 3 (fun i => i == 1) = some 1 ∧ arbiter 4 3 (fun _ => false) = none := by decide

/-- Die 0 with sixteen messages of block 5 waiting. -/
def full : State := up.onDie 0 (fun x => { x with core := { x.core with faultQ := List.replicate 16 { cls := 1, block := 5 } } })
theorem test_queue_full : ((full.die 0).core.faultQ.filter (fun x => x.block == 5)).length = 16 := by decide
theorem test_queue_full_fatal : ((full.report 0 5 0 4 1 0).die 0).core.faultQ.length = 17 := by decide
theorem test_queue_full_notice : ((full.report 0 5 0 1 1 0).die 0).core.faultQ.length = 16 := by decide

/-! A microword row issues. -/

theorem test_thread_word (w : BitVec 160) : threadWord (atWord w) 0 0 { pkt := 7 } = w.toNat := rfl
theorem test_thread_at_word (w : BitVec 160) : thread (atWord w) 0 0 0 = { run := some { pkt := 7 } } := rfl
theorem test_cluster_at_word (w : BitVec 160) :
    cluster (atWord w) 0 0 = { store := [(0, w)], threads := [(0, { run := some { pkt := 7 } })] } := rfl
theorem test_look_at_word (w : BitVec 160) : ((atWord w).die 0).look = {} := rfl

/-- A word of each row that MicrowordRowIssuesItsWord names can issue. -/
theorem test_words_can_issue (v : BitVec 160) (w : Nat)
    (h : w = 1 <<< 124 ∨ w = 2 <<< 124 ∨ w = 3 <<< 124 ∨ w = 12 <<< 124 ∨ w = 1 <<< 156 ∨ w = 3 <<< 156 ∨ w = 4 <<< 156 ∨
      w = 5 <<< 156 ∨ w = 1 <<< 102 ∨ w = 3 <<< 102 ∨ w = 8 <<< 102 ∨ w = 10 <<< 102 ∨ w = 1 <<< 83) :
    canIssue (atWord v) 0 0 0 { pkt := 7 } w = true := by
  have waits : waitsHold (atWord v) 0 0 0 { pkt := 7 } w = true := by
    rcases h with rfl | rfl | rfl | rfl | rfl | rfl | rfl | rfl | rfl | rfl | rfl | rfl | rfl <;> rfl
  have port : uWait w ≠ 4 := by
    rcases h with rfl | rfl | rfl | rfl | rfl | rfl | rfl | rfl | rfl | rfl | rfl | rfl | rfl <;> decide
  rw [canIssue, waits, bne_iff_ne.mpr port]; rfl

/-- With nothing else to run, the thread holds its engine's issue slot. -/
theorem test_word_holds_the_slot (v : BitVec 160) (h : canIssue (atWord v) 0 0 0 { pkt := 7 } v.toNat = true) :
    hasSlot (atWord v) 0 0 0 = true := by
  have ready : threadReady (atWord v) 0 0 0 = true := by
    simp only [threadReady, test_thread_at_word, test_thread_word, h]
  simp [hasSlot, arbiter, List.range_succ, test_cluster_at_word, mget, mget?, ready]
theorem test_other_thread_lacks_the_slot : hasSlot (atWord 0) 0 0 1 = false := by decide +kernel

theorem test_thread_stands : (thread (atWord 0) 0 0 0).run = some { pkt := 7 } ∧ (thread (atWord 0) 0 0 1).run = none := by decide
theorem test_row_codes : uAlu (1 <<< 124) = 1 ∧ uSeq (5 <<< 156) = 5 ∧ uMem (10 <<< 102) = 10 ∧ uSrch (1 <<< 83) = 1 := by decide

/-! Meridian, rings, stacks, pins, modes, sessions. -/

theorem test_adjust_waits : ({ up with adjust := some (true, 5) } : State).adjust = some (true, 5) ∧ up.ns % 1000 < 2 ∧
    (up.die 0).buf.gates = [] ∧ (up.die 0).buf.snapAt = [] := by decide
theorem test_between_microseconds : 2 ≤ ({ up with meridian := 500 * 10 ^ 12 } : State).ns % 1000 := by decide
theorem test_pps_count_below : up.pg 0x1600 8 + 1 < 2 ^ entryBits 0x1600 8 := by decide
theorem test_ring_disabled : ringState up 0 0 = 0 := by decide
theorem test_ring_running : ringState (up.dset 0 0x4440 0x0C 1) 0 0 = 1 ∧ ringEp (up.dset 0 0x4440 0x0C 1) 0 0 = 0 := by decide +kernel
theorem test_doorbell_offset : (0x840 : Fin 0x12000).val = (1 : DieId) * 0x800 + (1 : Fin 32) * 0x40 ∧
    doorbellAt 0x840 = some (1, 1) := by decide
theorem test_masked_vector_pends : (fireMsix 0 3 up).msix = [] ∧ mget (fireMsix 0 3 up).msixPend 0 = 8 := by decide
theorem test_reserved_ring_row : (accessRow { op := .write, idx := 0x4458, sub := 1, len := 1, val := 1 }).isSome = true := by decide
theorem test_search_under_all : badSelector { op := .write, sel := .all, idx := 0x4640, sub := 1, val := 3 <<< 120 } = true := by decide
theorem test_ring_foreign : ringEp up 0 0 ≠ 1 := by decide
theorem test_stack_states : stackState (up.dset 0 0x4310 1 2) 0 0 = 2 ∧ stackState (up.dset 0 0x4310 1 4) 0 0 = 4 ∧
    stackState up 0 0 = 0 := by decide

/-- Die 0 holds one whole transfer from its east side, the return record of packet 7. -/
def withTransfer : State :=
  { up with
    msgs := [{ id := 9, src := 1, dst := 0, size := 32, body := .ret 7 }]
    dies := [(0, { core := { saddles := [(1, { rxWhole := [(9, [])] })] } })] }
theorem test_transfer_waits : (saddle withTransfer 0 (sideNo .e)).rxWhole = [(9, [])] ∧ (saddle up 0 (sideNo .e)).rxWhole = [] ∧
    (withTransfer.msg? 9).map (·.body) = some (.ret 7) := by decide
theorem test_transfer_arrives : nextHolds (exec (.saddleTransferComplete 0 .e) withTransfer)
    (fun t => t.msgs.map (·.arrived) == [true] && (saddle t 0 1).rxWhole.isEmpty) = true := by decide +kernel

/-- Two flits wait at a transmitter, one of class 2 and one of control: control goes first (R30). -/
theorem test_control_goes_first : ({ queue := [(0, [{ hdr := 0 }]), (2, [{ hdr := 0 }])] } : Saddle).pick 1024 = some 0 ∧
    ({ queue := [(1, [{ hdr := 0 }]), (2, [{ hdr := 0 }])], txPtr := 1 } : Saddle).pick 1024 = some 2 := by decide
theorem test_reset_pin_states : ({ up with resetLow := true } : State).resetLow = true ∧ up.resetLow = false ∧
    ({ up with mode := .locked } : State).mode = .locked := by decide
theorem test_request_refused : requestRow State.reset 3 = false ∧ requestRow up 6 = true ∧ up.pg 0x1200 4 = 0 ∧
    (up.pset 0x1200 4 1).pg 0x1200 4 = 1 ∧ requestRow (up.pset 0x1200 4 1) 6 = true := by decide
theorem test_session_states : up.pg 0x1130 1 = 0 ∧ (up.pset 0x1130 1 1).pg 0x1130 1 ≠ 0 := by decide

/-! ### Worked numbers -/

/-- Table 16.2's example of CRC-32C over "123456789"; the examples of FIPS 180-4 for "abc", and test case 2 of RFC 4231. -/
theorem test_crc_and_hashes : crc32c [0x31, 0x32, 0x33, 0x34, 0x35, 0x36, 0x37, 0x38, 0x39] = 0xE3069283 ∧
    beNat (sha256 [0x61, 0x62, 0x63]) = 0xba7816bf8f01cfea414140de5dae2223b00361a396177a9cb410ff61f20015ad ∧
    sha384 [0x61, 0x62, 0x63] = 0xcb00753f45a35e8bb5a03d699ac65007272c32ab0eded1631a8b605a43ff5bed8086072ba1e7cc2358baeca134c825a7 ∧
    beNat (hmacSha256 [0x4a, 0x65, 0x66, 0x65]
    [0x77, 0x68, 0x61, 0x74, 0x20, 0x64, 0x6f, 0x20, 0x79, 0x61, 0x20, 0x77, 0x61, 0x6e, 0x74, 0x20, 0x66, 0x6f, 0x72, 0x20, 0x6e, 0x6f, 0x74, 0x68, 0x69, 0x6e, 0x67, 0x3f]) = 0x5bdcc146bf60754e6a042426089575c75a003f089d2739839dec58b964ec3843 := by decide +kernel
theorem test_no_word_decodes : decodeTableWord 32 0 = none := rfl
theorem test_alu_sub_wraps : aluResult 3 0 1 0 = some 0xFFFFFFFFFFFFFFFF := by decide
theorem test_alu_clz_zero : aluResult 16 0 0 0 = some 64 := by decide
theorem test_watchdog_queues : nextHolds (exec (.watchdogExpire 0) up) (fun t => (t.die 0).core.faultQ.length == 1) = true := by decide
theorem test_jtag_code : nextHolds (exec (.jtagBypass 2) up) (fun t => (t.die 2).core.tap.ir == 0xFF) = true := by decide
/-- Factory mode with domain 79 of die 0 on, and die 1 in power-on reset: a Factory instruction acts on the first
and loads nothing on the second (R555, R593). -/
def inFactory : State := { up with mode := .factory, regs := [(key 0x1310 79, 2)], dies := [(1, { core := { por := true } })] }

theorem test_jtag_acts : nextHolds (exec (.jtagExtest 0) inFactory) (fun t => (t.die 0).core.tap.pins == 1) = true := by decide
theorem test_jtag_por : nextHolds (exec (.jtagExtest 1) inFactory) (fun t => (t.die 1).core.por && (t.die 1).core.tap.ir == 1) = true := by decide
theorem test_rc_package_entry : ((findEntry 0x1330 0x21).map (fun e => decide (e.acc = .rc))) = some true := by decide
/-- The quiet state that EmptyQueueIdles speaks of, and its nanosecond. -/
theorem test_idle_tick : (up.pending = [] ∧ up.jdpJobs = [] ∧ ∀ d, d ∈ up.present →
    (up.die d).core.sendQ = [] ∧ (up.die d).core.patterns = [] ∧ ∀ k, k < 20 → setRuns up d k = false) ∧
    nextHolds (step up) (fun t => t.now == 1 && t.meridian == 10 ^ 12) = true := by decide +kernel

end Sys2Proof.Tests
end

section
/-! What every command does to the state, said once over all commands: where it has its effect, and what it leaves as it
is. -/

namespace Sys2Proof.Machine

/-! ### Where a command has its effect -/

/-- The effect of a command that acts on the die named, if it names one: a die absent from the part stops it. -/
def onNamedDie (d? : Option DieId) (f : State → State) (s : State) : Host.Outcome State Fault Refusal :=
  match d? with
  | none => .next (f s)
  | some d => onPresent d f s

theorem onNamedDie_absent {d? : Option DieId} {d : DieId} {f : State → State} {s : State} (hd : d? = some d)
    (habsent : s.has d = false) : onNamedDie d? f s = .fault .absentUnit := by
  subst hd
  exact onPresent_absent habsent

theorem onNamedDie_next {d? : Option DieId} {f : State → State} {s : State}
    (hpresent : ∀ d, d? = some d → s.has d = true) : onNamedDie d? f s = .next (f s) := by
  cases d? with
  | none => rfl
  | some d => exact onPresent_next (hpresent d rfl)

/-- Every command is a total change of the state, at the die that it names: no arm of `exec` refuses, and the only one
that faults is that of an absent die (log entry 4). -/
theorem exec_eq_onNamedDie (c : Instr) : ∃ f : State → State, ∀ s, exec c s = onNamedDie c.die? f s := by
  cases c <;> exact ⟨_, fun _ => rfl⟩

/-! ### What a command leaves as it is -/

/-- What a command leaves of the fixed part: all of it, but that an access may confirm an image, which raises the
anti-rollback counter and blows revocation bits (R570). -/
def LeavesFixed (carriesAccess : Bool) (s t : State) : Prop :=
  match carriesAccess with
  | true => KeptF s.fixed t.fixed
  | false => t.fixed = s.fixed

theorem LeavesFixed.kept {b : Bool} {s t : State} (h : LeavesFixed b s t) : KeptF s.fixed t.fixed := by
  cases b with
  | true => exact h
  | false => exact (KeptF.refl _).step h

/-- One law per arm of `exec`: the law of its meaning. -/
theorem exec_leavesFixed : ∀ (c : Instr) (s t : State), exec c s = .next t → LeavesFixed c.carriesAccess s t
  | .dictWrite .., _, _, h => execDictWrite_kept (h := h)
  | .rcRead .., _, _, h => execRcRead_kept (h := h)
  | .describe .., _, _, h => execDescribe_kept (h := h)
  | .mailboxGo .., _, _, h => execMailboxGo_kept (h := h)
  | .dieAccessMessage .., _, _, h => execDieAccessMessage_kept (h := h)
  | .broadcastApply .., _, _, h => execBroadcastApply_kept (h := h)
  | .broadcastComplete .., _, _, h => execBroadcastComplete_fixed (h := h)
  | .settingsSave .., _, _, h => execSettingsSave_fixed (h := h)
  | .saddleFlitReceive .., _, _, h => execSaddleFlitReceive_fixed (h := h)
  | .saddleNakReceive .., _, _, h => execSaddleNakReceive_fixed (h := h)
  | .saddleAckReceive .., _, _, h => execSaddleAckReceive_fixed (h := h)
  | .saddleTransferComplete .., _, _, h => execSaddleTransferComplete_fixed (h := h)
  | .routeTableReceive .., _, _, h => execRouteTableReceive_fixed (h := h)
  | .saddleUtilWindowEnd .., _, _, h => execSaddleUtilWindowEnd_fixed (h := h)
  | .laneReq .., _, _, h => execLaneReq_fixed (h := h)
  | .laneAck .., _, _, h => execLaneAck_fixed (h := h)
  | .saddleLaneWakeDone .., _, _, h => execSaddleLaneWakeDone_fixed (h := h)
  | .heartbeatTick .., _, _, h => execHeartbeatTick_fixed (h := h)
  | .heartbeatTimeout .., _, _, h => execHeartbeatTimeout_fixed (h := h)
  | .startPulseSeen .., _, _, h => execStartPulseSeen_fixed (h := h)
  | .electionBitSample .., _, _, h => execElectionBitSample_fixed (h := h)
  | .electionNoSummit .., _, _, h => execElectionNoSummit_fixed (h := h)
  | .beaconStuckLow .., _, _, h => execBeaconStuckLow_fixed (h := h)
  | .beaconStuckHigh .., _, _, h => execBeaconStuckHigh_fixed (h := h)
  | .beaconFaultyNotice .., _, _, h => execBeaconFaultyNotice_fixed (h := h)
  | .summitTokenTick .., _, _, h => execSummitTokenTick_fixed (h := h)
  | .summitTokenReceive .., _, _, h => execSummitTokenReceive_fixed (h := h)
  | .tokenTimeout .., _, _, h => execTokenTimeout_fixed (h := h)
  | .dieRejoin .., _, _, h => execDieRejoin_kept (h := h)
  | .flashAgentAppear .., _, _, h => execFlashAgentAppear_fixed (h := h)
  | .frameStart .., _, _, h => execFrameStart_fixed (h := h)
  | .parseStart .., _, _, h => execParseStart_fixed (h := h)
  | .frameTailReceive .., _, _, h => execFrameTailReceive_fixed (h := h)
  | .packetDispatch .., _, _, h => execPacketDispatch_fixed (h := h)
  | .dispatchRecordReceive .., _, _, h => execDispatchRecordReceive_fixed (h := h)
  | .returnRecordReceive .., _, _, h => execReturnRecordReceive_fixed (h := h)
  | .dispatchQueueRequest .., _, _, h => execDispatchQueueRequest_fixed (h := h)
  | .threadStart .., _, _, h => execThreadStart_fixed (h := h)
  | .stealLook .., _, _, h => execStealLook_fixed (h := h)
  | .stealArrive .., _, _, h => execStealArrive_fixed (h := h)
  | .parkRequest .., _, _, h => execParkRequest_fixed (h := h)
  | .parkComplete .., _, _, h => execParkComplete_fixed (h := h)
  | .contextResume .., _, _, h => execContextResume_fixed (h := h)
  | .preempt .., _, _, h => execPreempt_fixed (h := h)
  | .contextRestart .., _, _, h => execContextRestart_fixed (h := h)
  | .nop .., _, _, h => execNop_fixed (h := h)
  | .mov .., _, _, h => execMov_fixed (h := h)
  | .add .., _, _, h => execAdd_fixed (h := h)
  | .sub .., _, _, h => execSub_fixed (h := h)
  | .and .., _, _, h => execAnd_fixed (h := h)
  | .or .., _, _, h => execOr_fixed (h := h)
  | .xor .., _, _, h => execXor_fixed (h := h)
  | .andn .., _, _, h => execAndn_fixed (h := h)
  | .shl .., _, _, h => execShl_fixed (h := h)
  | .shr .., _, _, h => execShr_fixed (h := h)
  | .ext .., _, _, h => execExt_fixed (h := h)
  | .ins .., _, _, h => execIns_fixed (h := h)
  | .cmp .., _, _, h => execCmp_fixed (h := h)
  | .minu .., _, _, h => execMinu_fixed (h := h)
  | .maxu .., _, _, h => execMaxu_fixed (h := h)
  | .popc .., _, _, h => execPopc_fixed (h := h)
  | .clz .., _, _, h => execClz_fixed (h := h)
  | .next .., _, _, h => execNext_fixed (h := h)
  | .jump .., _, _, h => execJump_fixed (h := h)
  | .mway .., _, _, h => execMway_fixed (h := h)
  | .call .., _, _, h => execCall_fixed (h := h)
  | .ret .., _, _, h => execRet_fixed (h := h)
  | .endWord .., _, _, h => execEnd_fixed (h := h)
  | .ldh .., _, _, h => execLdh_fixed (h := h)
  | .ldhx .., _, _, h => execLdhx_fixed (h := h)
  | .jhdr .., _, _, h => execJhdr_fixed (h := h)
  | .jhdrx .., _, _, h => execJhdrx_fixed (h := h)
  | .jdesc .., _, _, h => execJdesc_fixed (h := h)
  | .jcnt .., _, _, h => execJcnt_fixed (h := h)
  | .jmeter .., _, _, h => execJmeter_fixed (h := h)
  | .jctx .., _, _, h => execJctx_fixed (h := h)
  | .jevt .., _, _, h => execJevt_fixed (h := h)
  | .commit .., _, _, h => execCommit_fixed (h := h)
  | .cntrd .., _, _, h => execCntrd_fixed (h := h)
  | .searchIssue .., _, _, h => execSearchIssue_fixed (h := h)
  | .searchResponse .., _, _, h => execSearchResponse_fixed (h := h)
  | .journalEntryDrain .., _, _, h => execJournalEntryDrain_fixed (h := h)
  | .csFetchParityFail .., _, _, h => execCsFetchParityFail_fixed (h := h)
  | .csReloadDone .., _, _, h => execCsReloadDone_fixed (h := h)
  | .rollingLoadClusterEmpty .., _, _, h => execRollingLoadClusterEmpty_fixed (h := h)
  | .clusterStoreWritten .., _, _, h => execClusterStoreWritten_fixed (h := h)
  | .reseqArrive .., _, _, h => execReseqArrive_fixed (h := h)
  | .holeTimeout .., _, _, h => execHoleTimeout_fixed (h := h)
  | .holeMarkerReceive .., _, _, h => execHoleMarkerReceive_fixed (h := h)
  | .reseqRelease .., _, _, h => execReseqRelease_fixed (h := h)
  | .rewrite .., _, _, h => execRewrite_fixed (h := h)
  | .recircInput .., _, _, h => execRecircInput_fixed (h := h)
  | .fibLookup .., _, _, h => execFibLookup_fixed (h := h)
  | .fibResolve .., _, _, h => execFibResolve_fixed (h := h)
  | .deepReadComplete .., _, _, h => execDeepReadComplete_fixed (h := h)
  | .deepStagingAdmit .., _, _, h => execDeepStagingAdmit_fixed (h := h)
  | .fibInsert .., _, _, h => execFibInsert_kept (h := h)
  | .fibDelete .., _, _, h => execFibDelete_kept (h := h)
  | .fibHomeOutcome .., _, _, h => execFibHomeOutcome_fixed (h := h)
  | .stemRebuild .., _, _, h => execStemRebuild_fixed (h := h)
  | .homeDieMapWrite .., _, _, h => execHomeDieMapWrite_kept (h := h)
  | .exactSearch .., _, _, h => execExactSearch_fixed (h := h)
  | .tableInsert .., _, _, h => execTableInsert_kept (h := h)
  | .tableDelete .., _, _, h => execTableDelete_kept (h := h)
  | .tableSearch .., _, _, h => execTableSearch_kept (h := h)
  | .tableNext .., _, _, h => execTableNext_kept (h := h)
  | .flushByPort .., _, _, h => execFlushByPort_kept (h := h)
  | .flushStep .., _, _, h => execFlushStep_fixed (h := h)
  | .learnEventProcess .., _, _, h => execLearnEventProcess_fixed (h := h)
  | .ageingSweepVisit .., _, _, h => execAgeingSweepVisit_fixed (h := h)
  | .shadowModeWrite .., _, _, h => execShadowModeWrite_kept (h := h)
  | .shadowCopyDone .., _, _, h => execShadowCopyDone_fixed (h := h)
  | .scrubBucket .., _, _, h => execScrubBucket_fixed (h := h)
  | .scrubRecheck .., _, _, h => execScrubRecheck_fixed (h := h)
  | .ternarySearch .., _, _, h => execTernarySearch_fixed (h := h)
  | .ruleInsert .., _, _, h => execRuleInsert_kept (h := h)
  | .ruleDelete .., _, _, h => execRuleDelete_kept (h := h)
  | .ruleSearch .., _, _, h => execRuleSearch_kept (h := h)
  | .ruleNext .., _, _, h => execRuleNext_kept (h := h)
  | .epochInherit .., _, _, h => execEpochInherit_kept (h := h)
  | .epochDiscardNext .., _, _, h => execEpochDiscardNext_kept (h := h)
  | .epochSwap .., _, _, h => execEpochSwap_kept (h := h)
  | .epochSwitchApply .., _, _, h => execEpochSwitchApply_fixed (h := h)
  | .epochSwitchAck .., _, _, h => execEpochSwitchAck_fixed (h := h)
  | .forceRetire .., _, _, h => execForceRetire_kept (h := h)
  | .retireTimeout .., _, _, h => execRetireTimeout_fixed (h := h)
  | .holdersZero .., _, _, h => execHoldersZero_fixed (h := h)
  | .epochClearDone .., _, _, h => execEpochClearDone_fixed (h := h)
  | .contextRead .., _, _, h => execContextRead_fixed (h := h)
  | .contextReadUpdate .., _, _, h => execContextReadUpdate_fixed (h := h)
  | .lockGrant .., _, _, h => execLockGrant_fixed (h := h)
  | .contextFillComplete .., _, _, h => execContextFillComplete_fixed (h := h)
  | .fillPinWait .., _, _, h => execFillPinWait_fixed (h := h)
  | .pageEventReceive .., _, _, h => execPageEventReceive_fixed (h := h)
  | .pageWaitExpire .., _, _, h => execPageWaitExpire_fixed (h := h)
  | .pageMap .., _, _, h => execPageMap_kept (h := h)
  | .pageUnmap .., _, _, h => execPageUnmap_kept (h := h)
  | .unmapComplete .., _, _, h => execUnmapComplete_fixed (h := h)
  | .pageMigrate .., _, _, h => execPageMigrate_kept (h := h)
  | .migrateCopyDone .., _, _, h => execMigrateCopyDone_kept (h := h)
  | .pagePoison .., _, _, h => execPagePoison_kept (h := h)
  | .pageRepair .., _, _, h => execPageRepair_kept (h := h)
  | .pageQuery .., _, _, h => execPageQuery_kept (h := h)
  | .poolRelease .., _, _, h => execPoolRelease_fixed (h := h)
  | .allocatorRefill .., _, _, h => execAllocatorRefill_fixed (h := h)
  | .waitListHeadRetry .., _, _, h => execWaitListHeadRetry_fixed (h := h)
  | .voqDepart .., _, _, h => execVoqDepart_fixed (h := h)
  | .stacksReady .., _, _, h => execStacksReady_fixed (h := h)
  | .replication .., _, _, h => execReplication_fixed (h := h)
  | .residueEnter .., _, _, h => execResidueEnter_fixed (h := h)
  | .residueTimeout .., _, _, h => execResidueTimeout_fixed (h := h)
  | .portFlushDone .., _, _, h => execPortFlushDone_fixed (h := h)
  | .schedSelect .., _, _, h => execSchedSelect_fixed (h := h)
  | .shaperCreditPositive .., _, _, h => execShaperCreditPositive_fixed (h := h)
  | .shaperRateWrite .., _, _, h => execShaperRateWrite_kept (h := h)
  | .shaperBurstWrite .., _, _, h => execShaperBurstWrite_kept (h := h)
  | .shaperReset .., _, _, h => execShaperReset_kept (h := h)
  | .applyTemplate .., _, _, h => execApplyTemplate_kept (h := h)
  | .gateListWrite .., _, _, h => execGateListWrite_kept (h := h)
  | .configChange .., _, _, h => execConfigChange_kept (h := h)
  | .configChangeTime .., _, _, h => execConfigChangeTime_fixed (h := h)
  | .gateEntryEnd .., _, _, h => execGateEntryEnd_fixed (h := h)
  | .meridianSet .., _, _, h => execMeridianSet_kept (h := h)
  | .meridianStep .., _, _, h => execMeridianStep_kept (h := h)
  | .meridianAdjustApply .., _, _, h => execMeridianAdjustApply_fixed (h := h)
  | .freqAdjWrite .., _, _, h => execFreqAdjWrite_kept (h := h)
  | .ppsInEdge .., _, _, h => execPpsInEdge_fixed (h := h)
  | .ppsOutSecond .., _, _, h => execPpsOutSecond_fixed (h := h)
  | .samplerVisit .., _, _, h => execSamplerVisit_fixed (h := h)
  | .laneGroupModeWrite .., _, _, h => execLaneGroupModeWrite_kept (h := h)
  | .portEnableWrite .., _, _, h => execPortEnableWrite_kept (h := h)
  | .autonegAttempt .., _, _, h => execAutonegAttempt_fixed (h := h)
  | .linkLoss .., _, _, h => execLinkLoss_fixed (h := h)
  | .remoteFault .., _, _, h => execRemoteFault_fixed (h := h)
  | .linkUp .., _, _, h => execLinkUp_fixed (h := h)
  | .txOversizeCut .., _, _, h => execTxOversizeCut_fixed (h := h)
  | .txUnderrun .., _, _, h => execTxUnderrun_fixed (h := h)
  | .frameTxComplete .., _, _, h => execFrameTxComplete_fixed (h := h)
  | .pauseFrameReceive .., _, _, h => execPauseFrameReceive_fixed (h := h)
  | .pauseTimerExpire .., _, _, h => execPauseTimerExpire_fixed (h := h)
  | .pauseFrameSend .., _, _, h => execPauseFrameSend_fixed (h := h)
  | .pauseRefresh .., _, _, h => execPauseRefresh_fixed (h := h)
  | .snapshot .., _, _, h => execSnapshot_kept (h := h)
  | .snapshotCopyDone .., _, _, h => execSnapshotCopyDone_fixed (h := h)
  | .snapshotAllApply .., _, _, h => execSnapshotAllApply_fixed (h := h)
  | .dataCellReceive .., _, _, h => execDataCellReceive_fixed (h := h)
  | .creditCellReceive .., _, _, h => execCreditCellReceive_fixed (h := h)
  | .demandReceive .., _, _, h => execDemandReceive_fixed (h := h)
  | .grantReceive .., _, _, h => execGrantReceive_fixed (h := h)
  | .lcfAck .., _, _, h => execLcfAck_fixed (h := h)
  | .lcfNak .., _, _, h => execLcfNak_fixed (h := h)
  | .lcfTrain .., _, _, h => execLcfTrain_fixed (h := h)
  | .lcfCreditInit .., _, _, h => execLcfCreditInit_fixed (h := h)
  | .lcfReady .., _, _, h => execLcfReady_fixed (h := h)
  | .lcfStepReq .., _, _, h => execLcfStepReq_fixed (h := h)
  | .lcfStepAck .., _, _, h => execLcfStepAck_fixed (h := h)
  | .lcfWakeReq .., _, _, h => execLcfWakeReq_fixed (h := h)
  | .lcfWakeAck .., _, _, h => execLcfWakeAck_fixed (h := h)
  | .linkAckTimer .., _, _, h => execLinkAckTimer_fixed (h := h)
  | .nakRepeat .., _, _, h => execNakRepeat_fixed (h := h)
  | .lcfRepeat .., _, _, h => execLcfRepeat_fixed (h := h)
  | .linkEnableWrite .., _, _, h => execLinkEnableWrite_kept (h := h)
  | .fabricLinkDown .., _, _, h => execFabricLinkDown_fixed (h := h)
  | .demandTimer .., _, _, h => execDemandTimer_fixed (h := h)
  | .egressGrant .., _, _, h => execEgressGrant_fixed (h := h)
  | .creditAudit .., _, _, h => execCreditAudit_fixed (h := h)
  | .fabricUtilWindowEnd .., _, _, h => execFabricUtilWindowEnd_fixed (h := h)
  | .linkIdleReady .., _, _, h => execLinkIdleReady_fixed (h := h)
  | .dramRequest .., _, _, h => execDramRequest_fixed (h := h)
  | .dramCommandSlot .., _, _, h => execDramCommandSlot_fixed (h := h)
  | .dramReadComplete .., _, _, h => execDramReadComplete_fixed (h := h)
  | .dramRefresh .., _, _, h => execDramRefresh_fixed (h := h)
  | .dramTempRead .., _, _, h => execDramTempRead_fixed (h := h)
  | .retrainNow .., _, _, h => execRetrainNow_kept (h := h)
  | .retrainWindowOpen .., _, _, h => execRetrainWindowOpen_fixed (h := h)
  | .retrainWindowClose .., _, _, h => execRetrainWindowClose_fixed (h := h)
  | .patternCommand .., _, _, h => execPatternCommand_kept (h := h)
  | .patternDone .., _, _, h => execPatternDone_fixed (h := h)
  | .fullTrain .., _, _, h => execFullTrain_kept (h := h)
  | .trainingComplete .., _, _, h => execTrainingComplete_fixed (h := h)
  | .eccPoll .., _, _, h => execEccPoll_fixed (h := h)
  | .cxlBringupTimeout .., _, _, h => execCxlBringupTimeout_fixed (h := h)
  | .cxlMemoryActive .., _, _, h => execCxlMemoryActive_fixed (h := h)
  | .cxlLinkLost .., _, _, h => execCxlLinkLost_fixed (h := h)
  | .cxlCompletionTimeout .., _, _, h => execCxlCompletionTimeout_fixed (h := h)
  | .cxlFatalError .., _, _, h => execCxlFatalError_fixed (h := h)
  | .cxlRetrain .., _, _, h => execCxlRetrain_fixed (h := h)
  | .cxlEventPoll .., _, _, h => execCxlEventPoll_fixed (h := h)
  | .endpointReset .., _, _, h => execEndpointReset_fixed (h := h)
  | .attInvalidate .., _, _, h => execAttInvalidate_kept (h := h)
  | .doorbellWrite .., _, _, h => execDoorbellWrite_fixed (h := h)
  | .ringEnableWrite .., _, _, h => execRingEnableWrite_kept (h := h)
  | .ringStopDone .., _, _, h => execRingStopDone_fixed (h := h)
  | .puntWrite .., _, _, h => execPuntWrite_fixed (h := h)
  | .injectRead .., _, _, h => execInjectRead_fixed (h := h)
  | .batchRun .., _, _, h => execBatchRun_kept (h := h)
  | .recordRingWrite .., _, _, h => execRecordRingWrite_fixed (h := h)
  | .ringIrqTimer .., _, _, h => execRingIrqTimer_fixed (h := h)
  | .jdpFrameReceive .., _, _, h => execJdpFrameReceive_fixed (h := h)
  | .jdpRequest .., _, _, h => execJdpRequest_kept (h := h)
  | .jdpOpen .., _, _, h => execJdpOpen_fixed (h := h)
  | .jdpOpenReply .., _, _, h => execJdpOpenReply_fixed (h := h)
  | .jdpClose .., _, _, h => execJdpClose_fixed (h := h)
  | .jdpDiscover .., _, _, h => execJdpDiscover_fixed (h := h)
  | .sessionIdleTimeout .., _, _, h => execSessionIdleTimeout_fixed (h := h)
  | .sessionClose .., _, _, h => execSessionClose_kept (h := h)
  | .keySlotWrite .., _, _, h => execKeySlotWrite_kept (h := h)
  | .modeRequestStandby .., _, _, h => execModeRequestStandby_kept (h := h)
  | .modeRequestBringup .., _, _, h => execModeRequestBringup_kept (h := h)
  | .modeRequestForwarding .., _, _, h => execModeRequestForwarding_kept (h := h)
  | .modeRequestDrain .., _, _, h => execModeRequestDrain_kept (h := h)
  | .modeRequestQuiesce .., _, _, h => execModeRequestQuiesce_kept (h := h)
  | .modeRequestDiagnostic .., _, _, h => execModeRequestDiagnostic_kept (h := h)
  | .modeRequestFactory .., _, _, h => execModeRequestFactory_kept (h := h)
  | .drainEmpty .., _, _, h => execDrainEmpty_fixed (h := h)
  | .quiesceTimeout .., _, _, h => execQuiesceTimeout_fixed (h := h)
  | .functionReady .., _, _, h => execFunctionReady_fixed (h := h)
  | .bringupTimeout .., _, _, h => execBringupTimeout_fixed (h := h)
  | .leanWindow .., _, _, h => execLeanWindow_fixed (h := h)
  | .clusterParkDone .., _, _, h => execClusterParkDone_fixed (h := h)
  | .clusterWakeDone .., _, _, h => execClusterWakeDone_fixed (h := h)
  | .domainRequestWrite .., _, _, h => execDomainRequestWrite_kept (h := h)
  | .domainOnDone .., _, _, h => execDomainOnDone_fixed (h := h)
  | .packageReset .., _, _, h => execPackageReset_kept (h := h)
  | .resetLAssert .., _, _, h => execResetLAssert_fixed (h := h)
  | .resetLRelease .., _, _, h => execResetLRelease_fixed (h := h)
  | .faultAccept .., _, _, h => execFaultAccept_fixed (h := h)
  | .cairnComplete .., _, _, h => execCairnComplete_fixed (h := h)
  | .heldDumpPath .., _, _, h => execHeldDumpPath_fixed (h := h)
  | .faultRecordReceive .., _, _, h => execFaultRecordReceive_fixed (h := h)
  | .faultStagingCommit .., _, _, h => execFaultStagingCommit_fixed (h := h)
  | .repeatUpdateReceive .., _, _, h => execRepeatUpdateReceive_fixed (h := h)
  | .logAck .., _, _, h => execLogAck_kept (h := h)
  | .firstFaultClear .., _, _, h => execFirstFaultClear_kept (h := h)
  | .logRead .., _, _, h => execLogRead_kept (h := h)
  | .dieLogRead .., _, _, h => execDieLogRead_kept (h := h)
  | .dumpNow .., _, _, h => execDumpNow_kept (h := h)
  | .dumpAck .., _, _, h => execDumpAck_kept (h := h)
  | .resetHoldTimeout .., _, _, h => execResetHoldTimeout_fixed (h := h)
  | .faultInject .., _, _, h => execFaultInject_kept (h := h)
  | .spareRebuildDone .., _, _, h => execSpareRebuildDone_fixed (h := h)
  | .sliceDue .., _, _, h => execSliceDue_fixed (h := h)
  | .sliceConditionCheck .., _, _, h => execSliceConditionCheck_fixed (h := h)
  | .bankMirrorDone .., _, _, h => execBankMirrorDone_fixed (h := h)
  | .bankTestDone .., _, _, h => execBankTestDone_fixed (h := h)
  | .bankRestoreDone .., _, _, h => execBankRestoreDone_fixed (h := h)
  | .engineDrained .., _, _, h => execEngineDrained_fixed (h := h)
  | .engineDrainTimeout .., _, _, h => execEngineDrainTimeout_fixed (h := h)
  | .engineTestDone .., _, _, h => execEngineTestDone_fixed (h := h)
  | .cstoreWalkDone .., _, _, h => execCstoreWalkDone_fixed (h := h)
  | .segmentMarchDone .., _, _, h => execSegmentMarchDone_fixed (h := h)
  | .diagLoopback .., _, _, h => execDiagLoopback_kept (h := h)
  | .diagPattern .., _, _, h => execDiagPattern_kept (h := h)
  | .counterValueWrite .., _, _, h => execCounterValueWrite_kept (h := h)
  | .sampleRead .., _, _, h => execSampleRead_kept (h := h)
  | .sampleClear .., _, _, h => execSampleClear_kept (h := h)
  | .jtagIdcode .., _, _, h => execJtagIdcode_fixed (h := h)
  | .jtagSamplePreload .., _, _, h => execJtagSamplePreload_fixed (h := h)
  | .jtagExtest .., _, _, h => execJtagExtest_fixed (h := h)
  | .jtagExtestPulse .., _, _, h => execJtagExtestPulse_fixed (h := h)
  | .jtagExtestTrain .., _, _, h => execJtagExtestTrain_fixed (h := h)
  | .jtagClamp .., _, _, h => execJtagClamp_fixed (h := h)
  | .jtagHighz .., _, _, h => execJtagHighz_fixed (h := h)
  | .jtagInternalScan .., _, _, h => execJtagInternalScan_fixed (h := h)
  | .jtagDebugAccess .., _, _, h => execJtagDebugAccess_fixed (h := h)
  | .jtagBypass .., _, _, h => execJtagBypass_fixed (h := h)
  | .hostOffer .., _, _, h => execHostOffer_kept _ _ _ h
  | .hostBlock .., _, _, h => execHostBlock_kept (h := h)
  | .hostEnd .., _, _, h => execHostEnd_kept (h := h)
  | .fwAbort .., _, _, h => execFwAbort_kept (h := h)
  | .jdpOffer .., _, _, h => execJdpOffer_fixed (h := h)
  | .jdpBlock .., _, _, h => execJdpBlock_fixed (h := h)
  | .jdpStatus .., _, _, h => execJdpStatus_fixed (h := h)
  | .jdpEnd .., _, _, h => execJdpEnd_fixed (h := h)
  | .statusTimer .., _, _, h => execStatusTimer_fixed (h := h)
  | .blockResendTimeout .., _, _, h => execBlockResendTimeout_fixed (h := h)
  | .relayOpenRetry .., _, _, h => execRelayOpenRetry_fixed (h := h)
  | .sessionStallTimeout .., _, _, h => execSessionStallTimeout_fixed (h := h)
  | .stagingCheckDone .., _, _, h => execStagingCheckDone_fixed (h := h)
  | .activate .., _, _, h => execActivate_kept (h := h)
  | .inplaceSwitchDone .., _, _, h => execInplaceSwitchDone_kept (h := h)
  | .confirm .., _, _, h => execConfirm_kept (h := h)
  | .probationExpire .., _, _, h => execProbationExpire_fixed (h := h)
  | .revert .., _, _, h => execRevert_kept (h := h)
  | .settingsAccept .., _, _, h => execSettingsAccept_kept (h := h)
  | .settingsFallback .., _, _, h => execSettingsFallback_kept (h := h)
  | .railUndervoltage .., _, _, h => execRailUndervoltage_fixed (h := h)
  | .railOvervoltage .., _, _, h => execRailOvervoltage_fixed (h := h)
  | .railOvercurrent .., _, _, h => execRailOvercurrent_fixed (h := h)
  | .vinMeasure .., _, _, h => execVinMeasure_fixed (h := h)
  | .powerOnReset .., _, _, h => execPowerOnReset_fixed (h := h)
  | .pwrokLow .., _, _, h => execPwrokLow_fixed (h := h)
  | .timeclkLost .., _, _, h => execTimeclkLost_fixed (h := h)
  | .refclkNetLost .., _, _, h => execRefclkNetLost_fixed (h := h)
  | .refclkNetReturn .., _, _, h => execRefclkNetReturn_fixed (h := h)
  | .refclkFabLost .., _, _, h => execRefclkFabLost_fixed (h := h)
  | .refclkPciLost .., _, _, h => execRefclkPciLost_fixed (h := h)
  | .thermalSensorRead .., _, _, h => execThermalSensorRead_fixed (h := h)
  | .saddleTrainingDone .., _, _, h => execSaddleTrainingDone_fixed (h := h)
  | .saddleLaneLoss .., _, _, h => execSaddleLaneLoss_fixed (h := h)
  | .fabricAlignmentLock .., _, _, h => execFabricAlignmentLock_fixed (h := h)
  | .dramPhyLaneLoss .., _, _, h => execDramPhyLaneLoss_fixed (h := h)
  | .dramCatastrophicTemp .., _, _, h => execDramCatastrophicTemp_fixed (h := h)
  | .watchdogExpire .., _, _, h => execWatchdogExpire_fixed (h := h)
  | .timeclkLock .., _, _, h => execTimeclkLock_fixed (h := h)
  | .refclkFabReturn .., _, _, h => execRefclkFabReturn_fixed (h := h)
  | .powerOnResetRelease .., _, _, h => execPowerOnResetRelease_fixed (h := h)
  | .domainStopDone .., _, _, h => execDomainStopDone_fixed (h := h)
  | .selfCheckDone .., _, _, h => execSelfCheckDone_fixed (h := h)
  | .bootImageReadDone .., _, _, h => execBootImageReadDone_fixed (h := h)
  | .mgmtPortLinkChange .., _, _, h => execMgmtPortLinkChange_fixed (h := h)

/-- Every command carries over the queue, the part, the clock, the counter and the blown bits. -/
theorem exec_carries {c : Instr} {s t : State} (h : exec c s = .next t) : Carries s t :=
  Carries.of_kept (exec_leavesFixed c s t h).kept

/-- A command without an access leaves the whole fixed part alone. -/
theorem exec_fixed {c : Instr} {s t : State} (hc : c.carriesAccess = false) (h : exec c s = .next t) :
    t.fixed = s.fixed := by
  have := exec_leavesFixed c s t h
  rwa [hc] at this

/-! ### The obligations on every command -/

/-- Settles O3: each command is a total change at the die that it names. That an absent die stops it is log entry 4. -/
theorem everyCommandAnswersOrNamesAnAbsentDie : Obligations.EveryCommandAnswersOrNamesAnAbsentDie := by
  unfold Obligations.EveryCommandAnswersOrNamesAnAbsentDie
  intro c s
  obtain ⟨f, hf⟩ := exec_eq_onNamedDie c
  rw [hf s]
  exact ⟨fun _ hd habsent => onNamedDie_absent hd habsent, fun hpresent => ⟨f s, onNamedDie_next hpresent⟩⟩

/-- Settles O4: of what every command carries over, the queue, the part and the clock (log entry 2). -/
theorem noCommandMovesQueuePartOrClock : Obligations.NoCommandMovesQueuePartOrClock := by
  unfold Obligations.NoCommandMovesQueuePartOrClock
  intro c s t h
  obtain ⟨hpending, hpart, hnow, -, -⟩ := exec_carries h
  exact ⟨hpending, hpart, hnow⟩

end Sys2Proof.Machine
end

section
/-! Shared operations of the scope chapter: the arbiter's pick (R22) and the two byte orders (R5, R6). -/

namespace Sys2Proof.Machine

/-! ### The arbiter -/

/-- A winner is the first index in the arbiter's order, which counts upward from the pointer and wraps to 0. -/
theorem arbiter_eq_some_iff {n ptr i : Nat} {req : Nat → Bool} :
    arbiter n ptr req = some i ↔
      req i = true ∧ ∃ k, k < n ∧ i = (ptr + k) % n ∧ ∀ j, j < k → req ((ptr + j) % n) = false := by
  unfold arbiter
  rw [List.find?_eq_some_iff_getElem]
  simp only [List.length_map, List.length_range, List.getElem_map, List.getElem_range, Bool.not_eq_true',
    exists_prop, eq_comm (b := i)]

/-- Counting n indices upward from the pointer meets every index. -/
theorem exists_add_mod_eq {n ptr i : Nat} (hptr : ptr < n) (hi : i < n) : ∃ k, k < n ∧ (ptr + k) % n = i := by
  by_cases hle : ptr ≤ i
  · refine ⟨i - ptr, by omega, ?_⟩
    rw [Nat.add_sub_cancel' hle, Nat.mod_eq_of_lt hi]
  · refine ⟨n - ptr + i, by omega, ?_⟩
    rw [show ptr + (n - ptr + i) = i + n by omega, Nat.add_mod_right, Nat.mod_eq_of_lt hi]

theorem arbiter_eq_none_iff {n ptr : Nat} {req : Nat → Bool} (hptr : ptr < n) :
    arbiter n ptr req = none ↔ ∀ i, i < n → req i = false := by
  simp only [arbiter, List.find?_eq_none, List.mem_map, List.mem_range, Bool.not_eq_true]
  constructor
  · intro hnone i hi
    exact hnone i (exists_add_mod_eq hptr hi)
  · rintro hnone _ ⟨k, -, rfl⟩
    exact hnone _ (Nat.mod_lt _ (by omega))

/-- Settles O39: a winner is the first requester of the arbiter's order, and that order meets every index. -/
theorem arbiterTakesFirstAtOrAfterPointer : Obligations.ArbiterTakesFirstAtOrAfterPointer := by
  unfold Obligations.ArbiterTakesFirstAtOrAfterPointer
  intro n ptr req hptr
  refine ⟨fun i hwin => ?_, arbiter_eq_none_iff hptr⟩
  obtain ⟨hreq, k, hk, hi, hfirst⟩ := arbiter_eq_some_iff.1 hwin
  exact ⟨k, hk, hi, hreq, hfirst⟩

/-! ### Byte orders -/

@[simp] theorem length_toBytesLE (n x : Nat) : (toBytesLE n x).length = n := by simp [toBytesLE]

theorem getElem?_toBytesLE {n i : Nat} (x : Nat) (hi : i < n) :
    (toBytesLE n x)[i]? = some (BitVec.ofNat 8 (x >>> (8 * i))) := by
  simp [toBytesLE, hi]

/-- The big-endian bytes are the little-endian ones, last first. -/
theorem toBytes_eq_reverse (n x : Nat) : toBytes n x = (toBytesLE n x).reverse := by
  refine List.ext_getElem (by simp [toBytes, toBytesLE]) fun i _ _ => ?_
  simp [toBytes, toBytesLE]

/-- Reading bytes last first reads the other order. -/
theorem beNat_reverse (bs : Bytes) : beNat bs.reverse = leNat bs := by
  simp only [beNat, leNat, List.foldl_reverse]

/-- The least significant byte goes first, and the others are those of the rest. -/
theorem toBytesLE_succ (n x : Nat) : toBytesLE (n + 1) x = BitVec.ofNat 8 x :: toBytesLE n (x >>> 8) := by
  simp [toBytesLE, List.range_succ_eq_map, Nat.mul_add, Nat.shiftRight_add, Nat.add_comm]

theorem leNat_cons (b : Byte) (bs : Bytes) : leNat (b :: bs) = leNat bs * 256 + b.toNat := rfl

/-- n bytes hold a number modulo 256^n. -/
theorem leNat_toBytesLE (n x : Nat) : leNat (toBytesLE n x) = x % 256 ^ n := by
  induction n generalizing x with
  | zero => simp [toBytesLE, leNat, Nat.mod_one]
  | succ n ih =>
    calc leNat (toBytesLE (n + 1) x)
      _ = x / 256 % 256 ^ n * 256 + x % 256 := by
        simp [toBytesLE_succ, leNat_cons, ih, Nat.shiftRight_eq_div_pow]
      _ = x % (256 * 256 ^ n) := by rw [Nat.mod_mul, Nat.add_comm, Nat.mul_comm]
      _ = x % 256 ^ (n + 1) := by rw [Nat.pow_succ']

theorem beNat_toBytes (n x : Nat) : beNat (toBytes n x) = x % 256 ^ n := by
  rw [toBytes_eq_reverse, beNat_reverse, leNat_toBytesLE]

@[simp] theorem length_toBytes (n x : Nat) : (toBytes n x).length = n := by
  rw [toBytes_eq_reverse, List.length_reverse, length_toBytesLE]

/-- Settles O40: little-endian byte by byte, and the big-endian form as its reverse. -/
theorem byteOrders : Obligations.ByteOrders := by
  unfold Obligations.ByteOrders
  intro n x
  exact ⟨leNat_toBytesLE n x, beNat_toBytes n x, length_toBytesLE n x, length_toBytes n x,
    fun _ hi => getElem?_toBytesLE x hi, toBytes_eq_reverse n x⟩

end Sys2Proof.Machine
end

section
/-! The first checks of an access (R477), and the selector all: (R11). -/

namespace Sys2Proof.Machine

/-- An access that a check of R477 fails answers that check's status and changes nothing. -/
theorem accessNow_refused {s : State} {r c : Nat} {a : Access} (hon : onIsolated s r = false) (hc : c ≠ 0)
    (hcheck : precheck s r a = c) : accessNow r a s = ({ status := c }, s) := by
  unfold accessNow
  rw [if_neg (by simp [hon])]
  simp only [hcheck, if_pos hc]

/-- Where checks 1 and 2 pass, a selector that does not fit is what check 3 refuses. -/
theorem precheck_badSelector {s : State} {r : Nat} {a : Access} {e : EntryRow} (h1 : check1 s r a = 0)
    (hrow : accessRow a = some e) (hop : a.op ≠ .describe) (hsel : badSelector a = true) : precheck s r a = 0x14 := by
  simp [precheck, h1, hrow, hop, hsel]

/-- A read meets the row of its own entry: only a write of 1 to a reserved ring's enable meets another (R457). -/
theorem accessRow_of_read {a : Access} (hop : a.op = .read) : accessRow a = findEntry a.idx a.sub := by
  simp [accessRow, hop]

theorem badSelector_all {a : Access} (hsel : a.sel = .all) :
    badSelector a = (!isPerDie a.idx || a.op == .read || (tableAccess a && oneDieOnly a.val)) := by
  simp only [badSelector, hsel]

/-- The selector all: fits no read. -/
theorem badSelector_all_read {a : Access} (hsel : a.sel = .all) (hop : a.op = .read) : badSelector a = true := by
  simp [badSelector_all hsel, hop]

/-- It fits a write of a per-die entry, but for a table command that must name one die (R58). -/
theorem badSelector_all_write {a : Access} (hsel : a.sel = .all) (hop : a.op = .write)
    (hdie : isPerDie a.idx = true) : badSelector a = (tableAccess a && oneDieOnly a.val) := by
  simp [badSelector_all hsel, hop, hdie]

/-- Settles O59: check 3 refuses each read under all:, and of the writes of per-die entries the two that R58 names. -/
theorem selectorAllIsForWritesOnly : Obligations.SelectorAllIsForWritesOnly := by
  unfold Obligations.SelectorAllIsForWritesOnly
  intro s r a hsel
  refine ⟨fun hop hon h1 h2 => ?_, fun hop hdie => badSelector_all_write hsel hop hdie⟩
  obtain ⟨e, he⟩ := Option.isSome_iff_exists.1 h2
  have hrow : accessRow a = some e := (accessRow_of_read hop).trans he
  have hcheck : precheck s r a = 0x14 :=
    precheck_badSelector h1 hrow (by simp [hop]) (badSelector_all_read hsel hop)
  exact accessNow_refused hon (by decide) hcheck

end Sys2Proof.Machine
end

section
/-! Rows of the opcode table read as their effects (O12, O13) and as writes of their entries (O33). -/

namespace Sys2Proof.Machine

/-- What a command answers, it carries over what no command changes. -/
theorem Answers.of_exec {c : Instr} {s t : State} (h : exec c s = .next t) : Answers c s t :=
  ⟨h, exec_carries h⟩

/-- A command whose effect a present die has answers the state of that effect. -/
theorem Answers.of_present {c : Instr} {d : Nat} {f : State → State} {s : State} (hd : s.has d = true)
    (hexec : exec c s = onPresent d f s) : Answers c s (f s) :=
  .of_exec (hexec.trans (onPresent_next hd))

/-- Settles O12: each saddle command has its effect on the die that it names. -/
theorem saddleCommandsComplete : Obligations.SaddleCommandsComplete := by
  unfold Obligations.SaddleCommandsComplete
  intro s d hd
  exact ⟨fun _ _ => .of_present hd rfl, fun _ => .of_present hd rfl, fun _ => .of_present hd rfl,
    fun _ => .of_present hd rfl, .of_present hd rfl, fun _ _ => .of_present hd rfl, fun _ => .of_present hd rfl,
    fun _ => .of_present hd rfl, fun _ => .of_present hd rfl, fun _ _ => .of_present hd rfl, fun _ => .of_present hd rfl⟩

/-- Settles O13: eight of the commands have their effect on the die that they name, three on the package. -/
theorem summitCommandsComplete : Obligations.SummitCommandsComplete := by
  unfold Obligations.SummitCommandsComplete
  intro s
  refine ⟨fun d hd => ?onDie, ?onPackage⟩
  case onDie =>
    exact ⟨.of_present hd rfl, .of_present hd rfl, .of_present hd rfl, .of_present hd rfl, .of_present hd rfl,
      .of_present hd rfl, .of_present hd rfl, .of_present hd rfl⟩
  case onPackage => exact ⟨.of_exec rfl, .of_exec rfl, .of_exec rfl⟩

/-! ### Writes of entries -/

/-- A value that fits a field keeps it in any wider word. -/
theorem toNat_ofNat_mod_of_lt {w n v : Nat} (hn : n ≤ w) (hv : v < 2 ^ n) : (BitVec.ofNat w v).toNat % 2 ^ n = v := by
  rw [BitVec.toNat_ofNat, Nat.mod_mod_of_dvd v (Nat.pow_dvd_pow 2 hn), Nat.mod_eq_of_lt hv]

/-- DICT_WRITE spelled with numbers that fit their operands presents the write of just those numbers. -/
theorem exec_dictWrite_ofNat {r : Requester} {sel : Sel} {i sub len v : Nat} {s : State} (hi : i < 65536) (hsub : sub < 256)
    (hlen : len < 1033) (hv : v < 2 ^ (8 * len)) :
    exec (.dictWrite r sel (Fin.ofNat 65536 i) (Fin.ofNat 256 sub) (Fin.ofNat 1033 len) (BitVec.ofNat 8256 v)) s =
      .next (writeBy r sel i sub len v s) := by
  have hvalue : (BitVec.ofNat 8256 v).toNat % 2 ^ (8 * len) = v := toNat_ofNat_mod_of_lt (by omega) hv
  simp only [exec, execDictWrite, Fin.val_ofNat, Nat.mod_eq_of_lt hi, Nat.mod_eq_of_lt hsub, Nat.mod_eq_of_lt hlen, hvalue]

/-- A command that presents the write of an entry, with a value of the length it gives, is that write. -/
theorem WritesEntry.of_writeBy {c : Instr} {r : Requester} {sel : Sel} {i sub len v : Nat} {s : State} (hi : i < 65536)
    (hsub : sub < 256) (hlen : len < 1033) (hv : v < 2 ^ (8 * len))
    (hexec : exec c s = .next (writeBy r sel i sub len v s)) : WritesEntry c r sel i sub len v s :=
  ⟨hi, hsub, hlen, hv, _, hexec, exec_carries hexec, exec_dictWrite_ofNat hi hsub hlen hv⟩

/-- A flag is a value of one byte. -/
theorem b2n_lt_byte (b : Bool) : b2n b < 2 ^ (8 * 1) := by
  cases b <;> decide

/-- Two addresses of 48 bits, at bits 80 and 32, are a value of 16 bytes (R455). -/
theorem addressRange_lt (first last : BitVec 48) : first.toNat <<< 80 ||| last.toNat <<< 32 < 2 ^ (8 * 16) := by
  have hlast : last.toNat <<< 32 < 2 ^ 80 := Nat.shiftLeft_lt last.isLt
  exact Nat.or_lt_two_pow (Nat.shiftLeft_lt first.isLt) (hlast.trans (by decide))

/-- Settles O33: each row presents the write of its entry, and its operands fit the entry's index, subindex and length. -/
theorem datapathWritesWriteTheirEntries : Obligations.DatapathWritesWriteTheirEntries := by
  unfold Obligations.DatapathWritesWriteTheirEntries
  intro s
  refine ⟨fun r v => ?rejoin, fun r sub v => ?homeMap, fun r sub v => ?shadowMode, fun r => ?inherit, fun r => ?discard,
    fun r => ?swap, fun r => ?retire, fun r sel slot n v => ?rate, fun r sel slot n v => ?burst,
    fun r sel slot n => ?shaperReset, fun r sel slot t => ?template, fun r sel slot => ?config, fun r t => ?set,
    fun r v => ?step, fun r v => ?freq, fun r sel g m => ?laneMode, fun r sel slot on => ?port, fun r sel => ?snapshot,
    fun r sel v => ?link, fun r sel v => ?retrain, fun r sel k v => ?pattern, fun r sel v => ?train,
    fun r e first last => ?invalidate, fun r sel k on => ?ring⟩
  case inherit | discard | swap | retire | shaperReset | config | snapshot =>
    exact .of_writeBy (by omega) (by omega) (by decide) (by decide) rfl
  case template => exact .of_writeBy (by omega) (by decide) (by decide) t.isLt rfl
  case set => exact .of_writeBy (by decide) (by decide) (by decide) t.isLt rfl
  case laneMode => exact .of_writeBy (by decide) (by omega) (by decide) m.isLt rfl
  case port | ring => exact .of_writeBy (by omega) (by decide) (by decide) (b2n_lt_byte on) rfl
  case invalidate => exact .of_writeBy (by omega) (by decide) (by decide) (addressRange_lt first last) rfl
  case rejoin | homeMap | shadowMode | rate | burst | step | freq | link | retrain | pattern | train =>
    exact .of_writeBy (by omega) (by omega) (by decide) v.isLt rfl

end Sys2Proof.Machine
end

section
/-! A whole transfer leaves its receiver (R35, R86): what the transmitter of a saddle leaves as it is, and the two things
that the transfer of a record can meet at its destination. -/

namespace Sys2Proof.Machine

/-! ### Saddle ends -/

@[simp] theorem saddle_onSaddle_same (d k : Nat) (f : Saddle → Saddle) (s : State) :
    saddle (onSaddle d k f s) d k = f (saddle s d k) := by
  simp [saddle, onSaddle, mmod]

theorem saddle_onSaddle_ne {d k j : Nat} (f : Saddle → Saddle) (s : State) (h : j ≠ k) :
    saddle (onSaddle d k f s) d j = saddle s d j := by
  simp [saddle, onSaddle, mmod, mget_mput_ne _ _ h]

@[simp] theorem msg?_onSaddle (d k : Nat) (f : Saddle → Saddle) (s : State) (id : Nat) :
    (onSaddle d k f s).msg? id = s.msg? id := by
  simp [State.msg?, onSaddle]

/-! ### What the transmitter leaves as it is -/

/-- From `s` to `t` no message, packet, mode or other die has changed, and the receivers of die `d` hold the same whole
transfers. -/
structure KeepsReceivers (d : Nat) (s t : State) : Prop where
  msgs : t.msgs = s.msgs
  pkts : t.pkts = s.pkts
  mode : t.mode = s.mode
  others : ∀ e, e ≠ d → t.die e = s.die e
  whole : ∀ k, (saddle t d k).rxWhole = (saddle s d k).rxWhole

namespace KeepsReceivers

theorem refl (d : Nat) (s : State) : KeepsReceivers d s s := ⟨rfl, rfl, rfl, fun _ _ => rfl, fun _ => rfl⟩

theorem trans {d : Nat} {s t u : State} (h : KeepsReceivers d s t) (k : KeepsReceivers d t u) : KeepsReceivers d s u where
  msgs := k.msgs.trans h.msgs
  pkts := k.pkts.trans h.pkts
  mode := k.mode.trans h.mode
  others e he := (k.others e he).trans (h.others e he)
  whole j := (k.whole j).trans (h.whole j)

theorem each {α : Type} {d : Nat} {f : α → State → State} (hf : ∀ x s, KeepsReceivers d s (f x s)) (l : List α) (s : State) :
    KeepsReceivers d s (s.each l f) := by
  unfold State.each
  induction l generalizing s with
  | nil => exact refl d s
  | cons x l ih => exact (hf x s).trans (ih (f x s))

/-- A change of the die that keeps the saddles. -/
theorem onDie {d : Nat} {f : Die → Die} (s : State) (hf : ∀ x, (f x).core.saddles = x.core.saddles) :
    KeepsReceivers d s (s.onDie d f) where
  msgs := s.onDie_msgs d f
  pkts := s.onDie_pkts d f
  mode := s.onDie_mode d f
  others _ he := s.die_onDie_ne f he
  whole k := by simp [saddle, hf]

/-- A change of a saddle end that keeps what its receiver holds whole. -/
theorem onSaddle {d k : Nat} {f : Saddle → Saddle} (s : State) (hf : ∀ x, (f x).rxWhole = x.rxWhole) :
    KeepsReceivers d s (onSaddle d k f s) where
  msgs := s.onDie_msgs d _
  pkts := s.onDie_pkts d _
  mode := s.onDie_mode d _
  others _ he := s.die_onDie_ne _ he
  whole j := by
    by_cases hj : j = k
    · subst hj
      rw [saddle_onSaddle_same, hf]
    · rw [saddle_onSaddle_ne f s hj]

/-- A count of the die is a write of one register, with a free value where the counter is at its top. -/
theorem dinc (d i j n : Nat) (s : State) : KeepsReceivers d s (s.dinc d i j n) := by
  rcases s.dinc_cases d i j n with ⟨_, e⟩ | ⟨_, e⟩ <;> rw [e]
  · exact onDie s fun _ => rfl
  · have hfresh : KeepsReceivers d s s.fresh.2 := ⟨rfl, rfl, rfl, fun _ _ => rfl, fun _ => rfl⟩
    exact hfresh.trans (onDie _ fun _ => rfl)

theorem countFlit (d k : Nat) (esc : Bool) (s : State) : KeepsReceivers d s (countFlit d k esc s) := by
  unfold Machine.countFlit
  cases esc with
  | false => exact dinc d _ _ _ s
  | true => exact (dinc d _ _ _ s).trans (dinc d _ _ _ _)

theorem oweRoom (d k vc n : Nat) (s : State) : KeepsReceivers d s (oweRoom d k vc n s) := onSaddle s fun _ => rfl

theorem leaveRoom (d k vc : Nat) (s : State) : KeepsReceivers d s (leaveRoom d k vc s) := by
  unfold Machine.leaveRoom
  split
  · exact oweRoom ..
  · exact refl d s

end KeepsReceivers

theorem Saddle.transmit_rxWhole (x : Saddle) (vc : Nat) : (x.transmit vc).rxWhole = x.rxWhole := by
  unfold Saddle.transmit
  split <;> rfl

namespace KeepsReceivers

/-- The transmitter at work: each flit it sends, and each bare one, changes what it sends from and the counts. -/
theorem pumpN (n d k : Nat) (s : State) : KeepsReceivers d s (pumpN n d k s) := by
  induction n generalizing s with
  | zero => exact refl d s
  | succ n ih =>
    unfold Machine.pumpN
    dsimp only
    split
    · exact refl d s
    · split
      · next vc _ =>
        have hsent := (leaveRoom d k vc s).trans (onSaddle (k := k) _ (·.transmit_rxWhole vc))
        exact (hsent.trans (countFlit d k _ _)).trans (ih _)
      · split
        · have hbare := onSaddle (d := d) (k := k) (f := Saddle.bareFlit) s fun _ => rfl
          exact (hbare.trans (countFlit d k _ _)).trans (ih _)
        · exact refl d s

theorem pump (d k : Nat) (s : State) : KeepsReceivers d s (pump d k s) :=
  (pumpN _ d k s).trans (each (fun j a => pumpN _ d j a) _ _)

end KeepsReceivers

/-! ### The transfer of a dispatch or return record -/

/-- The credits of a transfer are owed to the far end (R29, R31). -/
def freeTransfer (d k : Nat) (fs : List Flit) (s : State) : State :=
  match fs.head?.map (fun f => (flitVc f, fs.length)) with
  | some (v, n) => oweRoom d k v n s
  | none => s

theorem KeepsReceivers.freeTransfer (d k : Nat) (fs : List Flit) (s : State) :
    KeepsReceivers d s (freeTransfer d k fs s) := by
  unfold Machine.freeTransfer
  split
  · exact oweRoom ..
  · exact refl d s

/-- A message has arrived, by a side, and stands in its receive buffer. -/
def arriveMsg (k id : Nat) (fs : List Flit) (x : Msg) : Msg :=
  if x.id = id ∧ !x.arrived then
    { x with arrived := true, via := k, room := fs.head?.map (fun f => (flitVc f, fs.length)) }
  else x

theorem arriveMsg_of_arrived {k id : Nat} {fs : List Flit} {x : Msg} (h : x.id = id → x.arrived = true) :
    arriveMsg k id fs x = x := by
  unfold arriveMsg
  split
  · next hboth =>
    obtain ⟨hid, hnot⟩ := hboth
    simp [h hid] at hnot
  · rfl

/-- The whole transfer at the head of a receiver is released. -/
def releaseWhole (d k : Nat) (r : List (Nat × List Flit)) (s : State) : State :=
  onSaddle d k (fun x => { x with rxWhole := r }) s

/-- The transfer of a record is released and its message, if it had not arrived, arrives. -/
def takeRecord (d k id : Nat) (fs : List Flit) (r : List (Nat × List Flit)) (m : Msg) (s : State) : State :=
  { releaseWhole d k r s with msgs := if m.arrived then s.msgs else s.msgs.map (arriveMsg k id fs) }

@[simp] theorem takeRecord_msgs (d k id : Nat) (fs : List Flit) (r : List (Nat × List Flit)) (m : Msg) (s : State) :
    (takeRecord d k id fs r m s).msgs = if m.arrived then s.msgs else s.msgs.map (arriveMsg k id fs) := rfl

@[simp] theorem takeRecord_pkts (d k id : Nat) (fs : List Flit) (r : List (Nat × List Flit)) (m : Msg) (s : State) :
    (takeRecord d k id fs r m s).pkts = s.pkts := rfl

@[simp] theorem takeRecord_mode (d k id : Nat) (fs : List Flit) (r : List (Nat × List Flit)) (m : Msg) (s : State) :
    (takeRecord d k id fs r m s).mode = s.mode := rfl

theorem die_takeRecord_ne {d e : Nat} (k id : Nat) (fs : List Flit) (r : List (Nat × List Flit)) (m : Msg) (s : State)
    (he : e ≠ d) : (takeRecord d k id fs r m s).die e = s.die e :=
  show (releaseWhole d k r s).die e = s.die e from s.die_onDie_ne _ he

@[simp] theorem rxWhole_takeRecord (d k id : Nat) (fs : List Flit) (r : List (Nat × List Flit)) (m : Msg) (s : State) :
    (saddle (takeRecord d k id fs r m s) d k).rxWhole = r :=
  congrArg Saddle.rxWhole (saddle_onSaddle_same d k (fun x => { x with rxWhole := r }) s)

section
variable {s : State} {d k id : Nat} {fs : List Flit} {r : List (Nat × List Flit)} {m : Msg} {i : Nat}

/-- A record at its destination: one that has arrived before only frees its room. -/
theorem arriveAt_record (hmsg : s.msg? id = some m) (hdst : m.dst = d) (hbody : m.body = .dispatch i ∨ m.body = .ret i) :
    arriveAt d k id fs s =
      if m.arrived then freeTransfer d k fs s else { s with msgs := s.msgs.map (arriveMsg k id fs) } := by
  rcases hbody with hbody | hbody <;> simp only [arriveAt, hmsg, hdst, hbody, if_true] <;> rfl

/-- What carries a record is no packet that needs units: it arrives with no more ado. -/
theorem transferAt_record (hmsg : s.msg? id = some m) (hbody : m.body = .dispatch i ∨ m.body = .ret i) :
    transferAt d k id fs s = (some (arriveAt d k id fs s), s) := by
  rcases hbody with hbody | hbody <;> simp only [transferAt, hmsg, hbody]

variable (hwhole : (saddle s d k).rxWhole = (id, fs) :: r) (hmsg : s.msg? id = some m) (hdst : m.dst = d)
  (hbody : m.body = .dispatch i ∨ m.body = .ret i)
include hwhole hmsg hdst hbody

/-- The transfer of a record for the die leaves the receiver and its message has arrived; the transmitters then send what
they owe. -/
theorem transferComplete_record :
    transferComplete d k s = pump d k (
      if m.arrived then freeTransfer d k fs (releaseWhole d k r s)
      else { releaseWhole d k r s with msgs := s.msgs.map (arriveMsg k id fs) }) := by
  have hmsg' : (releaseWhole d k r s).msg? id = some m := (msg?_onSaddle ..).trans hmsg
  unfold transferComplete
  rw [hwhole]
  dsimp only
  rw [← releaseWhole, transferAt_record hmsg' hbody, arriveAt_record hmsg' hdst hbody]
  rfl

/-- But for the release and the arrival, nothing that the transmitters do not change is changed. -/
theorem transferComplete_record_keeps : KeepsReceivers d (takeRecord d k id fs r m s) (transferComplete d k s) := by
  rw [transferComplete_record hwhole hmsg hdst hbody, takeRecord]
  refine .trans ?_ (.pump d k _)
  split
  · exact .freeTransfer d k fs (releaseWhole d k r s)
  · exact .refl d _

/-- What O58 says, of a state in which the transfer's number names one message. -/
theorem transferComplete_record_once (hone : ∀ x ∈ s.msgs, x.id = id → x = m) :
    (saddle (transferComplete d k s) d k).rxWhole = r ∧
      (transferComplete d k s).msgs = s.msgs.map (arriveMsg k id fs) ∧
      (∀ e, e ≠ d → (transferComplete d k s).die e = s.die e) ∧
      (transferComplete d k s).pkts = s.pkts ∧ (transferComplete d k s).mode = s.mode := by
  obtain ⟨hmsgs, hpkts, hmode, hothers, hheld⟩ := transferComplete_record_keeps hwhole hmsg hdst hbody
  refine ⟨(hheld k).trans (rxWhole_takeRecord ..), hmsgs.trans ?_,
    fun e he => (hothers e he).trans (die_takeRecord_ne _ _ _ _ _ _ he), hpkts, hmode⟩
  rw [takeRecord_msgs]
  split
  · next harrived =>
    have hsame : ∀ x ∈ s.msgs, arriveMsg k id fs x = x := fun x hx =>
      arriveMsg_of_arrived fun hid => hone x hx hid ▸ harrived
    exact (List.map_id _).symm.trans (List.map_congr_left fun x hx => (hsame x hx).symm)
  · rfl
end

/-! ### A number that names two messages -/

/-- Die 0 holds one whole transfer from its east side, and its number 9 names two return records for the die, of which the
first has arrived. -/
def recordTwice : State :=
  { State.reset with
    msgs := [{ id := 9, body := .ret 7, arrived := true }, { id := 9, body := .ret 7 }]
    dies := [(0, { core := { saddles := [(1, { rxWhole := [(9, [])] })] } })] }

/-- Refutes O58: the statement does not ask that numbers of messages differ. In `recordTwice` the transfer belongs to the
first of two, which has arrived, so that no message changes; the statement has the second arrive.
`transferComplete_record_once` is what holds. -/
theorem not_saddleTransferLeavesTheReceiver : ¬ Obligations.SaddleTransferLeavesTheReceiver := by
  unfold Obligations.SaddleTransferLeavesTheReceiver
  intro h
  have hwhole : (saddle recordTwice (0 : DieId).val (sideNo .e)).rxWhole = [(9, [])] := by decide
  have hmsg : recordTwice.msg? 9 = some { id := 9, body := .ret 7, arrived := true } := by decide
  obtain ⟨t, hexec, -, hmsgs, -⟩ := (h recordTwice 0 .e (by decide)).2 9 [] [] _ 7 hwhole hmsg rfl (.inr rfl)
  have hkept : t.msgs = recordTwice.msgs := by
    obtain rfl : transferComplete (0 : DieId) (sideNo .e) recordTwice = t := Host.Outcome.next.inj hexec
    exact (transferComplete_record_keeps hwhole hmsg rfl (.inr rfl)).msgs
  exact absurd (hkept.symm.trans hmsgs) (by decide)

end Sys2Proof.Machine
end

section
/-! Microwords: the rows of the ALU, the sequencer and the journal, and the commands of the control store, the resequencer and the
rewrite, read as their effects (O15 to O17); the issue of a word (O43); and the results of the ALU (O44). -/

namespace Sys2Proof.Machine

/-! ### Rows as effects on a live die -/

/-- A command to the functions of a die that does not hold still answers the state of its effect. -/
theorem Answers.of_live {c : Instr} {d : Nat} {f : State → State} {s : State} (hd : s.has d = true)
    (hlive : s.frozen d = false) (hexec : exec c s = onLive d f s) : Answers c s (f s) :=
  .of_exec (hexec.trans (onLive_next hd hlive))

/-- Settles O15: the row of each ALU operation issues a word of that operation on the live die that it names. -/
theorem aluWordsComplete : Obligations.AluWordsComplete := by
  unfold Obligations.AluWordsComplete
  intro s d hd hlive
  and_intros
  all_goals exact fun _ _ => .of_live hd hlive rfl

/-- Settles O16: a row of a word issues it, and the other two take a response and drain an entry. -/
theorem sequencerAndJournalWordsComplete : Obligations.SequencerAndJournalWordsComplete := by
  unfold Obligations.SequencerAndJournalWordsComplete
  intro s d hd hlive
  refine ⟨?next, ?jump, ?mway, ?call, ?ret, ?endWord, ?ldh, ?ldhx, ?jhdr, ?jhdrx, ?jdesc, ?jcnt, ?jmeter, ?jctx, ?jevt,
    ?commit, ?cntrd, ?searchIssue, ?searchResponse, ?entryDrain⟩
  case searchResponse => exact .of_live hd hlive rfl
  all_goals exact fun _ _ => .of_live hd hlive rfl

/-- Settles O17: each command has its effect on the live die that it names. -/
theorem controlStoreAndOrderCommandsComplete : Obligations.ControlStoreAndOrderCommandsComplete := by
  unfold Obligations.ControlStoreAndOrderCommandsComplete
  intro s d hd hlive
  exact ⟨fun _ _ _ => .of_live hd hlive rfl, fun _ _ _ => .of_live hd hlive rfl, fun _ => .of_live hd hlive rfl,
    fun _ _ => .of_live hd hlive rfl, fun _ => .of_live hd hlive rfl, fun _ _ => .of_live hd hlive rfl,
    .of_live hd hlive rfl, fun _ _ => .of_live hd hlive rfl, .of_live hd hlive rfl, .of_live hd hlive rfl⟩

/-! ### The issue of a word (R108, R109) -/

section
variable {s : State} {d c t : Nat} {r : Run} {row : Nat → Bool}

/-- A thread that runs nothing is not ready. -/
theorem threadReady_of_idle (hrun : (thread s d c t).run = none) : threadReady s d c t = false := by
  simp [threadReady, hrun]

/-- A thread that runs a routine is ready when its word can issue. -/
theorem threadReady_of_run (hrun : (thread s d c t).run = some r) :
    threadReady s d c t = canIssue s d c t r (threadWord s d c r) := by
  simp [threadReady, hrun]

/-- The issue slot of an engine goes to a ready thread. -/
theorem threadReady_of_hasSlot (hslot : hasSlot s d c t = true) : threadReady s d c t = true := by
  obtain ⟨hready, -⟩ := arbiter_eq_some_iff.1 (beq_iff_eq.1 hslot)
  rwa [Nat.div_add_mod'] at hready

theorem hasSlot_of_not_ready (hready : threadReady s d c t = false) : hasSlot s d c t = false :=
  Bool.eq_false_iff.2 fun hslot => by simp [threadReady_of_hasSlot hslot] at hready

/-- Without the slot no word of the thread issues (log entry 3). -/
theorem issue_of_no_slot (hslot : hasSlot s d c t = false) : issue d c t row s = s := by
  unfold issue
  cases (thread s d c t).run with
  | none => rfl
  | some r => simp [hslot]

/-- With the slot, at a word of the row and no flip at its address, the whole word issues. -/
theorem issue_of_slot (hrun : (thread s d c t).run = some r) (hslot : hasSlot s d c t = true)
    (hflip : s.flipAt d 4 c r.pc.toNat = none) (hrow : row (threadWord s d c r) = true) :
    issue d c t row s = issueWord d c t (threadWord s d c r) r s := by
  simp [issue, hrun, hslot, hflip, hrow]

/-- The row of a microword on a live die, whose thread does not have the slot. -/
theorem exec_row_of_no_slot {i : Instr} (hd : s.has d = true) (hlive : s.frozen d = false)
    (hslot : hasSlot s d c t = false) (hexec : exec i s = onLive d (issue d c t row) s) : exec i s = .next s := by
  rw [hexec, onLive_next hd hlive, issue_of_no_slot hslot]

/-- The row of the words whose field holds a code, on a live die, whose thread has the slot at such a word. -/
theorem exec_row_of_slot {field : Nat → Nat} {code : Nat} {i : Instr} (hd : s.has d = true) (hlive : s.frozen d = false)
    (hrun : (thread s d c t).run = some r) (hslot : hasSlot s d c t = true) (hflip : s.flipAt d 4 c r.pc.toNat = none)
    (hexec : exec i s = onLive d (issue d c t (fun w => field w == code)) s) (hcode : field (threadWord s d c r) = code) :
    exec i s = .next (issueWord d c t (threadWord s d c r) r s) := by
  rw [hexec, onLive_next hd hlive, issue_of_slot (row := fun w => field w == code) hrun hslot hflip (beq_iff_eq.2 hcode)]
end

/-- Settles O43: a word issues with the slot only, and a thread that is not ready does not have it. That the row of an
operation issues the whole word is log entry 9, and that a flip is met at the issue is log entry 78. -/
theorem microwordRowIssuesItsWord : Obligations.MicrowordRowIssuesItsWord := by
  unfold Obligations.MicrowordRowIssuesItsWord
  intro s d c t hd hlive
  refine ⟨fun hrun => ?idle, fun r hrun hcannot => ?cannotIssue, fun hslot => ?noSlot, fun r hrun hslot hflip => ?slot⟩
  case idle =>
    have hslot := hasSlot_of_not_ready (threadReady_of_idle hrun)
    and_intros
    all_goals exact exec_row_of_no_slot hd hlive hslot rfl
  case cannotIssue => exact hasSlot_of_not_ready ((threadReady_of_run hrun).trans hcannot)
  case noSlot =>
    and_intros
    all_goals exact exec_row_of_no_slot hd hlive hslot rfl
  case slot =>
    and_intros
    all_goals exact exec_row_of_slot hd hlive hrun hslot hflip rfl

/-! ### The ALU (Table 4.3, R115) -/

theorem getLsbD_andNot (a b : Word) {i : Nat} (hi : i < 64) :
    (a &&& ~~~b).getLsbD i = (a.getLsbD i && !b.getLsbD i) := by
  simp [hi]

theorem getLsbD_shiftLeft_fill (a : Word) (n : Nat) {i : Nat} (hi : i < 64) :
    (a <<< n).getLsbD i = (decide (n ≤ i) && a.getLsbD (i - n)) := by
  simp only [BitVec.getLsbD_shiftLeft, hi, decide_true, Bool.true_and, ← decide_not, Nat.not_lt]

theorem toNat_minu (a b : Word) : (if a.toNat ≤ b.toNat then a else b).toNat = min a.toNat b.toNat :=
  (apply_ite BitVec.toNat ..).trans Nat.min_def.symm

theorem toNat_maxu (a b : Word) : (if a.toNat ≤ b.toNat then b else a).toNat = max a.toNat b.toNat :=
  (apply_ite BitVec.toNat ..).trans Nat.max_def.symm

/-- A count of positions of a word fits a word. -/
theorem toNat_ofNat_of_le {n : Nat} (hn : n ≤ 64) : (BitVec.ofNat 64 n).toNat = n :=
  Nat.mod_eq_of_lt (by omega)

theorem sum_map_b2n (p : Nat → Bool) (l : List Nat) : (l.map (fun i => b2n (p i))).sum = (l.filter p).length := by
  induction l with
  | nil => rfl
  | cons i l ih => cases hp : p i <;> simp [b2n, hp, ← ih, Nat.add_comm]

/-- The set bits are the positions of ones among the 64. -/
theorem popc_eq_length_filter (a : Word) : popc a = ((List.range 64).filter (fun i => a.getLsbD i)).length :=
  sum_map_b2n ..

theorem popc_le (a : Word) : popc a ≤ 64 := by
  rw [popc_eq_length_filter]
  exact List.length_filter_le ..

theorem clz_le (a : Word) : clz a ≤ 64 := by
  unfold clz; split <;> omega

/-- A word is 0, with 64 leading zeros, or its highest one stands at the position that its leading zeros leave. -/
theorem clz_cases (a : Word) :
    a.toNat = 0 ∧ clz a = 64 ∨ a.toNat ≠ 0 ∧ clz a ≤ 63 ∧ a.toNat.log2 = 63 - clz a := by
  unfold clz
  split
  next hzero => exact .inl ⟨hzero, rfl⟩
  next hne =>
    have hlog : a.toNat.log2 < 64 := (Nat.log2_lt hne).2 a.isLt
    exact .inr ⟨hne, by omega, by omega⟩

/-- The leading zeros are zeros. -/
theorem getLsbD_of_clz_le {a : Word} {i : Nat} (hi : 64 - clz a ≤ i) : a.getLsbD i = false := by
  refine (BitVec.testBit_toNat a).symm.trans (Nat.testBit_lt_two_pow ?_)
  rcases clz_cases a with ⟨hzero, -⟩ | ⟨hne, hle, hlog⟩
  · rw [hzero]; exact Nat.two_pow_pos i
  · exact (Nat.log2_lt hne).1 (by omega)

/-- The bit below the leading zeros is a one. -/
theorem getLsbD_clz {a : Word} (h : clz a < 64) : a.getLsbD (63 - clz a) = true := by
  rcases clz_cases a with ⟨-, hclz⟩ | ⟨hne, -, hlog⟩
  · omega
  · rw [← hlog, ← BitVec.testBit_toNat]; exact Nat.testBit_log2 hne

/-- Settles O44: the result of each operation by its equation, read bit by bit or as a number. It says nothing
of NOP, AND, OR, XOR, EXT and INS, nor of the flags. -/
theorem aluResults : Obligations.AluResults := by
  unfold Obligations.AluResults
  intro a b old
  refine ⟨rfl, ⟨a + b, rfl, BitVec.toNat_add a b⟩, ⟨a - b, rfl, BitVec.sub_add_cancel a b⟩, rfl,
    ⟨_, rfl, fun _ hi => getLsbD_andNot a b hi⟩, ⟨_, rfl, fun _ hi => getLsbD_shiftLeft_fill a _ hi⟩,
    ⟨_, rfl, fun i _ => ?shr⟩, ⟨_, rfl, toNat_minu a b⟩, ⟨_, rfl, toNat_maxu a b⟩, ⟨_, rfl, ?popc⟩, ⟨_, rfl, ?clz⟩⟩
  case shr => rw [BitVec.getLsbD_ushiftRight, Nat.add_comm]
  case popc => rw [toNat_ofNat_of_le (popc_le a), popc_eq_length_filter]
  case clz =>
    rw [toNat_ofNat_of_le (clz_le a)]
    exact ⟨clz_le a, fun _ _ hi => getLsbD_of_clz_le hi, getLsbD_clz⟩

end Sys2Proof.Machine
end

section
/-! Tables: the commands of the forwarding, exact-match and rule tables read as their effects (O18), and the table, rule, gate
list and page commands as writes of their entries (O32). -/

namespace Sys2Proof.Machine

/-- Settles O18: a search, sweep, scrub or staging step has its effect on the live die that it names, the outcome at a home die
on any present one, and the end of a shadow copy on the package. -/
theorem tableCommandsComplete : Obligations.TableCommandsComplete := by
  unfold Obligations.TableCommandsComplete
  intro s
  refine ⟨fun d hd hlive => ?onLiveDie, fun d hd => ?onDie, fun _ => ?onPackage⟩
  case onLiveDie =>
    exact ⟨fun _ _ => .of_live hd hlive rfl, fun _ => .of_live hd hlive rfl, fun _ => .of_live hd hlive rfl,
      .of_live hd hlive rfl, .of_live hd hlive rfl, fun _ _ => .of_live hd hlive rfl, .of_live hd hlive rfl,
      .of_live hd hlive rfl, fun _ => .of_live hd hlive rfl, fun _ => .of_live hd hlive rfl,
      fun _ => .of_live hd hlive rfl, fun _ => .of_live hd hlive rfl⟩
  case onDie => exact .of_present hd rfl
  case onPackage => exact .of_exec rfl

/-! ### Fields of a command -/

theorem lt_two_pow_of_le {w n x : Nat} (hx : x < 2 ^ w) (hn : w ≤ n) : x < 2 ^ n :=
  hx.trans_le (Nat.pow_le_pow_right (by decide) hn)

/-- A field of w bits at position k lies below bit n. -/
theorem field_lt {w k n x : Nat} (hx : x < 2 ^ w) (hn : w + k ≤ n) : x <<< k < 2 ^ n :=
  lt_two_pow_of_le (Nat.shiftLeft_lt hx) hn

theorem toNat_field_lt {w k n : Nat} (x : BitVec w) (hn : w + k ≤ n) : x.toNat <<< k < 2 ^ n :=
  field_lt x.isLt hn

theorem b2n_lt (b : Bool) : b2n b < 2 ^ 1 := by
  cases b <;> decide

/-- An opcode and a table of one byte and flags below bit 112 leave a table command its 80 bytes (Table 7.11). -/
theorem commandOf_lt {op table low len : Nat} (rec : BitVec 512) (hop : op < 2 ^ 8) (htable : table < 2 ^ 8)
    (hlow : low < 2 ^ 112) (hlen : 80 ≤ len) : commandOf op table low rec < 2 ^ (8 * len) := by
  have hrecord : rec.toNat <<< 128 < 2 ^ (8 * len) := toNat_field_lt rec (by omega)
  have hopcode : op <<< 120 < 2 ^ (8 * len) := field_lt hop (by omega)
  have htableId : table <<< 112 < 2 ^ (8 * len) := field_lt htable (by omega)
  have hflags : low < 2 ^ (8 * len) := lt_two_pow_of_le hlow (by omega)
  exact Nat.or_lt_two_pow (Nat.or_lt_two_pow (Nat.or_lt_two_pow hrecord hopcode) htableId) hflags

/-- A flush has its port and its static flag below bit 112, where its filter is (R247). -/
theorem flushOperands_lt (port : BitVec 9) (statics : Bool) {filter : Nat} (hfilter : filter < 2 ^ 112) :
    port.toNat <<< 77 ||| b2n statics <<< 106 ||| filter < 2 ^ 112 := by
  have hport : port.toNat <<< 77 < 2 ^ 112 := toNat_field_lt port (by decide)
  have hstatics : b2n statics <<< 106 < 2 ^ 112 := field_lt (b2n_lt statics) (by decide)
  exact Nat.or_lt_two_pow (Nat.or_lt_two_pow hport hstatics) hfilter

/-- A filter, with the flag that there is one, stands below bit 112 (R247). -/
theorem flushFilter_lt (f : BitVec 14) : 1 <<< 105 ||| f.toNat <<< 86 < 2 ^ 112 :=
  Nat.or_lt_two_pow (by decide) (toNat_field_lt f (by decide))

/-- An opcode of one byte, a region of 8, a page of 32 bits and an address of 31 make a page command of 16 bytes (Table 9.6). -/
theorem pageValue_lt {op : Nat} (region : Fin 8) (page : BitVec 32) (hpa : BitVec 31) (fill : Bool) (hop : op < 2 ^ 8) :
    pageValue op region page.toNat hpa.toNat fill < 2 ^ (8 * 16) := by
  have hopcode : op <<< 120 < 2 ^ (8 * 16) := field_lt hop (by decide)
  have hregion : region.val <<< 117 < 2 ^ (8 * 16) := field_lt (w := 3) region.isLt (by decide)
  have hfill : b2n fill <<< 116 < 2 ^ (8 * 16) := field_lt (b2n_lt fill) (by decide)
  have hpage : page.toNat <<< 64 < 2 ^ (8 * 16) := toNat_field_lt page (by decide)
  have haddress : hpa.toNat < 2 ^ (8 * 16) := lt_two_pow_of_le hpa.isLt (by decide)
  exact Nat.or_lt_two_pow (Nat.or_lt_two_pow (Nat.or_lt_two_pow (Nat.or_lt_two_pow hopcode hregion) hfill) hpage) haddress

/-! ### Table and page commands as writes -/

/-- A command that presents a table command is the write of 4640.01. -/
theorem WritesEntry.of_tableBy {c : Instr} {r : Requester} {sel : Sel} {op table low : Nat} {rec : BitVec 512} {s : State}
    (hop : op < 2 ^ 8) (htable : table < 2 ^ 8) (hlow : low < 2 ^ 112)
    (hexec : exec c s = .next (tableBy r sel op table low rec s)) :
    WritesEntry c r sel 0x4640 1 80 (commandOf op table low rec) s :=
  .of_writeBy (by decide) (by decide) (by decide) (commandOf_lt rec hop htable hlow le_rfl) hexec

/-- A command that presents a page command is the write of 4411.01. -/
theorem WritesEntry.of_pageBy {c : Instr} {r : Requester} {sel : Sel} {op : Nat} {region : Fin 8} {page : BitVec 32}
    {hpa : BitVec 31} {fill : Bool} {s : State} (hop : op < 2 ^ 8)
    (hexec : exec c s = .next (pageBy r sel op region page hpa fill s)) :
    WritesEntry c r sel 0x4411 1 16 (pageValue op region page.toNat hpa.toNat fill) s :=
  .of_writeBy (by decide) (by decide) (by decide) (pageValue_lt region page hpa fill hop) hexec

/-- Settles O32: each row presents a table command or a page command, and its operands fit their fields. A command
without an address has 0 there. -/
theorem tableWritesWriteTheCommandEntry : Obligations.TableWritesWriteTheCommandEntry := by
  unfold Obligations.TableWritesWriteTheCommandEntry
  intro s
  refine ⟨fun _ _ _ => ?fibInsert, fun _ _ _ => ?fibDelete, fun _ _ t static _ => ?tableInsert, fun _ _ t _ => ?tableDelete,
    fun _ _ t _ => ?tableSearch, fun _ _ t cursor => ?tableNext, fun _ _ t port statics filter => ?flush,
    fun _ _ t _ => ?ruleInsert, fun _ _ t _ => ?ruleDelete, fun _ _ t _ => ?ruleSearch, fun _ _ t cursor => ?ruleNext,
    fun _ _ _ _ _ _ => ?map, fun _ _ _ _ => ?unmap, fun _ _ _ _ _ => ?migrate, fun _ _ _ _ => ?poison,
    fun _ _ _ _ _ _ => ?repair, fun _ _ _ _ => ?query, fun _ _ _ => ?gateList⟩
  case fibInsert | fibDelete | gateList => exact .of_tableBy (by decide) (by decide) (by decide) rfl
  case tableInsert => exact .of_tableBy (by decide) t.isLt (field_lt (b2n_lt static) (by decide)) rfl
  case tableDelete | tableSearch => exact .of_tableBy (by decide) t.isLt (by decide) rfl
  case tableNext => exact .of_tableBy (by decide) t.isLt (lt_two_pow_of_le cursor.isLt (by decide)) rfl
  case flush =>
    refine .of_tableBy (by decide) t.isLt (flushOperands_lt port statics ?filter) rfl
    cases filter with
    | none => decide
    | some f => exact flushFilter_lt f
  case ruleInsert | ruleDelete | ruleSearch => exact .of_tableBy (by decide) (by omega) (by decide) rfl
  case ruleNext => exact .of_tableBy (by decide) (by omega) (lt_two_pow_of_le cursor.isLt (by decide)) rfl
  case map | migrate | repair => exact .of_pageBy (by decide) rfl
  case unmap | poison | query => exact .of_pageBy (hpa := 0) (by decide) rfl

end Sys2Proof.Machine
end

section
/-! Epochs and contexts: the commands of switches, contexts, fills and pages read as their effects (O19). -/

namespace Sys2Proof.Machine

/-- Settles O19: the application of a switch, an access to a context, a fill or a page step has its effect on the live
die that it names; the other switch steps, and the grant of a lock on the context's home die unless that one holds
still, on the package. -/
theorem epochAndContextCommandsComplete : Obligations.EpochAndContextCommandsComplete := by
  unfold Obligations.EpochAndContextCommandsComplete
  intro s
  refine ⟨fun d hd hlive => ?onLiveDie, ?onPackage⟩
  case onLiveDie =>
    exact ⟨.of_live hd hlive rfl, fun _ => .of_live hd hlive rfl, fun _ => .of_live hd hlive rfl,
      fun _ => .of_live hd hlive rfl, fun _ => .of_live hd hlive rfl, .of_live hd hlive rfl,
      fun _ => .of_live hd hlive rfl, .of_live hd hlive rfl, fun _ => .of_live hd hlive rfl⟩
  case onPackage => exact ⟨.of_exec rfl, .of_exec rfl, .of_exec rfl, .of_exec rfl, fun _ => .of_exec rfl⟩

end Sys2Proof.Machine
end

section
/-! Ingress and buffers: the commands of ingress, dispatch and threads (O14), and those of the pools, the queues, replication
and the flush (O20), read as their effects on a live die. -/

namespace Sys2Proof.Machine

/-- Settles O14: a frame, dispatch, steal or thread step has its effect on the live die that it names, with the numbers of
its frames and requesters as that effect takes them. -/
theorem ingressAndThreadCommandsComplete : Obligations.IngressAndThreadCommandsComplete := by
  unfold Obligations.IngressAndThreadCommandsComplete
  intro s d hd hlive
  refine ⟨fun _ => ?frameStart, fun _ => ?parseStart, fun _ _ _ => ?frameTailReceive, fun _ => ?packetDispatch,
    ?dispatchRecordReceive, ?returnRecordReceive, fun _ _ => ?dispatchQueueRequest, fun _ => ?threadStart, ?stealLook,
    fun _ => ?stealArrive, fun _ => ?parkRequest, fun _ _ => ?parkComplete, fun _ => ?contextResume, ?preempt,
    fun _ => ?contextRestart⟩
  all_goals exact .of_live hd hlive rfl

/-- Settles O20: each command has its effect on the live die that it names; that of POOL_RELEASE then looks
at every link's receive buffer, as units have become free (R316). -/
theorem bufferCommandsComplete : Obligations.BufferCommandsComplete := by
  unfold Obligations.BufferCommandsComplete
  intro s d hd hlive
  refine ⟨fun _ => ?poolRelease, fun _ => ?allocatorRefill, ?waitListHeadRetry, fun _ => ?voqDepart, ?stacksReady,
    ?replication, fun _ _ => ?residueEnter, fun _ => ?residueTimeout, fun _ => ?portFlushDone⟩
  case poolRelease p => exact .of_live (f := fun s => rxDrainAll d (poolReleaseStep d p s)) hd hlive rfl
  all_goals exact .of_live hd hlive rfl

end Sys2Proof.Machine
end

section
/-! Schedulers and Meridian time: the commands read as their effects (O21), the TIME80 form (R362), PPS_IN (R363), steps
and sets (R364) with what each gate machine then takes up (R361), and the nanosecond of an empty queue (log entry 2). -/

namespace Sys2Proof.Machine

/-- Settles O21: the scheduler, the shapers, the gates and the samplers have their effect on the live die that they name,
the three Meridian commands on the package. -/
theorem schedulerAndTimeCommandsComplete : Obligations.SchedulerAndTimeCommandsComplete := by
  unfold Obligations.SchedulerAndTimeCommandsComplete
  intro s
  refine ⟨fun d hd hlive => ?onLiveDie, ?onPackage⟩
  case onLiveDie =>
    exact ⟨fun _ => .of_live hd hlive rfl, fun _ _ => .of_live hd hlive rfl, fun _ => .of_live hd hlive rfl,
      fun _ => .of_live hd hlive rfl, fun _ => .of_live hd hlive rfl⟩
  case onPackage => exact ⟨.of_exec rfl, .of_exec rfl, .of_exec rfl⟩

/-! ### TIME80 (R362) -/

/-- The nanoseconds of a second fit below the seconds of a TIME80. -/
theorem ns_field_lt (n : Nat) : n % 10 ^ 9 < 2 ^ 32 :=
  (Nat.mod_lt n (by decide)).trans (by decide)

/-- The nanosecond field. -/
theorem nsT80_mod (n : Nat) : nsT80 n % 2 ^ 32 = n % 10 ^ 9 := by
  rw [nsT80, Nat.mul_add_mod', Nat.mod_eq_of_lt (ns_field_lt n)]

/-- The seconds. -/
theorem nsT80_div (n : Nat) : nsT80 n / 2 ^ 32 = n / 10 ^ 9 := by
  rw [nsT80, Nat.mul_comm, Nat.mul_add_div (by decide), Nat.div_eq_of_lt (ns_field_lt n), Nat.add_zero]

theorem nsT80_mod_lt (n : Nat) : nsT80 n % 2 ^ 32 < 10 ^ 9 :=
  (nsT80_mod n).trans_lt (Nat.mod_lt n (by decide))

theorem t80ns_nsT80 (n : Nat) : t80ns (nsT80 n) = n % 2 ^ 64 := by
  rw [t80ns, nsT80_div, nsT80_mod, Nat.div_add_mod']

/-- Settles O41: the Summit's copy and that of a die are the TIME80 of a count of nanoseconds. -/
theorem time80CountsSecondsAndNanoseconds : Obligations.Time80CountsSecondsAndNanoseconds := by
  unfold Obligations.Time80CountsSecondsAndNanoseconds
  exact ⟨fun _ => ⟨nsT80_mod_lt _, t80ns_nsT80 _, Nat.mod_lt _ (by decide)⟩,
    fun _ _ => ⟨nsT80_mod_lt _, t80ns_nsT80 _⟩, fun n => ⟨nsT80_mod_lt n, t80ns_nsT80 n⟩⟩

/-! ### PPS_IN (R363) -/

theorem ppsIn_latches (s : State) : (ppsIn s).pg 0x1600 7 = s.time80 := by
  rw [ppsIn, State.pg_pinc_ne _ _ (by decide), State.pg_pset]

theorem ppsIn_counts {s : State} (h : s.pg 0x1600 8 + 1 < 2 ^ entryBits 0x1600 8) :
    (ppsIn s).pg 0x1600 8 = s.pg 0x1600 8 + 1 := by
  have hcount : (s.pset 0x1600 7 s.time80).pg 0x1600 8 = s.pg 0x1600 8 := s.pg_pset_ne _ (by decide)
  rw [ppsIn, State.pg_pinc _ (by rwa [hcount]), hcount]

theorem ppsIn_pg_ne (s : State) {i j : Nat} (htime : key i j ≠ key 0x1600 7) (hcount : key i j ≠ key 0x1600 8) :
    (ppsIn s).pg i j = s.pg i j := by
  rw [ppsIn, State.pg_pinc_ne _ _ hcount, State.pg_pset_ne _ _ htime]

/-- Settles O45: the edge writes the time and counts itself; at its top the counter is left open (log entry 7). -/
theorem ppsInLatchesMeridianTime : Obligations.PpsInLatchesMeridianTime := by
  unfold Obligations.PpsInLatchesMeridianTime
  intro s
  refine ⟨ppsIn s, rfl, ppsIn_latches s, fun _ _ => ppsIn_pg_ne s, ppsIn_counts, ?_⟩
  simp [ppsIn]

/-! ### Steps and sets (R364) -/

/-- Settles O46: both look at the waiting request before anything else. -/
theorem secondAdjustmentIsBusy : Obligations.SecondAdjustmentIsBusy := by
  unfold Obligations.SecondAdjustmentIsBusy
  intro s a hwaits
  have hsome : s.adjust.isSome = true := Option.isSome_of_eq_some hwaits
  exact ⟨fun _ => if_pos hsome, fun _ => if_pos hsome⟩

/-- The time lies at a whole microsecond when at most one nanosecond of the next has passed (log entry 127). -/
theorem atMicro_iff (t : Nat) : atMicro (t / 1000 * 1000) t = true ↔ t % 1000 < 2 := by
  simp only [atMicro, Bool.and_eq_true, decide_eq_true_eq]
  omega

/-- The new time and its count, with no request left. -/
def loadAdjust (set : Bool) (v : Int) (s : State) : State :=
  ({ s with
    meridian := if set then v.toNat * 10 ^ 12 else ((s.meridian : Int) + v * 10 ^ 12).toNat
    adjust := none } : State).pinc 0x1600 9 1

/-- What a die holds against its new time: a snapshot that it has passed waits for the next whole microsecond, and no change
of a gate list was accepted after it (R361, R389). -/
def Die.meetTime (now : Nat) (x : Die) : Die :=
  { x with
    buf.snapAt := x.buf.snapAt.map (fun t => if t < now then wholeMicro now else t)
    buf.gates := x.buf.gates.map (fun g => (g.1, { g.2 with accepted := min g.2.accepted now })) }

/-- A die meets its new time, and each of its gate machines takes its place there (R361). -/
def meetNewTime (d : Nat) (s : State) : State :=
  let s := s.onDie d (Die.meetTime (s.nsOn d))
  s.each (mkeys (s.die d).buf.gates) (fun slot s => gateStep d slot (configTake d slot s))

/-- A die that runs no gate list and waits for no snapshot. -/
def Die.AtRest (x : Die) : Prop := x.buf.gates = [] ∧ x.buf.snapAt = []

theorem Die.meetTime_of_atRest (now : Nat) : ∀ {x : Die}, x.AtRest → x.meetTime now = x
  | { buf := { gates := _, snapAt := _, .. }, .. }, ⟨rfl, rfl⟩ => rfl

@[simp] theorem loadAdjust_die (set : Bool) (v : Int) (s : State) (e : Nat) : (loadAdjust set v s).die e = s.die e :=
  State.die_pinc ..

theorem meridianApply_of_none {s : State} (h : s.adjust = none) : meridianApply s = s := by
  simp only [meridianApply, h]

/-- Between whole microseconds a request waits on. -/
theorem meridianApply_between {s : State} (h : 2 ≤ s.ns % 1000) : meridianApply s = s := by
  have hbetween : atMicro (s.ns / 1000 * 1000) s.ns = false := Bool.eq_false_iff.2 (by rw [Ne, atMicro_iff]; omega)
  unfold meridianApply
  cases s.adjust with
  | none => rfl
  | some a => simp [hbetween]

/-- At a whole microsecond the new time is loaded, and each present die meets it. -/
theorem meridianApply_at_micro {s : State} {set : Bool} {v : Int} (h : s.adjust = some (set, v))
    (hmicro : s.ns % 1000 < 2) :
    meridianApply s = (loadAdjust set v s).each (loadAdjust set v s).present meetNewTime := by
  simp only [meridianApply, h, (atMicro_iff s.ns).2 hmicro]
  rfl

/-- From `s` to `t` the time, the request, the mode and the dies of `P` have not changed. -/
structure KeepsTimeAndDies (P : Nat → Prop) (s t : State) : Prop where
  meridian : t.meridian = s.meridian
  adjust : t.adjust = s.adjust
  mode : t.mode = s.mode
  die : ∀ e, P e → t.die e = s.die e

namespace KeepsTimeAndDies

theorem refl (P : Nat → Prop) (s : State) : KeepsTimeAndDies P s s := ⟨rfl, rfl, rfl, fun _ _ => rfl⟩

section
variable {P : Nat → Prop} {d : Nat}

theorem trans {s t u : State} (h : KeepsTimeAndDies P s t) (k : KeepsTimeAndDies P t u) : KeepsTimeAndDies P s u where
  meridian := k.meridian.trans h.meridian
  adjust := k.adjust.trans h.adjust
  mode := k.mode.trans h.mode
  die e he := (k.die e he).trans (h.die e he)

/-- Changes in order, each of which may use what those before it have kept. -/
theorem each {α : Type} {f : α → State → State} {s : State}
    (hf : ∀ x t, KeepsTimeAndDies P s t → KeepsTimeAndDies P t (f x t)) (l : List α) :
    KeepsTimeAndDies P s (s.each l f) :=
  List.foldlRecOn l _ (refl P s) fun t ht x _ => ht.trans (hf x t ht)

theorem when {f : State → State} {s : State} (c : Bool) (hf : KeepsTimeAndDies P s (f s)) :
    KeepsTimeAndDies P s (s.when c f) := by
  unfold State.when
  split
  · exact hf
  · exact refl P s

/-- A change of a die of `P` has to leave it as it is. -/
theorem onDie {f : Die → Die} {s : State} (hf : P d → f (s.die d) = s.die d) : KeepsTimeAndDies P s (s.onDie d f) where
  meridian := s.onDie_meridian d f
  adjust := s.onDie_adjust d f
  mode := s.onDie_mode d f
  die e he := by
    by_cases h : e = d
    · subst h
      rw [State.die_onDie, hf he]
    · exact s.die_onDie_ne f h

variable (hd : ¬ P d)
include hd

theorem dset (i j v : Nat) (s : State) : KeepsTimeAndDies P s (s.dset d i j v) := onDie fun h => absurd h hd

/-- A count at its top takes a free value. -/
theorem dinc (i j n : Nat) (s : State) : KeepsTimeAndDies P s (s.dinc d i j n) := by
  rcases s.dinc_cases d i j n with ⟨_, e⟩ | ⟨_, e⟩ <;> rw [e]
  · exact dset hd _ _ _ s
  · have hfresh : KeepsTimeAndDies P s s.fresh.2 := ⟨rfl, rfl, rfl, fun _ _ => rfl⟩
    exact hfresh.trans (dset hd _ _ _ _)

theorem onGate (slot : Nat) (f : Gate → Gate) (s : State) : KeepsTimeAndDies P s (onGate d slot f s) :=
  onDie fun h => absurd h hd

theorem gatesChange (slot old : Nat) (s : State) : KeepsTimeAndDies P s (gatesChange d slot old s) := by
  unfold Machine.gatesChange
  dsimp only
  split
  · exact onGate hd ..
  · split
    · exact (onGate hd ..).trans (dinc hd ..)
    · exact onGate hd ..

theorem configTake (slot : Nat) (s : State) : KeepsTimeAndDies P s (configTake d slot s) := by
  unfold Machine.configTake
  dsimp only
  split
  · exact refl P s
  · split
    · exact refl P s
    · have hcount (c : Bool) := when (f := fun s => s.dinc d (0x4840 + slot) 0x15 1) c (dinc hd _ _ _ s)
      exact (hcount _).trans <| (onGate hd ..).trans <| (dset hd ..).trans <| (dset hd ..).trans <| (dset hd ..).trans <|
        (dset hd ..).trans (gatesChange hd ..)

theorem gateStep (slot : Nat) (s : State) : KeepsTimeAndDies P s (gateStep d slot s) := by
  unfold Machine.gateStep
  dsimp only
  split
  · exact refl P s
  · exact (onGate hd ..).trans (gatesChange hd ..)

omit hd

/-- A die at rest has nothing that meets the new time. -/
theorem meetNewTime {s : State} (hrest : P d → (s.die d).AtRest) : KeepsTimeAndDies P s (meetNewTime d s) := by
  have hdie : KeepsTimeAndDies P s (s.onDie d (Die.meetTime (s.nsOn d))) :=
    onDie fun h => Die.meetTime_of_atRest _ (hrest h)
  unfold Machine.meetNewTime
  dsimp only
  refine hdie.trans ?_
  by_cases hd : P d
  · have hgates : ((s.onDie d (Die.meetTime (s.nsOn d))).die d).buf.gates = [] := by
      rw [hdie.die d hd]; exact (hrest hd).1
    rw [hgates]
    exact refl P _
  · exact each (fun slot t _ => (configTake hd slot t).trans (gateStep hd slot _)) _
end

end KeepsTimeAndDies

/-- The request is loaded and gone, and the dies at rest stay as they are. -/
theorem meridianApply_keeps {s : State} {set : Bool} {v : Int} (h : s.adjust = some (set, v)) (hmicro : s.ns % 1000 < 2) :
    KeepsTimeAndDies (fun e => (s.die e).AtRest) (loadAdjust set v s) (meridianApply s) := by
  rw [meridianApply_at_micro h hmicro]
  refine .each (fun d t ht => .meetNewTime fun hrest => ?_) _
  rwa [ht.die d hrest, loadAdjust_die]

/-- Settles O47: at a whole microsecond, as a step of the model sees it pass (log entry 127), the request is loaded and
each die meets the new time. -/
theorem adjustmentApplies : Obligations.AdjustmentApplies := by
  unfold Obligations.AdjustmentApplies
  intro s
  refine ⟨fun h => congrArg _ (meridianApply_of_none h), fun h => congrArg _ (meridianApply_between h),
    fun set v h hmicro => ?_⟩
  have hexec : exec .meridianAdjustApply s = .next (meridianApply s) := rfl
  obtain ⟨hmeridian, hadjust, hmode, hdie⟩ := meridianApply_keeps h hmicro
  obtain ⟨-, -, hnow, -, -⟩ := exec_carries hexec
  exact ⟨_, hexec, hadjust.trans (State.pinc_adjust ..), hmeridian.trans (State.pinc_meridian ..),
    fun e hgates hsnap => (hdie e ⟨hgates, hsnap⟩).trans (loadAdjust_die ..), hnow, hmode.trans (State.pinc_mode ..)⟩

/-! ### An empty queue (log entry 2) -/

/-- What goes on in the nanosecond before it passes. -/
def beforeTick (s : State) : State := carryOn (s.each s.present (fun d s => checkErrors d (countCycles d s)))

theorem step_of_empty {s : State} (h : s.pending = []) : step s = .next (tick (beforeTick s)) := by
  rw [step, h]
  rfl

theorem clusterCycle_fixed (d c : Nat) (s : State) : (clusterCycle d c s).fixed = s.fixed := by
  simp only [clusterCycle, perfThreads_fixed]

theorem countCycles_fixed (d : Nat) (s : State) : (countCycles d s).fixed = s.fixed := by
  unfold countCycles
  split
  · rfl
  · refine (State.each_fixed _ _ _ fun _ _ => perfEvent_fixed ..).trans (State.each_fixed _ _ _ fun _ _ => ?_)
    rw [clusterCycle_fixed, clusterCycle_fixed]

theorem checkErrors_fixed (d : Nat) (s : State) : (checkErrors d s).fixed = s.fixed := by
  unfold checkErrors
  split
  · rfl
  · exact State.pinc_fixed ..

theorem carryOn_kept (s : State) : KeptF s.fixed (carryOn s).fixed := by
  refine (State.each_kept _ _ _ fun _ _ => jdpResume_kept ..).trans' ?_
  rw [State.each_fixed _ _ _ sendRecords_fixed]
  exact KeptF.refl _

/-- It carries over what every command does. -/
theorem beforeTick_carries (s : State) : Carries s (beforeTick s) := by
  have hcounted : (s.each s.present (fun d s => checkErrors d (countCycles d s))).fixed = s.fixed :=
    State.each_fixed _ _ _ fun d a => (checkErrors_fixed d _).trans (countCycles_fixed d a)
  exact (Carries.of_fixed hcounted).trans (Carries.of_kept (carryOn_kept _))

theorem State.each_eq_self {α : Type} {s : State} {l : List α} {f : α → State → State} (h : ∀ x ∈ l, f x s = s) :
    s.each l f = s :=
  List.foldlRecOn (motive := (· = s)) l _ rfl fun _ ht x hx => ht.symm ▸ h x hx

/-- No counter set of the die runs, so nothing is counted. -/
theorem countCycles_of_no_set {d : Nat} {s : State} (h : ∀ k, k < 20 → setRuns s d k = false) : countCycles d s = s := by
  have hclusters : (List.range 16).filter (setRuns s d) = [] :=
    List.filter_eq_nil_iff.2 fun c hc => by simp [h c (by rw [List.mem_range] at hc; omega)]
  unfold countCycles
  split
  · rfl
  · rw [hclusters]
    refine State.each_eq_self fun u hu => ?_
    simp only [List.mem_filter, List.mem_range, Bool.and_eq_true] at hu
    obtain ⟨hu4, hruns, -⟩ := hu
    exact absurd hruns (by simp [State.each, h (16 + u) (by omega)])

theorem checkErrors_of_no_pattern {d : Nat} {s : State} (h : (s.die d).core.patterns = []) : checkErrors d s = s := by
  simp [checkErrors, h]

theorem carryOn_of_nothing_waiting {s : State} (hjobs : s.jdpJobs = [])
    (hsend : ∀ d ∈ s.present, (s.die d).core.sendQ = []) : carryOn s = s := by
  have hrecords : (s.present).filter (fun d => !(s.die d).core.sendQ.isEmpty) = [] :=
    List.filter_eq_nil_iff.2 fun d hd => by simp [hsend d hd]
  simp only [carryOn, hrecords, State.each, List.foldl_nil, hjobs, List.map_nil]

/-- Settles O2: what goes on in the nanosecond carries over the queue, the part and the clock, and is nothing where nothing
waits and nothing is counted. -/
theorem emptyQueueIdles : Obligations.EmptyQueueIdles := by
  unfold Obligations.EmptyQueueIdles
  intro s hempty
  refine ⟨?idles, fun hjobs hquiet => ?quiet⟩
  case idles =>
    obtain ⟨hpending, hpart, hnow, -, -⟩ := beforeTick_carries s
    exact ⟨_, step_of_empty hempty, congrArg (· + 1) hnow, hpending.trans hempty, hpart⟩
  case quiet =>
    have hcounted : s.each s.present (fun d s => checkErrors d (countCycles d s)) = s :=
      State.each_eq_self fun d hd => by
        obtain ⟨-, hpatterns, hsets⟩ := hquiet d hd
        rw [countCycles_of_no_set hsets, checkErrors_of_no_pattern hpatterns]
    have hbeforeTick : beforeTick s = s := by
      rw [beforeTick, hcounted, carryOn_of_nothing_waiting hjobs fun d hd => (hquiet d hd).1]
    rw [step_of_empty hempty, hbeforeTick]
    rfl

end Sys2Proof.Machine
end

section
/-! Network ports: the commands of links, frame transmission, pause and counter snapshots read as their effects (O22). -/

namespace Sys2Proof.Machine

/-- Settles O22: each link, transmit, pause and snapshot step has its effect on the live die that it names. -/
theorem portCommandsComplete : Obligations.PortCommandsComplete := by
  unfold Obligations.PortCommandsComplete
  intro s d hd hlive
  refine ⟨fun _ => ?autonegAttempt, fun _ _ => ?linkLoss, fun _ => ?remoteFault, fun _ _ => ?linkUp, fun _ => ?txOversizeCut,
    fun _ => ?txUnderrun, fun _ => ?frameTxComplete, fun _ _ _ => ?pauseFrameReceive, fun _ _ => ?pauseTimerExpire,
    fun _ => ?pauseFrameSend, fun _ => ?pauseRefresh, ?snapshotCopyDone, ?snapshotAllApply⟩
  all_goals exact .of_live hd hlive rfl

end Sys2Proof.Machine
end

section
/-! The Ridgeline fabric: the commands of received cells, link control flits, link timers, credit and alignment read as
their effects (O23). -/

namespace Sys2Proof.Machine

/-- Settles O23: a received cell, a link control flit, a timer or a measurement of the fabric has its effect on the live
die that it names. Every flit passes the codeword check of R405 first (`lcfIn`). -/
theorem fabricCommandsComplete : Obligations.FabricCommandsComplete := by
  unfold Obligations.FabricCommandsComplete
  intro s d hd hlive
  refine ⟨fun _ _ _ _ _ => ?dataCellReceive, fun _ _ _ _ => ?creditCellReceive, fun _ _ _ _ _ => ?demandReceive,
    fun _ _ _ _ _ => ?grantReceive, fun _ _ _ => ?lcfAck, fun _ _ _ => ?lcfNak, fun _ _ _ => ?lcfTrain,
    fun _ _ _ => ?lcfCreditInit, fun _ _ _ => ?lcfReady, fun _ _ _ => ?lcfStepReq, fun _ _ _ => ?lcfStepAck,
    fun _ _ _ => ?lcfWakeReq, fun _ _ _ => ?lcfWakeAck, fun _ => ?linkAckTimer, fun _ => ?nakRepeat,
    fun _ => ?lcfRepeat, fun _ _ => ?fabricLinkDown, fun _ => ?demandTimer, fun _ _ => ?egressGrant,
    fun _ => ?creditAudit, fun _ _ => ?fabricUtilWindowEnd, fun _ => ?linkIdleReady, fun _ _ _ => ?fabricAlignmentLock⟩
  all_goals exact .of_live hd hlive rfl

end Sys2Proof.Machine
end

section
/-! Buffer DRAM: the commands of the stacks read as their effects (O24), and the fence of a stack that runs (R442, O52). -/

namespace Sys2Proof.Machine

/-- Settles O24: a request, a slot, a refresh, a measurement, a training step or a loss of a stack has its effect on the live
die that it names. The two losses fence the stack with causes 4 and 3. -/
theorem dramCommandsComplete : Obligations.DramCommandsComplete := by
  unfold Obligations.DramCommandsComplete
  intro s d hd hlive
  refine ⟨fun _ _ => ?dramRequest, fun _ _ => ?dramCommandSlot, fun _ _ => ?dramReadComplete,
    fun _ _ _ _ _ => ?dramRefresh, fun _ _ _ => ?dramTempRead, fun _ => ?retrainWindowOpen,
    fun _ _ => ?retrainWindowClose, fun _ _ => ?patternDone, fun _ _ _ _ => ?trainingComplete, fun _ _ => ?eccPoll,
    fun _ => ?dramPhyLaneLoss, fun _ => ?dramCatastrophicTemp⟩
  all_goals exact .of_live hd hlive rfl

/-! ### The fence of a stack (R442) -/

/-- The write of a register leaves the other dies alone, and the other registers of its own. -/
theorem State.dg_dset_frame (s : State) {d e i j i' j' : Nat} (v : Nat) (h : e = d → key i' j' ≠ key i j) :
    (s.dset d i j v).dg e i' j' = s.dg e i' j' := by
  by_cases hdie : e = d
  · subst hdie
    exact s.dg_dset_ne v (h rfl)
  · exact s.dg_dset_die i j v i' j' hdie

@[simp] theorem dg_onStack (d k : Nat) (f : Stack → Stack) (s : State) (e i j : Nat) :
    (onStack d k f s).dg e i j = s.dg e i j := by
  apply State.dg_onDie
  intro x
  rfl

@[simp] theorem dg_onPool (s : State) (d p : Nat) (f : Pool → Pool) (e i j : Nat) :
    (onPool s d p f).dg e i j = s.dg e i j := by
  apply State.dg_onDie
  intro x
  rfl

/-- The note of the lowest number of free units writes its own entry only (R337). -/
theorem dg_noteFree_frame {d p e i j : Nat} (s : State) (h : e = d → key i j ≠ key (0x4710 + p) 3) :
    (noteFree d p s).dg e i j = s.dg e i j := by
  unfold noteFree State.when
  dsimp only
  split
  · rw [State.dg_dset_frame _ _ h, dg_onPool]
  · split
    · exact s.dg_dset_frame _ h
    · rfl

/-- A stack that is training, ready or retraining (Table 14.9). -/
def StackRuns (s : State) (d k : Nat) : Prop := stackState s d k = 1 ∨ stackState s d k = 2 ∨ stackState s d k = 3

/-- The test of a fence for a stack that it leaves alone. -/
theorem not_stackRuns_iff (s : State) (d k : Nat) :
    (!([1, 2, 3].contains (stackState s d k))) = true ↔ ¬ StackRuns s d k := by
  simp [StackRuns]

/-- Outside its stack's state and cause a fence writes two entries of its die: the lowest number of free pages (R337)
and the buffer mode (R329). -/
theorem dg_stackFence_frame {s : State} {d k cause page e i j : Nat} (hruns : StackRuns s d k)
    (hpages : e = d → key i j ≠ key (0x4710 + 1) 3) (hmode : e = d → key i j ≠ key 0x4700 1) :
    (stackFence d k cause page s).dg e i j = ((s.dset d (0x4310 + k) 1 4).dset d (0x4310 + k) 2 cause).dg e i j := by
  have htest := mt (not_stackRuns_iff s d k).1 (not_not_intro hruns)
  rw [stackFence, if_neg htest, State.dg_report, stackFenced, if_neg htest]
  dsimp only
  split
  · rw [dg_noteFree_frame _ hpages, dg_onPool, dg_onStack]
  · rw [State.dg_dset_frame _ _ hmode, dg_noteFree_frame _ hpages, dg_onPool, dg_onStack]

theorem stackFence_of_not_runs {s : State} {d k cause page : Nat} (h : ¬ StackRuns s d k) :
    stackFence d k cause page s = s :=
  if_pos ((not_stackRuns_iff s d k).2 h)

/-- The entries of both stacks lie below those of the pools. -/
theorem key_stack_ne {m j i j' : Nat} (hm : m < 2) (hj : j < 256) (hi : 0x4700 ≤ i) : key (0x4310 + m) j ≠ key i j' := by
  unfold key
  omega

theorem key_otherStack_ne {k j j' : Nat} (hk : k < 2) (hj : j < 256) (hj' : j' < 256) :
    key (0x4310 + (1 - k)) j ≠ key (0x4310 + k) j' := by
  unfold key
  omega

/-- Of the entries of the stacks a fence writes the state and the cause of its own. -/
theorem dg_stackFence_stack {s : State} {d k m j : Nat} (cause page : Nat) (hruns : StackRuns s d k) (hm : m < 2)
    (hj : j < 256) : (stackFence d k cause page s).dg d (0x4310 + m) j =
      ((s.dset d (0x4310 + k) 1 4).dset d (0x4310 + k) 2 cause).dg d (0x4310 + m) j :=
  dg_stackFence_frame hruns (fun _ => key_stack_ne hm hj (by decide)) (fun _ => key_stack_ne hm hj (by decide))

/-- From `s` to `t` the stack has taken state 4 and its cause, and the other stack and the other dies have not changed. -/
structure Fenced (d k cause : Nat) (s t : State) : Prop where
  state : stackState t d k = 4
  fence_cause : t.dg d (0x4310 + k) 2 = cause
  otherStack : ∀ j, j < 256 → t.dg d (0x4310 + (1 - k)) j = s.dg d (0x4310 + (1 - k)) j
  otherDies : ∀ e i j, e ≠ d → t.dg e i j = s.dg e i j

theorem stackFence_fenced {s : State} {d k : Nat} (cause page : Nat) (hk : k < 2) (hruns : StackRuns s d k) :
    Fenced d k cause s (stackFence d k cause page s) where
  state := by
    rw [stackState, dg_stackFence_stack cause page hruns hk (by decide), State.dg_dset_ne _ _ (by simp [key]),
      State.dg_dset]
  fence_cause := by
    rw [dg_stackFence_stack cause page hruns hk (by decide), State.dg_dset]
  otherStack j hj := by
    rw [dg_stackFence_stack cause page hruns (by omega) hj, State.dg_dset_ne _ _ (key_otherStack_ne hk hj (by decide)),
      State.dg_dset_ne _ _ (key_otherStack_ne hk hj (by decide))]
  otherDies e i j he := by
    rw [dg_stackFence_frame hruns (absurd · he) (absurd · he), State.dg_dset_die _ _ _ _ _ _ he,
      State.dg_dset_die _ _ _ _ _ _ he]

/-- Settles O52: the two commands fence the stack with causes 4 and 3. Where the stack does not run, the event cannot
have happened and nothing changes (log entry 3). -/
theorem stackFenceTakesStateFour : Obligations.StackFenceTakesStateFour := by
  unfold Obligations.StackFenceTakesStateFour
  intro s d k hd hlive
  have hlanes : exec (.dramPhyLaneLoss d k) s = .next (stackFence d k 4 0 s) := onLive_next hd hlive
  have hheat : exec (.dramCatastrophicTemp d k) s = .next (stackFence d k 3 0 s) := onLive_next hd hlive
  refine ⟨fun hruns => ⟨?laneLoss, ?overheat⟩, fun hstill => ?still⟩
  case laneLoss =>
    obtain ⟨hstate, hcause, hstack, hdies⟩ := stackFence_fenced 4 0 k.isLt hruns
    exact ⟨_, hlanes, hstate, hcause, hstack, hdies⟩
  case overheat =>
    obtain ⟨hstate, hcause, hstack, hdies⟩ := stackFence_fenced 3 0 k.isLt hruns
    exact ⟨_, hheat, hstate, hcause, hstack, hdies⟩
  case still =>
    have hnot : ¬ StackRuns s d k := by
      simp only [StackRuns, not_or]
      exact hstill
    rw [stackFence_of_not_runs hnot] at hlanes hheat
    exact ⟨hlanes, hheat⟩

end Sys2Proof.Machine
end

section
/-! CXL, endpoints and rings: the commands read as their effects (O25), and the doorbell of a ring (R452, R458; O49, O50). -/

namespace Sys2Proof.Machine

/-- Settles O25: a ring's command has its effect on the live die that it names, a CXL port's command on the present die
that it names. A reset or a doorbell of an endpoint names no die and always has its effect. -/
theorem cxlAndRingCommandsComplete : Obligations.CxlAndRingCommandsComplete := by
  unfold Obligations.CxlAndRingCommandsComplete
  intro s
  refine ⟨fun d hd hlive => ?rings, fun d hd => ?ports, ?endpoints⟩
  case rings =>
    refine ⟨fun _ => ?ringStopDone, fun _ _ _ => ?puntWrite, fun _ _ _ _ => ?injectRead, fun _ _ _ => ?batchRun,
      fun _ _ => ?recordRingWrite, fun _ => ?ringIrqTimer⟩
    all_goals exact .of_live hd hlive rfl
  case ports =>
    refine ⟨fun _ => ?bringupTimeout, fun _ _ _ => ?memoryActive, fun _ => ?linkLost, fun _ => ?completionTimeout,
      fun _ => ?fatalError, fun _ _ _ _ => ?retrain, fun _ _ => ?eventPoll⟩
    all_goals exact .of_present hd rfl
  case endpoints => exact ⟨fun _ _ _ => .of_exec rfl, fun _ _ _ => .of_exec rfl⟩

/-! ### The doorbell of a ring -/

/-- The doorbell register of ring k of die d lies at d × 0x800 + k × 0x40 (Table 15.2). -/
theorem doorbellAt_ring {d k : Nat} (hd : d < 8) (hk : k < 32) : doorbellAt (d * 0x800 + k * 0x40) = some (d, k) := by
  have hregister : (d * 0x800 + k * 0x40) % 0x40 = 0 ∧ d * 0x800 + k * 0x40 < 0x4000 := by omega
  have hdie : (d * 0x800 + k * 0x40) / 0x800 = d := by omega
  have hring : (d * 0x800 + k * 0x40) % 0x800 / 0x40 = k := by omega
  rw [doorbellAt, if_pos hregister, hdie, hring]

/-- A write at the doorbell register of a ring of a present die rings its doorbell. -/
theorem exec_doorbellWrite_ring {s : State} {e : Fin 2} {off : Fin 0x12000} {d : DieId} {k : Fin 32} (v : BitVec 32)
    (hoff : off.val = d * 0x800 + k * 0x40) (hd : s.has d = true) :
    exec (.doorbellWrite e off v) s = .next (doorbell e d k v.toNat s) := by
  have hexec : exec (.doorbellWrite e off v) s = .next (barWrite e off v.toNat s) := rfl
  rw [hexec, barWrite, hoff, doorbellAt_ring d.isLt k.isLt]
  exact congrArg _ (if_pos hd)

/-- Two entries of a ring are the same entry only under the same subindex. -/
theorem key_ring_ne (k : Nat) {j j' : Nat} (h : j ≠ j') : key (ringIdx k) j ≠ key (ringIdx k) j' := by
  unfold key
  omega

/-- The write of one entry of a ring leaves its other entries. -/
theorem dg_ring_dset_ne (s : State) (d k : Nat) {j j' : Nat} (v : Nat) (h : j' ≠ j) :
    (s.dset d (ringIdx k) j v).dg d (ringIdx k) j' = s.dg d (ringIdx k) j' :=
  s.dg_dset_ne v (key_ring_ne k h)

/-- A new host_index leaves the state of the ring. -/
@[simp] theorem ringState_dset_hostIndex (s : State) (d k v : Nat) :
    ringState (s.dset d (ringIdx k) 0x0A v) d k = ringState s d k :=
  dg_ring_dset_ne s d k v (by decide)

/-- A doorbell value that a ring cannot take (R458): it posts more slots than the ring has, or on a record ring consumes
more records than are written. -/
def ImpossibleIndex (s : State) (d k v : Nat) : Prop :=
  (k ≤ 20 ∧ ringSize s d k < (v + 2 ^ 32 - s.dg d (ringIdx k) 0x0B) % 2 ^ 32) ∨
    (20 < k ∧ unread s d k < (v + 2 ^ 32 - s.dg d (ringIdx k) 0x0A) % 2 ^ 32)

theorem impossibleIndex_iff (s : State) (d k v : Nat) : ImpossibleIndex s d k v ↔
    (if k ≤ 20 then decide (ringSize s d k < (v + 2 ^ 32 - s.dg d (ringIdx k) 0x0B) % 2 ^ 32)
      else decide (unread s d k < (v + 2 ^ 32 - s.dg d (ringIdx k) 0x0A) % 2 ^ 32)) = true := by
  unfold ImpossibleIndex
  split
  case isTrue hposts => simp [hposts, Nat.not_lt.2 hposts]
  case isFalse hrecords => simp [hrecords, Nat.not_le.1 hrecords]

section
variable {s : State} {e d k v : Nat}

theorem doorbell_ignored (h : ringState s d k = 0 ∨ ringEp s d k ≠ e) : doorbell e d k v s = s.pinc (0x1120 + e) 9 1 :=
  if_pos (h.imp_right .inl)

/-- A ring of the endpoint that is not disabled takes the value, and stops on an impossible one unless it is in error
already (log entry 99). -/
theorem doorbell_taken (hk : k < 24) (hon : ringState s d k ≠ 0) (hep : ringEp s d k = e) :
    (ImpossibleIndex s d k v ∧ ringState s d k ≠ 4 → doorbell e d k v s = ringError d k 5 (s.dset d (ringIdx k) 0x0A v)) ∧
    (¬ (ImpossibleIndex s d k v ∧ ringState s d k ≠ 4) → doorbell e d k v s = s.dset d (ringIdx k) 0x0A v) := by
  have htaken : ¬ (ringState s d k = 0 ∨ ringEp s d k ≠ e ∨ 24 ≤ k) := by simp [hon, hep, hk]
  rw [doorbell, if_neg htaken, impossibleIndex_iff, ← bne_iff_ne, ← Bool.and_eq_true]
  dsimp only
  rw [ringState_dset_hostIndex]
  exact ⟨fun hstop => if_pos hstop, fun hkeep => if_neg hkeep⟩

end

@[simp] theorem ringState_ringError (d k cause : Nat) (s : State) : ringState (ringError d k cause s) d k = 4 := by
  rw [ringState, ringError, dg_ring_dset_ne _ _ _ _ (by decide), State.dg_dset]

@[simp] theorem dg_ringError_cause (d k cause : Nat) (s : State) :
    (ringError d k cause s).dg d (ringIdx k) 0x0D = cause :=
  State.dg_dset ..

/-- Stopping a ring in error writes its state and its cause only. -/
theorem dg_ringError_frame {d k e i j : Nat} (cause : Nat) (s : State)
    (h : e = d → key i j ≠ key (ringIdx k) 0x0C ∧ key i j ≠ key (ringIdx k) 0x0D) :
    (ringError d k cause s).dg e i j = s.dg e i j := by
  rw [ringError, State.dg_dset_frame _ _ fun hdie => (h hdie).2, State.dg_dset_frame _ _ fun hdie => (h hdie).1]

@[simp] theorem ringError_regs (d k cause : Nat) (s : State) : (ringError d k cause s).regs = s.regs := by
  simp [ringError]

/-- Settles O49: at the doorbell register of its ring the write comes to the doorbell, which ignores it. -/
theorem doorbellToDisabledRingIsIgnored : Obligations.DoorbellToDisabledRingIsIgnored := by
  unfold Obligations.DoorbellToDisabledRingIsIgnored
  intro s e off d k v hoff hd hignored
  rw [exec_doorbellWrite_ring v hoff hd, doorbell_ignored hignored]

/-- Settles O50: the ring takes the value, and is stopped as well when the value is impossible and no error stands. -/
theorem doorbellSetsHostIndex : Obligations.DoorbellSetsHostIndex := by
  unfold Obligations.DoorbellSetsHostIndex
  intro s e off d k v hoff hd hk hon hep dev bad
  have hbad : bad ↔ ImpossibleIndex s d k v.toNat := .rfl
  obtain ⟨hstopped, hkept⟩ := doorbell_taken (v := v.toNat) hk hon hep
  rw [← hbad] at hstopped hkept
  rw [exec_doorbellWrite_ring v hoff hd]
  by_cases hstop : bad ∧ ringState s d k ≠ 4
  case pos =>
    refine ⟨_, congrArg _ (hstopped hstop), ?index, fun _ => ⟨?state, fun _ => ?cause⟩, ?notStopped, ?frame, ?package⟩
    case index =>
      rw [dg_ringError_frame 5 _ fun _ => ⟨key_ring_ne k (by decide), key_ring_ne k (by decide)⟩, State.dg_dset]
    case state => exact ringState_ringError ..
    case cause => exact dg_ringError_cause ..
    case notStopped => exact fun h => absurd hstop fun hboth => h.elim (· hboth.1) hboth.2
    case frame =>
      intro d' i j houter
      have hother : d' = d.val → _ := fun hdie => houter.resolve_left (not_not_intro hdie)
      rw [dg_ringError_frame 5 _ fun hdie => (hother hdie).2, State.dg_dset_frame _ _ fun hdie => (hother hdie).1]
    case package => simp
  case neg =>
    have herror : bad → ringState s d k = 4 := by simpa using hstop
    refine ⟨_, congrArg _ (hkept hstop), State.dg_dset .., fun himp => ⟨?state, absurd (herror himp)⟩,
      fun _ => ⟨ringState_dset_hostIndex .., dg_ring_dset_ne _ _ _ _ (by decide)⟩, ?frame, State.dset_regs ..⟩
    case state => rw [ringState_dset_hostIndex, herror himp]
    case frame =>
      intro d' i j houter
      exact s.dg_dset_frame _ fun hdie => (houter.resolve_left (not_not_intro hdie)).1

end Sys2Proof.Machine
end

section
/-! The anti-rollback counter and the revocation bits (R570): what a step keeps of them (O5, O7), what they are in the
reset state (O6), and that only an access moves them (O8). -/

namespace Sys2Proof.Machine

/-- Along a step the anti-rollback counter does not fall and no revocation bit is lost: an empty queue and every command
carry them over. -/
theorem step_keeps_fuses {s t : State} (h : step s = .next t) :
    s.flash.rollback ≤ t.flash.rollback ∧ s.flash.revoked ||| t.flash.revoked = t.flash.revoked := by
  cases hqueue : s.pending with
  | nil =>
    obtain rfl : tick (beforeTick s) = t := by simpa [step_of_empty hqueue] using h
    obtain ⟨-, -, -, hrollback, hrevoked⟩ := beforeTick_carries s
    exact ⟨hrollback, hrevoked⟩
  | cons c rest =>
    have hexec : exec c { s with pending := rest } = .next t := by rwa [step, hqueue] at h
    obtain ⟨-, -, -, hrollback, hrevoked⟩ := exec_carries hexec
    exact ⟨hrollback, hrevoked⟩

/-- Settles O5: the counter does not fall along a step, so it stays above every bound it was above. -/
theorem rollbackCounterNeverFalls : Obligations.RollbackCounterNeverFalls := by
  unfold Obligations.RollbackCounterNeverFalls
  intro n s t hn h
  obtain ⟨hrollback, -⟩ := step_keeps_fuses h
  exact hn.trans hrollback

/-- Settles O6: the boot flash of the reset state is empty (log entry 27). -/
theorem rollbackCounterAtReset : Obligations.RollbackCounterAtReset := ⟨rfl, le_rfl⟩

/-- Settles O7: the bits after a step are those before it and perhaps others. -/
theorem revocationBitsStayBlown : Obligations.RevocationBitsStayBlown := by
  unfold Obligations.RevocationBitsStayBlown
  intro s t h i hi
  obtain ⟨-, hrevoked⟩ := step_keeps_fuses h
  rw [← hrevoked, BitVec.getLsbD_or, hi, Bool.true_or]

/-- Settles O8: a command without an access leaves the whole fixed part, and the counter and the bits with it. -/
theorem onlyAnAccessMovesTheCounter : Obligations.OnlyAnAccessMovesTheCounter := by
  unfold Obligations.OnlyAnAccessMovesTheCounter
  intro c s t hc h
  obtain ⟨-, -, -, hrollback, hrevoked⟩ := (State.fixed_eq s t).1 (exec_fixed hc h)
  exact ⟨hrollback, hrevoked⟩

end Sys2Proof.Machine
end

section
/-! Accesses, JDP, modes and resets, faults, Transit, JTAG, firmware and the supplies: the commands read as their
effects (O11, O26 to O31), and a step as the command at the front of the queue (O1). -/

namespace Sys2Proof.Machine

/-- Settles O1: a step takes the command off the queue and executes it. -/
theorem stepRunsTheFrontCommand : Obligations.StepRunsTheFrontCommand := fun _ _ _ => rfl

/-- Settles O11: an access that has arrived has its effect on the die that it names, the other commands theirs on the
package. -/
theorem accessMessagesComplete : Obligations.AccessMessagesComplete := by
  unfold Obligations.AccessMessagesComplete
  intro s
  refine ⟨fun d hd => ?onDie, ?onPackage⟩
  case onDie => exact ⟨.of_present hd rfl, .of_present hd rfl⟩
  case onPackage =>
    exact ⟨fun _ _ _ _ => .of_exec rfl, fun _ _ _ => .of_exec rfl, fun _ => .of_exec rfl, fun _ => .of_exec rfl,
      .of_exec rfl, .of_exec rfl⟩

/-- Settles O26: a frame, a request, a time limit and each message of the inbox that a command takes have their effect
on the package. -/
theorem jdpCommandsComplete : Obligations.JdpCommandsComplete := by
  unfold Obligations.JdpCommandsComplete
  intro s
  exact ⟨fun _ _ => .of_exec rfl, .of_exec rfl, .of_exec rfl, fun _ => .of_exec rfl, .of_exec rfl, .of_exec rfl,
    fun _ => .of_exec rfl, .of_exec rfl, .of_exec rfl, .of_exec rfl, .of_exec rfl⟩

/-- Settles O27: a cluster of Lean parks and wakes on a live die; a function, a domain, a power-on reset and a Cairn
record are those of a present die; the others are of the package. -/
theorem modeAndResetCommandsComplete : Obligations.ModeAndResetCommandsComplete := by
  unfold Obligations.ModeAndResetCommandsComplete
  intro s
  refine ⟨fun d hd hlive => ?onLiveDie, fun d hd => ?onDie, ?onPackage⟩
  case onLiveDie => exact ⟨fun _ => .of_live hd hlive rfl, fun _ => .of_live hd hlive rfl⟩
  case onDie =>
    exact ⟨fun _ => .of_present hd rfl, fun _ => .of_present hd rfl, fun _ => .of_present hd rfl, .of_present hd rfl,
      fun _ => .of_present hd rfl, fun _ _ => .of_present hd rfl⟩
  case onPackage =>
    exact ⟨.of_exec rfl, .of_exec rfl, .of_exec rfl, .of_exec rfl, .of_exec rfl, fun _ => .of_exec rfl, .of_exec rfl,
      fun _ _ => .of_exec rfl, fun _ => .of_exec rfl, .of_exec rfl⟩

/-- Settles O28: the collector of a die has its effect on the die that it names, that of the package on the package. -/
theorem faultCommandsComplete : Obligations.FaultCommandsComplete := by
  unfold Obligations.FaultCommandsComplete
  intro s
  refine ⟨fun d hd => ?onDie, ?onPackage⟩
  case onDie => exact ⟨fun _ => .of_present hd rfl, .of_present hd rfl, fun _ => .of_present hd rfl, .of_present hd rfl⟩
  case onPackage => exact ⟨.of_exec rfl, .of_exec rfl, .of_exec rfl⟩

/-- Settles O29: the end of a phase of a slice has its effect on a live die; a slice that falls due, its conditions and
the TAP are those of a present die in every mode. -/
theorem transitAndJtagCommandsComplete : Obligations.TransitAndJtagCommandsComplete := by
  unfold Obligations.TransitAndJtagCommandsComplete
  intro s
  refine ⟨fun d hd hlive => ?onLiveDie, fun d hd => ?onDie⟩
  case onLiveDie =>
    exact ⟨.of_live hd hlive rfl, fun _ _ => .of_live hd hlive rfl, .of_live hd hlive rfl, .of_live hd hlive rfl,
      .of_live hd hlive rfl, fun _ => .of_live hd hlive rfl, fun _ => .of_live hd hlive rfl, fun _ => .of_live hd hlive rfl⟩
  case onDie =>
    exact ⟨fun _ _ _ _ => .of_present hd rfl, fun _ _ _ => .of_present hd rfl, .of_present hd rfl,
      fun _ => .of_present hd rfl, .of_present hd rfl, .of_present hd rfl, .of_present hd rfl, .of_present hd rfl,
      .of_present hd rfl, .of_present hd rfl, .of_present hd rfl, .of_present hd rfl⟩

/-- Settles O30: each timer, check and switch of an image has its effect on the package. -/
theorem firmwareCommandsComplete : Obligations.FirmwareCommandsComplete := by
  unfold Obligations.FirmwareCommandsComplete
  intro s
  exact ⟨.of_exec rfl, .of_exec rfl, .of_exec rfl, .of_exec rfl, .of_exec rfl, fun _ => .of_exec rfl, .of_exec rfl,
    fun _ _ => .of_exec rfl⟩

/-- Settles O31: rails, reference clocks and sensors have their effect on the die that they name, VIN and TIMECLK on the
package. -/
theorem electricalCommandsComplete : Obligations.ElectricalCommandsComplete := by
  unfold Obligations.ElectricalCommandsComplete
  intro s
  refine ⟨fun d hd => ?onDie, ?onPackage⟩
  case onDie =>
    exact ⟨fun _ _ _ _ => .of_present hd rfl, fun _ _ _ _ => .of_present hd rfl, fun _ _ _ _ => .of_present hd rfl,
      .of_present hd rfl, .of_present hd rfl, .of_present hd rfl, fun _ => .of_present hd rfl,
      fun _ _ => .of_present hd rfl, .of_present hd rfl⟩
  case onPackage => exact ⟨fun _ _ => .of_exec rfl, .of_exec rfl, .of_exec rfl⟩

end Sys2Proof.Machine
end

section
/-! The session, key, mode and domain commands (O34) and the fault, diagnostic, counter and firmware commands (O35) as
writes of their entries. -/

namespace Sys2Proof.Machine

/-- A command that presents a word to an entry which has room for it is the write of that word. -/
theorem WritesEntry.of_word {c : Instr} {r : Requester} {sel : Sel} {i sub len w : Nat} {v : BitVec w} {s : State}
    (hi : i < 65536) (hsub : sub < 256) (hlen : len < 1033) (hw : w ≤ 8 * len)
    (hexec : exec c s = .next (writeBy r sel i sub len v.toNat s)) : WritesEntry c r sel i sub len v.toNat s :=
  .of_writeBy hi hsub hlen (BitVec.toNat_lt_twoPow_of_le hw) hexec

/-- The value of a key slot has the length of its subindex: a key of 32 bytes, or one byte (R494). -/
theorem keySlotValue_lt (sub : Fin 3) (v : BitVec 256) :
    (if sub = 0 then v.toNat else v.toNat % 256) < 2 ^ (8 * if sub = 0 then 32 else 1) := by
  split
  · exact v.isLt
  · exact Nat.mod_lt _ (by decide)

/-- Settles O34: each row presents the write of its entry, a mode request that of 1200.02 with the code of the mode. -/
theorem modeAndSessionWritesWriteTheirEntries : Obligations.ModeAndSessionWritesWriteTheirEntries := by
  unfold Obligations.ModeAndSessionWritesWriteTheirEntries
  intro s
  refine ⟨fun _ _ => ?sessionClose, fun _ _ sub v => ?keySlot, fun _ => ?standby, fun _ => ?bringup, fun _ => ?forwarding,
    fun _ => ?drain, fun _ => ?quiesce, fun _ => ?diagnostic, fun _ => ?factory, fun _ _ _ _ => ?domain, fun _ => ?reset⟩
  case keySlot => exact .of_writeBy (by omega) (by omega) (by split <;> decide) (keySlotValue_lt sub v) rfl
  case domain => exact .of_word (by omega) (by omega) (by decide) le_rfl rfl
  case sessionClose | standby | bringup | forwarding | drain | quiesce | diagnostic | factory | reset =>
    exact .of_writeBy (by omega) (by decide) (by decide) (by decide) rfl

theorem setIndex_lt (k : Fin 20) : setIndex k < 65536 := by
  unfold setIndex
  split <;> omega

/-- Settles O35: each row presents the write of its entry; a command that takes no value writes no byte. -/
theorem maintenanceWritesWriteTheirEntries : Obligations.MaintenanceWritesWriteTheirEntries := by
  unfold Obligations.MaintenanceWritesWriteTheirEntries
  intro s
  refine ⟨fun _ _ => ?logAck, fun _ => ?firstFaultClear, fun _ _ => ?logRead, fun _ _ => ?dieLogRead, fun _ _ => ?dumpNow,
    fun _ _ => ?dumpAck, fun _ _ => ?faultInject, fun _ _ => ?loopback, fun _ _ => ?pattern,
    fun _ _ k _ _ => ?counterValue, fun _ _ k _ => ?sampleRead, fun _ _ k => ?sampleClear, fun _ _ => ?hostOffer,
    fun _ _ => ?hostBlock, fun _ => ?hostEnd, fun _ => ?abort, fun _ => ?activate, fun _ => ?confirm, fun _ => ?revert,
    fun _ => ?settingsAccept, fun _ => ?settingsFallback⟩
  case counterValue => exact .of_word (setIndex_lt k) (by omega) (by decide) le_rfl rfl
  case sampleRead => exact .of_word (setIndex_lt k) (by decide) (by decide) le_rfl rfl
  case sampleClear => exact .of_writeBy (setIndex_lt k) (by decide) (by decide) (by decide) rfl
  case logAck | logRead | dieLogRead | dumpNow | dumpAck | faultInject | loopback | pattern | hostOffer | hostBlock =>
    exact .of_word (by decide) (by decide) (by decide) le_rfl rfl
  case firstFaultClear | hostEnd | abort | activate | confirm | revert | settingsAccept | settingsFallback =>
    exact .of_writeBy (by decide) (by decide) (by decide) (by decide) rfl

end Sys2Proof.Machine
end

section
/-! An access at the endpoint (R480), its checks in their order (R477), the level it needs (R475), and the read of a
read-clear entry (R471, R472). -/

namespace Sys2Proof.Machine

/-! ### One access of a requester at a time (R480) -/

/-- While an access of a requester is outstanding it can present no other. -/
theorem endpoint_of_busy {r : Nat} {s : State} {b : Access} (a : Access) (hbusy : mget? s.busy r = some b) :
    endpoint r a s = s :=
  if_pos (Option.isSome_of_eq_some hbusy)

/-- Settles O36: a write, a read and a describe are accesses presented to the endpoint. -/
theorem busyRequesterWaits : Obligations.BusyRequesterWaits := by
  unfold Obligations.BusyRequesterWaits
  intro r s
  refine ⟨fun a hbusy => ?waits, fun _ _ _ _ _ => .of_exec rfl⟩
  have hwaits : ∀ b, endpoint r b s = s := fun b => endpoint_of_busy b hbusy
  exact ⟨fun _ _ _ _ _ => congrArg _ (hwaits _), fun _ _ _ => congrArg _ (hwaits _), fun _ _ => congrArg _ (hwaits _)⟩

/-! ### Checks 1 to 7 (R477) -/

/-- The enable of a ring 24 to 31 has no row of its own (R457). -/
theorem findEntry_reservedRing {i : Nat} (hlo : 0x4458 ≤ i) (hhi : i < 0x4460) : findEntry i 1 = none := by
  have hrings : ∀ k : Fin 8, findEntry (0x4458 + k) 1 = none := by decide +kernel
  have hi : 0x4458 + (i - 0x4458) = i := by omega
  have hring := hrings ⟨i - 0x4458, by omega⟩
  rwa [hi] at hring

/-- An access to an entry that has a row meets that row. -/
theorem accessRow_of_isSome {a : Access} (hrow : (findEntry a.idx a.sub).isSome = true) :
    accessRow a = findEntry a.idx a.sub := by
  unfold accessRow
  split
  · rename_i hring
    obtain ⟨-, hlo, hhi, hsub, -⟩ := hring
    rw [hsub, findEntry_reservedRing hlo hhi] at hrow
    cases hrow
  · rfl

section
variable {s : State} {r : Nat} {a : Access} {e : EntryRow}

theorem precheck_of_check1 (h1 : check1 s r a ≠ 0) : precheck s r a = check1 s r a := if_pos h1

theorem precheck_noEntry (h1 : check1 s r a = 0) (hrow : accessRow a = none) : precheck s r a = 0x19 := by
  simp [precheck, h1, hrow]

/-- Checks 3 to 7, for an access that passes the first two. -/
theorem precheck_of_row (h1 : check1 s r a = 0) (hrow : accessRow a = some e) :
    precheck s r a = if a.op = .describe then 0
      else if badSelector a then 0x14
      else if noDie s a then 0x15
      else if noAccess s r e a then 0x1A
      else if badAccess e a.op then 0x1B
      else if a.op = .write ∧ a.len ≠ e.size then 0x1C
      else 0 := by
  simp only [precheck, h1, hrow, ne_eq, not_true_eq_false, if_false]

theorem precheck_noAccess (h1 : check1 s r a = 0) (hrow : accessRow a = some e) (hop : a.op ≠ .describe)
    (hsel : badSelector a = false) (hdie : noDie s a = false) (hlevel : noAccess s r e a = true) :
    precheck s r a = 0x1A := by
  simp [precheck_of_row h1 hrow, hop, hsel, hdie, hlevel]
end

/-- Settles O37: the checks stand in their order, and an access that fails one is refused. -/
theorem firstFailingCheckDecides : Obligations.FirstFailingCheckDecides := by
  unfold Obligations.FirstFailingCheckDecides
  intro s r a
  refine ⟨precheck_of_check1, accessRow_of_isSome, precheck_noEntry, fun e h1 hrow => ?row,
    fun hon hfails => accessNow_refused hon hfails rfl⟩
  refine ⟨fun hop => ?describe, fun hop hsel => ?selector, fun hop hsel hdie => ?die,
    fun hop hsel hdie hlevel => precheck_noAccess h1 hrow hop hsel hdie hlevel,
    fun hop hsel hdie hlevel hacc => ?access, fun hsel hdie hlevel hacc hop hlen => ?length⟩
  case describe => simp [precheck_of_row h1 hrow, hop]
  case selector => exact precheck_badSelector h1 hrow hop hsel
  case die => simp [precheck_of_row h1 hrow, hop, hsel, hdie]
  case access => simp [precheck_of_row h1 hrow, hop, hsel, hdie, hlevel, hacc]
  case length =>
    rw [hop] at hacc
    simp [precheck_of_row h1 hrow, hop, hsel, hdie, hlevel, hlen, hacc]

/-! ### Levels (R475) -/

section
variable {s : State} {r : Nat} {e : EntryRow} {a : Access}

/-- A read asks for a level only of a Factory entry. -/
theorem noAccess_read_iff (hop : a.op = .read) : noAccess s r e a = true ↔ e.lvl = 3 ∧ levelOf s r < 3 := by
  simp [noAccess, hop]

/-- What a write asks for: the level of its entry, and of a JDP session that it asks neither for Factory mode (R500) nor
for a host session (log entry 154). -/
theorem noAccess_write_iff (hop : a.op = .write) : noAccess s r e a = true ↔
    levelOf s r < e.lvl ∨
      16 ≤ r ∧ ((a.idx = 0x1200 ∧ a.sub = 2 ∧ a.val = 0xC) ∨ (a.idx = 0x1501 ∧ 5 ≤ a.sub ∧ a.sub ≤ 7)) := by
  simp only [noAccess, hop, Bool.or_eq_true, Bool.and_eq_true, decide_eq_true_eq, beq_iff_eq]
  tauto
end

/-- Settles O60: the levels decide check 5, and an access that fails it is refused. -/
theorem accessLevelsAreHeld : Obligations.AccessLevelsAreHeld := by
  unfold Obligations.AccessLevelsAreHeld
  intro s r e a
  refine ⟨noAccess_read_iff, fun hop hlevel => (noAccess_write_iff hop).2 (Or.inl hlevel),
    fun hop hlevel hother => ?enough, fun hop hon h1 hrow hsel hdie hlevel => ?refused⟩
  case enough =>
    rw [Bool.eq_false_iff, Ne, noAccess_write_iff hop]
    rintro (hbelow | ⟨hjdp, hbarred⟩)
    · omega
    · rcases hother with hbox | ⟨hfactory, hhost⟩
      · omega
      · exact hbarred.elim hfactory hhost
  case refused => exact accessNow_refused hon (by decide) (precheck_noAccess h1 hrow hop hsel hdie hlevel)

/-! ### Read-clear entries (R471, R472) -/

/-- What starts again with a read stands on one die and is no register of it (log entry 142). -/
theorem startAnew_cases (d : Option Nat) (i j : Nat) (s : State) :
    startAnew d i j s = s ∨ ∃ e f, (∀ x : Die, (f x).regs = x.regs) ∧ startAnew d i j s = s.onDie e f := by
  unfold startAnew onPool
  cases d with
  | none =>
    dsimp only
    split
    · refine Or.inr ⟨_, _, ?_, rfl⟩
      intro x; rfl
    · exact Or.inl rfl
  | some d =>
    dsimp only
    split
    · refine Or.inr ⟨_, _, ?_, rfl⟩
      intro x; rfl
    · exact Or.inl rfl

@[simp] theorem startAnew_mode (d : Option Nat) (i j : Nat) (s : State) : (startAnew d i j s).mode = s.mode := by
  rcases startAnew_cases d i j s with h | ⟨e, f, -, h⟩ <;> simp [h]

@[simp] theorem startAnew_pg (d : Option Nat) (i j : Nat) (s : State) (i' j' : Nat) :
    (startAnew d i j s).pg i' j' = s.pg i' j' := by
  rcases startAnew_cases d i j s with h | ⟨e, f, -, h⟩ <;> simp [h]

@[simp] theorem startAnew_dg (d : Option Nat) (i j : Nat) (s : State) (d' i' j' : Nat) :
    (startAnew d i j s).dg d' i' j' = s.dg d' i' j' := by
  rcases startAnew_cases d i j s with h | ⟨e, f, hf, h⟩ <;> rw [h]
  exact s.dg_onDie hf ..

section
variable {i j : Nat} {e : EntryRow}

/-- Reading an entry that is not RC changes nothing. -/
theorem readClear_of_not_rc {t : Option Nat} {s : State} (he : findEntry i j = some e) (hacc : e.acc ≠ .rc) :
    readClear s t i j = (readEntry s t i j, s) := by
  simp [readClear, he, hacc]

/-- Reading an RC entry of a die clears its register there. -/
theorem readClear_die {d : Nat} {s : State} (he : findEntry i j = some e) (hacc : e.acc = .rc) :
    readClear s (some d) i j = (readEntry s (some d) i j, startAnew (some d) i j (s.dset d i j 0)) := by
  simp [readClear, he, hacc]

/-- Reading a package-wide RC entry clears its register. -/
theorem readClear_package {s : State} (he : findEntry i j = some e) (hacc : e.acc = .rc) :
    readClear s none i j = (readEntry s none i j, startAnew none i j (s.pset i j 0)) := by
  simp [readClear, he, hacc]
end

/-- Settles O38: the value is read before the register is cleared, and nothing else that starts again is a register. -/
theorem readClearReturnsAndClears : Obligations.ReadClearReturnsAndClears := by
  unfold Obligations.ReadClearReturnsAndClears
  intro s i j e he
  refine ⟨fun t => ?value, fun hacc d => ?die, fun hacc => ?package⟩
  case value =>
    by_cases hacc : e.acc = .rc
    · cases t with
      | none => simp [readClear_package he hacc, hacc]
      | some d => simp [readClear_die he hacc, hacc]
    · simp [readClear_of_not_rc he hacc]
  case die =>
    rw [readClear_die he hacc]
    refine ⟨by simp, fun d' i' j' hother => ?_, by simp⟩
    rw [startAnew_dg]
    by_cases hd : d' = d
    · subst hd
      exact s.dg_dset_ne 0 (hother.resolve_left (not_not_intro rfl))
    · exact s.dg_dset_die i j 0 i' j' hd
  case package =>
    rw [readClear_package he hacc]
    refine ⟨by simp, fun i' j' hother => ?_, by simp⟩
    rw [startAnew_pg, s.pg_pset_ne 0 hother]

end Sys2Proof.Machine
end

section
/-! The reset state (O10), the end of a session (O57), and the refusals of a mode request (O56). -/

namespace Sys2Proof.Machine

/-- Settles O10: the reset state lists no register, and an unlisted register reads its default, those no table states
the one of log entry 8. -/
theorem resetHoldsDefaults : Obligations.ResetHoldsDefaults :=
  ⟨rfl, rfl, rfl, rfl, rfl, rfl, rfl, rfl, fun _ _ => rfl, fun _ _ _ => rfl⟩

/-! ### Changes in order -/

section
variable {α β : Type}

/-- What each change of a list keeps, all of them keep. -/
theorem State.each_keeps {p : State → β} {f : α → State → State} (hf : ∀ x s, p (f x s) = p s) (l : List α) (s : State) :
    p (s.each l f) = p s :=
  List.foldlRecOn (motive := fun t => p t = p s) l _ rfl fun t ht x _ => (hf x t).trans ht

theorem State.pg_each_pset_ne {i j : α → Nat} (v : Nat) {l : List α} (s : State) {a b : Nat}
    (h : ∀ x ∈ l, key a b ≠ key (i x) (j x)) : (s.each l (fun x s => s.pset (i x) (j x) v)).pg a b = s.pg a b :=
  List.foldlRecOn (motive := fun t : State => t.pg a b = s.pg a b) l _ rfl fun t ht x hx => (t.pg_pset_ne v (h x hx)).trans ht

/-- A value written to distinct entries reads back in each. -/
theorem State.pg_each_pset {i j : α → Nat} (hinj : ∀ x y, key (i x) (j x) = key (i y) (j y) → x = y) (v : Nat) {l : List α}
    {x : α} (hx : x ∈ l) (s : State) : (s.each l (fun x s => s.pset (i x) (j x) v)).pg (i x) (j x) = v := by
  induction l generalizing s with
  | nil => cases hx
  | cons y l ih =>
    by_cases hl : x ∈ l
    · exact ih hl _
    · obtain rfl : x = y := (List.mem_cons.1 hx).resolve_right hl
      have hlast : ∀ y ∈ l, key (i x) (j x) ≠ key (i y) (j y) := fun y hy hkey => hl (hinj _ _ hkey ▸ hy)
      exact (State.pg_each_pset_ne v _ hlast).trans (s.pg_pset ..)
end

/-! ### Sessions (R492) -/

theorem closeSession_of_closed {i : Nat} {s : State} (h : s.pg (0x1130 + i) 1 = 0) : closeSession i s = s := if_pos h

theorem closeSession_of_open {i : Nat} {s : State} (h : s.pg (0x1130 + i) 1 ≠ 0) :
    closeSession i s = ({ s with sessions := mdel s.sessions i } : State).each [1, 2, 3, 4, 5, 7]
      (fun k s => s.pset (0x1130 + i) k 0) :=
  if_neg h

/-- Settles O57: the session leaves the store of sessions, and six of its registers are written with 0. -/
theorem sessionCloseClears : Obligations.SessionCloseClears := by
  unfold Obligations.SessionCloseClears
  intro s i _
  refine ⟨closeSession_of_closed, fun hopen => ?_⟩
  have hsessions : (closeSession i s).sessions = mdel s.sessions i := by
    rw [closeSession_of_open hopen, State.each_keeps (fun k s => s.pset_sessions (0x1130 + i) k 0)]
  have hdies : (closeSession i s).dies = s.dies := by
    rw [closeSession_of_open hopen, State.each_keeps (fun k s => s.pset_dies (0x1130 + i) k 0)]
  refine ⟨?gone, fun j hj => ?cleared, fun a b hother => ?otherRegister, fun k hk => ?otherSession, hdies⟩
  case gone => rw [hsessions, mget?_mdel_same]
  case otherSession => rw [hsessions, mget?_mdel_ne _ hk]
  case cleared =>
    have hinj : ∀ x y, key (0x1130 + i) x = key (0x1130 + i) y → x = y := fun x y h => Nat.add_left_cancel h
    rw [closeSession_of_open hopen]
    exact State.pg_each_pset hinj 0 hj _
  case otherRegister =>
    rw [closeSession_of_open hopen]
    exact State.pg_each_pset_ne 0 _ hother

/-! ### Mode requests (R500) -/

section
variable {s : State} (h : s.mode = .faultHold ∨ s.mode = .locked ∨ s.mode = .isolated)
include h

theorem modeIn_of_held {l : List Mode} (hl : ∀ m ∈ l, m ≠ .faultHold ∧ m ≠ .locked ∧ m ≠ .isolated) :
    s.modeIn l = false := by
  rw [State.modeIn, List.contains_eq_mem, decide_eq_false_iff_not]
  intro hmem
  obtain ⟨hhold, hlocked, hisolated⟩ := hl _ hmem
  exact h.elim hhold (·.elim hlocked hisolated)

/-- Fault-hold, Locked and Isolated stand in no row of Table 17.2 that a request has. -/
theorem requestRow_of_held (v : Nat) : requestRow s v = false := by
  have hdrain : s.mode ≠ .drain := by rcases h with h | h | h <;> simp [h]
  unfold requestRow
  split
  all_goals simp [modeIn_of_held h, hdrain]
end

/-- Settles O56: the value is looked at first, then the row, then a transition that runs. -/
theorem modeRequestRefusals : Obligations.ModeRequestRefusals := by
  unfold Obligations.ModeRequestRefusals
  intro s v
  refine ⟨fun hvalue => ?value, fun hvalue hrow => ?row, fun hvalue hrow hruns => ?busy, fun h => requestRow_of_held h v⟩
  case value => simp only [modeRequest, List.contains_eq_mem, hvalue, decide_false, Bool.not_false, if_true]
  case row => simp [modeRequest, List.contains_eq_mem, hvalue, hrow]
  case busy => simp [modeRequest, List.contains_eq_mem, hvalue, hrow, hruns]

end Sys2Proof.Machine
end

section
/-! What a message to the flash agent and the emptying of the staging slot leave of the mode and the boot flash; with it
RESET_L and PWROK (O54), a package reset in Locked (O55), and the confirmation of an image (O9). -/

namespace Sys2Proof.Machine

/-! ### The mode and the boot flash, which no message moves -/

/-- The mode and the boot flash. -/
def State.modeFlash (s : State) : Mode × Flash := (s.mode, s.flash)

@[simp] theorem State.onDie_modeFlash (s : State) (d : Nat) (f : Die → Die) : (s.onDie d f).modeFlash = s.modeFlash := by
  simp [State.modeFlash]

@[simp] theorem State.dinc_modeFlash (s : State) (d i j n : Nat) : (s.dinc d i j n).modeFlash = s.modeFlash := by
  simp [State.modeFlash]

@[simp] theorem onSaddle_modeFlash (d k : Nat) (f : Saddle → Saddle) (s : State) :
    (onSaddle d k f s).modeFlash = s.modeFlash :=
  s.onDie_modeFlash ..

@[simp] theorem countFlit_modeFlash (d k : Nat) (esc : Bool) (s : State) : (countFlit d k esc s).modeFlash = s.modeFlash := by
  cases esc <;> simp [countFlit]

@[simp] theorem leaveRoom_modeFlash (d k vc : Nat) (s : State) : (leaveRoom d k vc s).modeFlash = s.modeFlash := by
  unfold leaveRoom oweRoom
  split <;> simp

@[simp] theorem pumpN_modeFlash (n d k : Nat) (s : State) : (pumpN n d k s).modeFlash = s.modeFlash := by
  induction n generalizing s with
  | zero => rfl
  | succ n ih =>
    unfold pumpN
    dsimp only
    split
    · rfl
    · split
      · simp [ih]
      · split <;> simp [ih]

@[simp] theorem pump_modeFlash (d k : Nat) (s : State) : (pump d k s).modeFlash = s.modeFlash :=
  (State.each_keeps (fun _ _ => pumpN_modeFlash ..) _ _).trans (pumpN_modeFlash ..)

@[simp] theorem strand_modeFlash (d : Nat) (ids : List (Nat × Option (Nat × Nat))) (s : State) :
    (strand d ids s).modeFlash = s.modeFlash := by
  unfold strand
  split <;> simp

@[simp] theorem launch_modeFlash (d : Nat) (m : Msg) (via : Option (Nat × Nat)) (s : State) :
    (launch d m via s).modeFlash = s.modeFlash := by
  unfold launch launchOn enqueue
  repeat' split
  all_goals simp

@[simp] theorem State.send_modeFlash (s : State) (a b : Nat) (m : MsgBody) : (s.send a b m).modeFlash = s.modeFlash := by
  have hnew : (s.newMsg a b m).2.modeFlash = s.modeFlash := rfl
  unfold State.send
  dsimp only
  split <;> simp [hnew]

@[simp] theorem flashAccess_modeFlash (s : State) : (flashAccess s).modeFlash = s.modeFlash := by
  unfold flashAccess
  split
  · split <;> simp
  · rfl

@[simp] theorem flashAccess_mode (s : State) : (flashAccess s).mode = s.mode := congrArg Prod.fst (flashAccess_modeFlash s)

@[simp] theorem flashAccess_flash (s : State) : (flashAccess s).flash = s.flash := congrArg Prod.snd (flashAccess_modeFlash s)

@[simp] theorem emptyStaging_mode (s : State) : (emptyStaging s).mode = s.mode := by
  unfold emptyStaging
  split <;> simp

/-- The staging slot holds images and their states, and no fuse. -/
theorem emptyStaging_fuses (s : State) : (emptyStaging s).flash.rollback = s.flash.rollback ∧
    (emptyStaging s).flash.revoked = s.flash.revoked ∧ (emptyStaging s).flash.probation = s.flash.probation := by
  unfold emptyStaging
  split <;> simp

/-! ### Resets (R516, R593, R594) -/

/-- RESET_L that is low already is not asserted again. -/
theorem resetLow_of_low {s : State} (hlow : s.resetLow = true) : resetLow s = s := if_pos hlow

theorem resetLow_of_locked {s : State} (hhigh : s.resetLow = false) (hlocked : s.mode = .locked) :
    resetLow s = { s with resetLow := true } := by
  simp [resetLow, hhigh, hlocked]

theorem pwrokLow_of_low {s : State} (hlow : s.resetLow = true) : pwrokLow s = { s with pwrok := false } := if_pos hlow

theorem pwrokLow_of_high {s : State} (hhigh : s.resetLow = false) :
    pwrokLow s = resetPackage { s with pwrok := false } := by
  simp [pwrokLow, hhigh]

/-- Settles O54: the pins are recorded first, and only PWROK with RESET_L high goes on to a reset here. -/
theorem resetPinsInLocked : Obligations.ResetPinsInLocked := by
  unfold Obligations.ResetPinsInLocked
  intro s
  have hassert : exec .resetLAssert s = .next (resetLow s) := rfl
  have hpwrok : exec .pwrokLow s = .next (pwrokLow s) := rfl
  rw [hassert, hpwrok]
  exact ⟨fun hlow => ⟨congrArg _ (resetLow_of_low hlow), congrArg _ (pwrokLow_of_low hlow)⟩,
    fun hhigh hlocked => congrArg _ (resetLow_of_locked hhigh hlocked), fun hhigh => congrArg _ (pwrokLow_of_high hhigh)⟩

@[simp] theorem excludedState_mode (s : State) : (excludedState s).mode = s.mode :=
  State.each_keeps (fun d s => by simp) s.present s

@[simp] theorem excludedState_summit (s : State) : (excludedState s).summit = s.summit :=
  State.each_keeps (fun d s => by simp) s.present s

@[simp] theorem fwReset_mode (s : State) : (fwReset s).mode = s.mode := by
  unfold fwReset
  split <;> simp

theorem resetPackage_mode (s : State) : (resetPackage s).mode = if s.mode = .locked then .locked else .standby := by
  simp [resetPackage]

theorem resetPackage_summit (s : State) : (resetPackage s).summit = none := by
  simp [resetPackage]

/-- Settles O55: only Locked stays over a reset, and the role of the Summit falls vacant. -/
theorem lockedSurvivesPackageReset : Obligations.LockedSurvivesPackageReset := by
  unfold Obligations.LockedSurvivesPackageReset
  intro s
  obtain ⟨hpart, hpending, -, -, -⟩ := (State.fixed_eq _ _).1 (resetPackage_fixed s)
  exact ⟨fun h => by rw [resetPackage_mode, if_pos h], fun h => by rw [resetPackage_mode, if_neg h],
    resetPackage_summit s, hpending, hpart⟩

/-! ### Confirmation (R570, R583) -/

/-- Bit k of a number is the lowest of its upper part: a number whose bit k is set is this sum, with q above and r
below. -/
theorem exists_eq_of_testBit {x k : Nat} (h : x.testBit k = true) : ∃ q r, r < 2 ^ k ∧ x = 2 ^ k * (2 * q + 1) + r := by
  rw [Nat.testBit_eq_decide_div_mod_eq, decide_eq_true_eq] at h
  refine ⟨x / 2 ^ k / 2, x % 2 ^ k, Nat.mod_lt _ (Nat.two_pow_pos k), ?_⟩
  rw [show 2 * (x / 2 ^ k / 2) + 1 = x / 2 ^ k by omega, Nat.div_add_mod]

/-- Clearing a bit leaves the others. -/
theorem testBit_setBit_false (x k i : Nat) : (setBit x k false).testBit i = (x.testBit i && decide (i ≠ k)) := by
  unfold setBit
  by_cases hk : x.testBit k = true
  · obtain ⟨q, r, hr, rfl⟩ := exists_eq_of_testBit hk
    have hsub : 2 ^ k * (2 * q + 1) + r - 2 ^ k = 2 ^ k * (2 * q) + r := by rw [Nat.mul_add_one]; omega
    simp only [hk, Bool.true_eq_false, if_false, Bool.false_eq_true, hsub, Nat.testBit_two_pow_mul_add _ hr]
    by_cases hlow : i < k
    · simp [hlow, hlow.ne]
    · obtain ⟨j, rfl⟩ := Nat.exists_eq_add_of_le (Nat.le_of_not_lt hlow)
      cases j with
      | zero => simp
      | succ j => simp [Nat.testBit_succ, Nat.mul_add_div]
  · rw [Bool.not_eq_true] at hk
    rw [if_pos hk]
    by_cases hi : i = k
    · simp [hi, hk]
    · simp [hi]
theorem bit_confirmMask (revoke own : Nat) (i : Fin 4) :
    (BitVec.ofNat 4 (setBit revoke own false)).getLsbD i = (bit revoke i && decide (i.val ≠ own)) := by
  rw [BitVec.getLsbD_ofNat, testBit_setBit_false, decide_eq_true i.isLt, Bool.true_and, bit]

/-- The boot flash when the image in use is confirmed, before the staging slot is emptied. -/
def confirmedFlash (s : State) : Flash :=
  let h := imageHdr (activeImage s)
  { s.flash with
    rollback := max s.flash.rollback (bits h 127 96)
    revoked := s.flash.revoked ||| BitVec.ofNat 4 (setBit (bits h 255 252) (bits h 251 248) false)
    probation := 3, oldSet := none }

theorem confirm_in_probation {s : State} (hprobation : s.flash.probation = 1) (hagent : (flashAgent s).isSome = true) :
    confirm s = (0, emptyStaging { flashAccess s with flash := confirmedFlash s }) := by
  obtain ⟨a, ha⟩ := Option.isSome_iff_exists.1 hagent
  simp [confirm, confirmedFlash, activeImage, hprobation, ha]

theorem confirm_outside_probation {s : State} (h : s.flash.probation ≠ 1) : confirm s = (0x16, s) := if_pos h

/-- Settles O9: the flash takes the confirmed fuses, which the emptying of the staging slot leaves alone. -/
theorem confirmRaisesTheCounter : Obligations.ConfirmRaisesTheCounter := by
  unfold Obligations.ConfirmRaisesTheCounter
  intro s
  refine ⟨fun hprobation hagent => ?_, confirm_outside_probation⟩
  obtain ⟨hrollback, hrevoked, hstate⟩ := emptyStaging_fuses { flashAccess s with flash := confirmedFlash s }
  rw [confirm_in_probation hprobation hagent]
  refine ⟨rfl, hrollback, fun i => ?_, hstate⟩
  rw [hrevoked, confirmedFlash, BitVec.getLsbD_or, bit_confirmMask]

end Sys2Proof.Machine
end

section
/-! Faults: the FIFO of a block (R520; O42), the watchdog (R522; O53) and the clearing of the first-fault records (R525;
O48). -/

namespace Sys2Proof.Machine

/-! ### The fault FIFO of a block (R520) -/

section
variable {s : State} {d block inst cls kind addr : Nat}

/-- A message for which there is room, or that is Fatal or Terminal, joins the queue of its die. -/
theorem State.report_queued
    (h : 4 ≤ cls ∨ decide (16 ≤ ((s.die d).core.faultQ.filter (fun x => x.block == block)).length) = false) :
    s.report d block inst cls kind addr = s.onDie d (fun x => { x with core.faultQ := x.core.faultQ ++
      [{ cls := cls, die := d, block := block, inst := inst, kind := kind, addr := addr, time := s.time80On d }] }) := by
  refine if_neg ?_
  simp only [Bool.and_eq_true, decide_eq_true_eq, decide_eq_false_iff_not] at h ⊢
  rintro ⟨hbelow, hfull⟩
  exact h.elim (fun hfatal => absurd hbelow (Nat.not_lt.2 hfatal)) (fun hroom => hroom hfull)

/-- Another one that meets a full FIFO is lost and counted. -/
theorem State.report_lost (hbelow : cls < 4)
    (hfull : decide (16 ≤ ((s.die d).core.faultQ.filter (fun x => x.block == block)).length) = true) :
    s.report d block inst cls kind addr = s.pinc 0x1400 0x10 1 :=
  if_pos (by rw [decide_eq_true hbelow, hfull]; rfl)
end

/-- Settles O42: with room, or from Fatal upward, only the queue of the die changes; else only the count. -/
theorem faultMessagesQueueSixteenPerBlock : Obligations.FaultMessagesQueueSixteenPerBlock := by
  unfold Obligations.FaultMessagesQueueSixteenPerBlock
  intro s d block inst cls kind addr
  refine ⟨fun h => ?queued, State.report_lost⟩
  dsimp only
  rw [State.report_queued h]
  exact ⟨rfl, rfl, rfl⟩

/-- Settles O53: a Fatal message joins its queue however full it is. The record's unit and address, which R522 does not
state, are 0 by log entry 15. -/
theorem watchdogIsFatal : Obligations.WatchdogIsFatal := by
  unfold Obligations.WatchdogIsFatal
  intro s d hd
  have hexec : exec (.watchdogExpire d) s = onPresent d (watchdog d) s := rfl
  rw [hexec, onPresent_next hd, watchdog, State.report_queued (Or.inl le_rfl)]

/-! ### First faults (R525) -/

/-- Settles O48: one register of the package is written with 0, and then one for each of the eight dies. -/
theorem firstFaultClearClearsBoth : Obligations.FirstFaultClearClearsBoth := by
  unfold Obligations.FirstFaultClearClearsBoth
  intro s
  have hother {a b : Nat} (h : ∀ d, d < 8 → key a b ≠ key (0x1410 + d) 1) :
      (firstFaultClear s).2.pg a b = (s.pset 0x1400 6 0).pg a b :=
    State.pg_each_pset_ne 0 _ fun d hd => h d (List.mem_range.1 hd)
  refine ⟨(firstFaultClear s).2, rfl, ?package, fun d hd => ?die, fun i j hpackage hdies => ?other, ?dies, ?mode, ?log⟩
  case package => rw [hother (by unfold key; omega), State.pg_pset]
  case die =>
    have hinj : ∀ x y, key (0x1410 + x) 1 = key (0x1410 + y) 1 → x = y := by unfold key; omega
    exact State.pg_each_pset hinj 0 (List.mem_range.2 hd) _
  case other => rw [hother hdies, s.pg_pset_ne 0 hpackage]
  case dies => exact State.each_keeps (fun d s => s.pset_dies (0x1410 + d) 1 0) _ _
  case mode => exact State.each_keeps (fun d s => s.pset_mode (0x1410 + d) 1 0) _ _
  case log => exact State.each_keeps (fun d s => s.pset_pkgLog (0x1410 + d) 1 0) _ _

end Sys2Proof.Machine
end

section
/-! The TAP of a die (R555, R593, R606): what each instruction loads and where it acts (O51). -/

namespace Sys2Proof.Machine

/-- From `s` to `t` no other die, no register of the package and no mode has changed. -/
structure KeepsOtherDies (d : Nat) (s t : State) : Prop where
  others : ∀ e, e ≠ d → t.die e = s.die e
  regs : t.regs = s.regs
  mode : t.mode = s.mode

section
variable {s : State} {d : Nat}

/-! ### The TAP of a die -/

theorem tap_onTap (f : Tap → Tap) : ((onTap d f s).die d).core.tap = f (s.die d).core.tap := by
  rw [onTap, State.die_onDie]

theorem onTap_keeps (f : Tap → Tap) : KeepsOtherDies d s (onTap d f s) :=
  ⟨fun _ he => s.die_onDie_ne _ he, s.onDie_regs .., s.onDie_mode ..⟩

/-- An instruction acts in Factory mode with domain 79 on (R555). -/
theorem tapOpen_iff : tapOpen s d = true ↔ s.mode = .factory ∧ domSt s d 79 = 2 := by
  simp [tapOpen]

/-- A TAP that is not open loads its instruction, and pins, scan chains and debug stay with the part. -/
theorem tapActs_closed (code : BitVec 8) (x : Tap) :
    tapActs code false x = { x with ir := code, pins := 0, scan := false, debug := false } := rfl

theorem tapActs_boundary (code : BitVec 8) (on : Bool) (x : Tap) : (tapActs code on x).boundary = x.boundary := rfl

theorem tapActs_ir (code : BitVec 8) (on : Bool) (x : Tap) : (tapActs code on x).ir = code := rfl

/-- SAMPLE/PRELOAD acts on nothing, whether or not the TAP is open. -/
theorem tapActs_samplePreload (on : Bool) (x : Tap) :
    tapActs 0x02 on x = { x with ir := 0x02, pins := 0, scan := false, debug := false } := by
  cases on <;> rfl

/-! ### The instructions (R593, R606) -/

/-- In power-on reset a TAP loads nothing (log entry 143). -/
theorem tapLoad_of_por (code : BitVec 8) (h : (s.die d).core.por = true) : tapLoad d code s = s := if_pos h

theorem tapLoad_of_running (code : BitVec 8) (h : (s.die d).core.por = false) :
    tapLoad d code s = onTap d (tapActs code (tapOpen s d)) s :=
  if_neg (by simp [h])

theorem samplePreload_of_por (cells : List Bool) (h : (s.die d).core.por = true) : samplePreload d cells s = s := if_pos h

/-- The boundary register of a die, filled with the cells given: as many as the die has, a missing one 0. -/
def boundaryOf (d : Nat) (cells : List Bool) : List Bool :=
  cells.take (tapCells d) ++ List.replicate (tapCells d - cells.length) false

theorem samplePreload_of_running (cells : List Bool) (h : (s.die d).core.por = false) :
    samplePreload d cells s =
      onTap d (fun x => { x with boundary := boundaryOf d cells }) (onTap d (tapActs 0x02 (tapOpen s d)) s) := by
  rw [samplePreload, if_neg (by simp [h]), tapLoad_of_running _ h]
  rfl
end

theorem length_boundaryOf (d : Nat) (cells : List Bool) : (boundaryOf d cells).length = tapCells d := by
  simp only [boundaryOf, List.length_append, List.length_take, List.length_replicate]
  omega

theorem getElem?_boundaryOf {d i : Nat} (cells : List Bool) (hi : i < tapCells d) :
    (boundaryOf d cells)[i]? = some (cells.getD i false) := by
  by_cases hgiven : i < cells.length
  · simp [boundaryOf, List.getElem?_append, hi, hgiven]
  · have hshort : cells.length ≤ tapCells d := by omega
    have hfilled : i - cells.length < tapCells d - cells.length := by omega
    simp [boundaryOf, List.getElem?_append, hgiven, hshort, hfilled]

/-- Settles O51: an instruction is loaded by a TAP that runs, and acts as its row says where the TAP is open. -/
theorem jtagInstructionsLoad : Obligations.JtagInstructionsLoad := by
  unfold Obligations.JtagInstructionsLoad
  intro s d hd
  refine ⟨fun c code pins scan debug hrow => ?acting, fun cells => ?samplePreload⟩
  case acting =>
    obtain ⟨hexec, hacts⟩ : exec c s = .next (tapLoad d code s) ∧
        ∀ x, tapActs code true x = { x with ir := code, pins := pins, scan := scan, debug := debug } := by
      simp only [List.mem_cons, Prod.mk.injEq, List.not_mem_nil, or_false] at hrow
      rcases hrow with ⟨rfl, rfl, rfl, rfl, rfl⟩ | ⟨rfl, rfl, rfl, rfl, rfl⟩ | ⟨rfl, rfl, rfl, rfl, rfl⟩ |
        ⟨rfl, rfl, rfl, rfl, rfl⟩ | ⟨rfl, rfl, rfl, rfl, rfl⟩ | ⟨rfl, rfl, rfl, rfl, rfl⟩ | ⟨rfl, rfl, rfl, rfl, rfl⟩ |
        ⟨rfl, rfl, rfl, rfl, rfl⟩ | ⟨rfl, rfl, rfl, rfl, rfl⟩
      all_goals exact ⟨onPresent_next hd, fun _ => rfl⟩
    rw [hexec]
    refine ⟨fun hpor => congrArg _ (tapLoad_of_por code hpor), fun hruns => ⟨_, rfl, ?_⟩⟩
    rw [tapLoad_of_running code hruns, tap_onTap]
    obtain ⟨hothers, hregs, hmode⟩ := onTap_keeps (s := s) (d := d) (tapActs code (tapOpen s d))
    refine ⟨tapActs_ir .., tapActs_boundary .., fun hfactory hon => ?opened, fun hshut => ?closed, hothers, hregs, hmode⟩
    case opened =>
      rw [tapOpen_iff.2 ⟨hfactory, hon⟩, hacts]
      exact ⟨rfl, rfl, rfl⟩
    case closed =>
      have hclosed : tapOpen s d = false := by rw [Bool.eq_false_iff, Ne, tapOpen_iff]; tauto
      rw [hclosed, tapActs_closed]
      exact ⟨rfl, rfl, rfl⟩
  case samplePreload =>
    have hexec : exec (.jtagSamplePreload d cells) s = .next (samplePreload d cells s) := onPresent_next hd
    rw [hexec]
    refine ⟨fun hpor => congrArg _ (samplePreload_of_por cells hpor), fun hruns => ⟨_, rfl, ?_⟩⟩
    rw [samplePreload_of_running cells hruns, tap_onTap, tap_onTap, tapActs_samplePreload]
    exact ⟨rfl, length_boundaryOf d cells, fun i hi => getElem?_boundaryOf cells hi, rfl, rfl, rfl,
      fun e he => ((onTap_keeps _).others e he).trans ((onTap_keeps _).others e he), rfl, rfl⟩

end Sys2Proof.Machine
end
